-- ==== Sys2Proof/Word.lean ====
section
/-!
DEFINITION. Word and vector types of the TF4812 model and their plainest operations.

Quantities the manual counts (mV, mA, W, ns, slots) are Int or Nat; only what the manual treats as bits
(configuration words, masks, octets, epochs, identities) is a bit vector.
-/
namespace Sys2Proof
set_option Elab.async false

/-- One octet of a message, frame or record. -/
abbrev Byte := BitVec 8

/-- A 16-bit field: cause words, epochs, sessions, uplink codes. -/
abbrev Half := BitVec 16

/-- A 32-bit configuration word. -/
abbrev Word := BitVec 32

/-- A 64-bit field: port lists, identities. -/
abbrev Dword := BitVec 64

/-- Every unit of a fixed number of like units, changed by a function of its number. -/
def mapIdx {α β : Type} {n : Nat} (v : Vector α n) (f : Fin n → α → β) : Vector β n :=
  Vector.ofFn (fun i => f i (v.get i))

/-- A natural number as a unit number of `n` units, if it is one. -/
def unit? (n k : Nat) : Option (Fin n) :=
  if h : k < n then some ⟨k, h⟩ else none

/-- The unit of number `i`, or `d` where there is none of that number. -/
def vget {α : Type} {n : Nat} (v : Vector α n) (i : Nat) (d : α) : α := v[i]?.getD d

/-- The vector with unit `i` changed; unchanged where there is no unit of that number. -/
def vmod {α : Type} {n : Nat} (v : Vector α n) (i : Nat) (f : α → α) : Vector α n :=
  if h : i < n then v.set i (f v[i]) h else v

/-- The bits `hi` down to `lo` of a word, as a number. -/
def bitsOf {w : Nat} (x : BitVec w) (hi lo : Nat) : Nat := (x.toNat >>> lo) % 2 ^ (hi - lo + 1)

/-- The bit `k` of a bit vector, `false` beyond its width. -/
def bitAt {w : Nat} (x : BitVec w) (k : Nat) : Bool := x.getLsbD k

/-- The numbers of the bits of `x` that are set, ascending. -/
def setBits {w : Nat} (x : BitVec w) : List Nat :=
  (List.range w).filter (fun k => x.getLsbD k)

end Sys2Proof
end

