-- ==== Sys2Proof/Machine/Desk.lean ====
section
/-!
DEFINITION. What the seats, the transports, shelf time and the commits hold while they run (chapters 1, 12 and 15).
-/
namespace Sys2Proof.Machine
set_option Elab.async false

/-! ### Hosts, responses and notifications -/

/-- A host address with its transport (R329, R320): transport code 1 UDP over 10BASE-T1S, 2 CAN FD, 3 PMBus target
port; physical port 0 or 1; IPv6 source address over UDP, 0 otherwise. -/
structure HostId where
  code : Nat := 0
  port : Nat := 0
  addr : Nat := 0
  deriving DecidableEq, Repr

/-- A response on its way to a host (Table 12-5): where it goes, its header and its body. -/
structure Reply where
  host    : HostId
  /-- UDP port of the request, or MSGNO of its CAN FD frames. -/
  mark    : Nat
  op      : Nat
  seat    : Nat
  status  : Nat
  reason  : Nat
  session : Half
  tag     : Nat
  body    : List Byte
  deriving DecidableEq, Repr

/-- One queued notification (Table 12-6, NOTIFY); flags bit 1 ENDED. -/
structure Notice where
  num   : Nat
  ended : Bool
  nseq  : Nat
  time  : Nat
  index : Nat
  sub   : Nat
  type  : Nat
  data  : List Byte
  /-- Always-on stamp at which it was queued. -/
  stamp : Nat
  deriving DecidableEq, Repr

/-- One subscription of a seat (R347). -/
structure Subscription where
  num      : Nat
  index    : Nat
  sub      : Nat
  periodic : Bool
  /-- Interval in µs. -/
  interval : Nat
  /-- Always-on stamp of the last notification, and its value. -/
  sentAt   : Nat
  last     : List Byte
  deriving DecidableEq, Repr

/-- Seat states (Table 12-2, 0x1100+s.02). -/
inductive SeatPhase where
  | free | opened | orphaned
  deriving DecidableEq, Repr

/-- The code of a seat state. -/
def SeatPhase.code : SeatPhase → Nat
  | .free => 0 | .opened => 1 | .orphaned => 2

/-- One seat (R328 to R348). -/
structure SeatRun where
  phase   : SeatPhase := .free
  /-- 0 facility, 1 workload, 2 service. -/
  cls     : Nat := 0
  host    : HostId := {}
  session : Half := 0
  /-- Lease granted in units of 100 ms, and the always-on stamp at which its timer was last 0. -/
  lease   : Nat := 0
  leaseAt : Nat := 0
  openedAt : Nat := 0
  processed : Nat := 0
  lastClose : Nat := 0
  subs    : List Subscription := []
  /-- Stewarded sub-entries. -/
  stews   : List (Nat × Nat) := []
  /-- Queued notifications, oldest first. -/
  notices : List Notice := []
  nseq    : Nat := 0
  overrun : Bool := false
  /-- Opened in bench mode (R356). -/
  inBench : Bool := false
  /-- Kept responses of the last 16 requests, newest first (R340). -/
  replay  : List Reply := []
  /-- Host and UDP port of the seat's latest request (Table 12-9). -/
  latest  : HostId × Nat := ({}, 0)
  /-- Message number of the next notification on CAN FD (R352). -/
  canMark : Nat := 0
  /-- Commit status of the seat (Table 01-5, R31). -/
  ticket  : Nat := 0
  result  : Nat := 0
  reason  : Nat := 0
  failed  : Nat := 0
  deriving DecidableEq, Repr

/-! ### Transports (Table 12-13, R353, R355, chapter 15) -/

/-- One 10BASE-T1S port. -/
structure T1sRun where
  received  : Nat := 0
  discarded : Nat := 0
  /-- Replies to a multicast IDENTIFY that wait for their random delay (R351). -/
  delayed   : List Reply := []
  deriving DecidableEq, Repr

/-- A partial message of one FUNC, SEAT and MSGNO on CAN FD (R353). -/
structure CanPartial where
  seat   : Nat
  mark   : Nat
  segs   : Nat
  octets : List Byte
  /-- Always-on stamp of its last segment. -/
  at'    : Nat
  deriving DecidableEq, Repr

/-- One CAN FD controller. -/
structure CanRun where
  /-- Error state as ISO 11898-1 has it: 0 active, 1 passive, 2 bus-off (R354). -/
  errorState : Nat := 0
  received   : Nat := 0
  discarded  : Nat := 0
  busOffs    : Nat := 0
  partials   : List CanPartial := []
  deriving DecidableEq, Repr

/-- A response in the queue of a target port: the always-on stamp at which it was queued, and the write (index,
sub-index, value) that takes effect once it has been sent (R355, R363). -/
structure Queued where
  at'    : Nat
  reply  : Reply
  effect : Option (Nat × Nat × Int) := none
  deriving DecidableEq, Repr

/-- It counts as an outstanding request: all but the refusals of further requests do (R339). -/
def Queued.counts (q : Queued) : Bool := q.reply.status != 0x0D

/-- One PMBus target port (R429 to R438). -/
structure TargetRun where
  page      : Nat := 0
  /-- STATUS_CML. -/
  cml       : Byte := 0
  discarded : Nat := 0
  /-- Queued responses, oldest first: at most 8, and the refusals with status 0x0D of further requests (R339, R355). -/
  responses : List Queued := []
  /-- Always-on stamp of the last Host Notify or OAP_READ since the queue became non-empty (R437). -/
  notified  : Option Nat := none
  /-- A Host Notify has lost arbitration and is sent again after the next STOP (R438). -/
  retry     : Bool := false
  deriving DecidableEq, Repr

/-! ### Shelf time and PTP (R362 to R364) -/

/-- PTP states (0x1300.03). -/
inductive PtpPhase where
  | disabled | listening | uncalibrated | locked | holdover
  deriving DecidableEq, Repr

/-- The code of a PTP state. -/
def PtpPhase.code : PtpPhase → Nat
  | .disabled => 0 | .listening => 1 | .uncalibrated => 2 | .locked => 3 | .holdover => 4

/-- Run state of the ordinary clock. -/
structure PtpRun where
  phase  : PtpPhase := .disabled
  offset : Int := 0
  delay  : Nat := 0
  steps  : Nat := 0
  /-- Identity of the time transmitter, and the dataset that its Announce carried. -/
  source : Nat := 0
  rank   : List Nat := []
  /-- Receive time of a two-step Sync that waits for its Follow_Up: sequence number and time. -/
  sync   : Option (Nat × Int) := none
  /-- t2 − t1 of the last Sync. -/
  toSlave : Int := 0
  /-- Since when the offset has been above 1 ms, always-on scale. -/
  farFrom : Option Nat := none
  /-- Always-on stamp of the last Announce of the time transmitter, and the interval in µs that it gave. -/
  announcedAt : Nat := 0
  interval    : Nat := 0
  /-- Other clocks that have sent an Announce, each with the always-on stamp of its last one. -/
  foreign : List (Nat × Nat) := []
  /-- Sequence number of the Delay_Req that waits for its Delay_Resp, and of the next one. -/
  request : Option Nat := none
  nextReq : Nat := 0
  deriving DecidableEq, Repr

/-! ### Commits (R24 to R35) -/

/-- A commit list that has been received, as its octets (R24, R30). -/
structure CommitList where
  seat   : Nat
  ticket : Nat
  octets : List Byte
  deriving DecidableEq, Repr

/-- The armed commit: its list, the listed and implied blocks by R24 identifier, its swap instant as a value of G, and the slots
between the common boundaries of its blocks. -/
structure ArmedCommit where
  list   : CommitList
  blocks : List Nat
  swapAt : Nat
  period : Nat
  deriving DecidableEq, Repr

/-- A write that waits: a bank field held under R29, an immediate field on its way to the active bank (R23), or a
setting that waits for its mark or tap (R89, R141). `at'` is G at its acceptance, or the leader's tap count. -/
structure Waiting where
  index : Nat
  sub   : Nat
  /-- The value; a signal list is its 32 selectors. -/
  value : Int
  list  : List Nat := []
  at'   : Nat
  /-- Origin octets of a held write, the shelf time of its acceptance and the episode open then, for its change record
  (R314, R320). -/
  origin : List Byte := []
  time  : Nat := 0
  episode : Nat := 0
  deriving DecidableEq, Repr

/-- Queue and armed commit, with held, immediate, mark and tap writes in order of arrival. -/
structure CommitRun where
  queue : List CommitList := []
  armed : Option ArmedCommit := none
  held  : List Waiting := []
  imm   : List Waiting := []
  marks : List Waiting := []
  taps  : List Waiting := []
  deriving DecidableEq, Repr

/-! ### What the part sends -/

/-- One thing the part puts on a host transport within a step. -/
inductive Sent where
  /-- An OAP response. -/
  | reply (r : Reply)
  /-- An OAP notification of a seat, with its flags (bit 0 OVERRUN, bit 1 ENDED) and its CAN FD message number. -/
  | notice (seat : Nat) (host : HostId) (mark flags : Nat) (n : Notice)
  /-- One CAN FD frame of the message before it: controller, identifier (Table 12-10) and data (R353). -/
  | can (ctrl : Nat) (ident : BitVec 29) (data : List Byte)
  /-- A PTP Delay_Req of the ordinary clock: T1S port and sequence number (R364). -/
  | delayReq (port seq : Nat)
  /-- START of a sensor transaction of a controller port: the octets written, then after a repeated START the address
  octet of the read and the number of octets read (R421, R426). -/
  | twStart (port : Nat) (written : List Byte) (read : Byte) (count : Nat)
  /-- STOP of a controller port, after the SCL clocks of a recovery (R421, R422). -/
  | twStop (port clocks : Nat)
  /-- The nine SCL clocks of a recovery that frees no SDA (R422). -/
  | twClocks (port clocks : Nat)
  /-- Octets that a target port returns to a two-wire read, with their PEC where the host asked for it. -/
  | target (port : Nat) (octets : List Byte)
  /-- A two-wire command that the target port does not acknowledge. -/
  | nack (port : Nat)
  /-- An SMBus Host Notify of a target port: its octets (R437). -/
  | hostNotify (port : Nat) (octets : List Byte)
  deriving DecidableEq, Repr

end Sys2Proof.Machine
end

