-- ==== Sys2Proof/Machine/Inputs.lean ====
section
/-!
DEFINITION. The operands of commands that are more than numbers: samples and pins as the part sees them, frames as
they arrive, headers of requests.
-/
namespace Sys2Proof.Machine
set_option Elab.async false

/-- What happens to the iron unit in one sample from outside the manual's arithmetic (R129). -/
structure IronFaults where
  residues : List Nat := []
  /-- Uncorrectable words: iron and tap. -/
  taps     : List (Nat × Nat) := []
  deriving DecidableEq, Repr

/-- What a sample brings from outside the state: string counts in native units over the sample period, and
the errors that the checks of the engine find in it. -/
structure SampleIn where
  natives  : Vector Int 8 := Vector.replicate 8 0
  /-- Channels whose evaluation shows a residue mismatch; `true` an uncorrectable SRAM word (R69, R74). -/
  residues : List (Nat × Bool) := []
  /-- A residue mismatch in the selector unit (R73). -/
  selector : Bool := false
  /-- Single-bit SRAM errors corrected (R74). -/
  fixedWords : Nat := 0
  irons    : IronFaults := {}
  deriving DecidableEq, Repr

/-- An uplink frame as it arrives: octets 0 to 23 (octet 0 stands for the K28.5), the arrival of its K28.5 and of its
last code-group in ps after the sample instant, whether a code error or an early K28.5 fell within it, and the code errors
between its K28.5 and the one before it (R146). -/
structure UplinkIn where
  octets    : List Byte
  arrival   : Int
  last      : Int
  codeError : Bool := false
  errors    : Nat := 0
  deriving DecidableEq, Repr

/-- What the pins of a feed show at a tick: V_bus and V_out in mV, the shunt voltage in nV, the seating pins. -/
structure FeedIn where
  vbus  : Int
  vout  : Int
  shunt : Int
  seatL : Bool
  seatS : Bool
  deriving DecidableEq, Repr

/-- What the counter and the voltage input of a string show at a tick: native units and BSV in mV. -/
structure StringIn where
  native : Int := 0
  bsv    : Int := 0
  deriving DecidableEq, Repr

/-- What the TF4812's own monitors show at a model step: supply power in µW, hottest die sensor in 0.01 °C (R289). -/
structure ChipIn where
  power : Int := 0
  die   : Int := 0
  deriving DecidableEq, Repr

/-- How a sensor transaction ends: two data octets and the PEC octet where one was read, no acknowledge, or a bus
error other than a PEC failure (R424 to R427). -/
inductive TwResult where
  | data (b0 b1 : Byte) (pec : Byte)
  | noAck
  | busError
  deriving DecidableEq, Repr

/-! ### Host requests -/

/-- The header of an OAP request as its transport hands it over (Table 12-5). -/
structure Hdr where
  host    : HostId
  /-- UDP port of the request, or MSGNO of its CAN FD frames. -/
  mark    : Nat := 0
  /-- The datagram was sent to the all-nodes address ff02::1 (R351). -/
  toAll   : Bool := false
  /-- Eight requests of the seat are received and not answered yet (R339). -/
  busy    : Bool := false
  seat    : Nat
  session : Half
  tag     : Nat
  deriving DecidableEq, Repr

/-- The EXPECT part of a WRITE: port and expected role epoch (R346). -/
abbrev Expect := Option (Nat × Half)

/-- Who raises a request: a host by a WRITE of the command object, or a block of the part. -/
inductive Source where
  | host (h : Hdr) (expect : Expect)
  | block
  deriving DecidableEq, Repr

/-- A UDP datagram as it arrives at a T1S port (R350, R351). -/
structure Datagram where
  port     : Nat
  source   : Nat
  srcPort  : Nat
  dstPort  : Nat
  toAll    : Bool := false
  fragment : Bool := false
  busy     : Bool := false
  octets   : List Byte
  deriving DecidableEq, Repr

/-- A CAN frame as it arrives at a controller: the error state that ISO 11898-1 gives the controller with it (0 active,
1 passive, 2 bus-off, R354), identifier of 29 bits, FD frame or classical, octets (R352). -/
structure CanFrame where
  ctrl    : Nat
  errors  : Nat := 0
  ident   : BitVec 29
  fd      : Bool := true
  busy    : Bool := false
  octets  : List Byte
  deriving DecidableEq, Repr

/-- A Host Notify message under way: its target port, and that it loses arbitration (R437, R438). -/
structure NotifyIn where
  port : Nat
  lost : Bool := false
  deriving DecidableEq, Repr

/-- The ports that send idle pairs in a sample, each with the code errors since its last K28.5 (R146, Table 05-13), and the
port without a group whose deadline passes, if it is one. -/
structure DeadlineIn where
  lone  : Option Nat := none
  idles : List (Nat × Nat) := []
  deriving DecidableEq, Repr

/-- The hold of a reset as it is looked at: RESET_N has been high for 1 µs (R445), and the feeds whose comparator has tripped
since the reset began (R259). -/
structure HoldIn where
  tripped  : BitVec 16
  released : Bool := true
  deriving DecidableEq, Repr

/-- A block read from a target port, whose last octet the host acknowledges or not (R434). -/
structure ReadIn where
  port : Nat
  ack  : Bool
  deriving DecidableEq, Repr

/-- A block write to a target port: command octet (OAP_WRITE, or a code that has no row of its own), block count, and the
octets that came before the STOP (R355, R429). -/
structure BlockIn where
  code   : Byte := 0xD0
  count  : Byte
  octets : List Byte
  deriving DecidableEq, Repr

/-- A PAGE transaction: a read whose last octet the host acknowledges or not, or a write of the octets that came before
the STOP, with the PEC where one came (R429, R434). -/
inductive PageIn where
  | read (ack : Bool)
  | write (octets : List Byte) (pec : Option Byte)
  deriving DecidableEq, Repr

/-- Content of a PTP message with its timestamps in ns (R364, IEEE 1588-2019): an Announce with its dataset and its
interval in µs; `t3` of a Delay_Resp is the departure of the Delay_Req whose sequence number it carries. -/
inductive PtpBody where
  | announce (source : Nat) (rank : List Nat) (interval : Nat)
  | sync (source seq : Nat) (twoStep : Bool) (t1 t2 : Int)
  | followUp (source seq : Nat) (t1 : Int)
  | delayResp (source seq : Nat) (t3 t4 : Int)
  | other
  deriving DecidableEq, Repr

/-- A PTP message as it arrives: T1S port, transport (0 IEEE 802.3, 1 UDP over IPv6), domain, content. -/
structure PtpIn where
  port      : Nat
  transport : Nat
  domain    : Nat
  body      : PtpBody
  deriving DecidableEq, Repr

end Sys2Proof.Machine
end

