-- ==== Sys2Proof/Syntax.lean ====
section
/-!
DEFINITION. The commands that the TF4812 takes: one constructor for each row of the table of operations and events,
with the rule that governs the row. A number names a unit of the kind the row speaks of.
-/
namespace Sys2Proof
set_option Elab.async false
open Machine

/-- One command. -/
inductive Instr where
  /-- IDENTIFY, R336. -/
  | identify (h : Hdr)
  /-- OPEN, R330. -/
  | openSeat (h : Hdr) (cls : Nat) (lease : Nat)
  /-- CLOSE, R331. -/
  | closeSeat (h : Hdr)
  /-- KEEPALIVE, R336. -/
  | keepalive (h : Hdr)
  /-- READ, R341. -/
  | read (h : Hdr) (index : Nat) (sub : Nat) (active : Bool) (offset : Nat) (maxLen : Nat)
  /-- WRITE, R342. -/
  | write (h : Hdr) (index : Nat) (sub : Nat) (expect : Expect) (offset : Nat) (value : List Byte)
  /-- READ_MULTI, R370. -/
  | readMulti (h : Hdr) (entries : List (Nat × Nat × Bool))
  /-- STEWARD_ACQUIRE, R344. -/
  | stewardAcquire (h : Hdr) (index : Nat) (sub : Nat)
  /-- STEWARD_RELEASE, R344. -/
  | stewardRelease (h : Hdr) (index : Nat) (sub : Nat)
  /-- STEWARD_QUERY, R344. -/
  | stewardQuery (h : Hdr) (index : Nat) (sub : Nat)
  /-- STEWARD_TAKE_OVER, R344. -/
  | stewardTakeOver (h : Hdr) (index : Nat) (sub : Nat)
  /-- SUBSCRIBE, R347. -/
  | subscribe (h : Hdr) (index : Nat) (sub : Nat) (periodic : Bool) (interval : Nat)
  /-- UNSUBSCRIBE, R336. -/
  | unsubscribe (h : Hdr) (num : Nat)
  /-- NOTIFY_PERIODIC, R347. -/
  | notifyPeriodic (seat : Nat) (num : Nat) (drain : Nat)
  /-- NOTIFY_ON_CHANGE, R347. -/
  | notifyOnChange (seat : Nat) (num : Nat) (drain : Nat)
  /-- UDP_DATAGRAM, R351. -/
  | udpDatagram (x : Datagram)
  /-- CAN_SEGMENT, R353. -/
  | canSegment (x : CanFrame)
  /-- CAN_SEGMENT_TIMEOUT, R353. -/
  | canSegmentTimeout (c : Nat) (seat : Nat) (mark : Nat)
  /-- CAN_BUS_OFF_RECOVERY, R354. -/
  | canBusOffRecovery (c : Nat)
  /-- PTP_MESSAGE, R364. -/
  | ptpMessage (x : PtpIn)
  /-- PTP_ANNOUNCE_TIMEOUT, R364. -/
  | ptpAnnounceTimeout
  /-- PTP_OFFSET_STEP, R364. -/
  | ptpOffsetStep
  /-- SEAT_LEASE_EXPIRE, R330. -/
  | seatLeaseExpire (seat : Nat)
  /-- ORPHAN_LEASE_EXPIRE, R330. -/
  | orphanLeaseExpire (seat : Nat)
  /-- SEAT_FORCE_CLOSE, R330. -/
  | seatForceClose (h : Hdr) (seat : Nat)
  /-- RIGHTS_WORD_WRITE, R334. -/
  | rightsWordWrite (h : Hdr) (area : Nat) (value : Byte)
  /-- COMBINED_SUBENTRY_WRITE, R345. -/
  | combinedSubentryWrite (h : Hdr) (index : Nat) (sub : Nat) (value : Int)
  /-- TRANSPORT_CONFIG_WRITE, R363. -/
  | transportConfigWrite (h : Hdr) (index : Nat) (sub : Nat) (expect : Expect) (value : Nat)
  /-- PTP_CONFIG_WRITE, R363. -/
  | ptpConfigWrite (h : Hdr) (expect : Expect) (value : Word)
  /-- MARK_WRITE_TAKES_EFFECT, R89. -/
  | markWriteTakesEffect
  /-- TAP_WRITE_TAKES_EFFECT, R141. -/
  | tapWriteTakesEffect
  /-- IMMEDIATE_WRITE_APPLY, R23. -/
  | immediateWriteApply
  /-- CHANGE_HOLDOFF_EXPIRE, R321. -/
  | changeHoldoffExpire
  /-- COMMIT_LIST, R24. -/
  | commitList (h : Hdr) (expect : Expect) (octets : List Byte)
  /-- COMMIT_PROCESS, R25. -/
  | commitProcess
  /-- COMMIT_SWAP, R25. -/
  | commitSwap
  /-- SAFE_SET_CAPTURE, R40. -/
  | safeSetCapture (h : Hdr) (expect : Expect) (value : Nat)
  /-- SAFE_SET_CAPTURE_DONE, R40. -/
  | safeSetCaptureDone
  /-- GROUP_START, R62. -/
  | groupStart (o : Source) (g : Nat)
  /-- GROUP_STOP, R62. -/
  | groupStop (o : Source) (g : Nat)
  /-- GROUP_CLEAR, R62. -/
  | groupClear (o : Source) (g : Nat)
  /-- GROUP_SAMPLE, R45. -/
  | groupSample (g : Nat) (x : SampleIn)
  /-- SOFT_START_TIMEOUT, R62. -/
  | softStartTimeout (g : Nat)
  /-- GROUP_RETRY_TIMER, R62. -/
  | groupRetryTimer (g : Nat)
  /-- SPARE_LANE_TEST, R72. -/
  | spareLaneTest (pass : Bool)
  /-- SHARE_TRIM_AT_LIMIT, R187. -/
  | shareTrimAtLimit (p : Nat)
  /-- DERATE_RELEASE, R296. -/
  | derateRelease (g : Nat)
  /-- LOCK_RESUME, R104. -/
  | lockResume (g : Nat)
  /-- LOCK_AT_LIMIT, R105. -/
  | lockAtLimit (p : Nat) (k : Nat)
  /-- IRON_PERIOD_ESTIMATE, R131. -/
  | ironPeriodEstimate (k : Nat) (candidate : Nat) (peak : Nat)
  /-- IRON_CLEAR_MEMORY, R133. -/
  | ironClearMemory (o : Source) (k : Nat)
  /-- IRON_RELEASE, R133. -/
  | ironRelease (o : Source) (k : Nat)
  /-- INPUT_LOSS_CLEAR, R193. -/
  | inputLossClear
  /-- SUPPORT_MODE_EXIT, R225. -/
  | supportModeExit (g : Nat)
  /-- UPLINK_FRAME, R153. -/
  | uplinkFrame (p : Nat) (x : UplinkIn)
  /-- ARRIVAL_DEADLINE, R178. -/
  | arrivalDeadline (g : Nat) (x : DeadlineIn)
  /-- DOWNLINK_SLOT, R157. -/
  | downlinkSlot (n : Nat)
  /-- UPLINK_SYMBOL_LOCK, R177. -/
  | uplinkSymbolLock (p : Nat)
  /-- ASSIGN_TIMEOUT, R177. -/
  | assignTimeout (p : Nat)
  /-- CONFIGURING_FAIL, R177. -/
  | configuringFail (p : Nat)
  /-- LOST_RETRAIN, R177. -/
  | lostRetrain (p : Nat)
  /-- SENSE_CONVERSION, R108. -/
  | senseConversion (n : Nat) (code : Int)
  /-- EXCURSION_EPISODE_CLOSE, R199. -/
  | excursionEpisodeClose
  /-- EXCURSION_CLEAR, R199. -/
  | excursionClear (h : Hdr) (expect : Expect)
  /-- PRESS_DETECTOR_TRIP, R111. -/
  | pressDetectorTrip (n : Nat)
  /-- DETECTOR_REARM, R111. -/
  | detectorRearm (n : Nat)
  /-- PRESS_BURST_CLOSE, R117. -/
  | pressBurstClose (k : Nat)
  /-- SYNCIN_EDGE, R85. -/
  | syncinEdge (falling : Bool) (ps : Nat)
  /-- SYNCIN_LOST, R84. -/
  | syncinLost
  /-- SYNC_HOLD_EXPIRE, R86. -/
  | syncHoldExpire
  /-- TIMEBASE_GLIDE_DONE, R86. -/
  | timebaseGlideDone
  /-- HANG_TIME_PUBLISH, R201. -/
  | hangTimePublish
  /-- SHED_SEQUENCER_TICK, R204. -/
  | shedSequencerTick
  /-- SHED_DWELL_EXPIRE, R204. -/
  | shedDwellExpire
  /-- SHED_WARN_EXPIRE, R205. -/
  | shedWarnExpire
  /-- SHED_GAP_EXPIRE, R204. -/
  | shedGapExpire
  /-- RESTORE_GAP_EXPIRE, R206. -/
  | restoreGapExpire
  /-- CAP_TICK, R208. -/
  | capTick
  /-- ZONE_GRANT, R212. -/
  | zoneGrant
  /-- THR_HOLD_EXPIRE, R213. -/
  | thrHoldExpire (z : Nat)
  /-- FEED_START, R246. -/
  | feedStart (o : Source) (z : Nat)
  /-- FEED_STOP, R246. -/
  | feedStop (o : Source) (z : Nat)
  /-- FEED_CLEAR, R246. -/
  | feedClear (o : Source) (z : Nat)
  /-- FEED_CLEAR_CAPTURES, R261. -/
  | feedClearCaptures (o : Source) (z : Nat)
  /-- FEED_TICK, R246. -/
  | feedTick (x : Vector FeedIn 16)
  /-- OVERCURRENT_TRIP, R251. -/
  | overcurrentTrip (z : Nat)
  /-- SEAT_DEBOUNCE_DONE, R246. -/
  | seatDebounceDone (z : Nat)
  /-- PRE_CHARGE_TIMEOUT, R246. -/
  | preChargeTimeout (z : Nat)
  /-- OVERLAP_END, R250. -/
  | overlapEnd (z : Nat)
  /-- MAIN_GATE_FAULT, R253. -/
  | mainGateFault (z : Nat)
  /-- FEED_RETRY_TIMER, R246. -/
  | feedRetryTimer (z : Nat)
  /-- FEED_ON_TIMER, R246. -/
  | feedOnTimer (z : Nat)
  /-- SEATING_FAULT, R248. -/
  | seatingFault (z : Nat)
  /-- STRING_TICK, R221. -/
  | stringTick (x : Vector StringIn 8)
  /-- TERMINATION, R222. -/
  | termination (k : Nat)
  /-- RECHARGE_TIMER, R222. -/
  | rechargeTimer (k : Nat)
  /-- EMPTY_ANCHOR, R228. -/
  | emptyAnchor (k : Nat)
  /-- COUNT_CHECKPOINT, R231. -/
  | countCheckpoint
  /-- STRING_CLEAR_FLAGS, R240. -/
  | stringClearFlags (o : Source) (k : Nat)
  /-- STRING_RESTORE_C_NOM, R240. -/
  | stringRestoreCNom (o : Source) (k : Nat)
  /-- MODEL_STEP, R283. -/
  | modelStep (x : ChipIn)
  /-- MODEL_INPUTS_INVALID, R294. -/
  | modelInputsInvalid (m : Nat)
  /-- INLET_UNAVAILABLE, R288. -/
  | inletUnavailable (m : Nat)
  /-- ORDER_UP, R276. -/
  | orderUp (o : Source) (k : Nat)
  /-- ORDER_DOWN, R276. -/
  | orderDown (o : Source) (k : Nat)
  /-- ORDER_CLEAR, R282. -/
  | orderClear (o : Source) (k : Nat)
  /-- SEQUENCER_TICK, R269. -/
  | sequencerTick (pgin : Word)
  /-- RAIL_DELAY_EXPIRE, R270. -/
  | railDelayExpire (r : Nat)
  /-- RAIL_GOOD, R270. -/
  | railGood (r : Nat)
  /-- RAIL_PG_TIMEOUT, R272. -/
  | railPgTimeout (r : Nat)
  /-- RUNNING_RAIL_FAULT, R273. -/
  | runningRailFault (r : Nat)
  /-- RESET_STRETCH_END, R271. -/
  | resetStretchEnd (r : Nat)
  /-- RAIL_DISCHARGED, R270. -/
  | railDischarged (r : Nat)
  /-- RAIL_DISCHARGE_TIMEOUT, R270. -/
  | railDischargeTimeout (r : Nat)
  /-- LINT_OCCURRENCE, R302. -/
  | lintOccurrence (extra : Option (Nat × Nat))
  /-- EPISODE_QUIET_CLOSE, R310. -/
  | episodeQuietClose
  /-- EPISODE_MAX_CLOSE, R310. -/
  | episodeMaxClose
  /-- SNAPSHOT_WRITE, R319. -/
  | snapshotWrite (closing : Bool)
  /-- LINT_CLEAR, R303. -/
  | lintClear (h : Hdr) (w : Nat) (mask : Word)
  /-- SAFE_STATE_END, R308. -/
  | safeStateEnd (h : Hdr) (expect : Expect)
  /-- RECORD_WINDOW_READ, R326. -/
  | recordWindowRead (h : Hdr) (offset : Nat) (maxLen : Nat)
  /-- CAPTURE_ARM, R323. -/
  | captureArm (h : Hdr) (expect : Expect) (c : Nat)
  /-- CAPTURE_TRIGGER, R323. -/
  | captureTrigger (o : Source) (c : Nat)
  /-- CAPTURE_DISARM, R323. -/
  | captureDisarm (h : Hdr) (expect : Expect) (c : Nat)
  /-- CAPTURE_SAMPLE, R322. -/
  | captureSample (c : Nat)
  /-- CAPTURE_WINDOW_FULL, R323. -/
  | captureWindowFull (c : Nat)
  /-- CAPTURE_SAVED, R323. -/
  | captureSaved (c : Nat)
  /-- PATCH_PIECE, R371. -/
  | patchPiece (h : Hdr) (expect : Expect) (offset : Nat) (octets : List Byte)
  /-- PATCH_VERIFY, R400. -/
  | patchVerify (h : Hdr) (expect : Expect)
  /-- PATCH_APPLY, R402. -/
  | patchApply (h : Hdr) (expect : Expect)
  /-- PATCH_APPLY_DONE, R402. -/
  | patchApplyDone
  /-- PATCH_DISCARD, R405. -/
  | patchDiscard (h : Hdr) (expect : Expect)
  /-- IMAGE_PIECE, R401. -/
  | imagePiece (h : Hdr) (expect : Expect) (offset : Nat) (octets : List Byte)
  /-- IMAGE_WRITE, R401. -/
  | imageWrite (h : Hdr) (expect : Expect)
  /-- IMAGE_WRITE_DONE, R405. -/
  | imageWriteDone
  /-- IMAGE_DISCARD, R405. -/
  | imageDiscard (h : Hdr) (expect : Expect)
  /-- SLOT_WRITE_CONDITION_STOP, R404. -/
  | slotWriteConditionStop
  /-- FUSE_READ, R410. -/
  | fuseRead (h : Hdr) (expect : Expect)
  /-- FUSE_MARGIN_READ, R410. -/
  | fuseMarginRead (h : Hdr) (expect : Expect)
  /-- FUSE_READ_DONE, R410. -/
  | fuseReadDone (missN : Word) (missT : Word)
  /-- FUSE_MARGIN_SWEEP, R411. -/
  | fuseMarginSweep (weak : List (Nat × Word × Word))
  /-- BASTE, R413. -/
  | baste (h : Hdr) (expect : Expect)
  /-- STITCH, R414. -/
  | stitch (h : Hdr) (expect : Expect)
  /-- STITCH_DONE, R414. -/
  | stitchDone (missN : Word) (missT : Word)
  /-- OWNER_LOCK_SET, R416. -/
  | ownerLockSet (h : Hdr) (expect : Expect)
  /-- OWNER_LOCK_RELEASE, R416. -/
  | ownerLockRelease (h : Hdr) (expect : Expect)
  /-- PRESENCE_WINDOW_OPEN, R357. -/
  | presenceWindowOpen
  /-- PRESENCE_WINDOW_EXPIRE, R357. -/
  | presenceWindowExpire
  /-- PRESENCE_END, R357. -/
  | presenceEnd (h : Hdr) (expect : Expect)
  /-- JUMPER_FITTED, R357. -/
  | jumperFitted
  /-- JUMPER_REMOVED, R357. -/
  | jumperRemoved
  /-- SEAL_ARM, R359. -/
  | sealArm (h : Hdr) (expect : Expect)
  /-- SEAL_CHECK, R359. -/
  | sealCheck (equal : Bool)
  /-- TW_BUS_RECOVERY, R421. -/
  | twBusRecovery (h : Hdr) (expect : Expect) (t : Nat)
  /-- SENSOR_POLL, R427. -/
  | sensorPoll (n : Nat) (scl : Bool) (sda : Bool)
  /-- TW_TRANSACTION_COMPLETE, R427. -/
  | twTransactionComplete (t : Nat) (x : TwResult)
  /-- TW_SCL_TIMEOUT, R423. -/
  | twSclTimeout (t : Nat)
  /-- TW_STUCK_RETRY, R421. -/
  | twStuckRetry (t : Nat)
  /-- OAP_WRITE, R355. -/
  | oapWrite (t : Nat) (busy : Bool) (x : BlockIn) (pec : Option Byte)
  /-- OAP_READ, R355. -/
  | oapRead (x : ReadIn)
  /-- PAGE, R434. -/
  | page (t : Nat) (x : PageIn)
  /-- CLEAR_FAULTS, R433. -/
  | clearFaults (t : Nat) (pec : Option Byte)
  /-- CAPABILITY, R434. -/
  | capability (x : ReadIn)
  /-- VOUT_MODE, R434. -/
  | voutMode (x : ReadIn)
  /-- STATUS_BYTE, R435. -/
  | statusByte (x : ReadIn)
  /-- STATUS_WORD, R435. -/
  | statusWord (x : ReadIn)
  /-- STATUS_CML, R433. -/
  | statusCml (x : ReadIn)
  /-- READ_VIN, R434. -/
  | readVin (x : ReadIn)
  /-- READ_VOUT, R436. -/
  | readVout (x : ReadIn)
  /-- READ_IOUT, R434. -/
  | readIout (x : ReadIn)
  /-- READ_TEMPERATURE_1, R434. -/
  | readTemperature1 (x : ReadIn)
  /-- READ_POUT, R434. -/
  | readPout (x : ReadIn)
  /-- READ_PIN, R434. -/
  | readPin (x : ReadIn)
  /-- PMBUS_REVISION, R434. -/
  | pmbusRevision (x : ReadIn)
  /-- MFR_ID, R434. -/
  | mfrId (x : ReadIn)
  /-- MFR_MODEL, R434. -/
  | mfrModel (x : ReadIn)
  /-- MFR_REVISION, R434. -/
  | mfrRevision (x : ReadIn)
  /-- MFR_SERIAL, R434. -/
  | mfrSerial (x : ReadIn)
  /-- TARGET_WRITE_ABORT, R430. -/
  | targetWriteAbort (t : Nat)
  /-- TARGET_SCL_TIMEOUT, R432. -/
  | targetSclTimeout (t : Nat) (writing : Bool)
  /-- HOST_NOTIFY, R437, R438. -/
  | hostNotify (x : NotifyIn)
  /-- HOST_NOTIFY_REPEAT, R437, R438. -/
  | hostNotifyRepeat (x : NotifyIn)
  /-- POWER_ON_RESET, R445. -/
  | powerOnReset
  /-- VDD_AO_LOSS, R217. -/
  | vddAoLoss
  /-- RESET_N_ASSERT, R445. -/
  | resetNAssert
  /-- WATCHDOG_EXPIRE, R446. -/
  | watchdogExpire
  /-- RESET_COMMAND, R445. -/
  | resetCommand (h : Hdr) (expect : Expect)
  /-- FIRMWARE_RESET_REQUEST, R396. -/
  | firmwareResetRequest (migration : Bool)
  /-- START_TIMER_EXPIRE, R392. -/
  | startTimerExpire
  /-- PLL_LOSS_OF_LOCK, R442. -/
  | pllLossOfLock
  /-- WARM_RESET, R448. -/
  | warmReset (cause : Nat)
  /-- WARM_RESET_END, R259. -/
  | warmResetEnd (x : HoldIn)
  /-- PLL_LOCK, R442; `refin` counts the cycles of REFIN in 100 µs (R440). -/
  | pllLock (locked : Bool) (refin : Nat) (weak : List (Nat × Word))
  /-- SLOT_VERIFIED, R388. -/
  | slotVerified
  /-- STARTED_CHECKPOINT, R385. -/
  | startedCheckpoint
  /-- BENCH_EXIT_BUTTON, R398. -/
  | benchExitButton
  /-- BENCH_EXIT_TRIAL, R398. -/
  | benchExitTrial
  /-- POWER_FAIL_WARNING, R451; `cut` says that it stops the newest record after that many of its eight words (R316). -/
  | powerFailWarning (cut : Option Nat)
  /-- AO_OSC_MEASURE, R442. -/
  | aoOscMeasure (hz : Nat)
  /-- TAGGED_MARK, R93. -/
  | taggedMark
  /-- TW_RECOVERY_END, R422. -/
  | twRecoveryEnd (t : Nat) (sda : List Bool)
  /-- WATCHDOG_SERVICE, R446. -/
  | watchdogService
  /-- ALIVE_TOGGLE, R453. -/
  | aliveToggle
  /-- SYNCOUT_EDGE, R88. -/
  | syncoutEdge (rise : Bool)
  /-- IDENTIFY_DELAYED_REPLY, R351. -/
  | identifyDelayedReply (port : Nat)
  deriving DecidableEq, Repr

end Sys2Proof
end

