-- ==== Sys2Proof/Decode.lean ====
section
/-!
DEFINITION. Table words. The table of operations and events gives no row any bits, so no word spells a command.
-/
namespace Sys2Proof
set_option Elab.async false

/-- The command that a table word spells: none, since no row of the table has bits. -/
def decodeTableWord (nbits w : Nat) : Option Instr :=
  match nbits, w with
  | _, _ => none

end Sys2Proof
end

