-- ==== Sys2Proof/Machine/Flags.lean ====
section
/-!
DEFINITION. The fixed-point arithmetic of the control engine and the check codes of links, records and images.

A Q1.23 quantity is the Int code of 24 bits sign-extended; a coefficient is the Int code of Q2.22 (Table 02-1).
-/
namespace Sys2Proof.Machine
set_option Elab.async false

/-- Confine `x` to `[lo, hi]`. -/
def clampInt (lo hi x : Int) : Int := max lo (min hi x)

/-- Quotient rounded to nearest, a tie toward plus infinity (R480); for a positive divisor. -/
def roundDiv (a b : Int) : Int := (2 * a + b) / (2 * b)

/-- Saturation to the Q1.23 range (Table 02-1). -/
def satQ23 (x : Int) : Int := clampInt (-8388608) 8388607 x

/-- Saturation of the 48-bit accumulator Q3.45 (R51). -/
def satAcc (x : Int) : Int := clampInt (-140737488355328) 140737488355327 x

/-- Accumulator to Q1.23: add 2^21, shift right by 22, saturate (R51). -/
def accToQ23 (acc : Int) : Int := satQ23 ((acc + 2097152) / 4194304)

/-- The products added one by one, saturating after each addition (R51). -/
def sumAcc (ps : List Int) : Int := ps.foldl (fun a p => satAcc (a + p)) 0

/-- The error of R48 in Q1.23 from a reference in 1/65,536 of the source unit, a measured value and the full scale. -/
def errQ23 (ref y inFs : Int) (inv : Bool) : Int :=
  let e := satQ23 (roundDiv ((ref - 65536 * y) * 8388608) (65536 * inFs))
  if inv then satQ23 (-e) else e

/-- The ramp step of R60 in 1/65,536 of the source unit: SLEW × T_s / 1 ms, `k` slots of 0.5 µs per sample. -/
def rampStep (slew k : Nat) : Int := roundDiv (slew * 65536 * k) 2000

/-- One ramp step toward the target, never past it; a SLEW of 0 gives the target at once (R60). -/
def rampMove (ramp target : Int) (slew k : Nat) : Int :=
  if slew = 0 then target
  else if ramp ≤ target then min target (ramp + rampStep slew k) else max target (ramp - rampStep slew k)

/-- The command code of R58: the sum clamped to [0, 1 − 2^−23], mapped onto the range and truncated. -/
def commandCode (cmd lo hi : Int) : Int :=
  lo + (clampInt 0 8388607 cmd * (hi - lo)) / 8388608

/-- Integer square root by bisection from the bit of weight 2^k downward. -/
def isqrtFrom (n : Nat) : Nat → Nat → Nat
  | 0, r => if (r + 1) * (r + 1) ≤ n then r + 1 else r
  | k + 1, r => isqrtFrom n k (if (r + 2 ^ (k + 1)) * (r + 2 ^ (k + 1)) ≤ n then r + 2 ^ (k + 1) else r)

/-- The integer square root, rounded down; for radicands below 2^128. -/
def isqrt (n : Nat) : Nat := isqrtFrom n 63 0

/-! ### Octets -/

/-- `n` octets of a number, most significant first (R147). -/
def beBytes : Nat → Nat → List Byte
  | 0, _ => []
  | n + 1, x => BitVec.ofNat 8 (x >>> (8 * n)) :: beBytes n x

/-- `n` octets of a number, least significant first. -/
def leBytes : Nat → Nat → List Byte
  | 0, _ => []
  | n + 1, x => BitVec.ofNat 8 x :: leBytes n (x / 256)

/-- The number that octets hold, most significant first. -/
def beNat (bs : List Byte) : Nat := bs.foldl (fun a b => a * 256 + b.toNat) 0

/-- The number that octets hold, least significant first. -/
def leNat (bs : List Byte) : Nat := bs.foldr (fun b a => a * 256 + b.toNat) 0

/-- A number read as a two's complement value of `w` bits. -/
def signed (w x : Nat) : Int := (BitVec.ofNat w x).toInt

/-- A signed value as `n` octets, least significant first. -/
def leInt (n : Nat) (v : Int) : List Byte := leBytes n (v % (256 ^ n : Nat)).toNat

/-- A signed value as `n` octets, most significant first. -/
def beInt (n : Nat) (v : Int) : List Byte := beBytes n (v % (256 ^ n : Nat)).toNat

/-- The octets of a text. -/
def asciiBytes (t : String) : List Byte := t.toList.map (fun c => BitVec.ofNat 8 c.toNat)

/-! ### Check codes -/

/-- One bit step of a CRC that shifts left. -/
def crcLeft {w : Nat} (poly : BitVec w) (c : BitVec w) : BitVec w :=
  if c.msb then (c <<< 1) ^^^ poly else c <<< 1

/-- CRC-16/CCITT: polynomial 0x1021, initial value 0xFFFF, not reflected, no final XOR (R166). -/
def crc16 (bs : List Byte) : Half :=
  bs.foldl (fun (c : Half) b => Nat.repeat (crcLeft 0x1021) 8 (c ^^^ (b.setWidth 16).shiftLeft 8)) 0xFFFF

/-- One bit step of a CRC that shifts right. -/
def crcRight {w : Nat} (poly : BitVec w) (c : BitVec w) : BitVec w :=
  if c.getLsbD 0 then (c >>> 1) ^^^ poly else c >>> 1

/-- CRC-32 with the IEEE 802.3 polynomial, in the reflected form that standard uses (PRESUMED: the manual names
the polynomial only). -/
def crc32 (bs : List Byte) : Word :=
  (bs.foldl (fun (c : Word) b => Nat.repeat (crcRight 0xEDB88320) 8 (c ^^^ b.setWidth 32)) 0xFFFFFFFF) ^^^ 0xFFFFFFFF

/-- CRC-8 of SMBus packet error checking: polynomial 0x07. -/
def crc8 (bs : List Byte) : Byte :=
  bs.foldl (fun (c : Byte) b => Nat.repeat (crcLeft 0x07) 8 (c ^^^ b)) 0

end Sys2Proof.Machine
end

