-- ==== Sys2Proof/Config.lean ====
section
/-!
DEFINITION. The free values: results the manual leaves open. Every free value is an opaque constant without a
body, so no proof can see what it is; it is applied to the counter `State.draws`, which each draw advances, and
to the operands it may depend on.
-/
namespace Sys2Proof.Config
set_option Elab.async false

/-- The flattening reference of a member whose string voltage reads 0 mV or less (R138 divides by it). -/
opaque freeIron : Nat → Int

/-- The lane a placed channel receives, before reduction to the lanes in use (R68 leaves the choice open). -/
opaque freeLane : Nat → Nat

/-- The share weight of a port whose group holds no share channel (R184 and R209 sum share weights; only a share channel
has them, R191). -/
opaque freeWeight : Nat → Nat

/-- The rate offset in ppb that the SYNCIN loop asks for (R85 gives its bandwidth and no gains): from the present
offset in ppb, the phase error in ps and the draw counter. -/
opaque freeSteer : Int → Int → Nat → Int

/-- A new session number, drawn at an OPEN; the part draws any number but 0 (R330, Table 12-2). -/
opaque freeSession : Nat → Half

/-- A T1S port with PLCA on sees beacons (0x1200+t.07): from the port and the always-on time. -/
opaque freeBeacon : Nat → Nat → Bool

/-- What a vendor diagnostics object reads (R380): its type and octets, from index, sub-index and always-on time. -/
opaque freeVendorType : Nat → Nat → Nat → Nat
opaque freeVendor : Nat → Nat → Nat → List Byte

/-- The rate adjustment in ppb that the PTP servo asks for (R364 gives its limit and no gains): from the offset in ns
and the draw counter. -/
opaque freeRate : Int → Nat → Int

/-- The PTP servo holds lock at this Sync (R364 names Locked and gives no criterion). -/
opaque freeLocked : Int → Nat → Bool

/-- The state of the seal's 15-bit sequence after its next change, from the present one (R359 names a linear-feedback
sequence and gives neither its polynomial nor its start). -/
opaque freeSeal : BitVec 15 → BitVec 15

/-- Grid slots for which the write of a last-fault record lasts, from its number (R325 speaks of a write in progress and gives
no time). -/
opaque freeFaultSlots : Nat → Nat

/-- How many of its eight words a record has in the ring when the supply falls without a warning (R315), before reduction modulo
8; from the draw counter. -/
opaque freeCutWords : Nat → Nat

/-- The count of vendor objects of a vendor index (R367 gives sub-index 0 of every index as that count, R380 the indices). -/
opaque freeVendorCount : Nat → Nat

end Sys2Proof.Config
end

