-- ==== Sys2Proof/Machine/Banks.lean ====
section
/-!
DEFINITION. The banks of the TF4812: one record for each kind of block that carries an active and a pending bank (Table 01-1).
Every record has the sub-entries of its object table, their defaults, and one get? and put by sub-entry.
-/
namespace Sys2Proof.Machine
set_option Elab.async false

/-- Configuration bank of one channel (R75, R76, R191). -/
structure ChannelBank where
  cfg : Word := 0x3F000000
  src : Nat := 0
  inFs : Int := 1000
  b0 : Int := 0
  b1 : Int := 0
  b2 : Int := 0
  b3 : Int := 0
  a1 : Int := 0
  a2 : Int := 0
  a3 : Int := 0
  uMin : Int := 0
  uMax : Int := 8388607
  setpoint : Int := 0
  slew : Nat := 0
  weights : Vector Nat 48 := Vector.replicate 48 1000
  deriving DecidableEq, Repr

/-- The stored value of the sub-entry, if it is one of this record. -/
def ChannelBank.get? (x : ChannelBank) (off sub : Nat) : Option Int :=
  match off, sub with
  | 0, 1 => some x.cfg.toNat
  | 0, 2 => some x.src
  | 0, 3 => some x.inFs
  | 1, 1 => some x.b0
  | 1, 2 => some x.b1
  | 1, 3 => some x.b2
  | 1, 4 => some x.b3
  | 1, 5 => some x.a1
  | 1, 6 => some x.a2
  | 1, 7 => some x.a3
  | 2, 1 => some x.uMin
  | 2, 2 => some x.uMax
  | 3, 1 => some x.setpoint
  | 3, 2 => some x.slew
  | 5, k + 1 => (unit? 48 k).map (fun i => (x.weights.get i : Int))
  | _, _ => none

/-- The record with one sub-entry replaced; unchanged where the sub-entry is none of its own. -/
def ChannelBank.put (x : ChannelBank) (off sub : Nat) (v : Int) : ChannelBank :=
  match off, sub with
  | 0, 1 => { x with cfg := BitVec.ofInt 32 v }
  | 0, 2 => { x with src := v.toNat }
  | 0, 3 => { x with inFs := v }
  | 1, 1 => { x with b0 := v }
  | 1, 2 => { x with b1 := v }
  | 1, 3 => { x with b2 := v }
  | 1, 4 => { x with b3 := v }
  | 1, 5 => { x with a1 := v }
  | 1, 6 => { x with a2 := v }
  | 1, 7 => { x with a3 := v }
  | 2, 1 => { x with uMin := v }
  | 2, 2 => { x with uMax := v }
  | 3, 1 => { x with setpoint := v }
  | 3, 2 => { x with slew := v.toNat }
  | 5, k + 1 => match unit? 48 k with
    | some i => { x with weights := x.weights.set i.val v.toNat i.isLt }
    | none => x
  | _, _ => x

/-- Bank fields of one loop group (R78). -/
structure GroupCore where
  cfg : Word := 0x1000000
  ports : Dword := 0x0
  trackMargin : Int := 167772
  uInit : Int := 0
  cmdLo : Nat := 0
  cmdHi : Nat := 0
  ssTimeout : Nat := 50000
  retryMax : Nat := 3
  retryInterval : Nat := 100000
  ffSrc : Nat := 0
  ffGain : Int := 0
  deriving DecidableEq, Repr

/-- The stored value of the sub-entry, if it is one of this record. -/
def GroupCore.get? (x : GroupCore) (off sub : Nat) : Option Int :=
  match off, sub with
  | 0, 1 => some x.cfg.toNat
  | 0, 2 => some x.ports.toNat
  | 1, 1 => some x.trackMargin
  | 1, 2 => some x.uInit
  | 1, 3 => some x.cmdLo
  | 1, 4 => some x.cmdHi
  | 2, 1 => some x.ssTimeout
  | 2, 2 => some x.retryMax
  | 2, 3 => some x.retryInterval
  | 3, 1 => some x.ffSrc
  | 3, 2 => some x.ffGain
  | _, _ => none

/-- The record with one sub-entry replaced; unchanged where the sub-entry is none of its own. -/
def GroupCore.put (x : GroupCore) (off sub : Nat) (v : Int) : GroupCore :=
  match off, sub with
  | 0, 1 => { x with cfg := BitVec.ofInt 32 v }
  | 0, 2 => { x with ports := BitVec.ofInt 64 v }
  | 1, 1 => { x with trackMargin := v }
  | 1, 2 => { x with uInit := v }
  | 1, 3 => { x with cmdLo := v.toNat }
  | 1, 4 => { x with cmdHi := v.toNat }
  | 2, 1 => { x with ssTimeout := v.toNat }
  | 2, 2 => { x with retryMax := v.toNat }
  | 2, 3 => { x with retryInterval := v.toNat }
  | 3, 1 => { x with ffSrc := v.toNat }
  | 3, 2 => { x with ffGain := v }
  | _, _ => x

/-- Modulation fields of a group bank (R90, R107). -/
structure ModulCore where
  fSw : Nat := 250000
  ph0 : Nat := 0
  spread : Nat := 0
  tOnNom : Nat := 1000
  minOff : Nat := 100
  rippleSlope : Nat := 16
  lockKp : Int := 2097152
  lockKi : Int := 83886
  lockSuspend : Int := 83886
  lockResume : Nat := 20
  deriving DecidableEq, Repr

/-- The stored value of the sub-entry, if it is one of this record. -/
def ModulCore.get? (x : ModulCore) (sub : Nat) : Option Int :=
  match sub with
  | 1 => some x.fSw
  | 2 => some x.ph0
  | 3 => some x.spread
  | 4 => some x.tOnNom
  | 5 => some x.minOff
  | 6 => some x.rippleSlope
  | 7 => some x.lockKp
  | 8 => some x.lockKi
  | 9 => some x.lockSuspend
  | 10 => some x.lockResume
  | _ => none

/-- The record with one sub-entry replaced; unchanged where the sub-entry is none of its own. -/
def ModulCore.put (x : ModulCore) (sub : Nat) (v : Int) : ModulCore :=
  match sub with
  | 1 => { x with fSw := v.toNat }
  | 2 => { x with ph0 := v.toNat }
  | 3 => { x with spread := v.toNat }
  | 4 => { x with tOnNom := v.toNat }
  | 5 => { x with minOff := v.toNat }
  | 6 => { x with rippleSlope := v.toNat }
  | 7 => { x with lockKp := v }
  | 8 => { x with lockKi := v }
  | 9 => { x with lockSuspend := v }
  | 10 => { x with lockResume := v.toNat }
  | _ => x

/-- Sharing fields of a group bank (R191). -/
structure ShareCore where
  sharePool : Nat := 255
  ffMode : Nat := 0
  ffFs : Int := 1000
  ffRelease : Nat := 100000
  capCh : Nat := 255
  ratedP : Int := 0
  deriving DecidableEq, Repr

/-- The stored value of the sub-entry, if it is one of this record. -/
def ShareCore.get? (x : ShareCore) (sub : Nat) : Option Int :=
  match sub with
  | 1 => some x.sharePool
  | 2 => some x.ffMode
  | 3 => some x.ffFs
  | 4 => some x.ffRelease
  | 5 => some x.capCh
  | 6 => some x.ratedP
  | _ => none

/-- The record with one sub-entry replaced; unchanged where the sub-entry is none of its own. -/
def ShareCore.put (x : ShareCore) (sub : Nat) (v : Int) : ShareCore :=
  match sub with
  | 1 => { x with sharePool := v.toNat }
  | 2 => { x with ffMode := v.toNat }
  | 3 => { x with ffFs := v }
  | 4 => { x with ffRelease := v.toNat }
  | 5 => { x with capCh := v.toNat }
  | 6 => { x with ratedP := v }
  | _ => x

/-- Configuration bank of one iron (R140). -/
structure IronBank where
  cfg : Word := 0x0
  taps : Nat := 4096
  learnGain : Int := 1048576
  forget : Int := 4190110
  bandW : Int := 524288
  lead : Nat := 1
  injFs : Int := 1000
  weight : Nat := 1
  period : Nat := 10000000
  lineMult : Nat := 2
  estMin : Nat := 100000000
  estMax : Nat := 16000000000
  deriving DecidableEq, Repr

/-- The stored value of the sub-entry, if it is one of this record. -/
def IronBank.get? (x : IronBank) (off sub : Nat) : Option Int :=
  match off, sub with
  | 0, 1 => some x.cfg.toNat
  | 0, 2 => some x.taps
  | 0, 3 => some x.learnGain
  | 0, 4 => some x.forget
  | 0, 5 => some x.bandW
  | 0, 6 => some x.lead
  | 0, 7 => some x.injFs
  | 0, 8 => some x.weight
  | 1, 1 => some x.period
  | 1, 2 => some x.lineMult
  | 1, 3 => some x.estMin
  | 1, 4 => some x.estMax
  | _, _ => none

/-- The record with one sub-entry replaced; unchanged where the sub-entry is none of its own. -/
def IronBank.put (x : IronBank) (off sub : Nat) (v : Int) : IronBank :=
  match off, sub with
  | 0, 1 => { x with cfg := BitVec.ofInt 32 v }
  | 0, 2 => { x with taps := v.toNat }
  | 0, 3 => { x with learnGain := v }
  | 0, 4 => { x with forget := v }
  | 0, 5 => { x with bandW := v }
  | 0, 6 => { x with lead := v.toNat }
  | 0, 7 => { x with injFs := v }
  | 0, 8 => { x with weight := v.toNat }
  | 1, 1 => { x with period := v.toNat }
  | 1, 2 => { x with lineMult := v.toNat }
  | 1, 3 => { x with estMin := v.toNat }
  | 1, 4 => { x with estMax := v.toNat }
  | _, _ => x

/-- Configuration bank of one stage port (R14, R180). -/
structure PortBank where
  cfg : Word := 0x3F000010
  lossWin : Nat := 4
  fbEn : Nat := 0
  fbVref : Int := 0
  fbIlim : Int := 0
  fbVov : Int := 0
  deriving DecidableEq, Repr

/-- The stored value of the sub-entry, if it is one of this record. -/
def PortBank.get? (x : PortBank) (off sub : Nat) : Option Int :=
  match off, sub with
  | 0, 1 => some x.cfg.toNat
  | 1, 3 => some x.lossWin
  | 1, 4 => some x.fbEn
  | 1, 5 => some x.fbVref
  | 1, 6 => some x.fbIlim
  | 1, 7 => some x.fbVov
  | _, _ => none

/-- The record with one sub-entry replaced; unchanged where the sub-entry is none of its own. -/
def PortBank.put (x : PortBank) (off sub : Nat) (v : Int) : PortBank :=
  match off, sub with
  | 0, 1 => { x with cfg := BitVec.ofInt 32 v }
  | 1, 3 => { x with lossWin := v.toNat }
  | 1, 4 => { x with fbEn := v.toNat }
  | 1, 5 => { x with fbVref := v }
  | 1, 6 => { x with fbIlim := v }
  | 1, 7 => { x with fbVov := v }
  | _, _ => x

/-- Configuration bank of one battery string (R240). -/
structure StringBank where
  cfg : Word := 0xFFFF0002
  ports : Dword := 0x0
  shuntR : Nat := 100000
  gainTrim : Int := 0
  offsetTrim : Int := 0
  chgI : Int := 20000
  chgV : Int := 56400
  floatV : Int := 54800
  rechgV : Int := 52000
  cvKi : Nat := 1
  termI : Int := 2000
  termT : Nat := 60000
  chgTarget : Nat := 10000
  targetHyst : Nat := 100
  settleI : Int := 10000
  refreshInt : Nat := 720
  disI : Int := 300000
  cutoffV : Int := 40000
  supportHyst : Int := 200
  supportExit : Nat := 100
  emptyV : Int := 42000
  emptyIMin : Int := 20000
  emptyT : Nat := 1000
  cNom : Int := 360000000
  learnBand : Nat := 2000
  qualIMax : Int := 200000
  qualChgMax : Nat := 50
  qualDurMax : Nat := 72
  qualTLo : Int := 1500
  qualTHi : Int := 3500
  facRate : Nat := 100
  eohResInit : Nat := 1000
  tempSrc : Nat := 0
  hostTemp : Int := 0
  deriving DecidableEq, Repr

/-- The stored value of the sub-entry, if it is one of this record. -/
def StringBank.get? (x : StringBank) (off sub : Nat) : Option Int :=
  match off, sub with
  | 0, 1 => some x.cfg.toNat
  | 0, 2 => some x.ports.toNat
  | 0, 3 => some x.shuntR
  | 0, 4 => some x.gainTrim
  | 0, 5 => some x.offsetTrim
  | 1, 1 => some x.chgI
  | 1, 2 => some x.chgV
  | 1, 3 => some x.floatV
  | 1, 4 => some x.rechgV
  | 1, 5 => some x.cvKi
  | 1, 6 => some x.termI
  | 1, 7 => some x.termT
  | 1, 8 => some x.chgTarget
  | 1, 9 => some x.targetHyst
  | 1, 10 => some x.settleI
  | 1, 11 => some x.refreshInt
  | 1, 12 => some x.disI
  | 1, 13 => some x.cutoffV
  | 1, 14 => some x.supportHyst
  | 1, 15 => some x.supportExit
  | 2, 1 => some x.emptyV
  | 2, 2 => some x.emptyIMin
  | 2, 3 => some x.emptyT
  | 2, 4 => some x.cNom
  | 2, 5 => some x.learnBand
  | 2, 6 => some x.qualIMax
  | 2, 7 => some x.qualChgMax
  | 2, 8 => some x.qualDurMax
  | 2, 9 => some x.qualTLo
  | 2, 10 => some x.qualTHi
  | 3, 1 => some x.facRate
  | 3, 2 => some x.eohResInit
  | 3, 3 => some x.tempSrc
  | 3, 4 => some x.hostTemp
  | _, _ => none

/-- The record with one sub-entry replaced; unchanged where the sub-entry is none of its own. -/
def StringBank.put (x : StringBank) (off sub : Nat) (v : Int) : StringBank :=
  match off, sub with
  | 0, 1 => { x with cfg := BitVec.ofInt 32 v }
  | 0, 2 => { x with ports := BitVec.ofInt 64 v }
  | 0, 3 => { x with shuntR := v.toNat }
  | 0, 4 => { x with gainTrim := v }
  | 0, 5 => { x with offsetTrim := v }
  | 1, 1 => { x with chgI := v }
  | 1, 2 => { x with chgV := v }
  | 1, 3 => { x with floatV := v }
  | 1, 4 => { x with rechgV := v }
  | 1, 5 => { x with cvKi := v.toNat }
  | 1, 6 => { x with termI := v }
  | 1, 7 => { x with termT := v.toNat }
  | 1, 8 => { x with chgTarget := v.toNat }
  | 1, 9 => { x with targetHyst := v.toNat }
  | 1, 10 => { x with settleI := v }
  | 1, 11 => { x with refreshInt := v.toNat }
  | 1, 12 => { x with disI := v }
  | 1, 13 => { x with cutoffV := v }
  | 1, 14 => { x with supportHyst := v }
  | 1, 15 => { x with supportExit := v.toNat }
  | 2, 1 => { x with emptyV := v }
  | 2, 2 => { x with emptyIMin := v }
  | 2, 3 => { x with emptyT := v.toNat }
  | 2, 4 => { x with cNom := v }
  | 2, 5 => { x with learnBand := v.toNat }
  | 2, 6 => { x with qualIMax := v }
  | 2, 7 => { x with qualChgMax := v.toNat }
  | 2, 8 => { x with qualDurMax := v.toNat }
  | 2, 9 => { x with qualTLo := v }
  | 2, 10 => { x with qualTHi := v }
  | 3, 1 => { x with facRate := v.toNat }
  | 3, 2 => { x with eohResInit := v.toNat }
  | 3, 3 => { x with tempSrc := v.toNat }
  | 3, 4 => { x with hostTemp := v }
  | _, _ => x

/-- Configuration fields of one feed bank (R262). -/
structure FeedCore where
  cfg : Word := 0xFF000306
  rsh : Nat := 200000
  rpre : Nat := 4700
  ocLim : Int := 600000
  iCont : Int := 460000
  i2tLim : Nat := 20000
  dropMax : Int := 500
  seatDeb : Nat := 50000
  preThr : Nat := 950
  preTimeout : Nat := 200000
  preEMax : Nat := 15000
  retryInt : Nat := 1000000
  overlap : Nat := 1000
  deriving DecidableEq, Repr

/-- The stored value of the sub-entry, if it is one of this record. -/
def FeedCore.get? (x : FeedCore) (off sub : Nat) : Option Int :=
  match off, sub with
  | 0, 1 => some x.cfg.toNat
  | 0, 2 => some x.rsh
  | 0, 3 => some x.rpre
  | 0, 4 => some x.ocLim
  | 0, 5 => some x.iCont
  | 0, 6 => some x.i2tLim
  | 0, 7 => some x.dropMax
  | 1, 1 => some x.seatDeb
  | 1, 2 => some x.preThr
  | 1, 3 => some x.preTimeout
  | 1, 4 => some x.preEMax
  | 1, 5 => some x.retryInt
  | 1, 6 => some x.overlap
  | _, _ => none

/-- The record with one sub-entry replaced; unchanged where the sub-entry is none of its own. -/
def FeedCore.put (x : FeedCore) (off sub : Nat) (v : Int) : FeedCore :=
  match off, sub with
  | 0, 1 => { x with cfg := BitVec.ofInt 32 v }
  | 0, 2 => { x with rsh := v.toNat }
  | 0, 3 => { x with rpre := v.toNat }
  | 0, 4 => { x with ocLim := v }
  | 0, 5 => { x with iCont := v }
  | 0, 6 => { x with i2tLim := v.toNat }
  | 0, 7 => { x with dropMax := v }
  | 1, 1 => { x with seatDeb := v.toNat }
  | 1, 2 => { x with preThr := v.toNat }
  | 1, 3 => { x with preTimeout := v.toNat }
  | 1, 4 => { x with preEMax := v.toNat }
  | 1, 5 => { x with retryInt := v.toNat }
  | 1, 6 => { x with overlap := v.toNat }
  | _, _ => x

/-- Zone fields of a feed bank (R191, R213, R214). -/
structure ZoneCore where
  shedRank : Nat := 0
  grantWeight : Nat := 1
  thrForce : Bool := false
  deriving DecidableEq, Repr

/-- The stored value of the sub-entry, if it is one of this record. -/
def ZoneCore.get? (x : ZoneCore) (sub : Nat) : Option Int :=
  match sub with
  | 1 => some x.shedRank
  | 2 => some x.grantWeight
  | 7 => some (if x.thrForce then 1 else 0)
  | _ => none

/-- The record with one sub-entry replaced; unchanged where the sub-entry is none of its own. -/
def ZoneCore.put (x : ZoneCore) (sub : Nat) (v : Int) : ZoneCore :=
  match sub with
  | 1 => { x with shedRank := v.toNat }
  | 2 => { x with grantWeight := v.toNat }
  | 7 => { x with thrForce := decide (v = 1) }
  | _ => x

/-- Configuration bank of one soak model (R299). -/
structure ModelBank where
  cfg : Word := 0xFF000000
  iGroups : Word := 0x0
  iFeeds : BitVec 16 := 0x0
  sdGroups : Word := 0x0
  invalidT : Nat := 100000
  k0 : Int := 0
  k1 : Int := 0
  k2 : Int := 0
  k3 : Int := 0
  r12 : Nat := 50
  r24 : Nat := 80
  r3a : Nat := 40
  c1 : Nat := 5000
  c2 : Nat := 400000
  c3 : Nat := 2000000
  warnT : Int := 10000
  warnHyst : Nat := 300
  thrT : Int := 10500
  thrHyst : Nat := 500
  sdT : Int := 11500
  sdHyst : Nat := 300
  capAtThr : Int := 2147483647
  capSlope : Int := 0
  capFloor : Int := 0
  hostInlet : Int := 0
  inletTw : Nat := 0
  deriving DecidableEq, Repr

/-- The stored value of the sub-entry, if it is one of this record. -/
def ModelBank.get? (x : ModelBank) (off sub : Nat) : Option Int :=
  match off, sub with
  | 0, 1 => some x.cfg.toNat
  | 0, 2 => some x.iGroups.toNat
  | 0, 3 => some x.iFeeds.toNat
  | 0, 4 => some x.sdGroups.toNat
  | 0, 5 => some x.invalidT
  | 1, 1 => some x.k0
  | 1, 2 => some x.k1
  | 1, 3 => some x.k2
  | 1, 4 => some x.k3
  | 2, 1 => some x.r12
  | 2, 2 => some x.r24
  | 2, 3 => some x.r3a
  | 2, 4 => some x.c1
  | 2, 5 => some x.c2
  | 2, 6 => some x.c3
  | 3, 1 => some x.warnT
  | 3, 2 => some x.warnHyst
  | 3, 3 => some x.thrT
  | 3, 4 => some x.thrHyst
  | 3, 5 => some x.sdT
  | 3, 6 => some x.sdHyst
  | 3, 7 => some x.capAtThr
  | 3, 8 => some x.capSlope
  | 3, 9 => some x.capFloor
  | 4, 1 => some x.hostInlet
  | 4, 2 => some x.inletTw
  | _, _ => none

/-- The record with one sub-entry replaced; unchanged where the sub-entry is none of its own. -/
def ModelBank.put (x : ModelBank) (off sub : Nat) (v : Int) : ModelBank :=
  match off, sub with
  | 0, 1 => { x with cfg := BitVec.ofInt 32 v }
  | 0, 2 => { x with iGroups := BitVec.ofInt 32 v }
  | 0, 3 => { x with iFeeds := BitVec.ofInt 16 v }
  | 0, 4 => { x with sdGroups := BitVec.ofInt 32 v }
  | 0, 5 => { x with invalidT := v.toNat }
  | 1, 1 => { x with k0 := v }
  | 1, 2 => { x with k1 := v }
  | 1, 3 => { x with k2 := v }
  | 1, 4 => { x with k3 := v }
  | 2, 1 => { x with r12 := v.toNat }
  | 2, 2 => { x with r24 := v.toNat }
  | 2, 3 => { x with r3a := v.toNat }
  | 2, 4 => { x with c1 := v.toNat }
  | 2, 5 => { x with c2 := v.toNat }
  | 2, 6 => { x with c3 := v.toNat }
  | 3, 1 => { x with warnT := v }
  | 3, 2 => { x with warnHyst := v.toNat }
  | 3, 3 => { x with thrT := v }
  | 3, 4 => { x with thrHyst := v.toNat }
  | 3, 5 => { x with sdT := v }
  | 3, 6 => { x with sdHyst := v.toNat }
  | 3, 7 => { x with capAtThr := v }
  | 3, 8 => { x with capSlope := v }
  | 3, 9 => { x with capFloor := v }
  | 4, 1 => { x with hostInlet := v }
  | 4, 2 => { x with inletTw := v.toNat }
  | _, _ => x

/-- Bank of one loop group: its own page, the modulation page and the sharing page. -/
structure GroupBank where
  core  : GroupCore := {}
  modul : ModulCore := {}
  share : ShareCore := {}
  deriving DecidableEq, Repr

/-- Bank of one feed: the feed's own fields and those of its zone (Table 01-1). -/
structure FeedBank where
  core : FeedCore := {}
  zone : ZoneCore := {}
  deriving DecidableEq, Repr

/-- Defaults of a model bank; TM64 is enabled and has higher thresholds (R299). -/
def ModelBank.default (m : Nat) : ModelBank :=
  if m = 64 then { cfg := 0xFF000001, warnT := 10500, thrT := 11500, sdT := 12500 } else {}

/-- One bank of every block of the shelf: the active banks, the pending banks, a safe-set copy and the
working configuration all have this layout (Table 01-1, R39). -/
structure Banks where
  chans   : Vector ChannelBank 128 := Vector.replicate 128 {}
  groups  : Vector GroupBank 32 := Vector.replicate 32 {}
  ports   : Vector PortBank 48 := Vector.replicate 48 {}
  feeds   : Vector FeedBank 16 := Vector.replicate 16 {}
  strings : Vector StringBank 8 := Vector.replicate 8 {}
  models  : Vector ModelBank 65 := Vector.ofFn (fun m => ModelBank.default m.val)
  irons   : Vector IronBank 16 := Vector.replicate 16 {}
  deriving DecidableEq, Repr

end Sys2Proof.Machine
end

