-- ==== Sys2Proof/Machine/Units.lean ====
section
/-!
DEFINITION. What each unit of the engine, the links and the shelf block holds while it runs (plain data).
Instants are stamps of the always-on cycle count `Clock.up` in 2.5 ns, or of the slot count `Clock.slots` for whatever
the grid times (R22); grid positions are values of G.
-/
namespace Sys2Proof.Machine
set_option Elab.async false

/-- Loop group states (Table 02-3, G+0x05.01). -/
inductive GroupPhase where
  | stopped | softStart | run | retryWait | fallback | latched
  deriving DecidableEq, Repr

/-- The code of a group state in G+0x05.01. -/
def GroupPhase.code : GroupPhase → Nat
  | .stopped => 0 | .softStart => 1 | .run => 2 | .retryWait => 3 | .fallback => 4 | .latched => 5

/-- Error and output histories of one compensator: e[n−1..n−3], u[n−1..n−3] in Q1.23 (R49). -/
structure Hist where
  e1 : Int := 0
  e2 : Int := 0
  e3 : Int := 0
  u1 : Int := 0
  u2 : Int := 0
  u3 : Int := 0
  deriving DecidableEq, Repr

/-- A pool primary's evaluation of one sample, shared by the members of its pool (R188, R189). -/
structure PoolSample where
  /-- Grid position of the sample; none before the first one. -/
  at?    : Option Nat := none
  /-- The clamped output entered into each member's selector. -/
  u      : Int := 0
  /-- The error of the sample. -/
  e      : Int := 0
  /-- Histories before the sample. -/
  before : Hist := {}
  /-- Largest selected output of the members without a selector mismatch. -/
  smax   : Option Int := none
  /-- Members that have taken the proposal of this sample. -/
  takers : List Nat := []
  deriving DecidableEq, Repr

/-- Run state of one channel (R45 to R61, Table 02-6). -/
structure ChannelRun where
  y        : Int := 0
  /-- Ramp position in 1/65,536 of the source unit (R60). -/
  ramp     : Int := 0
  e        : Int := 0
  h        : Hist := {}
  /-- Every term of the next output except b0·e, in Q3.45. -/
  pre      : Int := 0
  strikes  : Nat := 0
  /-- Lane 0–15, 16 the spare, 255 none (R68). -/
  lane     : Nat := 255
  winner   : Bool := false
  held     : Bool := false
  moving   : Bool := false
  atMin    : Bool := false
  atMax    : Bool := false
  /-- Initialise at the next evaluation (R56, R59); the fill of the output history, none for U_INIT. -/
  fresh    : Bool := false
  fill     : Option Int := none
  /-- Excluded from selection by a takeover start (R195). -/
  excluded : Bool := false
  /-- Target put in place of SETPOINT (R195). -/
  target   : Option Int := none
  /-- Of a pool primary of kind 3: the mean over its pool at the last sample with a live port (R47). -/
  poolHold : Int := 0
  /-- A derate channel has won within the last 10 ms: since when it has lost every sample (R296). -/
  derating : Bool := false
  lostFrom : Option Nat := none
  pool     : PoolSample := {}
  deriving DecidableEq, Repr

/-- Lock of a group in locked on-time (R103 to R105). -/
structure LockRun where
  suspended : Bool := false
  /-- Consecutive samples without a suspension event. -/
  quiet     : Nat := 0
  /-- |e| of the last 100 reports, newest first, in 1/65,536 turn. -/
  recent    : List Nat := []
  deriving DecidableEq, Repr

/-- A group's last-fault record (R325, Table 11-12). -/
structure LastFault where
  octets : List Byte := []
  valid  : Bool := false
  writes : Nat := 0
  /-- The write in progress: octets 0 to 1,015 of its record, and the slot of its start. -/
  writing : Option (List Byte × Nat) := none
  /-- Records latched during it, to be written in turn. -/
  latched : List (List Byte) := []
  deriving DecidableEq, Repr

/-- Run state of one loop group (R62, Table 02-9). -/
structure GroupRun where
  phase     : GroupPhase := .stopped
  retry     : Nat := 0
  ssFrom    : Nat := 0
  retryFrom : Nat := 0
  winner    : Nat := 255
  s         : Int := 0
  strikes   : Nat := 0
  /-- Place in the port list of the port whose share channel turn is next (R58). -/
  turn      : Nat := 0
  f         : Int := 0
  /-- Mean output voltage of each group at the last sample of this group at which it had a live port, since this group started
  (R47). -/
  means     : List (Nat × Int) := []
  /-- Primary channel in force, 255 when not evaluated. -/
  primary   : Nat := 255
  /-- The primary that served the previous sample, 255 none (R190). -/
  served    : Nat := 255
  /-- Some channel of the group has been evaluated since it entered soft start. -/
  sampled   : Bool := false
  /-- Requests that wait for a boundary, each with the slot in which it arose (R62, R479). -/
  startReq  : Option Nat := none
  stopReq   : Option Nat := none
  clearReq  : Option Nat := none
  /-- The waiting start request came from a host alone (R293). -/
  startHost : Bool := false
  /-- A start request held until an armed commit swaps (R34). -/
  heldStart : Bool := false
  thermalMark : Bool := false
  resumeMark  : Bool := false
  safeMismatch : Bool := false
  takeoverDue : Bool := false
  /-- Support mode of a battery group (R225); since when the exit condition holds. -/
  support   : Bool := false
  exitFrom  : Option Nat := none
  /-- First evaluation since the group start: the mode is chosen there. -/
  modeDue   : Bool := false
  /-- INC in force, and the changes that wait, oldest first: each new INC and the G of its tagged mark (R91, R93). -/
  inc       : Nat := 0x20000000
  incNexts  : List (Nat × Nat) := []
  /-- Count of ports whose input was down at the last sample (R198). -/
  downCount : Nat := 0
  lock      : LockRun := {}
  /-- Fault causes registered since the last group boundary (R325), as bits. -/
  faults    : BitVec 6 := 0
  /-- The group's state before those faults, and the winner of the sample that a fault ended, 255 none. -/
  faultFrom : GroupPhase := .stopped
  faultWinner : Nat := 255
  /-- Fault causes that a waiting stop request brings when it is taken (R325, causes 4 and 5). -/
  stopFaults : BitVec 6 := 0
  /-- The lane pool was exhausted under a channel of the group: fallback at its boundary (R71). -/
  fallReq   : Option Nat := none
  last      : LastFault := {}
  deriving DecidableEq, Repr

/-- Link states (Table 05-15, L.01). -/
inductive LinkPhase where
  | down | training | configuring | trained | lost
  deriving DecidableEq, Repr

/-- The code of a link state in L.01. -/
def LinkPhase.code : LinkPhase → Nat
  | .down => 0 | .training => 1 | .configuring => 2 | .trained => 3 | .lost => 4

/-- The companion's parameter table as the TF4812 expects it (Table 05-8). -/
structure ParamTable where
  dP        : Nat := 0
  rateK     : Nat := 20
  mode      : Nat := 0
  lossWin   : Nat := 4
  phases    : Nat := 1
  inc       : Nat := 0x20000000
  ph        : Vector Nat 4 := Vector.replicate 4 0
  tOnNom    : Nat := 1000
  minOff    : Nat := 100
  slope     : Nat := 16
  pressTon  : Nat := 0
  fbEn      : Nat := 0
  fbVref    : Nat := 0
  fbIlim    : Nat := 0
  fbVov     : Nat := 0
  deriving DecidableEq, Repr

/-- One parameter record (Table 05-6). -/
structure ParamRec where
  pid   : Nat
  now   : Bool
  phase : Nat
  value : Nat
  mark  : Nat
  deriving DecidableEq, Repr

/-- Content of one downlink slot (R148, R157). -/
inductive SlotContent where
  /-- A frame: its octets 1 to 19 after the K28.5. -/
  | frame (octets : List Byte)
  | idle | hold | stop
  deriving DecidableEq, Repr

/-- One edge-lock phase of a port (R103): i_k in units of 2^−54 / (4 × 10^11) turn, and TRIM. -/
structure PhaseLock where
  i       : Int := 0
  trim    : Int := 0
  /-- Consecutive edge reports of the phase with |e| ≤ 1/256 turn (R105). -/
  good    : Nat := 0
  limFrom : Option Nat := none
  deriving DecidableEq, Repr

/-- A port's share trim and histories (R185 to R187). -/
structure ShareRun where
  h       : Hist := {}
  trim    : Int := 0
  limFrom : Option Nat := none
  deriving DecidableEq, Repr

/-- Uplink readings of one accepted frame (R165, R180). -/
structure Uplink where
  i      : Vector Int 4 := Vector.replicate 4 0
  vout   : Int := 0
  vin    : Int := 0
  temp   : Int := 0
  line   : Nat := 0
  status : Byte := 0
  digest : Half := 0
  deriving DecidableEq, Repr

/-- Run state of one stage port and its link (Tables 05-15 and 05-17). -/
structure PortRun where
  epoch    : Half := 0
  link     : LinkPhase := .down
  symLock  : Bool := false
  /-- Entry to the present wait of the link: the last Assign, or the entry to Lost. -/
  since    : Nat := 0
  failedAt : Option Nat := none
  assignDue : Bool := false
  assigns  : Nat := 0
  /-- D_p in 1.25 ns units, and the slot of its record in this bring-up. -/
  dp       : Nat := 0
  dpAt     : Option Nat := none
  rounds   : Nat := 0
  readyAt  : Option Nat := none
  identity : Dword := 0
  /-- Identity of the last hello frame, stored when the port is Trained. -/
  hello    : Dword := 0
  /-- Records waiting for this port, in the order of sending. -/
  recs     : List ParamRec := []
  /-- The record travelling in the aux stream, and its next piece (R158). -/
  aux      : Option ParamRec := none
  piece    : Nat := 0
  table    : ParamTable := {}
  /-- Changes under way, oldest first: the table after each and the G of its tagged mark (R93). -/
  nexts    : List (ParamTable × Nat) := []
  /-- Digest reports still to check after a mark, and how many have differed. -/
  digests  : Option Nat := none
  up       : Uplink := {}
  /-- A frame of the present sample has been accepted; a bad frame has come for it. -/
  got      : Bool := false
  spoilt   : Bool := false
  /-- A frame of any kind has come for the present sample; consecutive samples for which none has (R146). -/
  seen     : Bool := false
  silent   : Nat := 0
  /-- STATUS of the last good frame since the port was lost, failed or entered Training. -/
  reported : Byte := 0
  /-- STATUS flags that the port has reported while its group should deliver, at its last frame (R175). -/
  flagged  : Byte := 0
  miss     : Nat := 0
  bad      : Nat := 0
  missing  : Nat := 0
  stale    : Nat := 0
  badDl    : Nat := 0
  staleLast : Byte := 0
  badDlLast : Byte := 0
  losses   : Nat := 0
  tempSeen : Bool := false
  /-- Out of its group until the group's next start (R178). -/
  out      : Bool := false
  stopDue  : Bool := false
  /-- Command words and the G of the slot they are for. -/
  cmd      : Option (Nat × List (BitVec 24)) := none
  code     : Int := 0
  tx       : SlotContent := .idle
  /-- A press symbol is inserted in the present slot (R169). -/
  txPress  : Bool := false
  locks    : Vector PhaseLock 4 := Vector.replicate 4 {}
  share    : ShareRun := {}
  inputDown : Bool := false
  /-- Feed-forward contribution in W, and since when it falls (R197). -/
  contrib  : Int := 0
  /-- The contribution is in force whole: the input has not been seen up since it was latched (R197). -/
  contribHeld : Bool := false
  fallFrom : Option Nat := none
  /-- Input power of the previous sample in W. -/
  pinPrev  : Int := 0
  deriving DecidableEq, Repr

/-- Iron states (Table 04-1). -/
inductive IronPhase where
  | off | idle | fadingIn | active | fadingOut | frozen
  deriving DecidableEq, Repr

/-- The code of an iron state in I+0x02.02. -/
def IronPhase.code : IronPhase → Nat
  | .off => 0 | .idle => 1 | .fadingIn => 2 | .active => 3 | .fadingOut => 4 | .frozen => 5

/-- Run state of one iron. The memory lists the taps that are not 0, ascending, in Q1.19 (R126). -/
structure IronRun where
  phase   : IronPhase := .off
  /-- Fade weight in 2^−48. -/
  w       : Nat := 0
  phi     : Nat := 0
  delta   : Nat := 0
  nTaps   : Nat := 0
  /-- Period in force in ns, 0 none. -/
  period  : Nat := 0
  jPrev   : Nat := 0
  sum     : Int := 0
  count   : Nat := 0
  mem     : List (Nat × Int) := []
  snap    : List (Nat × Int) := []
  dTerm   : Int := 0
  /-- The last interpolated memory value, in 2^−67. -/
  m       : Int := 0
  /-- Iron term of the last sample: 1/65,536 of the source unit, or Q1.23 for INJ = 1. -/
  term    : Int := 0
  relearn : Nat := 0
  sqSum   : Nat := 0
  sqCount : Nat := 0
  rms     : Nat := 0
  /-- RMS of the last full period in Active, and whether the present sums began with a period in Active (R134). -/
  rmsPrev : Option Nat := none
  sqFull  : Bool := false
  /-- The slot of the last sample that the iron has worked in. -/
  doneAt  : Option Nat := none
  rising  : Nat := 0
  strikes : Nat := 0
  estimate : Nat := 0
  cands   : List Nat := []
  /-- The period is invalid (R124). -/
  invalid : Bool := false
  /-- Iron commands 1 and 2 that wait for a boundary, each with the slot in which it arose (R369, R479). -/
  clearReq : Option Nat := none
  releaseReq : Option Nat := none
  deriving DecidableEq, Repr

/-- Run state of input flattening (R136, Table 04-4). -/
structure FlatRun where
  /-- P_tgt in 2^−32 W. -/
  pTgt   : Int := 0
  mean   : Int := 0
  sum    : Int := 0
  count  : Nat := 0
  /-- The present sums cover the period from its start. -/
  whole  : Bool := false
  lo     : Int := 0
  hi     : Int := 0
  swing  : Int := 0
  cause  : Half := 0
  /-- Flattening has left Fading in or Active since it last met the hysteresis band (R139). -/
  left   : Bool := false
  /-- Tap boundaries the leader has crossed (R141). -/
  taps   : Nat := 0
  deriving DecidableEq, Repr

/-- The lanes and the engine SRAM (R66 to R74, R80). -/
structure EngineRun where
  retired : BitVec 17 := 0
  /-- The lane whose work the spare carries, 255 none. -/
  carried : Nat := 255
  /-- The slot in which the spare took the lane over: channels move to it at later boundaries (R69, R479). -/
  carriedAt : Nat := 0
  sramFixed : Nat := 0
  deriving DecidableEq, Repr

/-- Timebase states (Table 03-1). -/
inductive TimebasePhase where
  | free | acquiring | locked | holdover | gliding
  deriving DecidableEq, Repr

/-- The code of a timebase state in 0x5000.05. -/
def TimebasePhase.code : TimebasePhase → Nat
  | .free => 0 | .acquiring => 1 | .locked => 2 | .holdover => 3 | .gliding => 4

/-- Run state of the timebase (R81 to R88). Times of SYNCIN edges are in ps on the `up` scale. -/
structure TimebaseRun where
  phase    : TimebasePhase := .free
  /-- Rate offset ρ in ppb. -/
  rho      : Int := 0
  phaseErr : Int := 0
  lostCount : Nat := 0
  /-- The last edge of each polarity: rising, falling (R84). -/
  lastRise : Option Nat := none
  lastFall : Option Nat := none
  lastValid : Option Nat := none
  validRun : Nat := 0
  closeRun : Nat := 0
  slipRun  : Nat := 0
  holdFrom : Nat := 0
  steeredAt : Nat := 0
  syncout  : Bool := false
  /-- Offset of the last SYNCOUT edge from the start of its slot, in 2.5 ns. -/
  syncoutAt : Nat := 0
  deriving DecidableEq, Repr

/-- The clock of the part: `grid` is G with its fraction in 1/(2 × 10^11) slot, `up` counts always-on
cycles of 2.5 ns, `shelf` is shelf time in 2.5 ns with its fraction in ppb. `slots` counts the grid slots since power-on
reset, over every restart of G: timers and the instants of requests are taken on it (the model's own field). -/
structure Clock where
  grid   : Nat := 0
  slots  : Nat := 0
  frac   : Nat := 0
  up     : Nat := 0
  shelf  : Nat := 0
  shelfFrac : Int := 0
  deriving DecidableEq, Repr

/-- Detector states (Table 03-8). -/
inductive DetectorPhase where
  | disabled | armed | fired
  deriving DecidableEq, Repr

/-- The code of a detector state in D.05. -/
def DetectorPhase.code : DetectorPhase → Nat
  | .disabled => 0 | .armed => 1 | .fired => 2

/-- One sense input: conversion code, reading and the readings before it (R108, R110). -/
structure SenseRun where
  code  : Int := 0
  y     : Int := 0
  prev  : List Int := []
  deriving DecidableEq, Repr

/-- One press detector (R110, R111). -/
structure DetectorRun where
  phase     : DetectorPhase := .disabled
  triggers  : Nat := 0
  qualifier : Bool := false
  aboveFrom : Option Nat := none
  deriving DecidableEq, Repr

/-- One press set (R115 to R118). -/
structure PressRun where
  launches   : Nat := 0
  suppressed : Nat := 0
  burst      : Nat := 0
  /-- The burst is in progress. -/
  burstOpen  : Bool := false
  lastAt     : Option Nat := none
  lastShelf  : Nat := 0
  deriving DecidableEq, Repr

/-- Bus window excursions (R199); totals count conversions of 0.5 µs. -/
structure ExcursionRun where
  opn     : Bool := false
  total   : Nat := 0
  lastAt  : Nat := 0
  largest : Nat := 0
  episodes : Nat := 0
  deriving DecidableEq, Repr

/-- Input loss (R192, R193). -/
structure LossRun where
  declared : Bool := false
  /-- Down fraction d in force, as a quotient (R192). -/
  dNum     : Nat := 0
  dDen     : Nat := 1
  /-- Declared with d below LOSS_FRAC (R193). -/
  returning : Bool := false
  zeroFrom : Option Nat := none
  count    : Nat := 0
  shelfAt  : Nat := 0
  deriving DecidableEq, Repr

/-- Hang time as published (R201, R202). -/
structure HangRun where
  hang   : Nat := 0
  energy : Int := 0
  pAvg   : Int := 0
  short  : Bool := false
  window : Nat := 1000
  deriving DecidableEq, Repr

/-- Shed sequencer states (Table 06-3). -/
inductive ShedPhase where
  | idle | watch | dwell | warn | gap | paused | restoring
  deriving DecidableEq, Repr

/-- The code of a shed sequencer state in 0x2003.06. -/
def ShedPhase.code : ShedPhase → Nat
  | .idle => 0 | .watch => 1 | .dwell => 2 | .warn => 3 | .gap => 4 | .paused => 5 | .restoring => 6

/-- Run state of the shed sequencer (R203 to R206). -/
structure ShedRun where
  phase : ShedPhase := .idle
  since : Nat := 0
  rank  : Nat := 0
  deriving DecidableEq, Repr

/-- Caps in force (R208, R212). -/
structure CapRun where
  cEff    : Int := 0
  bound   : Nat := 0
  seat    : Nat := 255
  thermal : Int := 2147483647
  budget  : Int := 0
  /-- Last change of C_eff, always-on scale. -/
  changed : Option Nat := none
  deriving DecidableEq, Repr

/-- One 1 ms reading of the shelf figures: bus load, shelf input power, rectifier output power, zone power sum, C_eff. -/
structure PowerMs where
  bus  : Int
  inp  : Int
  rect : Int
  zone : Int
  cap  : Int
  deriving DecidableEq, Repr

/-- Run state of the shelf block. -/
structure ShelfRun where
  exc   : ExcursionRun := {}
  loss  : LossRun := {}
  hang  : HangRun := {}
  shed  : ShedRun := {}
  caps  : CapRun := {}
  /-- 1 ms figures, newest first, at most 16 s of them. -/
  power : List PowerMs := []
  deriving DecidableEq, Repr

/-! ### Feeds -/

/-- Feed states (Table 08-2, F+0x02.02). -/
inductive FeedPhase where
  | off | seating | preCharge | on | retryWait | latched
  deriving DecidableEq, Repr

/-- The code of a feed state in F+0x02.02. -/
def FeedPhase.code : FeedPhase → Nat
  | .off => 0 | .seating => 1 | .preCharge => 2 | .on => 3 | .retryWait => 4 | .latched => 5

/-- The four captured extremes of a feed and the 1 ms bins behind the last-second pair (R261). -/
structure FeedCaptures where
  peak   : Int := 0
  peakAt : Nat := 0
  minV   : Int := 0x7FFFFFFF
  minAt  : Nat := 0
  /-- Extremes of the present 1 ms bin: peak current and minimum V_out. -/
  binPeak : Int := 0
  binMin : Int := 0x7FFFFFFF
  /-- The completed bins, newest first, at most 999. -/
  bins   : List (Int × Int) := []
  deriving DecidableEq, Repr

/-- Readings of the last feed tick and the means over the last 1 ms (R245). -/
structure FeedReadings where
  vbus    : Int := 0
  vout    : Int := 0
  current : Int := 0
  /-- Shunt voltage in nV. -/
  shunt   : Int := 0
  seatL   : Bool := false
  seatS   : Bool := false
  sumI    : Int := 0
  sumP    : Int := 0
  ticks   : Nat := 0
  meanI   : Int := 0
  meanP   : Int := 0
  deriving DecidableEq, Repr

/-- Shed signal of a feed (R213, R260). -/
structure ThrRun where
  overGrant : Bool := false
  warned    : Bool := false
  /-- Reasons in force, bits as 0x2030+z.06. -/
  reasons   : Byte := 0
  active    : Bool := false
  since     : Nat := 0
  /-- The feed bank has swapped since power-on reset; FDn_THR is inactive until then (R260). -/
  armed     : Bool := false
  deriving DecidableEq, Repr

/-- Run state of one feed (R246 to R261). -/
structure FeedRun where
  phase    : FeedPhase := .off
  cause    : Nat := 0
  retry    : Nat := 0
  shed     : Bool := false
  /-- Energy estimate in nJ (R249). -/
  energy   : Nat := 0
  /-- I²t integrator in 10^−12 A²·s (R252). -/
  x        : Int := 0
  pcg      : Bool := false
  mng      : Bool := false
  /-- Entry to the present state. -/
  since    : Nat := 0
  /-- First tick of the present run of seated ticks. -/
  seatedFrom : Option Nat := none
  /-- First tick of the present run of drop above DROP_MAX in On (R253). -/
  dropFrom : Option Nat := none
  /-- First tick of the present run with the short pin alone seated (R248), and whether the fault is set. -/
  seatFrom : Option Nat := none
  seatFault : Bool := false
  /-- The comparator has tripped and the trip is not registered yet: the slot of the trip (R251, R259, R479). -/
  ocTrip   : Option Nat := none
  /-- Requests that wait for a tick, each with the slot in which it arose; a stop with its cause (R246, R479). -/
  startReq : Option Nat := none
  stopReq  : Option (Nat × Nat) := none
  clearReq : Option Nat := none
  /-- A clear of the captures and a shed step that wait for a tick (R256, R261). -/
  capsReq  : Option Nat := none
  shedReq  : Option Nat := none
  /-- The waiting start request came from a host alone (R257, R293). -/
  startHost : Bool := false
  rd       : FeedReadings := {}
  caps     : FeedCaptures := {}
  thr      : ThrRun := {}
  grant    : Int := 0
  thermalMark : Bool := false
  deriving DecidableEq, Repr

/-! ### Collector and scorebook -/

/-- One record of the scorebook ring (Table 11-5); the payload holds octets 16 to 59. -/
structure Record where
  time    : Nat
  seq     : Nat
  kind    : Nat
  episode : Nat
  payload : List Byte
  deriving DecidableEq, Repr

/-- The episode of the collector (R310, R311, Table 11-14). -/
structure EpisodeRun where
  opn      : Bool := false
  number   : Nat := 0
  openedAt : Nat := 0
  /-- Reaction union, bits as Table 11-2. -/
  union    : BitVec 5 := 0
  joined   : BitVec 512 := 0
  /-- Lint events in the episode. -/
  events   : Nat := 0
  /-- Reaction union and joined count as the status objects show them (R312). -/
  shownUnion  : BitVec 5 := 0
  shownJoined : Nat := 0
  quietFrom : Nat := 0
  ageFrom  : Nat := 0
  lostOpen : Bool := false
  lostClose : Bool := false
  /-- Targets of the stop reactions of the episode, and whether safe state is one of them. -/
  groups   : Word := 0
  feeds    : BitVec 16 := 0
  orders   : BitVec 4 := 0
  safe     : Bool := false
  deriving DecidableEq, Repr

/-- A cause detected by its block in slot `at'` and not registered yet (R302); `own` are the group targets taken at the
detection where they differ from the standing ones (R306). -/
structure Detected where
  src   : Nat
  cause : Nat
  at'   : Nat
  own   : Option Word := none
  deriving DecidableEq, Repr

/-- A latched snapshot: the shelf time and the episode of its latch, and its octets (R314, R319). -/
structure Snapshot where
  time    : Nat
  episode : Nat
  octets  : List Byte
  deriving DecidableEq, Repr

/-- The lint collector (R301 to R313). -/
structure LintRun where
  causes   : Vector Half 512 := Vector.replicate 512 0
  counts   : Vector Nat 512 := Vector.replicate 512 0
  /-- Clear result words 0x8002 (R303). -/
  left     : Vector Word 16 := Vector.replicate 16 0
  episode  : EpisodeRun := {}
  safe     : Bool := false
  detected : List Detected := []
  /-- The two snapshot buffers, opening and closing: what is not written yet (R319). -/
  snapOpen : Option Snapshot := none
  snapClose : Option Snapshot := none
  deriving DecidableEq, Repr

/-- Capture states (Table 11-11, 0x8810+c.06). -/
inductive CapturePhase where
  | off | armed | triggered | saving | held | invalid
  deriving DecidableEq, Repr

/-- The code of a capture state. -/
def CapturePhase.code : CapturePhase → Nat
  | .off => 0 | .armed => 1 | .triggered => 2 | .saving => 3 | .held => 4 | .invalid => 5

/-- Run state of one capture (R322 to R324). A sample is its 32 signals. -/
structure CaptureRun where
  phase   : CapturePhase := .off
  /-- Samples in the staging window, newest first, at most 4,096; none without a window. -/
  window  : Option (List (List Nat)) := none
  /-- Samples taken since the trigger. -/
  after   : Nat := 0
  trigTime : Nat := 0
  trigEpisode : Nat := 0
  trigKind : Nat := 0
  trigSrc  : Nat := 0
  offset  : Nat := 0
  /-- The saved window in MRAM, oldest sample first. -/
  data    : List (List Nat) := []
  dataValid : Bool := false
  /-- Host commands that wait for the next grid slot, oldest first: the command, and the slot in which it arose (R369, R479). -/
  reqs    : List (Nat × Nat) := []
  deriving DecidableEq, Repr

/-- One held or written change of an object by one origin (R320, R321). -/
structure ChangeHold where
  index  : Nat
  sub    : Nat
  /-- Octets 19 to 23 of the record. -/
  origin : List Byte
  /-- G of the last record of this object and origin. -/
  lastAt : Nat
  /-- Held writes: how many, the first old value, the latest value, its length in octets, the time of the latest and the
  episode open then. -/
  count  : Nat := 0
  old    : List Byte := []
  new    : List Byte := []
  len    : Nat := 0
  time   : Nat := 0
  episode : Nat := 0
  deriving DecidableEq, Repr

/-- The scorebook ring, newest record first, and its writer (R314 to R321). -/
structure ScoreRun where
  recs     : List Record := []
  /-- How many of the newest records are still to be written or are being written, so that they do not count yet (R315). -/
  writing  : Nat := 0
  seq      : Nat := 0
  /-- A power-fail warning has stopped every write until the next start (R316). -/
  stopped  : Bool := false
  /-- The firmware runs and writes records; false in hardware-run and bench mode (R318). -/
  firmware : Bool := false
  /-- The position after the newest record holds a record that a warning cut short after this many of its eight words
  (R315 to R317). -/
  torn     : Option Nat := none
  discards : Nat := 0
  merged   : Nat := 0
  holds    : List ChangeHold := []
  captures : Vector CaptureRun 8 := Vector.replicate 8 {}
  /-- Read cursors of the seats; none is the SEQ of the oldest record (R326). -/
  cursors  : Vector (Option Nat) 8 := Vector.replicate 8 none
  deriving DecidableEq, Repr

end Sys2Proof.Machine
end

