-- ==== Sys2Proof/Machine/Service.lean ====
section
/-!
DEFINITION. What the strings, models, rails and sensors hold while they run (plain data).
-/
namespace Sys2Proof.Machine
set_option Elab.async false

/-! ### Battery strings (chapter 7) -/

/-- Charge states (Table 07-2, S+0x04.0B). -/
inductive ChargePhase where
  | bulk | float | hold | topup | settle
  deriving DecidableEq, Repr

/-- The code of a charge state in S+0x04.0B. -/
def ChargePhase.code : ChargePhase → Nat
  | .bulk => 0 | .float => 1 | .hold => 2 | .topup => 3 | .settle => 4

/-- A capacity or checkpoint slot in the learned-values area of MRAM (Table 07-3): words 1 to 3 as 64-bit values. -/
structure LearnSlot where
  seq   : Nat := 0
  state : Nat := 0
  w1    : Dword := 0
  w2    : Dword := 0
  w3    : Dword := 0
  check : Word := 0
  deriving DecidableEq, Repr

/-- A learning cycle in progress (R232, R233). -/
structure LearnCycle where
  /-- A at the start of the cycle, and its start on the always-on scale. -/
  a0     : Int
  from'  : Nat
  /-- Charge counted into the string during the cycle, mC. -/
  inward : Int := 0
  /-- No condition of R232 has failed so far. -/
  good   : Bool := true
  /-- A at the first tick at which BSV fell to EOH_V. -/
  atEoh  : Option Int := none
  deriving DecidableEq, Repr

/-- A slot of a pair under way: its index, its content when complete, and the slot count at its start (R238). -/
structure SlotWrite where
  index : Nat
  slot  : LearnSlot
  from' : Nat
  deriving DecidableEq, Repr

/-- The readings S + 0x04 of a string, a set taken at one string tick (R240). -/
structure StringSet where
  a        : Int := 0
  qc       : Int := 0
  cap      : Int := 360000000
  soc      : Int := 0
  fac      : Int := 0
  wl       : Int := 0
  eohRes   : Nat := 1000
  current  : Int := 0
  bsv      : Int := 0
  phase    : ChargePhase := .bulk
  flags    : Half := 0
  learns   : Nat := 0
  lastFull  : Nat := 0
  lastEmpty : Nat := 0
  deriving DecidableEq, Repr

/-- Run state of one battery string (R215 to R242). -/
structure StringRun where
  /-- Hardware accumulator A in mC, and the remainder below 1 mC as a quotient (R216). -/
  a        : Int := 0
  remNum   : Int := 0
  remDen   : Nat := 1
  /-- String current over the last tick in mA, positive into the string, and BSV in mV. -/
  current  : Int := 0
  bsv      : Int := 0
  /-- String current over the last sample period of its group (R218). -/
  fast     : Int := 0
  phase    : ChargePhase := .bulk
  iCv      : Int := 0
  /-- First tick of the present run of the termination, recharge and empty conditions. -/
  termFrom  : Option Nat := none
  rechgFrom : Option Nat := none
  emptyFrom : Option Nat := none
  /-- The empty anchor of the present run has been applied (R228). -/
  emptyDone : Bool := false
  aRef     : Int := 0
  cap      : Int := 360000000
  eohRes   : Nat := 1000
  learns   : Nat := 0
  lastFull  : Nat := 0
  lastEmpty : Nat := 0
  /-- An empty anchor has been applied since the string's last charge (R229). -/
  emptied  : Bool := false
  disagree : Bool := false
  early    : Bool := false
  uncertain : Bool := false
  rejected : Bool := false
  learnLost : Bool := false
  cycle    : Option LearnCycle := none
  /-- Offset Δ of the facility form in 1/60,000 of 0.01 % (R235). -/
  delta    : Int := 0
  /-- Facility and workload forms in 0.01 %. -/
  fac      : Int := 0
  wl       : Int := 0
  /-- The first string tick after a start is done (R231). -/
  counted  : Bool := false
  slots    : Vector LearnSlot 2 := Vector.replicate 2 {}
  checks   : Vector LearnSlot 2 := Vector.replicate 2 {}
  /-- The slot that holds the capacity in force, 2 none. -/
  inForce  : Nat := 2
  /-- A capacity commit and a count checkpoint under way (R238). -/
  writing  : Option SlotWrite := none
  checking : Option SlotWrite := none
  /-- The readings of the last string tick (R240). -/
  seen     : StringSet := {}
  /-- String commands 1 and 2 that wait for a tick, each with the slot in which it arose (R369, R479). -/
  clearReq : Option Nat := none
  restoreReq : Option Nat := none
  deriving DecidableEq, Repr

/-! ### Soak models (chapter 10) -/

/-- Action states (Table 10-3, M+0x05.06). -/
inductive ModelPhase where
  | running | shutDown | latched
  deriving DecidableEq, Repr

/-- The code of an action state. -/
def ModelPhase.code : ModelPhase → Nat
  | .running => 0 | .shutDown => 1 | .latched => 2

/-- Sums of a model's inputs over the present step (R284). -/
structure ModelSums where
  v    : Int := 0
  nV   : Nat := 0
  iAbs : Int := 0
  iSq  : Int := 0
  nI   : Nat := 0
  /-- A reading used in the step was at a limit of its scale (R294). -/
  bad  : Bool := false
  deriving DecidableEq, Repr

/-- The readings M + 0x05 of a model, a set of one model step (R299). -/
structure ModelSet where
  temp    : Int := 0
  node2   : Int := 0
  node3   : Int := 0
  loss    : Int := 0
  inlet   : Int := 5500
  phase   : ModelPhase := .running
  /-- Bits as M+0x05.07. -/
  flags   : Byte := 0
  entries : Nat := 0
  lastEntry : Nat := 0
  cap     : Int := 2147483647
  deriving DecidableEq, Repr

/-- Run state of one soak model (R283 to R298). Node temperatures are in 2^−16 °C. -/
structure ModelRun where
  t1    : Int := 0
  t2    : Int := 0
  t3    : Int := 0
  /-- The nodes have their start value (R287). -/
  set   : Bool := false
  /-- A first temperature report that arrived before the first step. -/
  report : Option Int := none
  /-- Loss P in W as read, and in µW as the network takes it. -/
  loss  : Int := 0
  lossU : Int := 0
  /-- T in 0.01 °C. -/
  temp  : Int := 0
  inlet : Int := 5500
  inletLost : Bool := false
  /-- Acceptance of the host write of the inlet that is in force, and of one that waits for its step, always-on scale. -/
  hostAt : Option Nat := none
  hostNew : Option Nat := none
  warning : Bool := false
  throttle : Bool := false
  shut  : Bool := false
  phase : ModelPhase := .running
  invalid : Bool := false
  invalidFrom : Option Nat := none
  /-- Shelf times of the two latest entries to Shut-down in ns, newest first. -/
  entries : List Nat := []
  cap   : Int := 2147483647
  sums  : ModelSums := {}
  /-- The readings of the last model step (R299). -/
  seen  : ModelSet := {}
  deriving DecidableEq, Repr

/-! ### Rails and batting orders (chapter 9) -/

/-- Rail states (Table 09-1, A+0x01.01). -/
inductive RailPhase where
  | off | delay | enabling | good | discharging
  deriving DecidableEq, Repr

/-- The code of a rail state. -/
def RailPhase.code : RailPhase → Nat
  | .off => 0 | .delay => 1 | .enabling => 2 | .good => 3 | .discharging => 4

/-- Run state of one rail. Instants are numbers of sequencer ticks. -/
structure RailRun where
  phase    : RailPhase := .off
  since    : Nat := 0
  failed   : Bool := false
  blocked  : Bool := false
  timeout  : Bool := false
  /-- The rail's reset is asserted (R271). -/
  asserted : Bool := true
  /-- First tick of the present run of good and of not good readings; last tick that read good. -/
  goodFrom : Option Nat := none
  badFrom  : Option Nat := none
  lastGood : Nat := 0
  goodTime : Nat := 0
  deriving DecidableEq, Repr

/-- Batting order states (Table 09-2, O.02). -/
inductive OrderPhase where
  | off | rising | up | falling | dropped
  deriving DecidableEq, Repr

/-- The code of an order state. -/
def OrderPhase.code : OrderPhase → Nat
  | .off => 0 | .rising => 1 | .up => 2 | .falling => 3 | .dropped => 4

/-- The readings O.02 to O.04, O.06 and O.07 of an order, a set taken at one sequencer tick (R282). -/
structure OrderSet where
  phase   : OrderPhase := .off
  queued  : Bool := false
  degraded : Bool := false
  droppedFlag : Bool := false
  members : Word := 0
  good    : Word := 0
  deriving DecidableEq, Repr

/-- Run state of one batting order with its fault record (R275, R276). -/
structure OrderRun where
  phase    : OrderPhase := .off
  queued   : Bool := false
  degraded : Bool := false
  droppedFlag : Bool := false
  drops    : Nat := 0
  faultRail : Nat := 255
  faultCause : Nat := 0
  faultTime : Nat := 0
  faultPg  : Word := 0
  faultEn  : Word := 0
  /-- Requests that wait for a tick, each with the slot in which it arose (R276, R479). -/
  upReq    : Option Nat := none
  downReq  : Option Nat := none
  /-- Order command 3 that waits for a tick, likewise (R369). -/
  clearReq : Option Nat := none
  /-- The readings of the last tick (R282). -/
  seen     : OrderSet := {}
  deriving DecidableEq, Repr

/-- The sequencer: its tick count, the PGIN levels of the last tick, the EN and RSTO levels that the readings 0x7040 show of it
(R282), and whether its outputs are driven (R277). -/
structure SequencerRun where
  tick   : Nat := 0
  pgin   : Word := 0
  seenEn : Word := 0
  seenRsto : Half := 0
  driven : Bool := false
  deriving DecidableEq, Repr

/-! ### Temperature sensors (R426, R427) -/

/-- One polled sensor: reading in 0.01 °C, shelf time of the last successful poll, status 0 never, 1 good, 2 failed. -/
structure SensorRun where
  reading : Int := 0
  time    : Nat := 0
  status  : Nat := 0
  /-- Stamps of the last successful poll and of the last time a poll fell due, always-on scale. -/
  goodAt  : Option Nat := none
  dueAt   : Option Nat := none
  deriving DecidableEq, Repr

/-! ### Two-wire controller ports (R421 to R428) -/

/-- Controller port states (Table 15-1, 0xA000+t.03; Recovery reads as busy). -/
inductive TwPhase where
  | disabled | idle | busy | recovery | stuck
  deriving DecidableEq, Repr

/-- The code of a port state. -/
def TwPhase.code : TwPhase → Nat
  | .disabled => 0 | .idle => 1 | .busy => 2 | .recovery => 2 | .stuck => 3

/-- Run state of one controller port. -/
structure TwRun where
  phase   : TwPhase := .disabled
  /-- The sensor whose transaction is under way. -/
  polling : Nat := 255
  /-- Sensors whose polls are due and not started. -/
  due     : List Nat := []
  since   : Nat := 0
  recoveries : Nat := 0
  errors  : Nat := 0
  /-- The cause port stuck holds: from an entry to Stuck to the next recovery that ends in Idle. -/
  stuck   : Bool := false
  deriving DecidableEq, Repr

/-! ### Fuses (R407 to R416) -/

/-- An operation of the fuse controller that is under way. -/
inductive FuseOp where
  | read | margin | stitch
  deriving DecidableEq, Repr

/-- The fuse array, its shadows and the fuse controller. `burned` holds, for each word, the bits whose cells have
been burned; a read may miss bits whose two cells are weak. -/
structure FuseRun where
  burned  : Vector Word 256 := Vector.replicate 256 0
  shadow  : Vector Word 256 := Vector.replicate 256 0
  /-- Sticky locks of TRIM, IDENT, OWNER, LIMIT, SEAL, SPARE (R412). -/
  locks   : BitVec 6 := 0
  addr    : Nat := 0
  value   : Word := 0
  margin  : Word := 0
  baste   : Word := 0
  status  : Nat := 0
  busy    : Option (FuseOp × Nat × Nat) := none
  /-- The seat that asked for the operation, 255 internal. -/
  seat    : Nat := 255
  marginal : List Nat := []
  /-- Always-on stamp of the last margin sweep; none while the sweep of a start is due (R411). -/
  sweep   : Option Nat := none
  deriving DecidableEq, Repr

/-- The array as it leaves test: TRIM, IDENT and SPARE closed, every other word 0. -/
def fusesAtTest : Vector Word 256 :=
  Vector.ofFn (fun w => if w.val = 63 || w.val = 79 || w.val = 255 then 1 else 0)

end Sys2Proof.Machine
end

