-- ==== Sys2Proof/Machine/Settings.lean ====
section
/-!
DEFINITION. Settings outside the banks: the Mark, Tap and Reply kinds of Table 13-1.
Every record has the sub-entries of its object table, their defaults, and one get? and put by sub-entry.
-/
namespace Sys2Proof.Machine
set_option Elab.async false

/-- Timebase settings (R90). -/
structure TimebaseCfg where
  cfg : Word := 0x141400
  syncOffset : Nat := 0
  syncHold : Nat := 100000
  syncoutOffset : Nat := 0
  deriving DecidableEq, Repr

/-- The stored value of the sub-entry, if it is one of this record. -/
def TimebaseCfg.get? (x : TimebaseCfg) (sub : Nat) : Option Int :=
  match sub with
  | 1 => some x.cfg.toNat
  | 2 => some x.syncOffset
  | 3 => some x.syncHold
  | 4 => some x.syncoutOffset
  | _ => none

/-- The record with one sub-entry replaced; unchanged where the sub-entry is none of its own. -/
def TimebaseCfg.put (x : TimebaseCfg) (sub : Nat) (v : Int) : TimebaseCfg :=
  match sub with
  | 1 => { x with cfg := BitVec.ofInt 32 v }
  | 2 => { x with syncOffset := v.toNat }
  | 3 => { x with syncHold := v.toNat }
  | 4 => { x with syncoutOffset := v.toNat }
  | _ => x

/-- Settings of one sense input (R108, R109). -/
structure SenseCfg where
  div : Nat := 1000
  offset : Int := 0
  deriving DecidableEq, Repr

/-- The stored value of the sub-entry, if it is one of this record. -/
def SenseCfg.get? (x : SenseCfg) (sub : Nat) : Option Int :=
  match sub with
  | 1 => some x.div
  | 2 => some x.offset
  | _ => none

/-- The record with one sub-entry replaced; unchanged where the sub-entry is none of its own. -/
def SenseCfg.put (x : SenseCfg) (sub : Nat) (v : Int) : SenseCfg :=
  match sub with
  | 1 => { x with div := v.toNat }
  | 2 => { x with offset := v }
  | _ => x

/-- Settings of one press set (R114). -/
structure PressSetCfg where
  mask : BitVec 48 := 0x0
  pressTon : Nat := 500
  holdoff : Nat := 50
  burstMax : Nat := 8
  deriving DecidableEq, Repr

/-- The stored value of the sub-entry, if it is one of this record. -/
def PressSetCfg.get? (x : PressSetCfg) (sub : Nat) : Option Int :=
  match sub with
  | 1 => some x.mask.toNat
  | 2 => some x.pressTon
  | 3 => some x.holdoff
  | 4 => some x.burstMax
  | _ => none

/-- The record with one sub-entry replaced; unchanged where the sub-entry is none of its own. -/
def PressSetCfg.put (x : PressSetCfg) (sub : Nat) (v : Int) : PressSetCfg :=
  match sub with
  | 1 => { x with mask := BitVec.ofInt 48 v }
  | 2 => { x with pressTon := v.toNat }
  | 3 => { x with holdoff := v.toNat }
  | 4 => { x with burstMax := v.toNat }
  | _ => x

/-- Settings of one press detector (R112). -/
structure DetectorCfg where
  cfg : Word := 0x0
  pressLevel : Int := 0
  armLevel : Int := 0
  pressSlope : Nat := 20
  deriving DecidableEq, Repr

/-- The stored value of the sub-entry, if it is one of this record. -/
def DetectorCfg.get? (x : DetectorCfg) (sub : Nat) : Option Int :=
  match sub with
  | 1 => some x.cfg.toNat
  | 2 => some x.pressLevel
  | 3 => some x.armLevel
  | 4 => some x.pressSlope
  | _ => none

/-- The record with one sub-entry replaced; unchanged where the sub-entry is none of its own. -/
def DetectorCfg.put (x : DetectorCfg) (sub : Nat) (v : Int) : DetectorCfg :=
  match sub with
  | 1 => { x with cfg := BitVec.ofInt 32 v }
  | 2 => { x with pressLevel := v }
  | 3 => { x with armLevel := v }
  | 4 => { x with pressSlope := v.toNat }
  | _ => x

/-- Flattening settings (R141). -/
structure FlatCfg where
  flatBand : Int := 10000
  flatRamp : Nat := 2000
  socLo : Nat := 8000
  socHi : Nat := 9500
  socHyst : Nat := 100
  direct : Int := 2097152
  deriving DecidableEq, Repr

/-- The stored value of the sub-entry, if it is one of this record. -/
def FlatCfg.get? (x : FlatCfg) (sub : Nat) : Option Int :=
  match sub with
  | 1 => some x.flatBand
  | 2 => some x.flatRamp
  | 3 => some x.socLo
  | 4 => some x.socHi
  | 5 => some x.socHyst
  | 6 => some x.direct
  | _ => none

/-- The record with one sub-entry replaced; unchanged where the sub-entry is none of its own. -/
def FlatCfg.put (x : FlatCfg) (sub : Nat) (v : Int) : FlatCfg :=
  match sub with
  | 1 => { x with flatBand := v }
  | 2 => { x with flatRamp := v.toNat }
  | 3 => { x with socLo := v.toNat }
  | 4 => { x with socHi := v.toNat }
  | 5 => { x with socHyst := v.toNat }
  | 6 => { x with direct := v }
  | _ => x

/-- Bus and window settings (R199, R214). -/
structure BusCfg where
  busSn : Nat := 0
  winLo : Int := 53460
  winHi : Int := 54540
  deriving DecidableEq, Repr

/-- The stored value of the sub-entry, if it is one of this record. -/
def BusCfg.get? (x : BusCfg) (sub : Nat) : Option Int :=
  match sub with
  | 1 => some x.busSn
  | 2 => some x.winLo
  | 3 => some x.winHi
  | _ => none

/-- The record with one sub-entry replaced; unchanged where the sub-entry is none of its own. -/
def BusCfg.put (x : BusCfg) (sub : Nat) (v : Int) : BusCfg :=
  match sub with
  | 1 => { x with busSn := v.toNat }
  | 2 => { x with winLo := v }
  | 3 => { x with winHi := v }
  | _ => x

/-- Input loss settings (R192, R193). -/
structure LossCfg where
  vinLoss : Int := 360000
  lossFrac : Nat := 100
  inputQual : Nat := 2000000
  takeoverV : Int := 54000
  deriving DecidableEq, Repr

/-- The stored value of the sub-entry, if it is one of this record. -/
def LossCfg.get? (x : LossCfg) (sub : Nat) : Option Int :=
  match sub with
  | 1 => some x.vinLoss
  | 2 => some x.lossFrac
  | 3 => some x.inputQual
  | 4 => some x.takeoverV
  | _ => none

/-- The record with one sub-entry replaced; unchanged where the sub-entry is none of its own. -/
def LossCfg.put (x : LossCfg) (sub : Nat) (v : Int) : LossCfg :=
  match sub with
  | 1 => { x with vinLoss := v }
  | 2 => { x with lossFrac := v.toNat }
  | 3 => { x with inputQual := v.toNat }
  | 4 => { x with takeoverV := v }
  | _ => x

/-- Hang-time settings (R201). -/
structure HangCfg where
  eohV : Int := 44000
  htEff : Int := 4068475
  deriving DecidableEq, Repr

/-- The stored value of the sub-entry, if it is one of this record. -/
def HangCfg.get? (x : HangCfg) (sub : Nat) : Option Int :=
  match sub with
  | 1 => some x.eohV
  | 2 => some x.htEff
  | _ => none

/-- The record with one sub-entry replaced; unchanged where the sub-entry is none of its own. -/
def HangCfg.put (x : HangCfg) (sub : Nat) (v : Int) : HangCfg :=
  match sub with
  | 1 => { x with eohV := v }
  | 2 => { x with htEff := v }
  | _ => x

/-- Shed sequencer settings (R204). -/
structure ShedCfg where
  shedV : Int := 52000
  shedDwell : Nat := 2000
  shedWarn : Nat := 1000
  shedGap : Nat := 50000
  restoreGap : Nat := 200000
  deriving DecidableEq, Repr

/-- The stored value of the sub-entry, if it is one of this record. -/
def ShedCfg.get? (x : ShedCfg) (sub : Nat) : Option Int :=
  match sub with
  | 1 => some x.shedV
  | 2 => some x.shedDwell
  | 3 => some x.shedWarn
  | 4 => some x.shedGap
  | 5 => some x.restoreGap
  | _ => none

/-- The record with one sub-entry replaced; unchanged where the sub-entry is none of its own. -/
def ShedCfg.put (x : ShedCfg) (sub : Nat) (v : Int) : ShedCfg :=
  match sub with
  | 1 => { x with shedV := v }
  | 2 => { x with shedDwell := v.toNat }
  | 3 => { x with shedWarn := v.toNat }
  | 4 => { x with shedGap := v.toNat }
  | 5 => { x with restoreGap := v.toNat }
  | _ => x

/-- Configuration of one rail (R280). -/
structure RailCfg where
  cfg : Word := 0x70000000
  preds : Word := 0x0
  onDelay : Nat := 0
  pgTimeout : Nat := 50000
  pgDeg : Nat := 100
  disWait : Nat := 5000
  disTimeout : Nat := 1000000
  rstStretch : Nat := 100000
  deriving DecidableEq, Repr

/-- The stored value of the sub-entry, if it is one of this record. -/
def RailCfg.get? (x : RailCfg) (sub : Nat) : Option Int :=
  match sub with
  | 1 => some x.cfg.toNat
  | 2 => some x.preds.toNat
  | 3 => some x.onDelay
  | 4 => some x.pgTimeout
  | 5 => some x.pgDeg
  | 6 => some x.disWait
  | 7 => some x.disTimeout
  | 8 => some x.rstStretch
  | _ => none

/-- The record with one sub-entry replaced; unchanged where the sub-entry is none of its own. -/
def RailCfg.put (x : RailCfg) (sub : Nat) (v : Int) : RailCfg :=
  match sub with
  | 1 => { x with cfg := BitVec.ofInt 32 v }
  | 2 => { x with preds := BitVec.ofInt 32 v }
  | 3 => { x with onDelay := v.toNat }
  | 4 => { x with pgTimeout := v.toNat }
  | 5 => { x with pgDeg := v.toNat }
  | 6 => { x with disWait := v.toNat }
  | 7 => { x with disTimeout := v.toNat }
  | 8 => { x with rstStretch := v.toNat }
  | _ => x

/-- Configuration of one batting order (R282). -/
structure OrderCfg where
  autoUp : Bool := false
  deriving DecidableEq, Repr

/-- The stored value of the sub-entry, if it is one of this record. -/
def OrderCfg.get? (x : OrderCfg) (sub : Nat) : Option Int :=
  match sub with
  | 5 => some (if x.autoUp then 1 else 0)
  | _ => none

/-- The record with one sub-entry replaced; unchanged where the sub-entry is none of its own. -/
def OrderCfg.put (x : OrderCfg) (sub : Nat) (v : Int) : OrderCfg :=
  match sub with
  | 5 => { x with autoUp := decide (v = 1) }
  | _ => x

/-- Episode settings (R310, R309). -/
structure EpisodeCfg where
  epQuiet : Nat := 100000
  epMax : Nat := 10000000
  safeKeep : BitVec 4 := 0x0
  deriving DecidableEq, Repr

/-- The stored value of the sub-entry, if it is one of this record. -/
def EpisodeCfg.get? (x : EpisodeCfg) (sub : Nat) : Option Int :=
  match sub with
  | 6 => some x.epQuiet
  | 7 => some x.epMax
  | 10 => some x.safeKeep.toNat
  | _ => none

/-- The record with one sub-entry replaced; unchanged where the sub-entry is none of its own. -/
def EpisodeCfg.put (x : EpisodeCfg) (sub : Nat) (v : Int) : EpisodeCfg :=
  match sub with
  | 6 => { x with epQuiet := v.toNat }
  | 7 => { x with epMax := v.toNat }
  | 10 => { x with safeKeep := BitVec.ofInt 4 v }
  | _ => x

/-- Reaction word and masks of one lint source (R305, R306). -/
structure ReactCfg where
  word : Word := 0x101
  groups : Word := 0x0
  feeds : BitVec 16 := 0x0
  orders : BitVec 4 := 0x0
  deriving DecidableEq, Repr

/-- The stored value of the sub-entry, if it is one of this record. -/
def ReactCfg.get? (x : ReactCfg) (sub : Nat) : Option Int :=
  match sub with
  | 1 => some x.word.toNat
  | 2 => some x.groups.toNat
  | 3 => some x.feeds.toNat
  | 4 => some x.orders.toNat
  | _ => none

/-- The record with one sub-entry replaced; unchanged where the sub-entry is none of its own. -/
def ReactCfg.put (x : ReactCfg) (sub : Nat) (v : Int) : ReactCfg :=
  match sub with
  | 1 => { x with word := BitVec.ofInt 32 v }
  | 2 => { x with groups := BitVec.ofInt 32 v }
  | 3 => { x with feeds := BitVec.ofInt 16 v }
  | 4 => { x with orders := BitVec.ofInt 4 v }
  | _ => x

/-- Change hold-off setting (R321). -/
structure RingCfg where
  chgHoldoff : Nat := 100000
  deriving DecidableEq, Repr

/-- The stored value of the sub-entry, if it is one of this record. -/
def RingCfg.get? (x : RingCfg) (sub : Nat) : Option Int :=
  match sub with
  | 5 => some x.chgHoldoff
  | _ => none

/-- The record with one sub-entry replaced; unchanged where the sub-entry is none of its own. -/
def RingCfg.put (x : RingCfg) (sub : Nat) (v : Int) : RingCfg :=
  match sub with
  | 5 => { x with chgHoldoff := v.toNat }
  | _ => x

/-- Settings of one 10BASE-T1S port (R363). -/
structure T1sCfg where
  word : Word := 0xFF080001
  udpPort : Nat := 47730
  deriving DecidableEq, Repr

/-- The stored value of the sub-entry, if it is one of this record. -/
def T1sCfg.get? (x : T1sCfg) (sub : Nat) : Option Int :=
  match sub with
  | 1 => some x.word.toNat
  | 2 => some x.udpPort
  | _ => none

/-- The record with one sub-entry replaced; unchanged where the sub-entry is none of its own. -/
def T1sCfg.put (x : T1sCfg) (sub : Nat) (v : Int) : T1sCfg :=
  match sub with
  | 1 => { x with word := BitVec.ofInt 32 v }
  | 2 => { x with udpPort := v.toNat }
  | _ => x

/-- Settings of one CAN FD controller (R363). -/
structure CanCfg where
  word : Word := 0x2101
  deriving DecidableEq, Repr

/-- The stored value of the sub-entry, if it is one of this record. -/
def CanCfg.get? (x : CanCfg) (sub : Nat) : Option Int :=
  match sub with
  | 1 => some x.word.toNat
  | _ => none

/-- The record with one sub-entry replaced; unchanged where the sub-entry is none of its own. -/
def CanCfg.put (x : CanCfg) (sub : Nat) (v : Int) : CanCfg :=
  match sub with
  | 1 => { x with word := BitVec.ofInt 32 v }
  | _ => x

/-- Settings of one two-wire target port (R363). -/
structure TargetCfg where
  word : Word := 0x5861
  deriving DecidableEq, Repr

/-- The stored value of the sub-entry, if it is one of this record. -/
def TargetCfg.get? (x : TargetCfg) (sub : Nat) : Option Int :=
  match sub with
  | 1 => some x.word.toNat
  | _ => none

/-- The record with one sub-entry replaced; unchanged where the sub-entry is none of its own. -/
def TargetCfg.put (x : TargetCfg) (sub : Nat) (v : Int) : TargetCfg :=
  match sub with
  | 1 => { x with word := BitVec.ofInt 32 v }
  | _ => x

/-- Settings of one two-wire controller port (R426). -/
structure TwPortCfg where
  en : Bool := false
  rate : Nat := 1
  deriving DecidableEq, Repr

/-- The stored value of the sub-entry, if it is one of this record. -/
def TwPortCfg.get? (x : TwPortCfg) (sub : Nat) : Option Int :=
  match sub with
  | 1 => some (if x.en then 1 else 0)
  | 2 => some x.rate
  | _ => none

/-- The record with one sub-entry replaced; unchanged where the sub-entry is none of its own. -/
def TwPortCfg.put (x : TwPortCfg) (sub : Nat) (v : Int) : TwPortCfg :=
  match sub with
  | 1 => { x with en := decide (v = 1) }
  | 2 => { x with rate := v.toNat }
  | _ => x

/-- Settings of one polled sensor (R426). -/
structure SensorCfg where
  port : Nat := 255
  addr : Nat := 72
  stype : Nat := 0
  pollInt : Nat := 1000000
  deriving DecidableEq, Repr

/-- The stored value of the sub-entry, if it is one of this record. -/
def SensorCfg.get? (x : SensorCfg) (sub : Nat) : Option Int :=
  match sub with
  | 1 => some x.port
  | 2 => some x.addr
  | 3 => some x.stype
  | 4 => some x.pollInt
  | _ => none

/-- The record with one sub-entry replaced; unchanged where the sub-entry is none of its own. -/
def SensorCfg.put (x : SensorCfg) (sub : Nat) (v : Int) : SensorCfg :=
  match sub with
  | 1 => { x with port := v.toNat }
  | 2 => { x with addr := v.toNat }
  | 3 => { x with stype := v.toNat }
  | 4 => { x with pollInt := v.toNat }
  | _ => x

/-- Settings of one waveform capture (R322, R323): configuration word, 32 signal selectors, PRE and TRIG_SRC. -/
structure CaptureCfg where
  word    : Word := 0x00010100
  signals : Vector Nat 32 := Vector.replicate 32 0
  pre     : Nat := 1024
  trigSrc : Nat := 0
  deriving DecidableEq, Repr

/-- Default binding words of the seats (R329, Table 12-2). -/
def seatBindingDefault (s : Nat) : Word := 
  if s < 2 then 0x1E000F01 else if s < 6 then 0x1E000F02 else if s = 6 then 0x1E001001 else 0x1E002F04

/-- Default rights words of the areas (R333, Table 12-4). -/
def rightsDefault (a : Nat) : Byte := 
  ([0x15, 0x35, 0x31, 0x35, 0x37, 0x3F, 0x33, 0x33, 0x33, 0x3F, 0x33, 0x37,
    0x37, 0x33, 0x33, 0x33, 0x37, 0x33, 0x37, 0x31, 0x35, 0x33, 0x33, 0x10] : List Byte).getD a 0

/-- Every setting outside the banks that a host writes and the parameter store keeps. -/
structure Settings where
  timebase : TimebaseCfg := {}
  senses   : Vector SenseCfg 32 := Vector.replicate 32 {}
  psets    : Vector PressSetCfg 4 := Vector.replicate 4 {}
  dets     : Vector DetectorCfg 8 := Vector.replicate 8 {}
  flat     : FlatCfg := {}
  bus      : BusCfg := {}
  loss     : LossCfg := {}
  hang     : HangCfg := {}
  shed     : ShedCfg := {}
  /-- Shelf input cap requests of the seats; 2,147,483,647 is no request (R207). -/
  capShelf : Vector Int 8 := Vector.replicate 8 2147483647
  capZone  : Vector (Vector Int 8) 16 := Vector.replicate 16 (Vector.replicate 8 2147483647)
  rails    : Vector RailCfg 32 := Vector.replicate 32 {}
  orders   : Vector OrderCfg 4 := Vector.replicate 4 {}
  episode  : EpisodeCfg := {}
  reacts   : Vector ReactCfg 512 := Vector.replicate 512 {}
  ring     : RingCfg := {}
  captures : Vector CaptureCfg 8 := Vector.replicate 8 {}
  bindings : Vector Word 8 := Vector.ofFn (fun s => seatBindingDefault s.val)
  rights   : Vector Byte 24 := Vector.ofFn (fun a => rightsDefault a.val)
  t1s      : Vector T1sCfg 2 := Vector.replicate 2 {}
  cans     : Vector CanCfg 2 := Vector.replicate 2 {}
  tts      : Vector TargetCfg 2 := Vector.ofFn (fun t => { word := if t.val = 0 then 0x5861 else 0x5971 })
  ptpWord  : Word := 0
  presWindow : Nat := 600000000
  updateSoc : Nat := 6000
  twPorts  : Vector TwPortCfg 4 := Vector.replicate 4 {}
  sensors  : Vector SensorCfg 16 := Vector.replicate 16 {}
  wdtTimeout : Nat := 100000
  /-- Hardware-run mode as written; it takes effect at the next capture (R41). -/
  hwMode   : Nat := 0
  deriving DecidableEq, Repr

end Sys2Proof.Machine
end

