-- ==== Sys2Proof/Machine/Store.lean ====
section
/-!
DEFINITION. What MRAM and the always-on section hold beside the units: safe set, working configuration, firmware
slots, boot record, loads, presence and seal (R39 to R43, R357 to R360, R383 to R406).
-/
namespace Sys2Proof.Machine
set_option Elab.async false

/-! ### Safe set and working configuration -/

/-- What a safe-set copy holds (R39, R40, R279, R309): its 32-bit sequence number, the active banks, the settings in force, the
mode of its header, what was running or enabled at the capture, and C_eff. -/
structure SafeContent where
  seq    : Nat
  banks  : Banks
  cfg    : Settings
  hwMode : Nat
  /-- Groups in soft start, run, retry wait or fallback; feeds on; orders in Rising or Up. -/
  groups : Word
  feeds  : BitVec 16
  orders : BitVec 4
  cEff   : Int
  deriving DecidableEq, Repr

/-- One safe-set copy: its content, and the CRC-32 stored with it, none until it is written (R39, R40). -/
structure SafeCopy extends SafeContent where
  crc    : Option Word := none
  deriving DecidableEq, Repr

end Sys2Proof.Machine

/-- The CRC-32 over the content of a safe-set copy: a free value, since R39 gives no layout of that content in octets
(assumption 130). -/
opaque Sys2Proof.Config.freeSafeCrc : Sys2Proof.Machine.SafeContent → Sys2Proof.Word

namespace Sys2Proof.Machine

/-- The CRC of a copy matches its content (R39). -/
def SafeCopy.valid (c : SafeCopy) : Bool := c.crc == some (Config.freeSafeCrc c.toSafeContent)

/-- The two copies, none where nothing has been written, and the capture status 0x20F8.03 (R40). -/
structure SafeSet where
  copyA  : Option SafeCopy := none
  copyB  : Option SafeCopy := none
  status : Nat := 0
  /-- A capture is being written, into copy A where true. -/
  writing : Option Bool := none
  deriving DecidableEq, Repr

/-- A copy that is valid (R39). -/
def validCopy (c : Option SafeCopy) : Option SafeCopy := c.filter SafeCopy.valid

/-- The valid copy with the higher sequence number (R39). -/
def SafeSet.newest (x : SafeSet) : Option SafeCopy :=
  match validCopy x.copyA, validCopy x.copyB with
  | some a, some b => if a.seq < b.seq then some b else some a
  | some a, none => some a
  | none, b => b

/-- A capture goes into the older copy: an invalid one first, copy A before copy B (R40). -/
def SafeSet.overA (x : SafeSet) : Bool :=
  match validCopy x.copyA, validCopy x.copyB with
  | none, _ => true
  | some _, none => false
  | some a, some b => decide (a.seq < b.seq)

/-- The working configuration as the parameter store keeps it, with the role epochs (R44, R449). -/
structure WorkingCfg where
  banks  : Banks := {}
  cfg    : Settings := {}
  epochs : Vector Half 48 := Vector.replicate 48 0
  deriving DecidableEq, Repr

/-- The migration copy of the learned-values area: the slots of every string and the last-fault records (R383, R395). -/
structure LearnedCopy where
  slots  : Vector (Vector LearnSlot 2) 8
  checks : Vector (Vector LearnSlot 2) 8
  faults : Vector LastFault 32
  deriving DecidableEq, Repr

/-- The two halves of the working configuration, of which the boot record names the one in use, and the migration copy
(R383, R395). -/
structure WorkingStore where
  halves : Vector WorkingCfg 2 := Vector.replicate 2 {}
  copy   : Option LearnedCopy := none
  deriving DecidableEq, Repr

/-- One half. -/
def WorkingStore.half (x : WorkingStore) (h : Nat) : WorkingCfg := vget x.halves h {}

/-! ### Firmware slots (Table 14-3) -/

/-- A firmware slot: its octets, and whether a load has left it unusable. -/
structure SlotImage where
  content  : List Byte := []
  unusable : Bool := false
  deriving DecidableEq, Repr

/-- The header fields of the image that slot A ships with: version 2.3 build 118, data version 1, a body of one
octet 0. -/
def shippedHeader : List Byte :=
  [0x4c, 0x50, 0x53, 0x31, 0x01, 0x00, 0x00, 0x00, 0x76, 0x00, 0x03, 0x02, 0x01, 0x00, 0x00, 0x00,
   0x01, 0x00, 0x00, 0x00, 0x00, 0x00, 0x00, 0x00, 0x8d, 0xef, 0x02, 0xd2, 0x6e, 0x34, 0x0b, 0x9c,
   0xff, 0xb3, 0x7a, 0x98, 0x9c, 0xa5, 0x44, 0xe6, 0xbb, 0x78, 0x0a, 0x2c, 0x78, 0x90, 0x1d, 0x3f,
   0xb3, 0x37, 0x38, 0x76, 0x85, 0x11, 0xa3, 0x06, 0x17, 0xaf, 0xa0, 0x1d, 0x83, 0xbe, 0xb1, 0x4d]

/-- The image that slot A ships with. -/
def shippedImage : List Byte := shippedHeader ++ List.replicate 193 0

/-! ### The boot record (R389) and the start -/

/-- The content of the boot record. The image of slot A or B has been marked good; the mark of the active slot is the one that
R389 names, that of the other is what R391 asks of a fallback. -/
structure BootRecord where
  active   : Nat := 0
  goodA    : Bool := true
  goodB    : Bool := false
  /-- Trial slot, 255 none. -/
  trial    : Nat := 255
  count    : Nat := 0
  /-- A start attempt is open (R392), of the trial slot, and whether a power-fail warning excuses it. -/
  attempt  : Bool := false
  ofTrial  : Bool := false
  excused  : Bool := false
  cause    : Nat := 0
  stored   : Nat := 1
  /-- A migration copy is held, and the old configuration in the half that is not in use (R395). -/
  migrated : Bool := false
  /-- Half of the working configuration in use. -/
  half     : Nat := 0
  ownerLock : Bool := false
  reason   : Nat := 0
  /-- Reason that the next start takes in place of 0x00 or 0x01. -/
  next     : Option Nat := none
  deriving DecidableEq, Repr

/-- The image of a slot has been marked good. -/
def BootRecord.good (r : BootRecord) (k : Nat) : Bool := if k = 0 then r.goodA else r.goodB

/-- The mark of a slot set or removed. -/
def BootRecord.mark (r : BootRecord) (k : Nat) (b : Bool) : BootRecord :=
  if k = 0 then { r with goodA := b } else { r with goodB := b }

/-- One copy of the boot record: its SEQ, its STATE, 1 while it is written and 2 at the end, its content, and its CRC-32
(R238, R389). -/
structure BootCopy where
  seq    : Nat
  state  : Nat
  record : BootRecord
  crc    : Word
  deriving DecidableEq, Repr

/-- The octets of a copy that its CRC-32 covers: SEQ, STATE 2 and the items of R389 in their order. DESIGN CHOICE (assumption
143): R389 gives no places of these items in the copy, and nothing outside the part reads them. -/
def bootOctets (seq : Nat) (r : BootRecord) : List Byte :=
  let flag (b : Bool) : Nat := if b then 1 else 0
  leBytes 4 seq ++ leBytes 4 2 ++ [r.active, flag r.goodA, flag r.goodB, r.trial, r.count, flag r.attempt, flag r.ofTrial,
    flag r.excused, r.cause, flag r.migrated, r.half, flag r.ownerLock, r.reason, (r.next.map (· + 1)).getD 0].flatMap (leBytes 1) ++
  leBytes 4 r.stored

/-- The check of a record with its SEQ (R238, R389). -/
def bootCrc (seq : Nat) (r : BootRecord) : Word := crc32 (bootOctets seq r)

/-- The boot record in force, and its copies A and B in MRAM (R389). -/
structure BootStore extends BootRecord where
  copyA : Option BootCopy := some { seq := 1, state := 2, record := {}, crc := bootCrc 1 {} }
  copyB : Option BootCopy := none
  /-- A commit under way, into copy A where true, and its start on the always-on scale. -/
  writing : Option (Bool × Nat) := none
  deriving DecidableEq, Repr

/-- A copy that is valid: STATE 2 and a check that is right (R238, R389). -/
def BootCopy.valid (c : BootCopy) : Bool := c.state == 2 && c.crc == bootCrc c.seq c.record

def validBoot (c : Option BootCopy) : Option BootCopy := c.filter BootCopy.valid

/-- The newest valid copy, which is in force (R389). -/
def BootStore.newest (x : BootStore) : Option BootCopy :=
  match validBoot x.copyA, validBoot x.copyB with
  | some a, some b => if a.seq < b.seq then some b else some a
  | some a, none => some a
  | none, b => b

/-- A commit goes into the copy that is not in force (R238). -/
def BootStore.overA (x : BootStore) : Bool :=
  match validBoot x.copyA, validBoot x.copyB with
  | none, _ => true
  | some _, none => false
  | some a, some b => decide (a.seq < b.seq)

/-- The commit under way is complete (R238). -/
def BootStore.commitDone (x : BootStore) : BootStore :=
  let whole (c : Option BootCopy) : Option BootCopy := c.map (fun c => { c with state := 2, crc := bootCrc c.seq c.record })
  match x.writing with
  | some (true, _) => { x with copyA := whole x.copyA, writing := none }
  | some (false, _) => { x with copyB := whole x.copyB, writing := none }
  | none => x

/-- A record is committed: the next SEQ and STATE 1 first, the check and STATE 2 at the end (R238, R389). -/
def BootStore.commit (x : BootStore) (r : BootRecord) (now : Nat) : BootStore :=
  let x := x.commitDone
  let c : BootCopy := { seq := (match x.newest with | some c => (c.seq + 1) % 4294967296 | none => 1), state := 1, record := r, crc := 0 }
  let toA := x.overA
  { toBootRecord := r, copyA := if toA then some c else x.copyA, copyB := if toA then x.copyB else some c
    writing := some (toA, now) }

/-- A commit that has taken 50 µs is complete (R238, R239). -/
def BootStore.commitEnd (x : BootStore) (now : Nat) : BootStore :=
  match x.writing with
  | some (_, t) => if 20000 ≤ now - t then x.commitDone else x
  | none => x

/-- Where the start of the TF4812 stands (R384): in reset, the boot ROM before a slot is verified, the cores released,
the dictionary served, bench mode. -/
inductive BootPhase where
  | held | rom | starting | serving | bench
  deriving DecidableEq, Repr

/-- States of a load (Table 14-8, 0x9001.03): Applying and Writing are `busy`, Applied and Written are `done`. -/
inductive LoadPhase where
  | empty | loading | loaded | verified | busy | done | failed
  deriving DecidableEq, Repr

/-- The code of a load state (Table 13-6). -/
def LoadPhase.code : LoadPhase → Nat
  | .empty => 0 | .loading => 1 | .loaded => 2 | .verified => 3 | .busy => 4 | .done => 5 | .failed => 6

/-- The patch or the image load (Table 14-8). -/
structure LoadRun where
  phase   : LoadPhase := .empty
  content : List Byte := []
  failure : Nat := 0
  seat    : Nat := 255
  /-- Entry to `done`, always-on scale, and whether it was in bench mode (R398). -/
  doneAt  : Nat := 0
  inBench : Bool := false
  deriving DecidableEq, Repr

/-- Run state of boot, clocks and resets. -/
structure BootRun where
  phase   : BootPhase := .held
  /-- The reset under way or last ended was a power-on reset. -/
  powerOn : Bool := true
  /-- Start of a warm reset on the always-on scale, and whether WARM_RESET_END has ended its hold (R445). -/
  heldFrom : Nat := 0
  ended   : Bool := false
  /-- RESET_N is low (R445). -/
  resetLow : Bool := false
  /-- Since when every supply has been up after a power-on reset, always-on scale; none once that is 1 ms (R458). -/
  riseAt  : Option Nat := none
  /-- VDD_AO is absent (R459). -/
  aoLost  : Bool := false
  cause   : Nat := 0
  warm    : Nat := 0
  lastAt  : Nat := 0
  starts  : Nat := 0
  startAt : Nat := 0
  /-- Release of the cores and last service of the watchdog, always-on scale. -/
  released : Nat := 0
  served  : Nat := 0
  watchdogs : Nat := 0
  /-- The firmware services its watchdog at its first service after the release (R453). -/
  alive   : Bool := false
  checkpoint : Bool := false
  locked  : Bool := false
  losses  : Nat := 0
  /-- 0 crystal, 1 REFIN; and whether a reference has been selected before (R440, R447). -/
  reference : Nat := 0
  refKnown : Bool := false
  aoHz    : Nat := 0
  aoBad   : Bool := false
  /-- The slot that runs. -/
  slot    : Nat := 0
  /-- Blocks left out of the commit of a start, by R24 identifier (R386). -/
  leftOut : List Nat := []
  /-- A power-fail warning has begun during the reset (R452). -/
  warned  : Bool := false
  /-- Sticky refusal causes word 0x9001.04. -/
  refusals : Half := 0
  deriving DecidableEq, Repr

/-! ### Presence and the seal (R357 to R359) -/

/-- Physical presence. -/
structure PresenceRun where
  /-- Start of the running window, always-on scale. -/
  window : Option Nat := none
  jumper : Bool := false
  deriving DecidableEq, Repr

/-- The seal: the sequence that drives SEAL_A, and consecutive checks that matched (100 at most) and that differed. -/
structure SealRun where
  seq     : BitVec 15 := 1
  matched : Nat := 0
  differed : Nat := 0
  armed   : Bool := false
  broken  : Bool := false
  stitched : Bool := false
  breakAt : Nat := 0
  deriving DecidableEq, Repr

end Sys2Proof.Machine
end

