-- ==== Sys2Proof/Machine/State.lean ====
section
/-!
DEFINITION. The state of the TF4812: everything the manual gives the part, as plain data, and its value after
power-on reset.
-/
namespace Sys2Proof.Machine
set_option Elab.async false

/-- The ways a command can stop the part: none. Every command of the table has an effect in the manual, so no
meaning raises a fault (safe: nothing is hidden behind one). -/
inductive Fault where
  deriving DecidableEq, Repr

/-- Why the model declines a command. -/
inductive Refusal where
  /-- The command has no meaning in this model yet; raised only by an arm of `exec`. Safe: nothing is proved of it. -/
  | notModelled (mnemonic : String)
  deriving DecidableEq, Repr

/-- The TF4812. -/
structure State where
  /-- Commands that wait, first in first out. -/
  pending  : List Instr := []
  /-- What the present command has put on the host transports. -/
  out      : List Sent := []
  clock    : Clock := {}
  tb       : TimebaseRun := {}
  /-- Active and pending banks (R19), and the settings outside banks. -/
  active   : Banks := {}
  staged   : Banks := {}
  cfg      : Settings := {}
  chans    : Vector ChannelRun 128 := Vector.replicate 128 {}
  groups   : Vector GroupRun 32 := Vector.replicate 32 {}
  ports    : Vector PortRun 48 := Vector.replicate 48 {}
  irons    : Vector IronRun 16 := Vector.replicate 16 {}
  flat     : FlatRun := {}
  engine   : EngineRun := {}
  senses   : Vector SenseRun 32 := Vector.replicate 32 {}
  dets     : Vector DetectorRun 8 := Vector.replicate 8 {}
  presses  : Vector PressRun 4 := Vector.replicate 4 {}
  shelf    : ShelfRun := {}
  strings  : Vector StringRun 8 := Vector.replicate 8 {}
  feeds    : Vector FeedRun 16 := Vector.replicate 16 {}
  models   : Vector ModelRun 65 := Vector.replicate 65 {}
  rails    : Vector RailRun 32 := Vector.replicate 32 {}
  orders   : Vector OrderRun 4 := Vector.replicate 4 {}
  seq      : SequencerRun := {}
  fuses    : FuseRun := {}
  tws      : Vector TwRun 4 := Vector.replicate 4 {}
  sensors  : Vector SensorRun 16 := Vector.replicate 16 {}
  lint     : LintRun := {}
  score    : ScoreRun := {}
  boot     : BootRun := {}
  bootRec  : BootStore := {}
  slots    : Vector SlotImage 2 := Vector.ofFn (fun i => if i.val = 0 then { content := shippedImage } else {})
  patch    : LoadRun := {}
  image    : LoadRun := {}
  safeSet  : SafeSet := {}
  working  : WorkingStore := {}
  presence : PresenceRun := {}
  tamper   : SealRun := {}
  seats    : Vector SeatRun 8 := Vector.replicate 8 {}
  t1s      : Vector T1sRun 2 := Vector.replicate 2 {}
  cans     : Vector CanRun 2 := Vector.replicate 2 {}
  tts      : Vector TargetRun 2 := Vector.replicate 2 {}
  ptp      : PtpRun := {}
  /-- Rate adjustment of shelf time in ppb (R364). -/
  ptpAdj   : Int := 0
  commits  : CommitRun := {}
  hardwareRun : Bool := false
  /-- ALIVE (R453). -/
  alive    : Bool := false
  /-- Draws of free values so far: the model's own field, not the manual's. -/
  draws    : Nat := 0
  deriving DecidableEq, Repr

/-- The part as its first power-on reset leaves it (R445, Table 16-3): VDD_AO has just risen, so the cause is 0x01 and
shelf time and the charge counts are 0; every register at its reset value, the queue empty, the phase before PLL lock.
Fuses, firmware slot A and the boot record are as the part ships. Values the manual does not state: assumption 7. -/
def State.reset : State := { fuses := { burned := fusesAtTest }, boot := { cause := 1 } }

end Sys2Proof.Machine
end

