-- ==== Sys2Proof/Machine/Operands.lean ====
section
/-!
DEFINITION. The fields of the configuration words, by the manual's names.
-/
namespace Sys2Proof.Machine
set_option Elab.async false

/-! ### Channel configuration word (Table 02-7) -/

def ChannelBank.group (b : ChannelBank) : Nat := bitsOf b.cfg 29 24
def ChannelBank.kind (b : ChannelBank) : Nat := bitsOf b.cfg 17 16
def ChannelBank.order (b : ChannelBank) : Bool := bitAt b.cfg 8
def ChannelBank.inv (b : ChannelBank) : Bool := bitAt b.cfg 1
def ChannelBank.en (b : ChannelBank) : Bool := bitAt b.cfg 0
/-- Kind of the input source (Table 02-8). -/
def srcKind (src : Nat) : Nat := src / 4096 % 16
/-- Number of the input source (Table 02-8). -/
def srcNum (src : Nat) : Nat := src % 256

/-! ### Group configuration word (Table 02-10) -/

def GroupBank.rate (b : GroupBank) : Nat := bitsOf b.core.cfg 26 24
def GroupBank.mode (b : GroupBank) : Nat := bitsOf b.core.cfg 21 20
def GroupBank.primary (b : GroupBank) : Nat := bitsOf b.core.cfg 14 8

/-- Grid slots per sample of a RATE value (Tables 02-5 and 05-2); RATE 7 has none. -/
def rateSlots : Nat → Nat
  | 0 => 1 | 1 => 2 | 2 => 4 | 3 => 8 | 4 => 20 | 5 => 40 | _ => 200

/-- Slots per sample of a group. -/
def GroupBank.k (b : GroupBank) : Nat := rateSlots b.rate

/-- The ports of the group's port list, ascending. -/
def GroupBank.members (b : GroupBank) : List Nat := setBits b.core.ports

/-! ### Port configuration word (Table 01-3) -/

def PortBank.group (b : PortBank) : Nat := bitsOf b.cfg 29 24
def PortBank.role (b : PortBank) : Nat := bitsOf b.cfg 19 16
/-- Phase count, 1 to 4. -/
def PortBank.phases (b : PortBank) : Nat := bitsOf b.cfg 9 8 + 1
def PortBank.phEn (b : PortBank) : Nat := bitsOf b.cfg 7 4
/-- Phase `k` is enabled. -/
def PortBank.phaseOn (b : PortBank) (k : Nat) : Bool := (b.phEn >>> k) % 2 == 1 && k < b.phases

/-- Port roles (Table 01-2). -/
def roleRectifier : Nat := 1
def roleBattery : Nat := 2

/-! ### Iron configuration word (Table 04-3) -/

def IronBank.target (b : IronBank) : Nat := bitsOf b.cfg 30 24
def IronBank.leader (b : IronBank) : Nat := bitsOf b.cfg 19 16
def IronBank.psrc (b : IronBank) : Nat := bitsOf b.cfg 9 8
def IronBank.function (b : IronBank) : Nat := bitsOf b.cfg 5 4
def IronBank.inj (b : IronBank) : Bool := bitAt b.cfg 1
def IronBank.en (b : IronBank) : Bool := bitAt b.cfg 0

/-! ### Timebase and detector words (Tables 03-3 and 03-11) -/

def TimebaseCfg.syncoutDiv (b : TimebaseCfg) : Nat := bitsOf b.cfg 23 16
def TimebaseCfg.syncinDiv (b : TimebaseCfg) : Nat := bitsOf b.cfg 15 8
def TimebaseCfg.syncoutEn (b : TimebaseCfg) : Bool := bitAt b.cfg 2
/-- 0 rising edges, 1 falling edges. -/
def TimebaseCfg.syncinPol (b : TimebaseCfg) : Bool := bitAt b.cfg 1
def TimebaseCfg.syncMode (b : TimebaseCfg) : Bool := bitAt b.cfg 0
def DetectorCfg.set (b : DetectorCfg) : Nat := bitsOf b.cfg 5 4
def DetectorCfg.en (b : DetectorCfg) : Bool := bitAt b.cfg 0

/-! ### String and model configuration words used by the engine (Tables 07-5 and 10-3) -/

def StringBank.chargeCh (b : StringBank) : Nat := bitsOf b.cfg 31 24
def StringBank.dischargeCh (b : StringBank) : Nat := bitsOf b.cfg 23 16
/-- MODEL, 255 none. -/
def FeedBank.model (b : FeedBank) : Nat := bitsOf b.core.cfg 31 24
/-- DERATE_CH, 255 none. -/
def ModelBank.derateCh (b : ModelBank) : Nat := bitsOf b.cfg 31 24

end Sys2Proof.Machine
end

