-- ==== Sys2Proof/Machine/Ops.lean ====
section
/-!
DEFINITION. Named operations over the units: reading and changing one unit, reporting a cause to the lint
collector, liveness of ports, power figures, and the values of input sources.
-/
namespace Sys2Proof.Machine
set_option Elab.async false

/-! ### Units by number -/

namespace State

def chan (s : State) (c : Nat) : ChannelRun := vget s.chans c {}
def group (s : State) (g : Nat) : GroupRun := vget s.groups g {}
def port (s : State) (p : Nat) : PortRun := vget s.ports p {}
def iron (s : State) (i : Nat) : IronRun := vget s.irons i {}
def feed (s : State) (z : Nat) : FeedRun := vget s.feeds z {}
def str (s : State) (k : Nat) : StringRun := vget s.strings k {}
def model (s : State) (m : Nat) : ModelRun := vget s.models m {}
def sense (s : State) (n : Nat) : SenseRun := vget s.senses n {}
/-- Active banks by number: what the data path reads (R19, R32). -/
def chanB (s : State) (c : Nat) : ChannelBank := vget s.active.chans c {}
def groupB (s : State) (g : Nat) : GroupBank := vget s.active.groups g {}
def portB (s : State) (p : Nat) : PortBank := vget s.active.ports p {}
def ironB (s : State) (i : Nat) : IronBank := vget s.active.irons i {}
def feedB (s : State) (z : Nat) : FeedBank := vget s.active.feeds z {}
def strB (s : State) (k : Nat) : StringBank := vget s.active.strings k {}
def modelB (s : State) (m : Nat) : ModelBank := vget s.active.models m {}

def onChan (s : State) (c : Nat) (f : ChannelRun → ChannelRun) : State := { s with chans := vmod s.chans c f }
def onGroup (s : State) (g : Nat) (f : GroupRun → GroupRun) : State := { s with groups := vmod s.groups g f }
def onPort (s : State) (p : Nat) (f : PortRun → PortRun) : State := { s with ports := vmod s.ports p f }
def onIron (s : State) (i : Nat) (f : IronRun → IronRun) : State := { s with irons := vmod s.irons i f }
def onFeed (s : State) (z : Nat) (f : FeedRun → FeedRun) : State := { s with feeds := vmod s.feeds z f }
def onStr (s : State) (k : Nat) (f : StringRun → StringRun) : State := { s with strings := vmod s.strings k f }
def onModel (s : State) (m : Nat) (f : ModelRun → ModelRun) : State := { s with models := vmod s.models m f }
def onShelf (s : State) (f : ShelfRun → ShelfRun) : State := { s with shelf := f s.shelf }
def onLint (s : State) (f : LintRun → LintRun) : State := { s with lint := f s.lint }

/-- A cause detected by its block; the collector registers it at the next 2 MHz boundary (R302). -/
def detect (s : State) (src cause : Nat) : State :=
  s.onLint (fun l => { l with detected := l.detected ++ [{ src := src, cause := cause, at' := s.clock.slots }] })

/-- A cause detected with its own group targets, taken before any move that it causes (R306). -/
def detectOwn (s : State) (src cause : Nat) (groups : List Nat) : State :=
  s.onLint (fun l => { l with detected := l.detected ++
    [{ src := src, cause := cause, at' := s.clock.slots, own := some (BitVec.ofNat 32 (groups.foldl (fun a g => a ||| 2 ^ g) 0)) }] })

/-- Causes detected when a condition holds. -/
def detectIf (s : State) (b : Bool) (src cause : Nat) : State := if b then s.detect src cause else s

end State

/-- The counted charge Q_c (R227). -/
def StringRun.qc (r : StringRun) : Int := r.a - r.aRef

/-- SOC_c against a figure of 0.01 %: the sign of the result is that of SOC_c − v, exactly (R227). -/
def StringRun.socOver (r : StringRun) (v : Int) : Int := 10000 * r.qc - v * r.cap

/-- SOC_c as read, in 0.01 % (S+0x04.04). -/
def StringRun.soc (r : StringRun) : Int := roundDiv (10000 * r.qc) r.cap

/-- Elapsed µs since a slot, two slots to the µs (R22). -/
def elapsedUs (s : State) (t0 : Nat) : Nat := (s.clock.slots - t0) / 2

/-- G stands at a multiple of `k` slots: a boundary, tick or mark of that spacing (R22). -/
def State.onGrid (s : State) (k : Nat) : Bool := s.clock.grid % k == 0

/-- A request waits that arose strictly before the present slot, so that the present boundary takes it (R479). -/
def State.due (s : State) (r : Option Nat) : Bool := match r with | some t => decide (t < s.clock.slots) | none => false

/-- A request raised now; one that waits already keeps its instant. -/
def State.raised (s : State) (r : Option Nat) : Option Nat := some (r.getD s.clock.slots)

/-- Elapsed µs of the always-on oscillator since a stamp of `up`, 400 cycles to the µs. -/
def elapsedAo (s : State) (t0 : Nat) : Nat := (s.clock.up - t0) / 400

/-- Shelf time in ns; the resolution is 2.5 ns. -/
def State.shelfNs (s : State) : Nat := s.clock.shelf * 5 / 2

/-- An immediate write of a channel's SETPOINT by an internal block: the pending bank takes it at once, the active bank
at the channel's next boundary (R23). A value that stands and waits for nothing is not written again. -/
def State.writeSetpoint (s : State) (c : Nat) (v : Int) : State :=
  let index := 0x4000 + 0x10 * c + 3
  let waits := s.commits.imm.any (fun w => w.index == index && w.sub == 1)
  if c < 128 && (waits || (vget s.active.chans c {}).setpoint != v || (vget s.staged.chans c {}).setpoint != v) then
    { s with staged := { s.staged with chans := vmod s.staged.chans c (fun b => { b with setpoint := v }) }
             commits := { s.commits with imm := s.commits.imm ++ [{ index := index, sub := 1, value := v, at' := s.clock.grid }] } }
  else s

/-! ### Scorebook records (R314 to R318) -/

/-- The number of the episode open now, 0 none (Table 11-5). -/
def State.openEpisode (s : State) : Nat := if s.lint.episode.opn then s.lint.episode.number else 0

/-- A record begins its way into the ring with the shelf time of its event and the episode open then: it takes the next SEQ,
and in a full ring the place of the oldest (R314). While the firmware does not run only boot events are written (R318), and
after a power-fail warning none (R316). -/
def State.recordAt (s : State) (time episode kind : Nat) (payload : List Byte) : State :=
  if s.score.stopped || !(s.score.firmware || kind == 6) then s
  else
    let r : Record := { time := time, seq := s.score.seq, kind := kind, episode := episode, payload := payload }
    { s with score := { s.score with
      recs := (r :: s.score.recs).take 65536, writing := s.score.writing + 1, seq := (s.score.seq + 1) % 4294967296 } }

/-- A record of an event of the present instant. -/
def State.record (s : State) (kind : Nat) (payload : List Byte) : State :=
  s.recordAt s.shelfNs s.openEpisode kind payload

/-- A block event (Table 11-6): block kind, number, cause and data. -/
def State.blockEvent (s : State) (block number cause : Nat) (data : List Byte) : State :=
  s.record 5 ([BitVec.ofNat 8 block, 0] ++ leBytes 2 number ++ [BitVec.ofNat 8 cause, 0, 0, 0] ++ data)

/-- Nodes of a model that lie below a temperature of 0.01 °C raised to it (R287). -/
def ModelRun.raise (r : ModelRun) (temp : Int) : ModelRun :=
  let t := roundDiv (temp * 65536) 100
  { r with t1 := max r.t1 t, t2 := max r.t2 t, t3 := max r.t3 t }

/-! ### Captures (R322, R323, Table 11-17) -/

def CaptureCfg.crate (c : CaptureCfg) : Nat := bitsOf c.word 18 16
def CaptureCfg.trigKind (c : CaptureCfg) : Nat := bitsOf c.word 9 8
def CaptureCfg.autoRearm (c : CaptureCfg) : Bool := bitAt c.word 0

namespace State

def capture (s : State) (c : Nat) : CaptureRun := vget s.score.captures c {}
def captureC (s : State) (c : Nat) : CaptureCfg := vget s.cfg.captures c {}
def onCapture (s : State) (c : Nat) (f : CaptureRun → CaptureRun) : State :=
  { s with score := { s.score with captures := vmod s.score.captures c f } }

/-- Grid slots between the samples of a capture rate (Tables 02-5 and 11-17). -/
def crateSlots : Nat → Nat | 7 => 2000 | r => rateSlots r

/-- A trigger of capture `c`: a capture that is Armed and has its staging window becomes Triggered (Table 11-11, R324). -/
def captureTrigger (s : State) (c kind src : Nat) : State :=
  if (s.capture c).phase == .armed && (s.capture c).window.isSome then
    s.onCapture c (fun r => { r with
      phase := .triggered, after := 0, trigTime := s.shelfNs, trigEpisode := s.openEpisode, trigKind := kind, trigSrc := src })
  else s

/-- An event of trigger kind `kind` triggers every armed capture set to it; kind 2 is a lint event of TRIG_SRC (R323). -/
def captureEvent (s : State) (kind src : Nat) : State :=
  (List.range 8).foldl (fun s c =>
    let b := s.captureC c
    if b.trigKind == kind && (kind != 2 || b.trigSrc == src) then s.captureTrigger c kind src else s) s

end State

/-- Sum of a list of integers. -/
def sumInt (xs : List Int) : Int := xs.foldl (· + ·) 0

/-! ### Lint sources of Table 11-1 -/

def srcLink (p : Nat) : Nat := 3 * p
def srcCompanion (p : Nat) : Nat := 3 * p + 1
def srcFallback (p : Nat) : Nat := 3 * p + 2
def srcGroup (g : Nat) : Nat := 144 + 3 * g
def srcGroupStart (g : Nat) : Nat := 144 + 3 * g + 1
def srcGroupLock (g : Nat) : Nat := 144 + 3 * g + 2
def srcLane (l : Nat) : Nat := 240 + l
def srcLanePool : Nat := 257
def srcIron (k : Nat) : Nat := 258 + k
def srcString (k : Nat) : Nat := 274 + k
def srcFeed (z : Nat) : Nat := 282 + z
def srcSeating (z : Nat) : Nat := 298 + z
def srcRail (r : Nat) : Nat := 314 + r
def srcOrder (k : Nat) : Nat := 346 + k
def srcModel (m : Nat) : Nat := 350 + m
def srcPress (k : Nat) : Nat := 415 + k
def srcTimebase : Nat := 448
def srcBusWindow : Nat := 449
def srcSafeSet : Nat := 450
def srcTw (t : Nat) : Nat := 451 + t
def srcScorebook : Nat := 455
def srcSupply : Nat := 456
def srcSeal : Nat := 457
def srcFuses : Nat := 458
def srcBoot : Nat := 459
def srcWatchdog : Nat := 460

/-! ### Fused ceilings (R408) -/

/-- The ceiling of four generation words: the highest-numbered one that is not 0, else the device limit. -/
def fusedCeiling (shadow : Vector Word 256) (first limit : Nat) : Nat :=
  ((List.range 4).foldl (fun a k =>
    let v := (vget shadow (first + k) 0).toNat
    if v = 0 then a else some v) none).getD limit

def State.maxBusSetpoint (s : State) : Nat := fusedCeiling s.fuses.shadow 96 65000
def State.maxFeedCurrent (s : State) : Nat := fusedCeiling s.fuses.shadow 100 1000000
def State.capCeiling (s : State) : Nat := fusedCeiling s.fuses.shadow 104 2147483647

/-! ### Membership, liveness and aggregates -/

def allChans : List Nat := List.range 128
def allGroups : List Nat := List.range 32
def allPorts : List Nat := List.range 48
def allIrons : List Nat := List.range 16

namespace State

/-- The channels whose active bank names the group, ascending (R9). -/
def chansOf (s : State) (g : Nat) : List Nat := allChans.filter (fun c => (s.chanB c).group == g)

/-- The ports of the group's active port list. -/
def portsOf (s : State) (g : Nat) : List Nat := (s.groupB g).members

/-- A group is evaluated while it is in soft start or run (R45). -/
def evaluated (s : State) (g : Nat) : Bool := (s.group g).phase == .softStart || (s.group g).phase == .run

/-- A port is live when it is trained and counts in its group's aggregates (R374). -/
def live (s : State) (p : Nat) : Bool :=
  (s.port p).link == .trained && !(s.port p).out && (s.portB p).group < 32

/-- A port that was declared lost at this very sample instant leaves the aggregates from the next sample on (R46). -/
def leaving (s : State) (p : Nat) : Bool :=
  (s.port p).link == .lost && (s.port p).since == s.clock.slots && !(s.port p).out && (s.portB p).group < 32

/-- The ports of a group that its aggregates cover: the live ones, and those lost at this sample (R46). -/
def livePorts (s : State) (g : Nat) : List Nat := (s.portsOf g).filter (fun p => s.live p || s.leaving p)

/-- Output current of a port: the sum over its enabled phases, in mA (R165). -/
def iout (s : State) (p : Nat) : Int :=
  sumInt ((List.range 4).map (fun k => if (s.portB p).phaseOn k then vget (s.port p).up.i k 0 else 0))

/-- Output power of a port in W, rounded to nearest (R181). -/
def pout (s : State) (p : Nat) : Int := roundDiv ((s.port p).up.vout * s.iout p) 1000000

/-- Input power of a port in W: output power and the loss of its soak model (R181). -/
def pin (s : State) (p : Nat) : Int := s.pout p + (s.model p).loss

/-- The live ports of one role on the shelf. -/
def liveOfRole (s : State) (r : Nat) : List Nat := allPorts.filter (fun p => s.live p && (s.portB p).role == r)

/-- The ports of one role that the shelf's sums cover (R46). -/
def summedOfRole (s : State) (r : Nat) : List Nat :=
  allPorts.filter (fun p => (s.live p || s.leaving p) && (s.portB p).role == r)

/-- Shelf input power (R182). -/
def shelfInput (s : State) : Int := sumInt ((s.summedOfRole roleRectifier).map s.pin)

/-- Output power of the live rectifier ports. -/
def rectOut (s : State) : Int := sumInt ((s.summedOfRole roleRectifier).map s.pout)

/-- Bus load P_bus (R182). -/
def busLoad (s : State) : Int := s.rectOut + sumInt ((s.summedOfRole roleBattery).map s.pout)

/-- Mean output voltage over live ports of some groups; none when no port is live. -/
def meanVout (s : State) (gs : List Nat) : Option Int :=
  let ps := gs.flatMap s.livePorts
  if ps.isEmpty then none else some (roundDiv (sumInt (ps.map (fun p => (s.port p).up.vout))) ps.length)

/-- The input of the bus voltage sense, in mV (R199). -/
def busMv (s : State) : Int := (s.sense s.cfg.bus.busSn).y

end State

/-- String current over a sample period of `k` slots from the native units counted in it, in mA (R218). -/
def fastCurrent (b : StringBank) (k : Nat) (native : Int) : Int :=
  let n := if bitAt b.cfg 2 then -native else native
  roundDiv ((20000 * n - b.offsetTrim * k) * (1000000 + b.gainTrim)) (1000 * k * b.shuntR)

/-- The value an input source carries at a sample of `k` slots (R46, R47, Table 02-8); `held` is the value a
kind 3 aggregate keeps while none of its ports is live. -/
def sourceValue (s : State) (src k : Nat) (natives : Vector Int 8) (held : Int) : Int :=
  let n := srcNum src
  match srcKind src with
  | 1 => (s.sense n).y
  | 2 => (s.port n).up.vout
  | 3 => (s.meanVout [n]).getD held
  | 4 => s.iout n
  | 5 => sumInt ((s.livePorts n).map s.iout)
  | 6 => sumInt ((s.livePorts n).map s.pin)
  | 7 => s.shelfInput
  | 8 => (s.model n).temp
  | 9 => fastCurrent (s.strB n) k (vget natives n 0)
  | 10 => (s.port n).up.vin
  | 11 => (s.feed n).rd.current
  | _ => 0

/-! ### Share pools (R183, R184) -/

namespace State

/-- The members of a group's share pool in ascending order; a group without ports is in no pool. -/
def poolOf (s : State) (g : Nat) : List Nat :=
  let v := (s.groupB g).share.sharePool
  if v == 255 || (s.groupB g).core.ports == 0 then [g]
  else allGroups.filter (fun m => (s.groupB m).share.sharePool == v && (s.groupB m).core.ports != 0)

/-- The pool primary: the PRIMARY channel of the lowest-numbered member (R188). -/
def poolPrimary (s : State) (g : Nat) : Nat := (s.groupB ((s.poolOf g).headD g)).primary

/-- The share channel of a group, if it has one (R57). -/
def shareChan (s : State) (g : Nat) : Option Nat := (s.chansOf g).find? (fun c => (s.chanB c).kind == 1)

/-- The share weight of a port in its group's share channel, enabled or not (R191); without one the manual gives no
weight, and it is free. -/
def shareWeight (s : State) (g p : Nat) : Nat :=
  match s.shareChan g with
  | some c => vget (s.chanB c).weights p 0
  | none => Config.freeWeight p

/-- A channel fed by soak models has won within the last 10 ms (R296). -/
def derated (s : State) (g : Nat) : Bool := (s.chansOf g).any (fun c => (s.chan c).derating)

/-- The port counts in its pool (R184, R296). -/
def counts (s : State) (g p : Nat) : Bool :=
  s.live p && s.shareWeight g p != 0 && s.evaluated g && !(s.derated g) &&
  !((s.portB p).role == roleRectifier && (s.port p).inputDown)

/-- The counted ports of a pool with their groups. -/
def counted (s : State) (ms : List Nat) : List (Nat × Nat) :=
  ms.flatMap (fun m => ((s.portsOf m).filter (s.counts m)).map (fun p => (m, p)))

end State

/-! ### Input loss (R192, R193, R196) -/

namespace State

/-- d is at or above LOSS_FRAC (R193). -/
def lossHigh (s : State) : Bool :=
  decide (s.cfg.loss.lossFrac * s.shelf.loss.dDen ≤ 1000 * s.shelf.loss.dNum)

/-- The input loss state: 0 none, 1 declared, 2 declared with d below LOSS_FRAC (R193, 0x2001.05). -/
def lossCode (s : State) : Nat := if !s.shelf.loss.declared then 0 else if s.lossHigh then 1 else 2

/-- The groups of battery-role ports. -/
def batteryGroups (s : State) : List Nat :=
  allGroups.filter (fun g => (s.portsOf g).any (fun p => (s.portB p).role == roleBattery))

/-- Input begins to return: the bank SETPOINT is the target of each battery primary again (R196). -/
def lossReturning (s : State) : State :=
  let s := s.batteryGroups.foldl (fun s g => s.onChan (s.poolPrimary g) (fun r => { r with target := none })) s
  s.onShelf (fun r => { r with loss := { r.loss with returning := true } })

/-- d reaches LOSS_FRAC again before clearance: TAKEOVER_V from the measured value (R196). -/
def lossAgain (s : State) : State :=
  let s := s.batteryGroups.foldl (fun s g => s.onChan (s.poolPrimary g) (fun r =>
    { r with ramp := 65536 * r.y, target := some s.cfg.loss.takeoverV })) s
  s.onShelf (fun r => { r with loss := { r.loss with returning := false } })

/-- Input returns, or is lost again, as d crosses LOSS_FRAC while input loss is declared (R193, R196). -/
def lossEdge (s : State) : State :=
  if !s.shelf.loss.declared then s
  else if s.shelf.loss.returning then (if s.lossHigh then s.lossAgain else s)
  else if s.lossHigh then s else s.lossReturning

/-- The down fraction from the live rectifier ports; 1 when none is live (R192). It is formed again whenever the input
state or the liveness of a rectifier port may have changed, and the rows of R196 follow. -/
def recomputeD (s : State) : State :=
  let live := s.liveOfRole roleRectifier
  let down := (live.filter (fun p => (s.port p).inputDown)).length
  (s.onShelf (fun r => { r with loss := { r.loss with
    dNum := if live.isEmpty then 1 else down
    dDen := if live.isEmpty then 1 else live.length
    zeroFrom := if live.isEmpty || down != 0 then none else some (r.loss.zeroFrom.getD s.clock.slots) } })).lossEdge

end State

/-! ### Targets and thermal holds of soak models (R292, R293) -/

def allModels : List Nat := List.range 65
def allFeeds : List Nat := List.range 16

namespace State

/-- The groups a model stops (R292). -/
def modelGroups (s : State) (m : Nat) : List Nat :=
  let own := if m < 48 && (s.portB m).group < 32 then [(s.portB m).group] else []
  own ++ (setBits (s.modelB m).sdGroups).filter (fun g => !own.contains g)

/-- The feeds a model stops (R292). -/
def modelFeeds (s : State) (m : Nat) : List Nat := allFeeds.filter (fun z => (s.feedB z).model == m)

/-- A model in Shut-down or Latched has the group among its targets (R293). -/
def groupHeld (s : State) (g : Nat) : Bool :=
  allModels.any (fun m => (s.model m).phase != .running && (s.modelGroups m).contains g)

/-- A model in Shut-down or Latched has the feed among its targets (R293). -/
def feedHeld (s : State) (z : Nat) : Bool :=
  allModels.any (fun m => (s.model m).phase != .running && (s.modelFeeds m).contains z)

end State

/-! ### Engine lanes and budget (R67, R68) -/

/-- Evaluations per second of the channels of all groups (R67). -/
def budget (b : Banks) : Nat :=
  (allChans.map (fun c =>
    let g := (vget b.chans c {}).group
    if g < 32 then 2000000 / (vget b.groups g {}).k else 0)).foldl (· + ·) 0

/-- Lanes, spare included, that have not been retired. -/
def EngineRun.healthy (e : EngineRun) : Nat := 17 - (setBits e.retired).length

/-- Capacity C in evaluations per second (R67). -/
def EngineRun.capacity (e : EngineRun) : Nat := 16000000 * min 16 e.healthy

/-- The lanes in use: regular lanes not retired, and the spare once it carries work (R68). -/
def EngineRun.inUse (e : EngineRun) : List Nat :=
  (List.range 16).filter (fun l => !bitAt e.retired l) ++
  (if e.carried != 255 && !bitAt e.retired 16 then [16] else [])

end Sys2Proof.Machine
end

