-- ==== Sys2Proof/Machine/Irons.lean ====
section
/-!
DEFINITION. The iron unit: taps, phase, period, states and input flattening (R122 to R141).

Taps are Q1.19; the interpolated value carries 48 more fraction bits; the fade weight is in 2^−48 (DEDUCED: the
manual gives the formats of taps and errors and no rounding inside the term).
-/
namespace Sys2Proof.Machine
set_option Elab.async false

/-- One turn of the phase pointer. -/
def turn48 : Nat := 281474976710656

/-! ### Tap memory -/

/-- The tap `j`; taps that are not listed hold 0. -/
def tapGet (mem : List (Nat × Int)) (j : Nat) : Int :=
  match mem with
  | [] => 0
  | (i, v) :: rest => if i = j then v else tapGet rest j

/-- The memory with tap `j` set, ascending and without taps that hold 0. -/
def tapPut (mem : List (Nat × Int)) (j : Nat) (v : Int) : List (Nat × Int) :=
  match mem with
  | [] => if v = 0 then [] else [(j, v)]
  | (i, x) :: rest =>
    if i < j then (i, x) :: tapPut rest j v
    else if i = j then (if v = 0 then rest else (j, v) :: rest)
    else if v = 0 then (i, x) :: rest else (j, v) :: (i, x) :: rest

/-- Saturation to Q1.19 (R126). -/
def satQ19 (x : Int) : Int := clampInt (-524288) 524287 x

/-- The stored value after a tap is left: α·filt + l·ē, rounded to Q1.19 and saturated (R125, R126). -/
def tapUpdate (b : IronBank) (n : Nat) (mem : List (Nat × Int)) (j : Nat) (sum : Int) (count : Nat) : Int :=
  let before := tapGet mem ((j + n - 1) % n)
  let after := tapGet mem ((j + 1) % n)
  let filt := b.bandW * before + (4194304 - 2 * b.bandW) * tapGet mem j + b.bandW * after
  satQ19 (roundDiv (b.forget * filt * count + b.learnGain * sum * 262144) (count * 17592186044416))

/-- The value interpolated LEAD taps ahead of the pointer, in 2^−67 (R125). -/
def tapInterp (b : IronBank) (n : Nat) (mem : List (Nat × Int)) (phi : Nat) : Int :=
  let a := (phi * n / turn48 + b.lead) % n
  let m0 := tapGet mem a
  m0 * turn48 + (phi * n % turn48 : Nat) * (tapGet mem ((a + 1) % n) - m0)

/-! ### Members of flattening -/

namespace State

/-- The group that holds the target channel of an iron. -/
def ironGroup (s : State) (i : Nat) : Nat := (s.chanB (s.ironB i).target).group

/-- The enabled flattening leader, if there is one (R135). -/
def flatLeader (s : State) : Option Nat :=
  allIrons.find? (fun i => (s.ironB i).en && (s.ironB i).function == 1)

/-- The leader and its enabled followers (R138). -/
def flatMembers (s : State) : List Nat :=
  match s.flatLeader with
  | none => []
  | some l => l :: allIrons.filter (fun i => (s.ironB i).en && (s.ironB i).function == 2 && (s.ironB i).leader == l)

/-- The strings that a battery group serves: those whose port lists lie in the group. A group has more than one only where
their CTRL_EN is 0 (R12, R220). -/
def stringsOf (s : State) (g : Nat) : List Nat :=
  (List.range 8).filter (fun k => (s.strB k).ports != 0 &&
    (setBits (s.strB k).ports).all (fun p => (s.portB p).group == g))

/-- The group's string: where it serves several, the lowest-numbered of them (DESIGN CHOICE, assumption 122). -/
def stringOf (s : State) (g : Nat) : Option Nat := (s.stringsOf g).head?

/-- Causes that keep flattening from running, as the withdrawal cause word has them (R139, R141). -/
def flatCauses (s : State) (l : Nat) : Half :=
  let socs := (s.flatMembers.filterMap (fun i => s.stringOf (s.ironGroup i))).map s.str
  let bit (b : Bool) (k : Nat) : Half := if b then BitVec.ofNat 16 (2 ^ k) else 0
  bit (socs.any (fun x => decide (x.socOver s.cfg.flat.socLo < 0))) 0 |||
  bit (socs.any (fun x => decide (0 < x.socOver s.cfg.flat.socHi))) 1 |||
  bit (s.flatMembers.any (fun i => (s.group (s.ironGroup i)).phase != .run)) 2 |||
  bit s.shelf.loss.declared 3 |||
  bit (s.iron l).invalid 4 |||
  bit ((s.iron l).phase == .frozen) 5

/-- Every member's group serves a string, whose state of charge R139 asks for; the withdrawal cause word has no bit for a
missing one. -/
def flatServed (s : State) : Bool := s.flatMembers.all (fun i => (s.stringOf (s.ironGroup i)).isSome)

/-- Every member's string lies in the band narrowed by SOC_HYST (R139). -/
def flatInHyst (s : State) : Bool :=
  s.flatMembers.all (fun i =>
    match s.stringOf (s.ironGroup i) with
    | some k => decide (0 ≤ (s.str k).socOver ((s.cfg.flat.socLo : Int) + s.cfg.flat.socHyst)) &&
                decide ((s.str k).socOver ((s.cfg.flat.socHi : Int) - s.cfg.flat.socHyst) ≤ 0)
    | none => false)

/-! ### Period (R124, R130, R132) -/

/-- The middle of a list of line frequencies, the lower middle of an even number. -/
def median (xs : List Nat) : Nat :=
  let ys := xs.mergeSort
  ys.getD ((ys.length - 1) / 2) 0

/-- The period that an iron's source gives, in ns; 0 none (R130). -/
def ironSource (s : State) (i : Nat) : Nat :=
  let b := s.ironB i
  let own (i : Nat) (b : IronBank) : Nat :=
    match b.psrc with
    | 0 => b.period
    | 1 => (s.iron i).estimate
    | _ =>
      let fs := ((s.livePorts (s.ironGroup i)).map (fun p => (s.port p).up.line)).filter (· != 0)
      let f := median fs
      if f = 0 then 0 else (roundDiv 100000000000 (f * b.lineMult)).toNat
  if b.function == 2 then own b.leader (s.ironB b.leader) else own i b

end State

/-- A period is valid from 32 sample periods up to 16 s (R124). -/
def periodValid (p k : Nat) : Bool := 32 * (k * 500) ≤ p && p ≤ 16000000000

/-- Δ and N of a period in force of `p` ns follow TAPS and the sample period of `k` slots (R123); no period, neither. -/
def IronRun.setPeriod (r : IronRun) (b : IronBank) (k p : Nat) : IronRun :=
  if p = 0 then r
  else { r with period := p, delta := (roundDiv (turn48 * (k * 500)) p).toNat % turn48, nTaps := min b.taps (p / (k * 500)) }

/-- A new period against the one in force: within 2 % it stretches the taps, beyond it clears them (R132). A source that gives
no period leaves the one in force. -/
def takePeriod (b : IronBank) (k p : Nat) (r : IronRun) : IronRun :=
  if p = 0 then r.setPeriod b k r.period
  else if r.period = 0 || 50 * (if p ≤ r.period then r.period - p else p - r.period) ≤ r.period then r.setPeriod b k p
  else { r.setPeriod b k p with mem := [], snap := [], relearn := r.relearn + 1 }

/-! ### One sample of an iron -/

/-- The row of Table 04-1 that applies to a leader or channel iron at a sample, in the order of its rows. -/
def ironNext (r : IronRun) (groupRun leaderStop startOk withdraw freeze : Bool) : IronPhase :=
  match r.phase with
  | .off => .off
  | .frozen => .frozen
  | ph =>
    if !groupRun || leaderStop then .idle
    else if freeze then .frozen
    else match ph with
      | .idle => if startOk then .fadingIn else .idle
      | .fadingIn => if withdraw then .fadingOut else if r.w == turn48 then .active else .fadingIn
      | .active => if withdraw then .fadingOut else .active
      | .fadingOut => if startOk then .fadingIn else if r.w == 0 then .idle else .fadingOut
      | other => other

/-- The step of a fade in a sample of `k` slots: T_s / P, at most 1 (R133). -/
def fadeStep (r : IronRun) (k : Nat) : Nat :=
  if r.period = 0 then turn48 else min turn48 (roundDiv (turn48 * (k * 500)) r.period).toNat

/-- The fade weight moves by T_s / P per sample in a fade, and is 0 at once in Idle and Frozen (R133). -/
def ironFade (r : IronRun) (k : Nat) : Nat :=
  match r.phase with
  | .fadingIn => min turn48 (r.w + fadeStep r k)
  | .fadingOut => r.w - fadeStep r k
  | .active => r.w
  | _ => 0

/-- The period figures of the leader begin again: `whole` at the start of a period, else in the middle of one, which then gives
no mean (R136). -/
def FlatRun.restart (f : FlatRun) (whole : Bool) : FlatRun := { f with sum := 0, count := 0, whole := whole }

/-- An iron that is not Active has no period figures under way (R134). -/
def IronRun.offActive (r : IronRun) : IronRun :=
  if r.phase == .active then r else { r with sqFull := false, rmsPrev := none, rising := 0 }

namespace State

/-- State and weight of an iron that leads or works alone, before its term of a sample of `k` slots (R133, R139). -/
def ironState (s : State) (i k : Nat) (freeze : Bool) : State :=
  let b := s.ironB i
  let r := s.iron i
  let run := (s.group (s.ironGroup i)).phase == .run
  let lead := b.function == 1
  let causes := if lead then s.flatCauses i else 0
  let stop := lead && (bitAt causes 2 || bitAt causes 3)
  let band := lead && (bitAt causes 0 || bitAt causes 1 || !s.flatServed)
  let ok := run && !r.invalid && !stop && !band && (!lead || !s.flat.left || s.flatInHyst)
  let ph := ironNext r run stop ok (r.invalid || band) freeze
  let entered := lead && ph == .fadingIn && r.phase != .fadingIn
  let leaves := lead && (r.phase == .active || r.phase == .fadingIn) && !(ph == .active || ph == .fadingIn)
  let s := s.onIron i (fun r => { r with phase := ph, w := ironFade { r with phase := ph } k })
  let s := s.detectIf (ph == .frozen && r.phase != .frozen) (srcIron i) 2
  if lead then
    { s with flat := { s.flat with
        cause := causes
        pTgt := if entered then s.flat.mean * 4294967296 else s.flat.pTgt
        left := if leaves then true else if ph == .fadingIn then false else s.flat.left } }
  else s

/-- P_tgt moves toward the period mean at a tap boundary of the leader (R136). -/
def flatStep (s : State) (r : IronRun) : State :=
  let step := roundDiv (s.cfg.flat.flatRamp * r.period * 4294967296) (r.nTaps * 1000000000)
  let goal := s.flat.mean * 4294967296
  { s with flat := { s.flat with
      taps := s.flat.taps + 1
      pTgt := if s.flat.pTgt ≤ goal then min goal (s.flat.pTgt + step) else max goal (s.flat.pTgt - step) } }

/-- Shelf input power of the sample joins the leader's period figures; a wrap closes the period, and its mean counts where the
figures cover it whole (R136). -/
def flatMean (s : State) (wrapped : Bool) : State :=
  let p := s.shelfInput
  let f := s.flat
  let f := if !wrapped then f
    else (if f.whole && f.count != 0 then { f with mean := roundDiv f.sum f.count, swing := f.hi - f.lo } else f).restart true
  { s with flat := { f with
      sum := f.sum + p, count := f.count + 1
      lo := if f.count = 0 then p else min f.lo p
      hi := if f.count = 0 then p else max f.hi p } }

/-- A wrap of the phase pointer: the RMS of the learning error over the period that ends, and the guard against
divergence, which compares full periods in Active alone (R134). A period that Active covers in part counts for neither. -/
def ironRms (s : State) (i : Nat) : State :=
  s.onIron i (fun r =>
    let rms := if r.sqCount = 0 then 0 else isqrt (r.sqSum / r.sqCount)
    let full := r.phase == .active && r.sqFull
    { r with rms := if r.phase != .active then 0 else if full then rms else r.rms
             rmsPrev := if full then some rms else none
             sqSum := 0, sqCount := 0, sqFull := r.phase == .active
             rising := match r.rmsPrev with
               | some old => if full && 5 * old < 4 * rms then r.rising + 1 else 0
               | none => 0 })

/-- The reference of a flattening member in 1/65,536 mA: −P_k × 10^6 / V_k (R138). -/
def flatReference (s : State) (i : Nat) : State × Int :=
  match s.flatLeader with
  | none => (s, 0)
  | some l =>
    let r := s.iron l
    let bl := s.ironB l
    let members := s.flatMembers.filter (fun j => j == l || (s.group (s.ironGroup j)).phase == .run)
    let wsum : Int := sumInt (members.map (fun j => ((s.ironB j).weight : Int)))
    let v := match s.stringOf (s.ironGroup i) with | some k => (s.str k).bsv | none => 0
    if !members.contains i || r.w = 0 || (s.iron i).w = 0 then (s, 0)
    else if v ≤ 0 then ({ s with draws := s.draws + 1 }, Config.freeIron s.draws)
    else
      -- m + d_term in 2^−67, then W × 65,536 mA scale
      let md := r.m + r.dTerm * 17592186044416
      (s, - roundDiv (r.w * md * bl.injFs * (s.ironB i).weight * 65536000000)
            (wsum * v * turn48 * 147573952589676412928))

/-- The phase of an iron for the sample: a follower mirrors its leader's state and weight until it freezes on its own
residues (R129, R139); the others follow Table 04-1. -/
def ironPhase (s : State) (i k : Nat) (freeze : Bool) : State :=
  let b := s.ironB i
  let s := if b.function == 2 then
      let l := s.iron b.leader
      let frozen := (s.iron i).phase == .frozen || freeze
      (s.detectIf (frozen && (s.iron i).phase != .frozen) (srcIron i) 2).onIron i (fun r =>
        { r with phase := if frozen then .frozen else l.phase, w := if frozen then 0 else l.w })
    else s.ironState i k freeze
  s.onIron i IronRun.offActive

/-- The tap update of an iron and the interpolated value for the sample, while its period is valid (R125). -/
def ironTaps (s : State) (i : Nat) (bad : Bool) : State :=
  let b := s.ironB i
  let r := s.iron i
  let phi := (r.phi + r.delta) % turn48
  let wrapped := phi < r.phi
  let j := phi * r.nTaps / turn48
  let prev := r.jPrev % r.nTaps
  let leave := j != prev
  let mem := if leave && r.count != 0 && !bad then
      tapPut r.mem prev (tapUpdate b r.nTaps r.mem prev r.sum r.count) else r.mem
  let dTerm := if leave && r.count != 0 && !bad && b.function == 1 then
      roundDiv (s.cfg.flat.direct * r.sum) (r.count * 4194304) else r.dTerm
  let s := s.onIron i (fun r => { r with
      phi := phi, mem := mem, dTerm := dTerm, jPrev := j
      -- the snapshot is taken at the boundary that ends a period, so it never mixes taps of two periods
      snap := if wrapped then mem else r.snap
      sum := if leave then 0 else r.sum, count := if leave then 0 else r.count
      m := tapInterp b r.nTaps mem phi })
  let s := if b.function == 1 then
      let s := s.flatMean wrapped
      if leave then s.flatStep r else s
    else s
  if wrapped then s.ironRms i else s

/-- The term of an iron for the sample (R125, R127, R138). -/
def ironTerm (s : State) (i : Nat) : State :=
  let b := s.ironB i
  let r := s.iron i
  if b.function != 0 then
    let (s, t) := s.flatReference i
    s.onIron i (fun r => { r with term := t })
  else
    let t := if b.inj then roundDiv (r.w * r.m * 8388608) (turn48 * 147573952589676412928)
             else roundDiv (r.w * r.m * b.injFs * 65536) (turn48 * 147573952589676412928)
    s.onIron i (fun r => { r with term := t })

/-- One iron's work before the evaluation of its target channel in a sample of `k` slots: period, state, pointer,
tap update and term (R123, R125). The pointer moves at an invalid period too, with the Δ of the period in force. -/
def ironWork (s : State) (i k : Nat) (x : IronFaults) : State :=
  let b := s.ironB i
  let bad := x.residues.contains i
  let s := x.taps.foldl (fun s t => if t.1 == i then
      (s.onIron i (fun r => { r with mem := tapPut r.mem t.2 0 })).detect (srcIron i) 3 else s) s
  let src := s.ironSource i
  let valid := periodValid src k
  let was := (s.iron i).invalid
  let s := s.onIron i (fun r => let r := takePeriod b k src r
                                { r with invalid := !valid, strikes := if bad then r.strikes + 1 else 0
                                         doneAt := some s.clock.slots })
  let s := s.detectIf (!valid && !was) (srcIron i) 0
  let s := s.detectIf bad (srcIron i) 1
  let s := s.ironPhase i k (3 ≤ (s.iron i).strikes || 4 ≤ (s.iron i).rising)
  let r := s.iron i
  if !valid || r.nTaps = 0 then
    let s := if b.function == 1 then { s with flat := s.flat.restart false } else s
    s.onIron i (fun r => { r with phi := (r.phi + r.delta) % turn48, term := 0, m := 0 })
  else
    let s := s.ironTaps i bad
    if bad then s else s.ironTerm i

/-- An iron's work for the sample. A follower's leader works first when its own group has its boundary at the same
instant and has not had it yet, so that the follower takes the leader's figures of this sample (R138). -/
def ironBefore (s : State) (i k : Nat) (x : IronFaults) : State :=
  let once (s : State) (i : Nat) : State := if (s.iron i).doneAt == some s.clock.slots then s else s.ironWork i k x
  let l := (s.ironB i).leader
  let s := if (s.ironB i).function == 2 && (s.iron l).phase != .off && s.onGrid (s.groupB (s.ironGroup l)).k then once s l
    else s
  once s i

/-- The flattening error of the sample (R137). -/
def flatError (s : State) (injFs : Int) : Int :=
  let x := s.shelfInput * 4294967296 - s.flat.pTgt
  let half := s.cfg.flat.flatBand * 2147483648
  let z := if half < x then x - half else if x < -half then x + half else 0
  satQ23 (roundDiv (z * 8388608) (injFs * 4294967296))

/-- The iron's work after selection: the learning error of the sample joins the tap (R125, R128). -/
def ironAfter (s : State) (i : Nat) (x : IronFaults) : State :=
  let b := s.ironB i
  let c := s.chan b.target
  let e := if b.function == 1 then s.flatError b.injFs else c.e
  if (s.iron i).phase == .active && !x.residues.contains i && b.function != 2 then
    s.onIron i (fun r =>
      let r := { r with sqSum := r.sqSum + (e * e).toNat, sqCount := r.sqCount + 1 }
      if c.winner then { r with sum := r.sum + e, count := r.count + 1 } else r)
  else s

/-- The irons that inject into channels of a group. -/
def ironsOf (s : State) (g : Nat) : List Nat :=
  allIrons.filter (fun i => (s.iron i).phase != .off && s.ironGroup i == g)

/-- The irons that work before a sample of a group: its own, and those of its pool primary, which the first member sampled
evaluates, where the primary's group has its boundary at the same instant (R125, R188). -/
def ironsBefore (s : State) (g : Nat) : List Nat :=
  let pc := s.poolPrimary g
  s.ironsOf g ++ allIrons.filter (fun i => (s.iron i).phase != .off && (s.ironB i).target == pc && s.ironGroup i != g &&
    decide (s.ironGroup i < 32) && s.onGrid (s.groupB (s.ironGroup i)).k)

/-- The terms of the irons for one channel: the reference term and the output term (R45). -/
def ironTerms (s : State) (c : Nat) : Int × Int :=
  match allIrons.find? (fun i => (s.iron i).phase != .off && (s.ironB i).target == c) with
  | none => (0, 0)
  | some i => if (s.ironB i).inj then (0, (s.iron i).term) else ((s.iron i).term, 0)

end State

/-- The memory cleared, at a disable, a large period change or command 1 (R133). -/
def IronRun.clear (r : IronRun) : IronRun := { r with mem := [], snap := [], sum := 0, count := 0 }

/-- A frozen iron released to Idle (Table 04-1, iron command 2). -/
def IronRun.release (r : IronRun) : IronRun :=
  if r.phase == .frozen then { r.clear with phase := .idle, w := 0, rising := 0 } else r

namespace State

/-- Iron commands that arose before this boundary of the iron, taken at it: command 1 clears the memory, command 2 releases a
frozen iron (R133, R369, R479). -/
def ironRequests (s : State) (i : Nat) : State :=
  let s := if s.due (s.iron i).clearReq then s.onIron i (fun r => { r.clear with clearReq := none }) else s
  if s.due (s.iron i).releaseReq then s.onIron i (fun r => { r.release with releaseReq := none }) else s

end State
end Sys2Proof.Machine
end

