-- ==== Sys2Proof/Machine/Engine.lean ====
section
/-!
DEFINITION. The control engine: channels, selection, pools, share trim, command codes, group states, lanes
(R45 to R74, R183 to R198, R225, R296).
-/
namespace Sys2Proof.Machine
set_option Elab.async false

/-! ### One channel -/

/-- Every term of the difference equation except b0·e, in the order of R49, saturating after each (R51). -/
def preTerms (b : ChannelBank) (h : Hist) : Int :=
  if b.order then
    sumAcc [b.b1 * h.e1, b.b2 * h.e2, b.b3 * h.e3, b.a1 * h.u1, b.a2 * h.u2, b.a3 * h.u3]
  else sumAcc [b.b1 * h.e1, b.b2 * h.e2, b.a1 * h.u1, b.a2 * h.u2]

/-- An error and a stored output shifted into the histories. -/
def Hist.shift (h : Hist) (e u : Int) : Hist := ⟨e, h.e1, h.e2, u, h.u1, h.u2⟩

/-- Histories of an initialised channel: errors 0, outputs `u` (R59). -/
def Hist.filled (u : Int) : Hist := ⟨0, 0, 0, u, u, u⟩

/-- The output before the clamp: pre + b0·e, rounded and saturated, plus the iron output term (R45, R51). -/
def rawOutput (b : ChannelBank) (pre e term : Int) : Int := accToQ23 (satAcc (pre + b.b0 * e)) + term

/-- The clamp of R52. -/
def clampOut (b : ChannelBank) (u : Int) : Int := max b.uMin (min b.uMax u)

/-- The stored output of R55. -/
def trackOut (b : ChannelBank) (u s margin : Int) : Int := max b.uMin (min u (s + margin))

/-- The target of a channel: SETPOINT, or the target a takeover puts in its place (R195, R196). -/
def ChannelRun.goal (r : ChannelRun) (b : ChannelBank) : Int := r.target.getD b.setpoint

/-- A channel initialised at measured value `y` (R59): ramp at y, errors 0, outputs at U_INIT clamped, or at the fill that
R190, R195, R196 and R225 put in its place, as it is. DESIGN CHOICE (assumption 116): the strike count is not part of an
initialisation; only a sample without a mismatch resets it (R70), so a channel that fell back at a count of 3 starts again
with 3. -/
def ChannelRun.init (r : ChannelRun) (b : ChannelBank) (y uInit : Int) : ChannelRun :=
  let h := Hist.filled (r.fill.getD (clampOut b uInit))
  { r with ramp := 65536 * y, h := h, pre := preTerms b h, fresh := false, fill := none }

/-- Evaluation of a competing channel for one sample (R45 up to the clamp): measured value `y`, iron terms, `k` slots per
sample, and whether a residue mismatch holds it (R69). The strike count stays at 3 once it is there, its range (Table 02-6). A
mismatch at the first sample of soft start: the channel is initialised (R59) and the sample then held at the output it was
filled with (DESIGN CHOICE, assumption 160). DESIGN CHOICE (assumption 116): the status bits at U_MIN and at U_MAX are those
of the clamped output that enters the selector, not of the stored output after the tracking clamp. -/
def ChannelRun.eval (r : ChannelRun) (b : ChannelBank) (y uInit : Int) (terms : Int × Int) (k : Nat) (bad : Bool) :
    ChannelRun × Int :=
  let first := r.fresh
  let r := if first then r.init b y uInit else r
  if bad then ({ r with held := true, y := y, strikes := min 3 (r.strikes + 1) }, r.h.u1)
  else
    let ramp := if first then r.ramp else rampMove r.ramp (65536 * r.goal b) b.slew k
    let e := errQ23 (ramp + terms.1) y b.inFs b.inv
    let u := clampOut b (rawOutput b r.pre e terms.2)
    ({ r with y := y, ramp := ramp, e := e, held := false, strikes := 0
              moving := ramp != 65536 * r.goal b, atMin := u == b.uMin, atMax := u == b.uMax }, u)

/-- The channel with its error and tracked output stored and the next pre-part computed (R45, R55). -/
def ChannelRun.store (r : ChannelRun) (b : ChannelBank) (before : Hist) (e u : Int) : ChannelRun :=
  let h := before.shift e u
  { r with h := h, pre := preTerms b h }

namespace State

/-! ### Measured values -/

/-- The models that feed a derate channel (R295). -/
def feeders (s : State) (c : Nat) : List Nat := (List.range 65).filter (fun m => (s.modelB m).derateCh == c)

/-- The mean that a kind 3 source naming group `n` holds for group `g` (R47). -/
def heldMean (s : State) (g n : Nat) : Int := (((s.group g).means.find? (fun x => x.1 == n)).map (·.2)).getD 0

/-- At a sample of group `g` the mean output voltage of every group that has a live port is kept for the samples in which it has
none (R47). DESIGN CHOICE (assumption 126): the start that ends a held mean is that of the group that is sampled, whichever group
the source names. -/
def keepMeans (s : State) (g : Nat) : State :=
  let means := allGroups.filterMap (fun n =>
    match s.meanVout [n] with
    | some v => some (n, v)
    | none => (s.group g).means.find? (fun x => x.1 == n))
  s.onGroup g (fun r => { r with means := means })

/-- Measured value of channel c for a sample of `k` slots: a pool primary of kind 3 takes the mean over its
running members, a derate channel the hottest feeding model above its threshold (R46, R188, R295). -/
def measure (s : State) (c k : Nat) (pool : List Nat) (natives : Vector Int 8) : Int :=
  let b := s.chanB c
  match s.feeders c with
  | m :: ms =>
    let d (m : Nat) : Int := (s.model m).temp - (s.modelB m).thrT
    ms.foldl (fun a m => max a (d m)) (d m)
  | [] =>
    if srcKind b.src == 3 && !pool.isEmpty then
      (s.meanVout (pool.filter s.evaluated)).getD (s.chan c).poolHold
    else sourceValue s b.src k natives (s.heldMean b.group (srcNum b.src))

/-! ### Requests and states (Table 02-3) -/

/-- The stop symbol becomes due on every port of a group (R63). -/
def stopPorts (s : State) (g : Nat) : State :=
  (s.portsOf g).foldl (fun s p => s.onPort p (fun r => { r with stopDue := true, cmd := none })) s

/-- A fault of the group registers at its boundary for the last-fault record (R325); `c` is the cause code. -/
def groupFault (s : State) (g c : Nat) : State :=
  s.onGroup g (fun r => { r with faultFrom := if r.faults = 0 then r.phase else r.faultFrom
                                 faults := r.faults ||| BitVec.ofNat 6 (2 ^ (c - 1)) })

/-- The group is no longer evaluated; the record of the fault keeps the winner of the sample (R325). -/
def groupOut (s : State) (g : Nat) (ph : GroupPhase) : State :=
  s.onGroup g (fun r => { r with phase := ph, faultWinner := r.winner, winner := 255, primary := 255, fallReq := none })

/-- Entry of a group to fallback: frames withheld, the lint bit and the last-fault record (R62, R64). -/
def enterFallback (s : State) (g : Nat) : State :=
  if s.evaluated g then
    let s := ((s.groupFault g 1).detect (srcGroup g) 0).groupOut g .fallback
    (s.portsOf g).foldl (fun s p => s.onPort p (fun r => { r with cmd := none })) s
  else s

/-- Some other member of the group's pool is in soft start or run (R188, R190). -/
def othersRun (s : State) (g : Nat) : Bool := ((s.poolOf g).filter (· != g)).any s.evaluated

/-- The enabled channels of a group marked to be initialised at its first sample (R56, R59); the pool primary only when no
other member runs, with that member's U_INIT, and the mean of the pool then has no sample yet (R47, R190). -/
def markFresh (s : State) (g : Nat) : State :=
  let pc := s.poolPrimary g
  let first := !s.othersRun g && (s.chanB pc).en
  let own := (s.chansOf g).filter (fun c => (s.chanB c).kind == 0 && (s.chanB c).en && c != pc)
  let s := (if first then pc :: own else own).foldl (fun s c => s.onChan c (fun r =>
      { r with fresh := true, fill := none, target := none, excluded := false })) s
  let s := if s.othersRun g then s else s.onChan pc (fun r => { r with poolHold := 0 })
  if first then s.onChan pc (fun r => { r with fill := some (clampOut (s.chanB pc) (s.groupB g).core.uInit) }) else s

/-- The mode of the group's pool, where another member runs; it applies to every member (R225). -/
def poolSupport (s : State) (g : Nat) : Bool :=
  (((s.poolOf g).filter (fun m => m != g && s.evaluated m)).map (fun m => (s.group m).support)).headD false

/-- A group enters soft start: channels to initialise, lock state and trims 0, ports taken back, timer started
(R59, R103, R178, Table 02-3). A stop symbol that is still due stays due (R168). DESIGN CHOICE (assumptions 41 and 116):
the share rotation starts at its first port again, and the group strike count at 0. -/
def enterSoftStart (s : State) (g : Nat) : State :=
  let s := s.markFresh g
  let others := s.othersRun g
  let support := s.poolSupport g
  let s := (s.portsOf g).foldl (fun s p => s.onPort p (fun r =>
      { r with out := false, locks := Vector.replicate 4 {} })) s
  (s.onGroup g (fun r => { r with
    phase := .softStart, ssFrom := s.clock.slots, sampled := false, modeDue := !others, support := support, exitFrom := none
    means := [], strikes := 0, turn := 0, served := 255, lock := {}, heldStart := false, fallReq := none })).recomputeD

/-- Placed channels that a lane carries. -/
def laneLoad (s : State) (l : Nat) : Nat := (allChans.filter (fun c => (s.chan c).lane == l)).length

/-- Lanes for the placed channels of a group or a swap. The channels spread over the lanes in use: each in turn gets one of
the lanes that carry the fewest (R68; DESIGN CHOICE, assumption 117). Which of these it is, is free. -/
def assignLanes (s : State) (cs : List Nat) : State :=
  let lanes := s.engine.inUse
  let s := if lanes.isEmpty then s else cs.foldl (fun s c => s.onChan c (fun r => { r with lane := 255 })) s
  cs.foldl (fun s c =>
    let low := lanes.foldl (fun a l => min a (s.laneLoad l)) 128
    let free := lanes.filter (fun l => s.laneLoad l == low)
    if free.isEmpty then s
    else { s.onChan c (fun r => { r with lane := free.getD (Config.freeLane s.draws % free.length) 255 }) with
           draws := s.draws + 1 }) s

/-- The present configuration fits the capacity of the lanes that are left (R67, R71). -/
def fitsLanes (s : State) : Bool := decide (budget s.active ≤ s.engine.capacity)

/-- A stop request taken at a boundary (Table 02-3): it drops a start request that the same boundary would take (R62), and
brings the fault causes of its sources (R325). DESIGN CHOICE (assumption 118): it also drops a start request that is held for
an armed commit (R34). -/
def takeStop (s : State) (g : Nat) : State :=
  let r := s.group g
  let s := s.onGroup g (fun r => { r with stopReq := none, heldStart := false, stopFaults := 0, fallReq := none
                                          startReq := if s.due r.startReq then none else r.startReq })
  let fault (s : State) := (setBits r.stopFaults).foldl (fun s c => s.groupFault g (c + 1)) s
  let stop (s : State) := ((fault s).stopPorts g).onGroup g (fun r =>
    { r with phase := .stopped, winner := 255, primary := 255, served := 255 })
  match r.phase with
  | .softStart | .run | .fallback => stop s
  | .retryWait => (fault s).onGroup g (fun r => { r with phase := .stopped, retry := 0 })
  | _ => s

/-- A start request taken at a boundary (Table 02-3); `hold` while an armed commit changes a run-locked
field of the group (R34). Safe state refuses it (R308), and so does a thermal hold, which marks the group unless a host asked
(R293). -/
def takeStart (s : State) (g : Nat) (hold : Bool) : State :=
  let host := (s.group g).startHost
  let s := s.onGroup g (fun r => { r with startReq := none, startHost := false })
  if s.lint.safe then s
  else if s.groupHeld g then s.onGroup g (fun r => { r with thermalMark := r.thermalMark || !host })
  else match (s.group g).phase with
  | .stopped =>
    if hold then s.onGroup g (fun r => { r with heldStart := true, startHost := host })
    else (s.onGroup g (fun r => { r with retry := 0 })).enterSoftStart g
  | .fallback =>
    if s.fitsLanes then (s.assignLanes (s.chansOf g)).enterSoftStart g else s
  | _ => s

/-- A clear taken at a boundary: a latched group goes to Stopped (Table 02-3). -/
def takeClear (s : State) (g : Nat) : State :=
  let s := s.onGroup g (fun r => { r with clearReq := none })
  if (s.group g).phase == .latched then s.onGroup g (fun r => { r with phase := .stopped, retry := 0 }) else s

/-- Target and measured value that govern the soft start of a group: those of its pool primary (R188). -/
def softStartOk (s : State) (g : Nat) : Bool :=
  let c := s.poolPrimary g
  let r := s.chan c
  (s.group g).sampled && decide (9 * r.goal (s.chanB c) ≤ 10 * r.y)

/-- The soft-start timeout rows of Table 02-3, when the timer has reached SS_TIMEOUT below 90 % of target. -/
def softStartTimeout (s : State) (g : Nat) : State :=
  let r := s.group g
  let b := (s.groupB g).core
  if r.phase == .softStart && b.ssTimeout ≤ elapsedUs s r.ssFrom && !(s.softStartOk g) then
    if r.retry < b.retryMax then
      let s := ((s.groupFault g 2).detect (srcGroupStart g) 0).stopPorts g
      (s.groupOut g .retryWait).onGroup g (fun r => { r with retry := r.retry + 1, retryFrom := s.clock.slots })
    else
      let s := ((s.groupFault g 3).detect (srcGroupStart g) 1).stopPorts g
      s.groupOut g .latched
  else s

/-- The retry row of Table 02-3. DEDUCED (assumption 118): the boundary that takes it is the first sample of soft start, as
the boundary that takes a start request is. -/
def retryTimer (s : State) (g : Nat) : State :=
  let r := s.group g
  if r.phase == .retryWait && (s.groupB g).core.retryInterval ≤ elapsedUs s r.retryFrom then s.enterSoftStart g else s

/-- The completion row of Table 02-3: the primary's ramp at its target and y at or above 90 % of it. -/
def softStartDone (s : State) (g : Nat) : State :=
  let c := s.poolPrimary g
  let r := s.chan c
  if (s.group g).phase == .softStart && s.softStartOk g && r.ramp == 65536 * r.goal (s.chanB c) then
    s.onGroup g (fun r => { r with phase := .run, retry := 0 })
  else s

/-! ### Lanes (R69 to R72) -/

/-- The groups with a channel on a lane (Table 11-3). -/
def groupsOnLane (s : State) (l : Nat) : List Nat :=
  allGroups.filter (fun g => (s.chansOf g).any (fun c => (s.chan c).lane == l))

/-- A lane is retired; its channels go to the spare at later boundaries, or the pool is exhausted and their groups are to
fall back at their boundaries (R62, R71). DESIGN CHOICE (assumption 116): a group that is not evaluated keeps its channels on
the retired lane, and a later start of it from Stopped or Retry wait assigns no lane (R68 assigns at a swap and at a start
from fallback alone) and tests no budget (Table 02-3 tests it from fallback alone). -/
def retireLane (s : State) (l : Nat) : State :=
  if bitAt s.engine.retired l then s
  else
    let free := s.engine.carried == 255 && !bitAt s.engine.retired 16 && l != 16
    let s := { s with engine := { s.engine with
        retired := s.engine.retired ||| BitVec.ofNat 17 (2 ^ l)
        carried := if free then l else s.engine.carried
        carriedAt := if free then s.clock.slots else s.engine.carriedAt } }
    if free || (l == 16 && s.engine.carried == 255) then s
    else
      let hit := allChans.filter (fun c => (s.chan c).lane == l || (l == 16 && (s.chan c).lane == s.engine.carried))
      let gs := allGroups.filter (fun g => hit.any (fun c => (s.chanB c).group == g))
      gs.foldl (fun s g => if s.evaluated g then s.onGroup g (fun r => { r with fallReq := s.raised r.fallReq }) else s)
        (s.detectOwn srcLanePool 0 (gs.filter s.evaluated))

/-- The group's channels on a lane the spare has taken over move to the spare at the group's next boundary (R69, R479). -/
def moveToSpare (s : State) (g : Nat) : State :=
  if s.engine.carried == 255 || s.clock.slots ≤ s.engine.carriedAt then s
  else (s.chansOf g).foldl (fun s c => s.onChan c (fun r =>
    if r.lane == s.engine.carried then { r with lane := 16 } else r)) s

/-- A residue mismatch or uncorrectable word of channel c: cause, and retirement of the lane at a first strike
without an SRAM error (R69, R70, R74). -/
def channelStrike (s : State) (c : Nat) (sram : Bool) : State :=
  let r := s.chan c
  let s := if r.lane ≤ 16 then s.detectOwn (srcLane r.lane) (if sram then 2 else 0) (s.groupsOnLane r.lane) else s
  if !sram && r.strikes == 1 && r.lane ≤ 16 then s.retireLane r.lane else s

/-- The three-strike condition of a group at the end of a sample (R62, R70, R71, R73, R189): one of its channels, its selector
or the pool primary that it uses has a count of 3, or the sample itself has exhausted the lane pool under it. -/
def threeStrikes (s : State) (g : Nat) (channels : List Nat) (exhausted : Bool) : Bool :=
  channels.any (fun c => 3 ≤ (s.chan c).strikes) || 3 ≤ (s.group g).strikes || exhausted

/-! ### Feed-forward (R197) -/

/-- The contribution of a port in force at a release time of `rel` µs. -/
def contribution (s : State) (p rel : Nat) : Int :=
  let r := s.port p
  match r.fallFrom with
  | none => r.contrib
  | some t =>
    let el := elapsedUs s t
    if rel ≤ el then 0 else roundDiv (r.contrib * (rel - el)) rel

/-- The feed-forward term of a group for a sample (R58, R197). -/
def feedForward (s : State) (g : Nat) (natives : Vector Int 8) : Int :=
  let b := s.groupB g
  let f (x : Int) : Int := satQ23 (roundDiv (b.core.ffGain * x * 2) b.share.ffFs)
  if b.core.ffSrc == 0 then 0
  else if b.share.ffMode == 1 then
    if s.shelf.loss.declared then
      f (sumInt ((allPorts.filter (fun p => (s.portB p).role == roleRectifier)).map
        (fun p => s.contribution p b.share.ffRelease)))
    else 0
  else f (sourceValue s b.core.ffSrc b.k natives (s.heldMean g (srcNum b.core.ffSrc)))

/-! ### One sample -/

end State

/-- The residue or SRAM error of a channel in this sample, if it has one. -/
def SampleIn.bad (x : SampleIn) (c : Nat) : Option Bool := (x.residues.find? (fun r => r.1 == c)).map (·.2)

namespace State

/-- Hot standby of a battery group (R194); in hardware-run the state of charge counts as met (R226). -/
def hotStandby (s : State) (g : Nat) : Bool :=
  let ps := s.portsOf g
  (s.group g).phase == .run && !ps.isEmpty &&
  ps.all (fun p => (s.portB p).role == roleBattery && (s.port p).link == .trained &&
    (s.port p).up.status &&& 0x0F == 0) &&
  (s.hardwareRun || match s.stringOf g with
    | some k => (s.str k).disagree || decide (0 < (s.str k).qc)
    | none => false)

/-- The string block drives the modes of a battery group (R225, R241). -/
def stringCtrl (s : State) (g : Nat) : Option Nat :=
  match s.stringOf g with
  | some k => if bitAt (s.strB k).cfg 0 then some k else none
  | none => none

/-- The SETPOINT last written to a channel, in force or on its way to the active bank (R23). -/
def setpointWritten (s : State) (c : Nat) : Int :=
  ((s.commits.imm.filter (fun w => w.index == 0x4000 + 0x10 * c + 3 && w.sub == 1)).getLast?.map (·.value)).getD (s.chanB c).setpoint

/-- The takeover start of one group: step 2 of R195, by the set-points as last written, so that the 0 of R223 counts, and support
mode (R225). -/
def takeoverGroup (s : State) (g : Nat) : State :=
  let cs := (s.chansOf g).filter (fun c => (s.chanB c).kind == 0 &&
    srcKind (s.chanB c).src == 9 && decide (0 ≤ s.setpointWritten c))
  let s := cs.foldl (fun s c => s.onChan c (fun r => { r with excluded := true })) s
  s.onGroup g (fun r => { r with takeoverDue := false, support := true })

/-- The takeover start at a boundary of a pool, before any of its members is evaluated there: its groups have one rate (R183),
so that all that are due take it together (R195, steps 2 and 3). The pool primary starts from the last s of the
lowest-numbered group that is due. While input already returns, the bank SETPOINT is its target (R196). -/
def takeover (s : State) (g : Nat) : State :=
  let pc := s.poolPrimary g
  match (s.poolOf g).filter (fun m => (s.group m).takeoverDue) with
  | [] => s
  | m :: ms =>
    let s0 := (s.group m).s
    let s := (m :: ms).foldl takeoverGroup s
    if (s.chanB pc).en then
      s.onChan pc (fun r => { r with fresh := true, fill := some s0
                                     target := if s.lossHigh then some s.cfg.loss.takeoverV else none })
    else s

/-- Support mode changes to charge mode for every running member of a pool: each CHG_CH is initialised with its group's s
(R225). -/
def leaveSupport (s : State) (g : Nat) : State :=
  ((s.poolOf g).filter (fun m => m == g || s.evaluated m)).foldl (fun s m =>
    let s := match s.stringCtrl m with
      | some k => s.onChan (s.strB k).chargeCh (fun c => { c with fresh := true, fill := some (s.group m).s })
      | none => s
    s.onGroup m (fun r => { r with support := false, exitFrom := none })) s

/-- The condition of support mode's exit has lasted SUPPORT_EXIT (R225). -/
def supportOver (s : State) (g k : Nat) : Bool :=
  match (s.group g).exitFrom with
  | some t => (s.group g).support && !s.shelf.loss.declared && decide ((s.strB k).supportExit * 1000 ≤ elapsedUs s t)
  | none => false

/-- Charge or support mode at a sample, from the primary's measured value, ramp and target (R225); the
charge channel is initialised when the group returns to charge mode. -/
def chooseMode (s : State) (g k : Nat) (y ramp goal : Int) : State :=
  let r := s.group g
  let b := s.strB k
  if s.shelf.loss.declared then s.onGroup g (fun r => { r with support := true, modeDue := false, exitFrom := none })
  else if r.modeDue then
    s.onGroup g (fun r => { r with support := decide (y ≤ goal), modeDue := false, exitFrom := none })
  else if !r.support then
    if 65536 * y ≤ ramp then
      let pb := s.chanB (s.poolPrimary g)
      let h := Hist.filled r.s
      (if pb.en then s.onChan (s.poolPrimary g) (fun c => { c with h := h, pre := preTerms pb h }) else s).onGroup g
        (fun r => { r with support := true, exitFrom := none })
    else s
  else if goal + b.supportHyst < y then
    let from' := r.exitFrom.getD s.clock.slots
    if b.supportExit * 1000 ≤ elapsedUs s from' then s.leaveSupport g
    else s.onGroup g (fun r => { r with exitFrom := some from' })
  else s.onGroup g (fun r => { r with exitFrom := none })

/-- A strike count of 3 of the pool primary puts every running member into fallback (R189): those that evaluate the sample at
its end, and here those that have no live port and evaluate none. -/
def poolStrikes (s : State) (g : Nat) : State :=
  if (s.chan (s.poolPrimary g)).strikes < 3 then s
  else ((s.poolOf g).filter (fun m => m != g && (s.livePorts m).isEmpty)).foldl enterFallback s

/-- Evaluation of the pool primary for the sample at G, once for all members (R188 to R190, R225). With EN = 0 it is neither
evaluated nor selected and its ramp and histories stand (R56); DEDUCED (assumption 119): its measured value is still taken,
since the mode and the soft start tests name it. -/
def poolEval (s : State) (g : Nat) (x : SampleIn) : State :=
  let pc := s.poolPrimary g
  let ps := (s.chan pc).pool
  if ps.at? == some s.clock.grid && !ps.takers.contains g then s
  else
    let ms := s.poolOf g
    let b := s.chanB pc
    let k := (s.groupB g).k
    let y := s.measure pc k ms x.natives
    let r := s.chan pc
    let goal := r.goal b
    let ramp := if !b.en then r.ramp else if r.fresh then 65536 * y else rampMove r.ramp (65536 * goal) b.slew k
    let s := match s.stringCtrl g with
      | some kk => (s.chooseMode g kk y ramp goal)
      | none => s.onGroup g (fun r => { r with support := true, modeDue := false })
    let q := s.group g
    let s := ms.foldl (fun s m => if s.evaluated m then
      s.onGroup m (fun r => { r with support := q.support, modeDue := q.modeDue, exitFrom := q.exitFrom }) else s) s
    let idle : PoolSample := { r.pool with at? := some s.clock.grid, takers := [], smax := none }
    if !b.en then s.onChan pc (fun r => { r with y := y, poolHold := y, pool := idle })
    else if !q.support then
      -- charge mode: the primary is not evaluated, its ramp still moves
      s.onChan pc (fun r =>
        let r := if r.fresh then r.init b y (s.groupB g).core.uInit else { r with ramp := ramp }
        { r with y := y, moving := r.ramp != 65536 * goal, poolHold := y, pool := idle })
    else
      let bad := (x.bad pc).isSome
      let r := s.chan pc
      let (r', u) := r.eval b y (s.groupB g).core.uInit (s.ironTerms pc) k bad
      let s := s.onChan pc (fun _ => { r' with poolHold := y, pool :=
        { at? := some s.clock.grid, u := u, e := r'.e, before := r'.h, smax := none, takers := [] } })
      match x.bad pc with
      | some sram => (s.channelStrike pc sram).poolStrikes g
      | none => s

/-- The pool primary is evaluated for a member: support mode, and EN = 1 (R56, R188, R225). -/
def primaryOn (s : State) (g : Nat) : Bool := (s.group g).support && (s.chanB (s.poolPrimary g)).en

/-- The pool primary takes part in a member's selection: it is evaluated, and the PRIMARY channel of the member that it speaks
for is enabled (R56, R188, R225). -/
def primaryIn (s : State) (g : Nat) : Bool := s.primaryOn g && (s.chanB (s.groupB g).primary).en

/-- The competing channels of a group that propose an output in this sample, the primary apart: enabled, not
excluded, and admitted by the mode of a battery group (R54, R195, R225). The strike count of a channel that a sample does not
evaluate stands (DESIGN CHOICE, assumption 161). -/
def competitors (s : State) (g : Nat) : List Nat :=
  let own := (s.groupB g).primary
  (s.chansOf g).filter (fun c =>
    let b := s.chanB c
    b.kind == 0 && b.en && c != own && !(s.chan c).excluded &&
    match s.stringCtrl g with
    | some k => !((s.group g).support && c == (s.strB k).chargeCh)
    | none => true)

/-- Evaluation of the competing channels of a group, the primary apart (R45). -/
def evalChannels (s : State) (g : Nat) (x : SampleIn) : State × List (Nat × Int) :=
  let k := (s.groupB g).k
  (s.competitors g).foldl (fun (a : State × List (Nat × Int)) c =>
    let s := a.1
    let y := s.measure c k [] x.natives
    let (r, u) := (s.chan c).eval (s.chanB c) y (s.groupB g).core.uInit (s.ironTerms c) k (x.bad c).isSome
    let s := s.onChan c (fun _ => r)
    let s := match x.bad c with | some sram => s.channelStrike c sram | none => s
    (s, a.2 ++ [(c, u)])) (s, [])

/-- The lowest proposal, and the lowest-numbered channel that makes it (R54). -/
def lowBall : List (Nat × Int) → Option (Nat × Int)
  | [] => none
  | (c, u) :: rest =>
    match lowBall rest with
    | none => some (c, u)
    | some (d, v) => if v < u ∨ (v = u ∧ d < c) then some (d, v) else some (c, u)

/-- Tracking clamp and history updates after selection (R55), the pool primary's with the largest selected
output of its members (R189). -/
def storeSample (s : State) (g : Nat) (us : List (Nat × Int)) (sel : Int) (mismatch : Bool) : State :=
  let margin := (s.groupB g).core.trackMargin
  let pc := s.poolPrimary g
  let s := if mismatch then s else us.foldl (fun s cu =>
      if cu.1 == (s.groupB g).primary || (s.chan cu.1).held then s
      else s.onChan cu.1 (fun r => r.store (s.chanB cu.1) r.h r.e (trackOut (s.chanB cu.1) cu.2 sel margin))) s
  let s := s.onChan pc (fun r => { r with pool := { r.pool with takers := g :: r.pool.takers } })
  if mismatch || !(s.primaryOn g) || (s.chan pc).held then s
  else
    let owner := (s.poolOf g).headD g
    s.onChan pc (fun r =>
      let m := match r.pool.smax with | some v => max v sel | none => sel
      let r := { r with pool := { r.pool with smax := some m } }
      r.store (s.chanB pc) r.pool.before r.pool.e
        (trackOut (s.chanB pc) r.pool.u m (s.groupB owner).core.trackMargin))

/-- Status flags of the group's channels, the winner and the derate channel's hold on the pool (R54, R75, R296). -/
def markWinner (s : State) (g w : Nat) : State :=
  (s.chansOf g).foldl (fun s c => s.onChan c (fun r =>
    let r := { r with winner := c == w }
    -- a channel that no model feeds any more is no derate channel: its hold runs out like a lost one's
    if c == w && !(s.feeders c).isEmpty then { r with derating := true, lostFrom := none }
    else if r.derating then { r with lostFrom := some (r.lostFrom.getD s.clock.slots) }
    else r)) s

/-- The derate channels of a group that have lost every sample for 10 ms let its ports count again (R296). -/
def derateRelease (s : State) (g : Nat) : State :=
  (s.chansOf g).foldl (fun s c =>
    let r := s.chan c
    match r.lostFrom with
    | some t => if r.derating && 10000 ≤ elapsedUs s t then
        s.onChan c (fun r => { r with derating := false, lostFrom := none }) else s
    | none => s) s

/-- The trim of a port: 0 while it does not count in its pool (R186). -/
def trimOf (s : State) (g p : Nat) : Int := if s.counts g p then (s.port p).share.trim else 0

/-- Ports that do not count have trim 0, and none of them stays at a limit (R186, R187). -/
def dropTrims (s : State) (g : Nat) : State :=
  (s.portsOf g).foldl (fun s p => if s.counts g p then s
    else s.onPort p (fun r => { r with share := { r.share with trim := 0, limFrom := none } })) s

/-- The share channel of a group evaluated for one port, in rotation (R58, R184 to R186). A share channel with EN = 0 is not
evaluated (R56): the turn and the trims stand. -/
def shareTurn (s : State) (g : Nat) (x : SampleIn) : State :=
  match (s.shareChan g).filter (fun c => (s.chanB c).en), s.portsOf g with
  | some c, p0 :: ps =>
    let ps := p0 :: ps
    let q := ps.getD ((s.group g).turn % ps.length) p0
    let s := s.onGroup g (fun r => { r with turn := (r.turn + 1) % ps.length })
    if !(s.counts g q) then s.onChan c (fun r => { r with strikes := 0 })
    else match x.bad c with
    | some sram => (s.onChan c (fun r => { r with held := true, strikes := min 3 (r.strikes + 1) })).channelStrike c sram
    | none =>
      let b := s.chanB c
      let cps := s.counted (s.poolOf g)
      let ipool := sumInt (cps.map (fun mp => s.iout mp.2))
      let wpool : Int := sumInt (cps.map (fun mp => (s.shareWeight mp.1 mp.2 : Int)))
      let e := satQ23 (roundDiv ((ipool * s.shareWeight g q - s.iout q * wpool) * 8388608) (wpool * b.inFs))
      let e := if b.inv then satQ23 (-e) else e
      let h := (s.port q).share.h
      let u := clampOut b (accToQ23 (satAcc (preTerms b h + b.b0 * e)))
      let s := s.onChan c (fun r => { r with y := s.iout q, e := e, h := { r.h with u1 := u }, held := false, strikes := 0
                                             atMin := u == b.uMin, atMax := u == b.uMax })
      s.onPort q (fun r =>
        { r with share := { h := h.shift e u, trim := u
                            limFrom := if u == b.uMin || u == b.uMax then some (r.share.limFrom.getD s.clock.slots)
                                       else none } })
  | _, _ => s

/-- A port's trim has stayed at a limit of the share channel for 10 ms (R187); the trim of a port that does not count is 0. -/
def shareAtLimit (s : State) (p : Nat) : Bool :=
  match (s.port p).share.limFrom with
  | some t => decide (10000 ≤ elapsedUs s t) && s.counts (s.portB p).group p
  | none => false

/-- The command words of a port from its code (R96, Table 03-5); a disabled phase gets 0 (R15). -/
def commandWords (s : State) (g p : Nat) (code : Int) : List (BitVec 24) :=
  let b := s.groupB g
  (List.range 4).map (fun k =>
    if !((s.portB p).phaseOn k) then 0
    else
      let ref := code / 256 * 256
      match b.mode with
      | 0 => BitVec.ofInt 24 code
      | 1 => BitVec.ofInt 24 (ref + b.modul.rippleSlope)
      | _ => BitVec.ofInt 24 (ref + (vget (s.port p).locks k {}).trim % 256))

/-- Trim, code and command words of one port of a group (R58); a port out of its group gets none (R178). -/
def commandPort (s : State) (g p : Nat) : State :=
  if (s.port p).out then s
  else
    let b := s.groupB g
    let r := s.group g
    let trim := if (s.shareChan g).isSome then s.trimOf g p else 0
    let code := commandCode (r.s + trim + r.f) b.core.cmdLo b.core.cmdHi
    let ws := s.commandWords g p code
    s.onPort p (fun q => { q with code := code, cmd := some (s.clock.grid + 1, ws) })

/-- One turn in the units of a phase lock, 2^54 × 4 × 10^11: θ and i_k are kept without rounding (R103). -/
def lockTurn : Int := 18014398509481984 * 400000000000

/-- TRIM of a phase from its loop terms (R103). -/
def lockTrim (x : Int) : Int := clampInt (-128) 127 (-(roundDiv (512 * x) lockTurn))

/-- The lock of a group is suspended: each phase's trim is −round(512·i_k) from now on (R104). -/
def suspendLock (s : State) (g : Nat) : State :=
  let s := s.onGroup g (fun r => { r with lock := { r.lock with suspended := true, quiet := 0 } })
  (s.portsOf g).foldl (fun s p => s.onPort p (fun r =>
    { r with locks := r.locks.map (fun l => { l with trim := lockTrim l.i }) })) s

/-- The suspension of a group's lock by a step of s, and its end after LOCK_RESUME quiet samples (R104). -/
def lockSample (s : State) (g : Nat) (old : Int) : State :=
  let m := (s.groupB g).modul
  if m.lockSuspend < ((s.group g).s - old).natAbs then s.suspendLock g
  else s.onGroup g (fun r =>
    if r.lock.suspended then
      { r with lock := { r.lock with suspended := r.lock.quiet + 1 < m.lockResume, quiet := r.lock.quiet + 1 } }
    else r)

/-- CAP_CH of a rectifier group whose input-down count falls to 0: its ramp restarts at the measured value (R198). -/
def capRestart (s : State) (g : Nat) (x : SampleIn) : State :=
  let n := ((s.portsOf g).filter (fun p => s.live p && (s.portB p).role == roleRectifier && (s.port p).inputDown)).length
  let b := s.groupB g
  let was := (s.group g).downCount
  let s := s.onGroup g (fun r => { r with downCount := n })
  if was != 0 && n == 0 && b.share.capCh < 128 then
    s.onChan b.share.capCh (fun r => { r with ramp := 65536 * s.measure b.share.capCh b.k [] x.natives })
  else s

/-- A primary that acts for this running group without having served its previous sample, and that no other
running member has served, is initialised from the group's last output (R190). -/
def primaryChange (s : State) (g : Nat) : State :=
  let pc := s.poolPrimary g
  let r := s.group g
  let others := (s.poolOf g).any (fun m => m != g && s.evaluated m && (s.group m).served == pc)
  let s := if r.served != 255 && r.served != pc && !others && (s.chanB pc).en then
      s.onChan pc (fun c => { c with fresh := true, fill := some r.s }) else s
  s.onGroup g (fun r => { r with served := pc })

/-- The selection of a sample: s, winner and channel status; with a selector mismatch the group keeps its s and only counts
the strike (R54, R73, R75). -/
def select (s : State) (g : Nat) (won : Nat × Int) (mismatch : Bool) : State :=
  if mismatch then s.onGroup g (fun r => { r with strikes := min 3 (r.strikes + 1), sampled := true })
  else
    let pc := s.poolPrimary g
    (s.onGroup g (fun r => { r with s := won.2, winner := won.1, strikes := 0, sampled := true
                                    primary := if r.support then pc else 255 })).markWinner g won.1

/-- Command codes and words of every port of a group; with a selector mismatch those of the last sample again (R58, R73). At the
first sample after a start these are the codes of the earlier run, or 0 (DESIGN CHOICE, assumption 162). -/
def commandPorts (s : State) (g : Nat) (mismatch : Bool) : State :=
  (s.portsOf g).foldl (fun s p =>
    if mismatch then s.onPort p (fun q =>
      { q with cmd := if q.out then none else some (s.clock.grid + 1, s.commandWords g p q.code) })
    else s.commandPort g p) s

/-- Operations of R45 for a sample of a group in soft start or run with a live port. The sample is completed before a
three-strike condition of it takes the group to fallback. -/
def sampleRun (s : State) (g : Nat) (x : SampleIn) : State :=
  let was := (s.group g).fallReq
  let s := (((s.takeover g).capRestart g x).primaryChange g).poolEval g x
  let pc := s.poolPrimary g
  let (s, us) := s.evalChannels g x
  -- the pool primary's output is the proposal of the member's own PRIMARY channel (R188)
  let us := if s.primaryIn g then ((s.groupB g).primary, (s.chan pc).pool.u) :: us else us
  let used := (if s.primaryOn g then [pc] else []) ++ (us.map (·.1)).filter (· != (s.groupB g).primary) ++
    ((s.shareChan g).filter (fun c => (s.chanB c).en)).toList
  let old := (s.group g).s
  let won := (lowBall us).getD (255, old)
  let s := ((s.storeSample g us won.2 x.selector).select g won x.selector).derateRelease g
  let s := if x.selector then s else s.shareTurn g x
  let s := s.onGroup g (fun r => { r with f := s.feedForward g x.natives })
  let s := (s.lockSample g old).commandPorts g x.selector
  let s := if s.threeStrikes g used (was.isNone && (s.group g).fallReq.isSome) then s.enterFallback g else s
  (s.softStartDone g).softStartTimeout g

end State

/-! ### The last-fault record (R325, Table 11-12) -/

/-- A write of the record begins: the record does not count until its CHECK is there (R325). -/
def LastFault.start (r : LastFault) (body : List Byte) (now : Nat) : LastFault :=
  { r with valid := false, writes := r.writes + 1, writing := some (body, now) }

/-- A record to be written, latched while a write of the same record is in progress (R325). -/
def LastFault.write (r : LastFault) (body : List Byte) (now : Nat) : LastFault :=
  if r.writing.isSome then { r with latched := r.latched ++ [body] } else r.start body now

/-- The write in progress ends with WRITES and CHECK; a latched record is written next (R325, Table 11-12). -/
def LastFault.finish (r : LastFault) (now : Nat) : LastFault :=
  match r.writing with
  | none => r
  | some (body, _) =>
    let o := body ++ leBytes 4 r.writes
    let r := { r with octets := o ++ leBytes 4 (crc32 o).toNat, valid := true, writing := none }
    match r.latched with
    | [] => r
    | b :: bs => { r with latched := bs }.start b now

/-- The write in progress ends once it has lasted its time, which the manual does not give (assumption 125). -/
def LastFault.run (r : LastFault) (now : Nat) : LastFault :=
  match r.writing with
  | some (_, t) => if Config.freeFaultSlots r.writes ≤ now - t then r.finish now else r
  | none => r

/-- A power-fail warning or a fall of the supply stops the write: the record does not count (R316, R325). -/
def LastFault.cut (r : LastFault) : LastFault := { r with writing := none, latched := [] }

namespace State

/-- The lint bit words 0x8000.01–.10: bit b of word w is source 32w + b. -/
def lintWord (s : State) (w : Nat) : Word :=
  BitVec.ofNat 32 ((List.range 32).foldl (fun a b =>
    if vget s.lint.causes (32 * w + b) 0 != 0 then a + 2 ^ b else a) 0)

/-- One port slot of the record; slots of other ports are 0. -/
def faultPort (s : State) (g p : Nat) : List Byte :=
  if (s.portsOf g).contains p then
    let r := s.port p
    leInt 2 (r.up.vout / 2) ++ leInt 2 (r.up.vin / 10) ++
    (List.range 4).flatMap (fun k => leInt 2 (vget r.up.i k 0 / 10)) ++ leInt 3 r.code ++ [r.up.status]
  else List.replicate 16 0

/-- The lowest cause code of a cause mask. -/
def lowCause (m : BitVec 6) : Nat := (setBits m).headD 0 + 1

/-- Octets 0 to 1,015 of a group's last-fault record. -/
def faultBody (s : State) (g : Nat) : List Byte :=
  let r := s.group g
  leBytes 8 s.shelfNs ++
  [BitVec.ofNat 8 (lowCause r.faults), BitVec.ofNat 8 r.faultFrom.code,
   BitVec.ofNat 8 (if s.evaluated g then r.winner else r.faultWinner), r.faults.setWidth 8] ++
  leInt 4 r.s ++ leInt 4 r.f ++ List.replicate 12 0 ++
  (List.range 16).flatMap (fun w => leBytes 4 (s.lintWord w).toNat) ++
  allPorts.flatMap (s.faultPort g) ++
  (List.range 65).flatMap (fun m => leInt 2 (s.model m).temp) ++
  List.replicate 22 0

/-- The record is written at the boundary that registers the group's faults (R325); after a power-fail warning it is not
(R316). -/
def writeLastFault (s : State) (g : Nat) : State :=
  if (s.group g).faults = 0 then s
  else
    let body := s.faultBody g
    s.onGroup g (fun r => { r with
      faults := 0, faultWinner := 255, last := if s.score.stopped then r.last else r.last.write body s.clock.slots })

/-- Writes of last-fault records that have run their time end (R325). -/
def lastFaultWrites (s : State) : State :=
  allGroups.foldl (fun s g => s.onGroup g (fun r => { r with last := r.last.run s.clock.slots })) s

/-- A lane pool that was exhausted under the group since its last boundary takes it to fallback (R62, R71). A start request due
with it finds the group in soft start or run, where it changes nothing; no channel has been evaluated for a winner (R325). -/
def takeExhausted (s : State) (g : Nat) : State :=
  if s.due (s.group g).fallReq then
    (s.onGroup g (fun r => { r with
      fallReq := none, winner := 255
      startReq := if s.evaluated g && s.due r.startReq then none else r.startReq })).enterFallback g
  else s

/-- The rows of Table 02-3 for what arose before this boundary: a stop request first, which drops a start (R62, R479), and ends
the wait for a fallback; then the exhausted lane pool; then a start. DESIGN CHOICE (assumption 5): a start is taken before a
clear. -/
def takeRequests (s : State) (g : Nat) (hold : Bool) : State :=
  let s := if s.due (s.group g).stopReq then s.takeStop g else s.takeExhausted g
  let s := if s.due (s.group g).startReq then s.takeStart g hold else s
  if s.due (s.group g).clearReq then s.takeClear g else s

/-- One sample boundary of a group (R45, R62): requests, irons, evaluation, state rows and the fault record. G off the
group's rate is no boundary of it (R22). `hold` says that an armed commit changes a run-locked field of the group (R34). In a group
that is not evaluated, fallback too, the measured values stay those of its last sample (DESIGN CHOICE, assumption 163). -/
def sampleBoundary (s : State) (g : Nat) (hold : Bool) (x : SampleIn) : State :=
  let k := (s.groupB g).k
  if !(s.onGrid k) then s
  else
  let s := (((s.moveToSpare g).takeRequests g hold).retryTimer g).dropTrims g
  let s := if s.evaluated g then s.keepMeans g else s
  let s := (allIrons.filter (fun i => s.ironGroup i == g)).foldl ironRequests s
  let irons := if s.hardwareRun then [] else s.ironsOf g
  let before := if s.hardwareRun then [] else s.ironsBefore g
  let s := match s.stringOf g with
    | some m => s.onStr m (fun r => { r with fast := fastCurrent (s.strB m) k (vget x.natives m 0) })
    | none => s
  let s := before.foldl (fun s i => s.ironBefore i k x.irons) s
  let s := if !(s.evaluated g) then s
    else if (s.livePorts g).isEmpty then
      (s.onGroup g (fun r => { r with winner := 255, primary := 255 })).softStartTimeout g
    else s.sampleRun g x
  -- no selection, no winner: nothing joins a tap (R128)
  let s := if (s.group g).winner == 255 || x.selector then s else irons.foldl (fun s i => s.ironAfter i x.irons) s
  let s := { s with engine := { s.engine with sramFixed := s.engine.sramFixed + x.fixedWords } }
  s.writeLastFault g

end State
end Sys2Proof.Machine
end

