-- ==== Sys2Proof/Machine/Timebase.lean ====
section
/-!
DEFINITION. The clock, the timebase and its lock to SYNCIN, and SYNCOUT (R81 to R90, R361).
-/
namespace Sys2Proof.Machine
set_option Elab.async false

/-- One grid slot: the CCLK cycles until G reaches its next integer, each adding (1 + ρ) / 200 (R81). Shelf time
advances with them at the rate adjustment `adj` in ppb (R361, R364). -/
def Clock.advance (c : Clock) (rho adj : Int) : Clock :=
  let step := (1000000000 + rho).toNat
  let n := (200000000000 - c.frac + step - 1) / step
  let t := (n : Int) * (1000000000 + adj) + c.shelfFrac
  { grid := c.grid + 1, slots := c.slots + 1, frac := c.frac + n * step - 200000000000, up := c.up + n
    shelf := (c.shelf + t / 1000000000).toNat, shelfFrac := t % 1000000000 }

/-- ρ moves toward 0 at 50 ppm per millisecond, that is 25 ppb per slot (R83, R86): the millisecond of a glide is 2,000 grid
slots (DESIGN CHOICE, assumption 165). -/
def glide (rho : Int) : Int := if 0 ≤ rho then max 0 (rho - 25) else min 0 (rho + 25)

namespace State

/-- Time passes one grid slot. -/
def nextSlot (s : State) : State :=
  { s with clock := s.clock.advance s.tb.rho s.ptpAdj
           tb := if s.tb.phase == .gliding then { s.tb with rho := glide s.tb.rho } else s.tb }

/-- The nominal SYNCIN period in ps (R84). -/
def syncPeriod (s : State) : Nat := s.cfg.timebase.syncinDiv * 500000

/-- An interval between edges is valid within ±(150 ppm of the nominal period + 10 ns) of it (R84). -/
def edgeValid (s : State) (interval : Nat) : Bool :=
  let p := s.syncPeriod
  let d := if p ≤ interval then interval - p else p - interval
  decide (1000000 * d ≤ 150 * p + 10000000000)

/-- The phase error in ps of an edge `sub` ps into the present slot: from the edge plus SYNC_OFFSET to the
nearest grid mark of SYNCIN_DIV, within ±half a period (R85). -/
def phaseError (s : State) (sub : Nat) : Int :=
  let div := max 1 s.cfg.timebase.syncinDiv
  let slot (n : Nat) : Int := (n : Int) * 500000000000000 / (1000000000 + s.tb.rho)
  let p := slot div
  let t : Int := slot (s.clock.grid % div) + sub + s.cfg.timebase.syncOffset * 1000
  let x := (p - t % p) % p
  if p < 2 * x then x - p else x

/-- The rate the loop asks for, kept within ±100 ppm and 50 ppm per millisecond (R81, R83, R85); the manual gives
the loop's bandwidth and no gains, so the request is a free value. -/
def steer (s : State) (err : Int) : State :=
  let dt := s.clock.up - s.tb.steeredAt
  let room : Int := dt * 50000 / 400000
  let ask := clampInt (-100000) 100000 (Config.freeSteer s.tb.rho err s.draws)
  { s with draws := s.draws + 1
           tb := { s.tb with rho := clampInt (s.tb.rho - room) (s.tb.rho + room) ask, steeredAt := s.clock.up } }

/-- The rows of Table 03-1 that need no edge: SYNC_MODE 0, loss of SYNCIN, the hold timer and the end of a glide. The count of
consecutive valid edges restarts at the entry to Holdover and Gliding (DESIGN CHOICE, assumption 164). -/
def timebaseRows (s : State) : State :=
  let on := s.cfg.timebase.syncMode
  let lost := match s.tb.lastValid with
    | some t => decide (4 * s.syncPeriod ≤ s.clock.up * 2500 - t)
    | none => true
  let go (ph : TimebasePhase) : State := { s with tb := { s.tb with phase := ph, validRun := 0, closeRun := 0, slipRun := 0 } }
  match s.tb.phase with
  | .acquiring | .locked =>
    if !on then go .gliding
    else if lost then
      let s := (go .holdover).detect srcTimebase 0
      { s with tb := { s.tb with holdFrom := s.clock.up, lostCount := s.tb.lostCount + 1 } }
    else s
  | .holdover =>
    if !on || s.cfg.timebase.syncHold ≤ elapsedAo s s.tb.holdFrom then go .gliding else s
  | .gliding => if s.tb.rho = 0 then { s with tb := { s.tb with phase := .free } } else s
  | .free => if on && !lost then { (go .acquiring) with tb := { (go .acquiring).tb with steeredAt := s.clock.up } } else s

/-- Rows of Table 03-1 at a valid edge with phase error `err` in ps. -/
def validEdge (s : State) (err : Int) : State :=
  let near := decide (-20000 ≤ err ∧ err ≤ 20000)
  let far := decide (err < -200000 ∨ 200000 < err)
  let tb := { s.tb with validRun := s.tb.validRun + 1
                        closeRun := if near then s.tb.closeRun + 1 else 0
                        slipRun := if far then s.tb.slipRun + 1 else 0 }
  let s := { s with tb := tb }
  let start (s : State) : State :=
    { s with tb := { s.tb with phase := .acquiring, steeredAt := s.clock.up, closeRun := 0, slipRun := 0 } }
  match tb.phase with
  | .free => if s.cfg.timebase.syncMode then start s else s
  | .acquiring =>
    let s := { s with tb := { s.tb with phaseErr := err } }.steer err
    if 64 ≤ tb.closeRun then { s with tb := { s.tb with phase := .locked, slipRun := 0 } } else s
  | .locked =>
    let s := { s with tb := { s.tb with phaseErr := err } }.steer err
    if 4 ≤ tb.slipRun then
      { s with tb := { s.tb with phase := .acquiring, closeRun := 0, slipRun := 0 } }.detect srcTimebase 1 else s
  | .holdover => if 16 ≤ tb.validRun then start s else s
  | .gliding => if s.cfg.timebase.syncMode && 16 ≤ tb.validRun then start s else s

/-- An edge of SYNCIN `sub` ps into the present slot; `falling` is its polarity. The interval counts from the previous edge
of that polarity, whatever SYNCIN_POL was then (R84, R85). -/
def syncinEdge (s : State) (falling : Bool) (sub : Nat) : State :=
  let t := s.clock.up * 2500 + sub
  let ok := match (if falling then s.tb.lastFall else s.tb.lastRise) with
    | some t0 => s.edgeValid (t - t0)
    | none => false
  let s := { s with tb := if falling then { s.tb with lastFall := some t } else { s.tb with lastRise := some t } }
  if falling != s.cfg.timebase.syncinPol then s
  else if ok then { s with tb := { s.tb with lastValid := some t } }.validEdge (s.phaseError sub)
  else { s with tb := { s.tb with validRun := 0, closeRun := 0, slipRun := 0 } }

/-- A change of SYNCIN_DIV, SYNCIN_POL or SYNC_OFFSET returns a locked timebase to Acquiring (R87); a change of SYNC_MODE
applies its rows of Table 03-1; SYNCOUT_EN 0 takes SYNCOUT low (R88). -/
def timebaseChange (s : State) (old : TimebaseCfg) : State :=
  let n := s.cfg.timebase
  let s := if n.syncoutEn then s else { s with tb := { s.tb with syncout := false } }
  let s := if n.syncMode != old.syncMode then s.timebaseRows else s
  if s.tb.phase == .locked &&
      (n.syncinDiv != old.syncinDiv || n.syncinPol != old.syncinPol || n.syncOffset != old.syncOffset) then
    { s with tb := { s.tb with phase := .acquiring, closeRun := 0, slipRun := 0 } }
  else s

/-- The links work: the part serves, or hardware-run carries the shelf. -/
def linksRun (s : State) : Bool := s.boot.phase == .serving || s.hardwareRun

/-- SYNCOUT at the present slot, from the start of hardware-run or of the serving firmware on (Table 16-4): with SYNCOUT_EN it
rises SYNCOUT_OFFSET ns after an instant whose G is a multiple of SYNCOUT_DIV and falls half a period later, placed to the
nearest 2.5 ns; without it SYNCOUT is low (R88). `rise` selects the edge. A slot lasts 500 ns / (1 + ρ), so that an offset in
ns is a number of slots times 1 + ρ. -/
def syncoutEdge (s : State) (rise : Bool) : State :=
  let c := s.cfg.timebase
  if !c.syncoutEn || !s.linksRun then { s with tb := { s.tb with syncout := false } }
  else
    let rate := (1000000000 + s.tb.rho).toNat
    -- the edge in 1/(500 × 10^9) slot after the last instant whose G is a multiple of SYNCOUT_DIV
    let off := c.syncoutOffset * rate + (if rise then 0 else c.syncoutDiv * 250000000000)
    let due := s.clock.grid % (max 1 c.syncoutDiv) == off / 500000000000 % (max 1 c.syncoutDiv)
    if due then { s with tb := { s.tb with syncout := rise
                                           syncoutAt := (roundDiv (2 * (off % 500000000000 : Nat)) (5 * rate)).toNat } }
    else s

end State
end Sys2Proof.Machine
end

