-- ==== Sys2Proof/Machine/Press.lean ====
section
/-!
DEFINITION. Sense inputs, the bus window, press detectors and press sets (R108 to R118, R199).
-/
namespace Sys2Proof.Machine
set_option Elab.async false

/-- The reading of a sense input from its conversion code, in mV (R108). -/
def senseMv (c : SenseCfg) (code : Int) : Int := roundDiv (code * 2500 * c.div) 32768000 + c.offset

/-- A level in µV at the pins, by inverting R108. -/
def pinUv (c : SenseCfg) (level : Int) : Int := (level - c.offset) * 1000000 / c.div

/-- A level lies between 0 V and 2.5 V at the pins (R109, R112). -/
def pinOk (c : SenseCfg) (level : Int) : Bool :=
  decide (0 ≤ level - c.offset) && decide ((level - c.offset) * 1000 ≤ 2500 * c.div)

/-- The threshold code nearest to a level (R110). DESIGN CHOICE (assumption 120): the 16-bit threshold DAC has the scale of
the conversions, 2.5 V / 32,768 per code, and ends at code 32,767. -/
def levelCode (c : SenseCfg) (level : Int) : Int :=
  clampInt (-32768) 32767 (roundDiv ((level - c.offset) * 32768000) (2500 * c.div))

/-- The level in force after DAC rounding (R110, D.07). -/
def levelInForce (c : SenseCfg) (level : Int) : Int := senseMv c (levelCode c level)

namespace State

def senseC (s : State) (n : Nat) : SenseCfg := vget s.cfg.senses n {}
def detC (s : State) (n : Nat) : DetectorCfg := vget s.cfg.dets n {}
def psetC (s : State) (k : Nat) : PressSetCfg := vget s.cfg.psets k {}
def det (s : State) (n : Nat) : DetectorRun := vget s.dets n {}
def press (s : State) (k : Nat) : PressRun := vget s.presses k {}
def onDet (s : State) (n : Nat) (f : DetectorRun → DetectorRun) : State := { s with dets := vmod s.dets n f }
def onPress (s : State) (k : Nat) (f : PressRun → PressRun) : State := { s with presses := vmod s.presses k f }
def onSense (s : State) (n : Nat) (f : SenseRun → SenseRun) : State := { s with senses := vmod s.senses n f }

/-- The bus window check of a conversion of BUS_SN (R199). -/
def busWindow (s : State) (y : Int) : State :=
  let out := y < s.cfg.bus.winLo || s.cfg.bus.winHi < y
  if !out then s
  else
    let e := s.shelf.exc
    let total := if e.opn then e.total + 1 else 1
    let s := s.onShelf (fun r => { r with exc := { e with
      opn := true, total := total, lastAt := s.clock.slots
      episodes := if e.opn then e.episodes else e.episodes + 1
      largest := max e.largest total } })
    -- 250 µs are 500 conversions; the bit is set when the total passes them
    s.detectIf (total == 501) srcBusWindow 0

/-- A conversion of sense input `n` (R108, R110, R199). -/
def senseConversion (s : State) (n : Nat) (code : Int) : State :=
  let y := senseMv (s.senseC n) code
  let old := s.sense n
  let s := s.onSense n (fun r => { code := code, y := y, prev := (r.y :: r.prev).take 3 })
  let y3 := old.prev.getD 1 0
  let s := if n < 8 then
      let c := s.detC n
      s.onDet n (fun r => { r with
        qualifier := 3 ≤ old.prev.length && decide (2 * (y - y3) ≤ -3 * (c.pressSlope : Int))
        aboveFrom := if c.armLevel < y then some (r.aboveFrom.getD s.clock.slots) else none })
    else s
  if s.cfg.bus.busSn == n then s.busWindow y else s

/-- Ten milliseconds without a conversion outside the window close the episode (R199). -/
def excursionClose (s : State) : State :=
  let e := s.shelf.exc
  if e.opn && 10000 ≤ elapsedUs s e.lastAt then s.onShelf (fun r => { r with exc := { e with opn := false } }) else s

/-- The clear of the excursion record (R199). -/
def excursionClear (s : State) : State :=
  s.onShelf (fun r => { r with exc := { r.exc with largest := 0, episodes := 0 } })

/-- The ports a launch on set `k` reaches: trained, in a group in run (R116). -/
def pressPorts (s : State) (k : Nat) : List Nat :=
  (setBits (s.psetC k).mask).filter (fun p => (s.port p).link == .trained && (s.portB p).group < 32 &&
    (s.group (s.portB p).group).phase == .run)

/-- A launch request on set `k`: launched, or dropped and counted (R115 to R118). -/
def requestLaunch (s : State) (k : Nat) : State :=
  let c := s.psetC k
  let r := s.press k
  let near := match r.lastAt with | some t => decide (elapsedUs s t < c.holdoff) | none => false
  if near || (r.burstOpen && c.burstMax ≤ r.burst) then
    s.onPress k (fun r => { r with suppressed := r.suppressed + 1 })
  else
    let n := if r.burstOpen then r.burst + 1 else 1
    let s := s.onPress k (fun r => { r with
      launches := r.launches + 1, burst := n, burstOpen := true, lastAt := some s.clock.slots, lastShelf := s.shelfNs })
    -- the symbol goes into whatever the present slot carries, but for a stop (R113, R116, R169)
    let s := (s.pressPorts k).foldl (fun s p =>
      (s.onPort p (fun q => { q with txPress := q.tx != .stop })).suspendLock (s.portB p).group) s
    ((s.detect (srcPress k) 0).detectIf (n == c.burstMax) (srcPress k) 1).captureEvent 3 (srcPress k)

/-- The comparator of detector `n` trips: an armed detector with a true qualifier fires (R111). -/
def detectorTrip (s : State) (n : Nat) : State :=
  if (s.det n).phase == .armed && (s.detC n).en && (s.det n).qualifier then
    let s := s.onDet n (fun r => { r with phase := .fired, triggers := r.triggers + 1, aboveFrom := none })
    s.requestLaunch (s.detC n).set
  else s

/-- A fired detector arms when its input has been above ARM_LEVEL for 1 µs (R111). -/
def detectorRearm (s : State) (n : Nat) : State :=
  match (s.det n).aboveFrom with
  | some t => if (s.det n).phase == .fired && (s.detC n).en && 2 ≤ s.clock.slots - t then
      s.onDet n (fun r => { r with phase := .armed }) else s
  | none => s

/-- EN of a detector acts on its state (Table 03-8). -/
def detectorEnable (s : State) (n : Nat) : State :=
  s.onDet n (fun r =>
    if !(s.detC n).en then { r with phase := .disabled }
    else if r.phase == .disabled then { r with phase := .fired, aboveFrom := none } else r)

/-- The burst of set `k` closes 10 ms after its last launch (R117). -/
def burstClose (s : State) (k : Nat) : State :=
  match (s.press k).lastAt with
  | some t => if (s.press k).burstOpen && 10000 ≤ elapsedUs s t then
      s.onPress k (fun r => { r with burstOpen := false, burst := 0 }) else s
  | none => s

end State
end Sys2Proof.Machine
end

