-- ==== Sys2Proof/Machine/Loss.lean ====
section
/-!
DEFINITION. Input loss: the down fraction, declaration, return and clearance (R192 to R198, R223).
-/
namespace Sys2Proof.Machine
set_option Elab.async false
namespace State

/-- The string set-point of the charge channel of every string in Settle becomes 0 at a declaration (R223). -/
def settleToZero (s : State) : State :=
  (List.range 8).foldl (fun s k =>
    if (s.str k).phase == .settle && bitAt (s.strB k).cfg 0 then s.writeSetpoint (s.strB k).chargeCh 0 else s) s

/-- Input loss is declared at an arrival deadline, 400 ns after the sample instant (R153, R193, R195): the takeover start
falls due in every battery group in hot standby. -/
def declareLoss (s : State) : State :=
  let s := s.settleToZero
  let s := (s.batteryGroups.filter s.hotStandby).foldl (fun s g =>
    s.onGroup g (fun r => { r with takeoverDue := true })) s
  s.onShelf (fun r => { r with loss := { r.loss with
    declared := true, returning := false, count := r.loss.count + 1, shelfAt := s.shelfNs + 400 } })

/-- The rows of R193 and R196 that follow from d at a sample. -/
def lossRows (s : State) : State :=
  if !s.shelf.loss.declared then (if s.lossHigh then s.declareLoss else s)
  else s.lossEdge

/-- Input loss is cleared when d has been 0 for INPUT_QUAL; excluded channels are initialised and return (R193, R196, R225). -/
def lossClear (s : State) : State :=
  match s.shelf.loss.zeroFrom with
  | some t =>
    if s.shelf.loss.declared && s.cfg.loss.inputQual ≤ elapsedUs s t then
      let s := s.batteryGroups.foldl (fun s g =>
        let s0 := (s.group g).s
        let cs := (s.chansOf g).filter (fun c => (s.chan c).excluded)
        let s := cs.foldl (fun s c => s.onChan c (fun r =>
          { r with excluded := false, fresh := true, fill := some s0 })) s
        let s := s.onChan (s.poolPrimary g) (fun r => { r with target := none })
        s.onGroup g (fun r => { r with takeoverDue := false
                                       support := if (s.stringCtrl g).isSome then false else r.support
                                       exitFrom := none })) s
      s.onShelf (fun r => { r with loss := { r.loss with declared := false, returning := false } })
    else s
  | none => s

/-- The input state of a live rectifier port at the deadline of its sample: down below VIN_LOSS or with INUV;
the contribution is latched when it goes down and begins to fall when it is seen up again (R192, R197). A port that was lost
in between is neither down nor up meanwhile and keeps its contribution. -/
def inputState (s : State) (p : Nat) : State :=
  let r := s.port p
  let down := decide (r.up.vin < s.cfg.loss.vinLoss) || bitAt r.up.status 1
  if (s.portB p).role != roleRectifier || !(s.live p) then s
  else
    let pin := s.pin p
    s.onPort p (fun r =>
      let r := if down && !r.contribHeld then { r with contribHeld := true, contrib := r.pinPrev, fallFrom := none }
        else if !down && r.contribHeld then { r with contribHeld := false, fallFrom := some s.clock.slots } else r
      { r with inputDown := down, pinPrev := pin })

end State
end Sys2Proof.Machine
end

