-- ==== Sys2Proof/Machine/Links.lean ====
section
/-!
DEFINITION. The TF4812's side of the Elvane links: frames, records, bring-up, loss (R142 to R180).
-/
namespace Sys2Proof.Machine
set_option Elab.async false

/-! ### Parameter records (Tables 05-6 and 05-8) -/

/-- The entries of the companion table in ascending PID order, PID 0x07 for each phase: PID, phase, value. -/
def ParamTable.entries (t : ParamTable) : List (Nat × Nat × Nat) :=
  [(0x01, 0, t.dP), (0x02, 0, t.rateK), (0x03, 0, t.mode), (0x04, 0, t.lossWin), (0x05, 0, t.phases), (0x06, 0, t.inc),
   (0x07, 0, vget t.ph 0 0), (0x07, 1, vget t.ph 1 0), (0x07, 2, vget t.ph 2 0), (0x07, 3, vget t.ph 3 0),
   (0x08, 0, t.tOnNom), (0x09, 0, t.minOff), (0x0A, 0, t.slope), (0x0B, 0, t.pressTon),
   (0x10, 0, t.fbEn), (0x11, 0, t.fbVref), (0x12, 0, t.fbIlim), (0x13, 0, t.fbVov)]

/-- The digest of R161: the link CRC over the 4-octet values in PID order. -/
def ParamTable.digest (t : ParamTable) : Half := crc16 (t.entries.flatMap (fun e => beBytes 4 e.2.2))

/-- The 8 octets of a record (Table 05-6). -/
def ParamRec.octets (r : ParamRec) : List Byte :=
  [BitVec.ofNat 8 r.pid, BitVec.ofNat 8 ((if r.now then 128 else 0) + r.phase)] ++ beBytes 4 r.value ++ beBytes 2 r.mark

/-- Records with NOW = 1 for every entry (R177). -/
def ParamTable.nowRecs (t : ParamTable) : List ParamRec :=
  t.entries.map (fun e => ⟨e.1, true, e.2.1, e.2.2, 0⟩)

/-- Records with NOW = 0 for the entries that differ, tagged with the number of a mark (R159, R162). -/
def ParamTable.changes (old new : ParamTable) (mark : Nat) : List ParamRec :=
  ((old.entries.zip new.entries).filter (fun e => e.1 != e.2)).map
    (fun e => ⟨e.2.1, false, e.2.2.1, e.2.2.2, mark⟩)

/-- INC of a switching frequency (R91). DESIGN CHOICE (assumption 121): F_SW = 2,000,000 Hz gives 2^32, outside the range
of PID 0x06 (Table 05-8) and of the U32 at M.0C; the model keeps 2^32, sends the record's VALUE modulo 2^32 and reads M.0C
modulo 2^32, that is 0. -/
def incOf (fSw : Nat) : Nat := (roundDiv (fSw * 4294967296) 2000000).toNat

namespace State

/-- Slots per sample of a port: those of its group, 20 without a group (R151). -/
def portK (s : State) (p : Nat) : Nat :=
  let g := (s.portB p).group
  if g < 32 then (s.groupB g).k else 20

/-- The enabled phases of a group in ascending port and phase order (R92). -/
def phasesOf (s : State) (g : Nat) : List (Nat × Nat) :=
  (s.portsOf g).flatMap (fun p => ((List.range 4).filter ((s.portB p).phaseOn)).map (fun k => (p, k)))

/-- The lag of a phase (R92). -/
def lagOf (s : State) (g p k : Nat) : Nat :=
  let m := (s.groupB g).modul
  let ps := s.phasesOf g
  if m.spread = 1 then m.ph0 % 65536
  else match ps.idxOf? (p, k) with
    | some j => (m.ph0 + (roundDiv (j * 65536) ps.length).toNat) % 65536
    | none => 0

/-- PRESS_TON of the press set that holds the port, 0 without one (R93). -/
def portPressTon (s : State) (p : Nat) : Nat :=
  match (List.range 4).find? (fun k => bitAt (s.psetC k).mask p) with
  | some k => (s.psetC k).pressTon
  | none => 0

/-- The parameter table that a port's active configuration gives (Table 05-8). -/
def paramTable (s : State) (p : Nat) : ParamTable :=
  let b := s.portB p
  let g := b.group
  let m := (s.groupB g).modul
  let base : ParamTable := { dP := (s.port p).dp, lossWin := b.lossWin, phases := 16 * (b.phases - 1) + b.phEn
                             pressTon := s.portPressTon p, fbEn := b.fbEn
                             fbVref := b.fbVref.toNat, fbIlim := b.fbIlim.toNat, fbVov := b.fbVov.toNat }
  if g < 32 then
    { base with rateK := (s.groupB g).k, mode := (s.groupB g).mode, inc := incOf m.fSw
                ph := Vector.ofFn (fun k => s.lagOf g p k.val), tOnNom := m.tOnNom, minOff := m.minOff
                slope := m.rippleSlope }
  else base

/-- The first 100 µs mark at least 300 µs after now, as a value of G (R93). For a write that waits for a mark, PRESS_TON, the
change is made at that mark (DESIGN CHOICE, assumption 166). -/
def taggedMark (s : State) : Nat := (s.clock.grid + 799) / 200 * 200

/-- A change of a port's parameters is delivered as records tagged with their mark, each sent three times. It is a change
against the last one under way, which keeps its own mark and records (R93, R162). -/
def deliverParams (s : State) (p : Nat) : State :=
  let r := s.port p
  let t := s.paramTable p
  let now := match r.nexts.getLast? with | some n => n.1 | none => r.table
  if r.link != .trained && r.link != .configuring || t == now then s
  else
    let mark := s.taggedMark
    let ch := now.changes t (mark / 200 % 65536)
    s.onPort p (fun r => { r with nexts := r.nexts ++ [(t, mark)], recs := r.recs ++ ch ++ ch ++ ch })

/-- A new INC of a group waits for its tagged mark (R93). -/
def deliverInc (s : State) (g : Nat) : State :=
  let inc := incOf (s.groupB g).modul.fSw
  s.onGroup g (fun r =>
    if inc == (match r.incNexts.getLast? with | some n => n.1 | none => r.inc) then r
    else { r with incNexts := r.incNexts ++ [(inc, s.taggedMark)] })

/-- At its tagged mark a new INC is in force (R93). -/
def markInc (s : State) (g : Nat) : State :=
  s.onGroup g (fun r =>
    { r with inc := ((r.incNexts.filter (fun n => n.2 ≤ s.clock.grid)).getLast?.map (·.1)).getD r.inc
             incNexts := r.incNexts.filter (fun n => s.clock.grid < n.2) })

/-- At its tagged mark a port's change is in force; the next two digest reports are checked (R93, R162). -/
def markParams (s : State) (p : Nat) : State :=
  s.onPort p (fun r =>
    match (r.nexts.filter (fun n => n.2 ≤ s.clock.grid)).getLast? with
    | some n => { r with table := n.1, nexts := r.nexts.filter (fun n => s.clock.grid < n.2), digests := some 0 }
    | none => r)

/-! ### Downlink (R155 to R163) -/

/-- Octets 1 to 19 of a downlink frame (Table 05-4). -/
def downFrame (s : State) (kind : Nat) (epoch : Half) (payload : List Byte) (aux : Option (Nat × List Byte)) : List Byte :=
  let seq := s.clock.grid % 4096
  let auxType := match aux with | some a => 4 + a.1 | none => 0
  let body := [BitVec.ofNat 8 (16 * kind + auxType), BitVec.ofNat 8 (16 * (epoch.toNat % 16) + seq / 256),
               BitVec.ofNat 8 seq] ++ payload ++ (match aux with | some a => a.2 | none => [0, 0])
  body ++ beBytes 2 (crc16 body).toNat

/-- The Assign payload (Table 05-7). -/
def assignPayload (s : State) (p : Nat) : List Byte :=
  let t := s.paramTable p
  beBytes 2 (s.port p).epoch.toNat ++ beBytes 4 (s.clock.grid % 4294967296) ++
  [BitVec.ofNat 8 p, BitVec.ofNat 8 t.rateK, BitVec.ofNat 8 t.mode, BitVec.ofNat 8 t.lossWin, 0, 0]

/-- A slot is a command slot of a group of `k` slots per sample (R151). -/
def commandSlot (g k : Nat) : Bool := k == 1 || g % k == 1

/-- Every one of the next four slots of a port carries a frame, as long as records wait: none of them is a command slot that
its group leaves idle. Only then can the aux stream carry a record (R157, R158). -/
def auxRuns (s : State) (p : Nat) : Bool :=
  let g := (s.portB p).group
  let k := s.portK p
  (s.port p).link != .trained || g ≥ 32 || (s.evaluated g && !(s.port p).out) ||
  (List.range 4).all (fun i => !(commandSlot (s.clock.grid + i) k))

/-- The aux stream before a frame: the next record joins it, but for READY, which closes a round; one that cannot travel
goes back (R158). -/
def auxTake (s : State) (p : Nat) : State :=
  let run := s.auxRuns p
  s.onPort p (fun r =>
    match r.aux, r.recs with
    | none, rec :: rest => if run && rec.pid != 0x7E then { r with aux := some rec, recs := rest, piece := 0 } else r
    | some rec, recs => if !run && r.piece == 0 then { r with aux := none, recs := rec :: recs } else r
    | none, [] => r)

/-- The piece that a frame carries (Table 05-5, R158). -/
def auxPiece (r : PortRun) : Option (Nat × List Byte) :=
  r.aux.map (fun rec => (r.piece, (rec.octets.drop (2 * r.piece)).take 2))

/-- The aux stream after a frame: the fourth piece completes its record. -/
def auxSent (r : PortRun) : PortRun :=
  if r.aux.isNone then r
  else if r.piece == 3 then { r with aux := none, piece := 0 } else { r with piece := r.piece + 1 }

/-- A slot symbol in place of a frame; it discards a partial record of the aux stream, which starts again (R158). -/
def slotSymbol (s : State) (p : Nat) (t : SlotContent) : State := s.onPort p (fun r => { r with tx := t, piece := 0 })

/-- A service frame with the record at the head of the queue in its payload, and a piece of another beside it; idle where
no record waits (R156 to R158). READY waits for the record that the aux stream still carries. -/
def serviceSlot (s : State) (p : Nat) : State :=
  let r := s.port p
  if r.recs.isEmpty && r.aux.isNone then s.slotSymbol p .idle
  else
    let hold := match r.recs.head? with | some rec => rec.pid == 0x7E && r.aux.isSome && r.piece != 3 | none => true
    let none : ParamRec := ⟨0, false, 0, 0, 0⟩
    let out := if hold then none else r.recs.headD none
    let s := if hold then s else s.onPort p (fun r => { r with recs := r.recs.drop 1 })
    let s := s.auxTake p
    let f := s.downFrame 2 r.epoch (out.octets ++ [0, 0, 0, 0]) (auxPiece (s.port p))
    let ready := out.pid == 0x7E
    s.onPort p (fun r => auxSent { r with
      tx := .frame f
      dpAt := if r.link == .configuring && r.dpAt.isNone then some s.clock.grid else r.dpAt
      readyAt := if ready then some s.clock.grid else r.readyAt
      rounds := if ready then r.rounds + 1 else r.rounds })

/-- The command frame of a slot, with a piece of the aux stream (R156, R158). -/
def commandFrame (s : State) (p : Nat) (ws : List (BitVec 24)) : State :=
  let s := s.auxTake p
  let f := s.downFrame 1 (s.port p).epoch (ws.flatMap (fun w => beBytes 3 w.toNat)) (auxPiece (s.port p))
  s.onPort p (fun r => auxSent { r with tx := .frame f, cmd := none })

/-- All records of a bring-up round: every record with NOW = 1 three times, then READY (R177). -/
def roundRecs (t : ParamTable) : List ParamRec :=
  t.nowRecs ++ t.nowRecs ++ t.nowRecs ++ [⟨0x7E, true, 0, t.digest.toNat, 0⟩]

/-- A round of records has had no matching digest: no report frame with the digest has come within five sample
periods of READY (DESIGN CHOICE: the manual gives no wait). -/
def roundOver (s : State) (p : Nat) : Bool :=
  match (s.port p).readyAt with
  | some t => decide (5 * s.portK p ≤ s.clock.grid - t)
  | none => false

/-! ### Bring-up (Table 05-15) -/

/-- A port leaves its group's aggregates; the down fraction follows (R46, R192). -/
def afterLiveness (s : State) (p : Nat) : State :=
  if (s.portB p).role == roleRectifier then s.recomputeD else s

/-- The port enters Training: an Assign falls due, after a stop symbol where the role epoch has changed (R177). -/
def enterTraining (s : State) (p : Nat) (stop : Bool) : State :=
  (s.onPort p (fun r => { r with
    link := .training, assignDue := true, assigns := 0, since := s.clock.slots, stopDue := r.stopDue || stop
    dp := 0, dpAt := none, rounds := 0, readyAt := none, recs := [], aux := none, piece := 0, nexts := [], digests := none
    cmd := none, got := false, miss := 0, inputDown := false, reported := 0
    locks := r.locks.map (fun l => { l with good := 0 }) })).afterLiveness p

/-- A failed attempt returns the port to Down (R177). -/
def linkFail (s : State) (p cause : Nat) : State :=
  (s.onPort p (fun r => { r with link := .down, failedAt := some s.clock.slots, assignDue := false, recs := [], aux := none
                                 dpAt := none, readyAt := none, reported := 0 })).detect (srcLink p) cause

/-- A Down port whose receiver holds symbol lock begins its bring-up, at least 10 ms after the last failed attempt (R177). -/
def trainDown (s : State) (p : Nat) : State :=
  let r := s.port p
  let wait := match r.failedAt with | some t => decide (10000 ≤ elapsedUs s t) | none => true
  if r.link == .down && r.symLock && wait then s.enterTraining p false else s

/-- The receiver of a port gains symbol lock (R146, R177). -/
def symbolLock (s : State) (p : Nat) : State := (s.onPort p (fun r => { r with symLock := true, silent := 0 })).trainDown p

/-- Content of a slot for one port (R63, R157, R177). -/
def slotPort (s : State) (p : Nat) : State :=
  let r := s.port p
  let s := s.onPort p (fun r => { r with txPress := false })
  if r.stopDue then (s.onPort p (fun r => { r with stopDue := false, cmd := none })).slotSymbol p .stop
  else
    let idle := s.slotSymbol p .idle
    match r.link with
    | .down => if s.linksRun then idle.trainDown p else idle
    | .lost => idle
    | .training =>
      if r.assignDue then
        s.onPort p (fun r => { r with tx := .frame (s.downFrame 3 r.epoch (s.assignPayload p) none)
                                      assignDue := false, assigns := r.assigns + 1, since := s.clock.slots })
      else idle
    | .configuring =>
      if r.recs.isEmpty && r.aux.isNone && r.rounds < 3 && s.roundOver p then
        (s.onPort p (fun r => { r with recs := roundRecs r.table, readyAt := none })).serviceSlot p
      else s.serviceSlot p
    | .trained =>
      let g := (s.portB p).group
      let k := s.portK p
      if g < 32 && commandSlot s.clock.grid k then
        if s.evaluated g && !r.out then
          match r.cmd with
          | some (at', ws) => if at' == s.clock.grid then s.commandFrame p ws
              else s.slotSymbol p .hold
          | none => s.slotSymbol p .hold
        else s.slotSymbol p .idle
      else s.serviceSlot p

/-- One grid slot: time passes and every link carries its content. -/
def slot (s : State) : State := allPorts.foldl slotPort s.nextSlot

/-- No hello frame within 100 µs of an Assign: resend, or Down after the eighth (R177). -/
def assignTimeout (s : State) (p : Nat) : State :=
  let r := s.port p
  if r.link == .training && !r.assignDue && 100 ≤ elapsedUs s r.since then
    if r.assigns < 8 then s.onPort p (fun r => { r with assignDue := true }) else s.linkFail p 1
  else s

/-- Three rounds of records without a matching digest (R177). -/
def configuringFail (s : State) (p : Nat) : State :=
  let r := s.port p
  if r.link == .configuring && 3 ≤ r.rounds && r.recs.isEmpty && r.aux.isNone && s.roundOver p then s.linkFail p 1 else s

/-- One millisecond in Lost: an Assign with the unchanged epoch (R177). -/
def lostRetrain (s : State) (p : Nat) : State :=
  let r := s.port p
  if r.link == .lost && 1000 ≤ elapsedUs s r.since then s.enterTraining p false else s

/-- A trained port is declared lost (R162, R177, R178); the loss is a fault of its group (R325). -/
def portLost (s : State) (p : Nat) : State :=
  let s := s.onPort p (fun r => { r with link := .lost, since := s.clock.slots, losses := r.losses + 1, cmd := none
                                         got := false, miss := 0, recs := [], aux := none, nexts := [], digests := none
                                         inputDown := false, reported := 0
                                         locks := r.locks.map (fun l => { l with good := 0 }) })
  let s := s.detect (srcLink p) 0
  let g := (s.portB p).group
  let s := if g < 32 then s.groupFault g 6 else s
  s.afterLiveness p

/-- The companion lacks the port's MODE or phase count (R177, R179). -/
def capsLack (caps : Byte) (mode phases : Nat) (inGroup : Bool) : Bool :=
  bitsOf caps 7 6 + 1 < phases ||
  (inGroup && match mode with | 0 => !bitAt caps 3 | 1 => !bitAt caps 5 | _ => !bitAt caps 4)

end State

/-! ### Uplink (R164 to R167, R171, R175) -/

namespace UplinkIn

/-- Octet `k` of the frame. -/
def at' (x : UplinkIn) (k : Nat) : Nat := (x.octets.getD k 0).toNat
/-- The 16-bit field whose high octet is octet `k`. -/
def u16 (x : UplinkIn) (k : Nat) : Nat := 256 * x.at' k + x.at' (k + 1)
def kind (x : UplinkIn) : Nat := x.at' 1 / 16
def item (x : UplinkIn) : Nat := x.at' 1 % 4
def epoch (x : UplinkIn) : Nat := x.at' 2 / 16
def seq (x : UplinkIn) : Nat := x.u16 2 % 4096
def status (x : UplinkIn) : Byte := x.octets.getD 16 0
/-- The frame fails its coding, CRC or KIND (R167, R178). -/
def broken (x : UplinkIn) : Bool :=
  x.codeError || x.octets.length != 24 || (crc16 ((x.octets.drop 1).take 21)).toNat != x.u16 22 ||
  !(x.kind == 4 || x.kind == 5)
/-- Identity of a hello frame: MAKER, MODEL, HW_REV, CAPS (L.08). -/
def identity (x : UplinkIn) : Dword :=
  BitVec.ofNat 64 (x.u16 4 * 4294967296 + x.u16 6 * 65536 + x.u16 8)

end UplinkIn

/-- θ_k at the instant an edge report names, wrapped to [−0.5, 0.5), in 2^−32 / (4 × 10^11) turn (R91, R103). -/
def edgePhase (g inc ph age : Nat) (rho : Int) : Int :=
  let d : Int := 400000000000
  let m : Int := 4294967296 * d
  let t := ((g : Int) * inc - ph * 65536) * d - age * (1000000000 + rho) * inc
  let x := t % m
  if m ≤ 2 * x then x - m else x

/-- The integrator and TRIM of one phase after an edge report with phase error `e` (R103), and its run of reports within
1/256 turn (R105). -/
def lockStep (r : PhaseLock) (e kp ki : Int) (suspended : Bool) (now : Nat) : PhaseLock :=
  let lim := State.lockTurn / 4
  let i := if suspended then r.i else clampInt (-lim) lim (r.i + ki * e)
  let p := if suspended then 0 else kp * e
  { i := i, trim := State.lockTrim (p + i)
    good := if e.natAbs * 256 ≤ 4294967296 * 400000000000 then r.good + 1 else 0
    limFrom := if i == lim || i == -lim then some (r.limFrom.getD now) else none }

namespace State

/-- The sample instant of a port's frame: the last one of its rate (R151). -/
def sampleInstant (s : State) (p : Nat) : Nat := s.clock.grid - s.clock.grid % s.portK p

/-- A frame whose SEQ or EPOCH is not the expected one is bad too (R167, R171). A FALLBACK frame comes from the companion's
own grid and is accepted whenever it arrives, so that its SEQ is not held against it (R153, R174, R178). -/
def uplinkBad (s : State) (p : Nat) (x : UplinkIn) : Bool :=
  x.broken || (x.seq != s.sampleInstant p % 4096 && !bitAt x.status 7) || x.epoch != (s.port p).epoch.toNat % 16

/-- The arrival window of R153. -/
def inWindow (s : State) (p : Nat) (x : UplinkIn) : Bool :=
  decide ((x.arrival - (50000 + 1250 * ((s.port p).dp : Int))).natAbs ≤ 10000) && decide (x.last ≤ 400000)

/-- The edge report of a frame of a port in a group in locked on-time (R103, R105). A group that is stopped or in fallback has no
lock to move: its reports are ignored (DESIGN CHOICE, assumption 167). -/
def edgeReport (s : State) (p : Nat) (x : UplinkIn) : State :=
  let g := (s.portB p).group
  let k := x.at' 17 / 64
  if g < 32 && s.evaluated g && (s.groupB g).mode == 2 && bitAt (x.octets.getD 17 0) 5 then
    let m := (s.groupB g).modul
    let t := (s.port p).table
    let e := edgePhase (s.sampleInstant p) t.inc (vget t.ph k 0) (x.u16 18) s.tb.rho
    -- |e| in 1/65,536 turn for the status figure
    let mag := (roundDiv (e.natAbs * 65536) (4294967296 * 400000000000)).toNat
    let s := s.onPort p (fun r => { r with locks := vmod r.locks k (fun l =>
      lockStep l e m.lockKp m.lockKi (s.group g).lock.suspended s.clock.slots) })
    s.onGroup g (fun r => { r with lock := { r.lock with recent := (mag :: r.lock.recent).take 100 } })
  else s

/-- The ITEM of a report frame (R164). -/
def itemReport (s : State) (p : Nat) (x : UplinkIn) : State :=
  let v := x.u16 20
  match x.item with
  | 0 =>
    let t := signed 16 v
    let first := !(s.port p).tempSeen
    let s := s.onPort p (fun r => { r with up := { r.up with temp := t }, tempSeen := true })
    if first then s.onModel p (fun m => if m.set then m.raise t else { m with report := some t }) else s
  | 1 => s.onPort p (fun r => { r with up := { r.up with line := v } })
  | 2 =>
    let s := s.onPort p (fun r => { r with up := { r.up with digest := BitVec.ofNat 16 v } })
    match (s.port p).digests with
    | none => s
    | some n =>
      if v == (s.port p).table.digest.toNat then s.onPort p (fun r => { r with digests := none })
      else if n = 0 then s.onPort p (fun r => { r with digests := some 1 })
      else if (s.port p).link == .trained then (s.detect (srcLink p) 4).portLost p else s
  | _ =>
    s.onPort p (fun r =>
      let a := BitVec.ofNat 8 (v / 256)
      let b := BitVec.ofNat 8 v
      { r with stale := r.stale + (a - r.staleLast).toNat, badDl := r.badDl + (b - r.badDlLast).toNat
               staleLast := a, badDlLast := b })

/-- STATUS flags of a good frame, in every state of the link; a flag is detected when a port begins to report it while
its group should deliver (R171, R175). -/
def statusFlags (s : State) (p : Nat) (new : Byte) : State :=
  let g := (s.portB p).group
  let expects := g < 32 && (s.evaluated g || (s.group g).phase == .fallback)
  let old := (s.port p).flagged
  let rise (k : Nat) : Bool := bitAt new k && !bitAt old k && expects
  let s := s.onPort p (fun r => { r with flagged := if expects then new else 0, reported := new })
  let s := s.detectIf (bitAt new 6) (srcLink p) 5
  let s := s.detectIf (rise 3) (srcCompanion p) 0
  let s := s.detectIf (rise 2) (srcCompanion p) 1
  let s := s.detectIf (rise 1) (srcCompanion p) 2
  s.detectIf (rise 7) (srcFallback p) 0

/-- An accepted frame of a trained port: readings, item and edge report (R165, R177, R178). -/
def acceptFrame (s : State) (p : Nat) (x : UplinkIn) : State :=
  let s := s.onPort p (fun r => { r with
    got := true
    up := { r.up with
      i := if x.kind == 5 then r.up.i else Vector.ofFn (fun k : Fin 4 => 10 * signed 16 (x.u16 (4 + 2 * k.val)))
      vout := 2 * x.u16 12, vin := 10 * x.u16 14, status := x.status } })
  let s := if x.kind == 4 then s.itemReport p x else s
  s.edgeReport p x

/-- A hello frame in Training gives D_p (R177). -/
def helloTraining (s : State) (p : Nat) (x : UplinkIn) : State :=
  let d := roundDiv (x.arrival - 50000) 2500
  if 10 < d then s.linkFail p 2
  else
    let s := s.onPort p (fun r => { r with dp := d.toNat, hello := x.identity })
    let t := s.paramTable p
    s.onPort p (fun r => { r with
      link := .configuring, table := t, dpAt := none, rounds := 0, readyAt := none
      recs := ⟨0x01, true, 0, t.dP, 0⟩ :: roundRecs t })

/-- A frame of a port in Configuring: the arrival check, the capability check, the digest (R177). -/
def frameConfiguring (s : State) (p : Nat) (x : UplinkIn) : State :=
  let r := s.port p
  let b := s.portB p
  -- the D_P record is the first of the queue; it acts on the frames of the sample instants after its slot
  let sent := r.dpAt.isSome && r.dpAt != some s.clock.grid
  if x.kind == 5 && sent && 2500 < (x.arrival - (50000 + 1250 * (r.dp : Int))).natAbs then s.linkFail p 1
  else if capsLack (r.hello.setWidth 8) (s.groupB b.group).mode b.phases (b.group < 32) then s.linkFail p 3
  else if x.kind == 4 && x.item == 2 && x.u16 20 == r.table.digest.toNat then
    let off := bitAt x.status 0 && b.group < 32 && (s.evaluated b.group || (s.group b.group).phase == .fallback)
    let s := s.onPort p (fun r => { r with
      link := .trained, identity := r.hello, recs := r.recs.filter (!·.now), miss := 0, piece := 0, out := off })
    (s.acceptFrame p x).afterLiveness p
  else s

/-- Receipt of an uplink frame; eight code errors since the last K28.5 lose symbol lock (R146, R153, R164, R167, R171, R177).
In a group in fallback a FALLBACK frame with another epoch counts as bad and gives no reading, and is no loss (R171, R178). -/
def uplinkFrame (s : State) (p : Nat) (x : UplinkIn) : State :=
  let s := s.onPort p (fun r => { r with seen := true, symLock := r.symLock && x.errors < 8 })
  let g := (s.portB p).group
  if s.uplinkBad p x then
    let known := !x.broken && bitAt x.status 7 && g < 32 && (s.group g).phase == .fallback
    s.onPort p (fun r => { r with bad := r.bad + 1, spoilt := true, got := r.got || known })
  else match (s.port p).link with
    | .training => let s := s.statusFlags p x.status
                   if x.kind == 5 then s.helloTraining p x else s
    | .configuring => (s.statusFlags p x.status).frameConfiguring p x
    | .trained => if s.inWindow p x || bitAt x.status 7 then (s.statusFlags p x.status).acceptFrame p x else s
    | .lost | .down => s.statusFlags p x.status

/-- The ports whose sample a deadline closes: those of a group, or one port without a group. -/
def deadlinePorts (s : State) (g : Nat) (lone : Option Nat) : List Nat :=
  match lone with
  | some p => if (s.portB p).group < 32 then [] else [p]
  | none => s.portsOf g

/-- The K28.5 of the sample: that of a frame, or of an idle pair with the code errors since the one before it. After four
samples without a K28.5, or with eight code errors, the receiver has lost symbol lock (R146). -/
def commaSeen (s : State) (idles : List (Nat × Nat)) (p : Nat) : State :=
  s.onPort p (fun r =>
    let idle := idles.lookup p
    let n := if r.seen || idle.isSome then 0 else r.silent + 1
    { r with seen := false, silent := n, symLock := r.symLock && n < 4 && idle.getD 0 < 8 })

/-- The arrival deadline for one port: a missing or bad frame counts toward loss (R178). -/
def deadlinePort (idles : List (Nat × Nat)) (s : State) (p : Nat) : State :=
  let s := s.commaSeen idles p
  let r := s.port p
  if r.link != .trained then s
  else if r.got then s.onPort p (fun r => { r with got := false, spoilt := false, miss := 0 })
  else
    let s := s.onPort p (fun r => { r with
      missing := if r.spoilt then r.missing else r.missing + 1, spoilt := false, miss := r.miss + 1 })
    if 3 ≤ (s.port p).miss then s.portLost p else s

/-- The readings of a sample enter the sums of the port's model (R284, R294). -/
def modelSample (s : State) (p : Nat) : State :=
  let u := (s.port p).up
  let i := s.iout p
  let limit (v : Int) : Bool := v == -327680 || v == 327670
  let bad := u.vin == 655350 || (List.range 4).any (fun k => (s.portB p).phaseOn k && limit (vget u.i k 0))
  s.onModel p (fun m => { m with sums := { m.sums with
    v := m.sums.v + u.vin, nV := m.sums.nV + 1, iAbs := m.sums.iAbs + i.natAbs, iSq := m.sums.iSq + i * i
    nI := m.sums.nI + 1, bad := m.sums.bad || bad } })

/-- The 400 ns deadline of a sample: losses, input states, the down fraction and input loss (R178, R192, R193); `idles` are
the ports that have sent idle pairs (Table 05-13). -/
def arrivalDeadline (s : State) (g : Nat) (lone : Option Nat) (idles : List (Nat × Nat)) : State :=
  let ps := s.deadlinePorts g lone
  let s := ps.foldl (deadlinePort idles) s
  let s := (ps.filter s.live).foldl modelSample s
  let before := ps.map (fun p => (s.port p).inputDown)
  let s := ps.foldl inputState s
  let s := if ps.map (fun p => (s.port p).inputDown) == before then s else s.recomputeD
  s.lossRows

end State
end Sys2Proof.Machine
end

