-- ==== Sys2Proof/Machine/Feeds.lean ====
section
/-!
DEFINITION. Feeds: measurement, states, trips, captures and FDn_THR (R243 to R263, R213).
-/
namespace Sys2Proof.Machine
set_option Elab.async false

/-! ### Feed configuration word (Table 08-4) -/

def FeedBank.retryMax (b : FeedBank) : Nat := bitsOf b.core.cfg 11 8
def FeedBank.thrPol (b : FeedBank) : Bool := bitAt b.core.cfg 4
def FeedBank.reinsert (b : FeedBank) : Bool := bitAt b.core.cfg 2
def FeedBank.seatEn (b : FeedBank) : Bool := bitAt b.core.cfg 1

/-- The feed current in mA from the shunt voltage (R245). -/
def feedCurrent (b : FeedBank) (shunt : Int) : Int := roundDiv (shunt * 1000) b.core.rsh

/-- Both seating inputs read seated, or SEAT_EN is 0 (R246). -/
def FeedRun.seated (r : FeedRun) (b : FeedBank) : Bool := !b.seatEn || (r.rd.seatL && r.rd.seatS)

/-- The capture extremes after a tick; `on` says that the feed is in On (R261). -/
def FeedCaptures.tick (c : FeedCaptures) (i v : Int) (on newBin : Bool) (now : Nat) : FeedCaptures :=
  let c := if c.peak < i then { c with peak := i, peakAt := now } else c
  let c := if on && v < c.minV then { c with minV := v, minAt := now } else c
  let c := if newBin then { c with bins := ((c.binPeak, c.binMin) :: c.bins).take 999, binPeak := i
                                   binMin := if on then v else 0x7FFFFFFF }
    else { c with binPeak := max c.binPeak i, binMin := if on then min c.binMin v else c.binMin }
  c

/-- Peak current over the last second. -/
def FeedCaptures.peakSecond (c : FeedCaptures) : Int := c.bins.foldl (fun a b => max a b.1) c.binPeak

/-- Minimum V_out in On over the last second. -/
def FeedCaptures.minSecond (c : FeedCaptures) : Int := c.bins.foldl (fun a b => min a b.2) c.binMin

/-- The since-clear pair cleared (R261). -/
def FeedCaptures.clear (c : FeedCaptures) : FeedCaptures := { c with peak := 0, peakAt := 0, minV := 0x7FFFFFFF, minAt := 0 }

/-- The readings of a tick and the 1 ms means, closed every 1,000 ticks (R245). -/
def FeedReadings.tick (r : FeedReadings) (x : FeedIn) (i : Int) : FeedReadings :=
  let p := x.vout * i
  let r := { r with vbus := x.vbus, vout := x.vout, current := i, shunt := x.shunt, seatL := x.seatL, seatS := x.seatS
                    sumI := r.sumI + i, sumP := r.sumP + p, ticks := r.ticks + 1 }
  if r.ticks = 1000 then
    { r with meanI := roundDiv r.sumI 1000, meanP := roundDiv r.sumP 1000000000, sumI := 0, sumP := 0, ticks := 0 }
  else r

namespace State

/-- The scorebook record of a trip, abort, main gate fault or latch (R255, Table 11-9). -/
def feedRecord (s : State) (z cause : Nat) : State :=
  let r := s.feed z
  s.blockEvent 3 z cause (leInt 4 r.rd.vbus ++ leInt 4 r.rd.vout ++ leInt 4 r.rd.current ++ leInt 4 r.caps.peak ++
    leBytes 4 (r.energy / 1000000) ++ leInt 4 (r.x / 1000000000000) ++ [BitVec.ofNat 8 r.retry] ++ List.replicate 11 0)

/-- Both gates off and the feed in `ph` (Table 08-2). -/
def feedTo (s : State) (z : Nat) (ph : FeedPhase) : State :=
  s.onFeed z (fun r => { r with phase := ph, since := s.clock.slots, pcg := false, mng := false, dropFrom := none })

/-- Entry to Pre-charge: FDn_PCG on, timer and energy estimate to 0 (Table 08-2). -/
def feedPreCharge (s : State) (z : Nat) : State :=
  s.onFeed z (fun r => { r with phase := .preCharge, since := s.clock.slots, pcg := true, mng := false, energy := 0 })

/-- The conditions that end an attempt at this tick, in the order in which the first gives the cause (R255):
overcurrent trip, I²t trip, pre-charge energy, pre-charge timeout. -/
def feedEnds (s : State) (z : Nat) : List Nat :=
  let r := s.feed z
  let b := (s.feedB z).core
  let oc := if s.due r.ocTrip then [2] else []
  match r.phase with
  | .preCharge => oc ++
      (if (b.preEMax : Int) * 1000000 ≤ r.energy then [5] else []) ++
      (if b.preTimeout ≤ elapsedUs s r.since then [4] else [])
  | .on => oc ++ (if (b.i2tLim : Int) * 1000000000000 ≤ r.x then [3] else [])
  | _ => []

/-- The lint cause of a feed cause code (Table 11-1). -/
def feedLintCause : Nat → Nat
  | 2 => 0 | 3 => 1 | 4 => 2 | 5 => 3 | _ => 4

/-- A trip or abort: Retry wait, or Latched when the retries are used up (Table 08-2, R255). -/
def feedEnd (s : State) (z : Nat) (causes : List Nat) : State :=
  let s := causes.foldl (fun s c => s.detect (srcFeed z) (feedLintCause c)) s
  let c := causes.headD 0
  let latch := (s.feedB z).retryMax ≤ (s.feed z).retry
  let s := s.onFeed z (fun r => { r with cause := c })
  let s := if latch then (s.feedTo z .latched).detect (srcFeed z) 5
    else (s.feedTo z .retryWait).onFeed z (fun r => { r with retry := r.retry + 1 })
  s.feedRecord z c

/-- A stop of a feed in a state that a stop changes (Table 08-2). -/
def feedStop (s : State) (z cause : Nat) : State :=
  let r := s.feed z
  match r.phase with
  | .off | .latched => s
  | .retryWait => (s.feedTo z .off).onFeed z (fun r => { r with cause := cause, retry := 0 })
  | _ => (s.feedTo z .off).onFeed z (fun r => { r with cause := cause })

/-- The main gate fault condition of R253. -/
def mainGateFault (s : State) (z : Nat) : Bool :=
  match (s.feed z).dropFrom with
  | some t => (s.feed z).phase == .on && decide (10000 ≤ elapsedUs s t)
  | none => false

/-- Seated for SEAT_DEB without interruption, from the later of the entry to Seating and the first seated tick (R246). -/
def seatDebounced (s : State) (z : Nat) : Bool :=
  let r := s.feed z
  match r.seatedFrom with
  | some t => decide ((s.feedB z).core.seatDeb ≤ elapsedUs s (max t r.since))
  | none => false

/-- The cause of a stop request that this tick takes (R246, R479). -/
def stopDue (s : State) (z : Nat) : Option Nat :=
  ((s.feed z).stopReq.filter (fun r => s.due (some r.2))).map (·.1)

/-- A start request that a tick takes in Off: safe state refuses it (R308), a thermal hold refuses it, and marks the feed
unless a host asked (R293); a shed feed starts for a host or for its restore, which clear the mark, alone (R257). -/
def feedStart (s : State) (z : Nat) : State :=
  let host := (s.feed z).startHost
  if s.lint.safe then s
  else if s.feedHeld z then s.onFeed z (fun r => { r with thermalMark := r.thermalMark || !host })
  else if (s.feed z).shed then s
  else (s.feedTo z .seating).onFeed z (fun r => { r with retry := 0 })

/-- The first row of Table 08-2 that matches in the present state. -/
def feedRow (s : State) (z : Nat) : State :=
  let r := s.feed z
  let b := s.feedB z
  let seated := r.seated b
  let ends := s.feedEnds z
  let stop := s.stopDue z
  match r.phase with
  | .off => if stop.isNone && s.due r.startReq then s.feedStart z else s
  | .seating =>
    match stop with
    | some c => s.feedStop z c
    | none => if s.seatDebounced z then s.feedPreCharge z else s
  | .preCharge =>
    if !ends.isEmpty then s.feedEnd z ends
    else match stop with
      | some c => s.feedStop z c
      | none =>
        if !seated then (s.feedTo z .seating).onFeed z (fun r => { r with cause := 7 })
        else if (b.core.preThr : Int) * r.rd.vbus ≤ 1000 * r.rd.vout then
          s.onFeed z (fun r => { r with phase := .on, since := s.clock.slots, mng := true, x := 0, dropFrom := none })
        else s
  | .on =>
    if !ends.isEmpty then s.feedEnd z ends
    else if s.mainGateFault z then
      let s := (s.feedTo z .latched).onFeed z (fun r => { r with cause := 6 })
      (((s.detect (srcFeed z) 4).detect (srcFeed z) 5)).feedRecord z 6
    else match stop with
      | some c => s.feedStop z c
      | none =>
        if !seated then
          (s.feedTo z (if b.reinsert then .seating else .off)).onFeed z (fun r => { r with cause := 7 })
        else if 10000000 ≤ elapsedUs s r.since then s.onFeed z (fun r => { r with retry := 0 })
        else s
  | .retryWait =>
    match stop with
    | some c => s.feedStop z c
    | none =>
      if b.core.retryInt ≤ elapsedUs s r.since then
        let kept := match r.seatedFrom with | some t => decide (t ≤ r.since) | none => false
        if kept then s.feedPreCharge z else s.feedTo z .seating
      else s
  | .latched => if s.due r.clearReq then (s.feedTo z .off).onFeed z (fun r => { r with retry := 0 }) else s

/-- An overcurrent trip that registers at this tick in a state in which it ends no attempt: the lint bit and the record (R247,
R251, R255). DEDUCED (assumption 146): Last cause stands, since no row of Table 08-2 records one there. -/
def feedTripped (s : State) (z : Nat) : State :=
  match (s.feed z).phase with
  | .preCharge | .on => s
  | _ => if s.due (s.feed z).ocTrip then (s.detect (srcFeed z) 0).feedRecord z 2 else s

/-- The shed step takes a feed to Off, marked shed (R256). -/
def feedShed (s : State) (z : Nat) : State :=
  match (s.feed z).phase with
  | .off | .latched => s
  | _ => (s.feedTo z .off).onFeed z (fun r => { r with cause := 8, shed := true, thr := { r.thr with warned := false } })

/-- Evaluation of Table 08-2 at a tick. It takes every request that arose before it; one that no row uses is gone (R246). A shed
step of the same tick applies after the rows, so that a trip is recorded first (R256). -/
def feedRows (s : State) (z : Nat) : State :=
  let s := (s.feedTripped z).feedRow z
  let s := if s.due (s.feed z).shedReq then s.feedShed z else s
  s.onFeed z (fun r => { r with
    ocTrip := if s.due r.ocTrip then none else r.ocTrip
    shedReq := if s.due r.shedReq then none else r.shedReq
    startReq := if s.due r.startReq then none else r.startReq
    stopReq := r.stopReq.filter (fun q => !s.due (some q.2))
    clearReq := if s.due r.clearReq then none else r.clearReq })

/-! ### FDn_THR (R213, R260) -/

/-- A model named by the feed bank is in throttle. -/
def feedThrottled (s : State) (z : Nat) : Bool :=
  let m := (s.feedB z).model
  m < 65 && (s.model m).throttle

/-- The over-grant reason: above the grant, until below 0.95 of it; not evaluated in hardware-run (R213). -/
def overGrant (s : State) (z : Nat) : Bool :=
  let r := s.feed z
  if s.hardwareRun then false
  else if r.thr.overGrant then decide (95 * r.grant ≤ 100 * r.rd.meanP) else decide (r.grant < r.rd.meanP)

/-- The reasons that hold, bits as 0x2030+z.06. -/
def thrReasons (s : State) (z : Nat) : Byte :=
  let r := s.feed z
  let bit (b : Bool) (k : Nat) : Byte := if b then BitVec.ofNat 8 (2 ^ k) else 0
  bit r.thr.overGrant 0 ||| bit r.thr.warned 1 ||| bit (r.phase == .retryWait || r.phase == .latched) 2 |||
  bit (s.feedThrottled z) 3 ||| bit (s.feedB z).zone.thrForce 4

/-- FDn_THR follows its reasons, and is held for 10 ms from its assertion (R213). -/
def thrUpdate (s : State) (z : Nat) : State :=
  let s := s.onFeed z (fun r => { r with thr := { r.thr with overGrant := s.overGrant z } })
  let rs := s.thrReasons z
  s.onFeed z (fun r =>
    let t := { r.thr with reasons := rs }
    { r with thr :=
      if rs != 0 then (if t.active then t else { t with active := true, since := s.clock.slots })
      else if t.active && 10000 ≤ elapsedUs s t.since then { t with active := false } else t })

/-- The level at pin FDn_THR: the active level per THR_POL, inactive before the first swap of the bank (R260). -/
def thrPin (s : State) (z : Nat) : Bool :=
  let r := s.feed z
  (r.thr.active && r.thr.armed) != (s.feedB z).thrPol

/-! ### One feed tick -/

/-- The seating fault of R248. -/
def seatingFault (s : State) (z : Nat) : State :=
  let r := s.feed z
  let b := s.feedB z
  if b.seatEn && r.rd.seatS && !r.rd.seatL then
    let t := r.seatFrom.getD s.clock.slots
    let hit := decide (10000 ≤ elapsedUs s t)
    (s.onFeed z (fun r => { r with seatFrom := some t, seatFault := r.seatFault || hit })).detectIf
      (hit && !r.seatFault) (srcSeating z) 0
  else s.onFeed z (fun r => { r with seatFrom := none, seatFault := false })

/-- Energy estimate, I²t integrator and the runs of conditions at a tick (R249, R252, R253). -/
def feedIntegrate (s : State) (z : Nat) : State :=
  let b := (s.feedB z).core
  s.onFeed z (fun r =>
    let dv := r.rd.vbus - r.rd.vout
    let r := if r.phase == .preCharge then { r with energy := r.energy + (roundDiv (dv * dv) b.rpre).toNat } else r
    let r := if r.phase == .on then
        { r with x := max 0 (r.x + (r.rd.current * r.rd.current - b.iCont * b.iCont)) } else r
    let steep := r.phase == .on && decide (b.dropMax < dv) && decide (b.overlap ≤ elapsedUs s r.since)
    { r with dropFrom := if steep then some (r.dropFrom.getD s.clock.slots) else none
             seatedFrom := if r.seated (s.feedB z) then some (r.seatedFrom.getD s.clock.slots) else none })

/-- FDn_PCG off OVERLAP after FDn_MNG turned on (R250). -/
def overlapEnd (s : State) (z : Nat) : State :=
  let r := s.feed z
  if r.phase == .on && r.pcg && (s.feedB z).core.overlap ≤ elapsedUs s r.since then
    s.onFeed z (fun r => { r with pcg := false }) else s

/-- The comparator crosses OC_LIM: both gates pull down at once, in every state, and the trip registers at the next tick
(R247, R251). -/
def overcurrent (s : State) (z : Nat) : State :=
  s.onFeed z (fun r => { r with pcg := false, mng := false, ocTrip := s.raised r.ocTrip })

/-- The shunt voltage of a reading exceeds OC_LIM × RSH (R251). -/
def overLimit (s : State) (z : Nat) : Bool :=
  let b := (s.feedB z).core
  decide (b.ocLim * b.rsh < 1000 * (s.feed z).rd.shunt)

/-- One 1 µs feed tick (R245, R246, R249, R252, R261, R213). A reading above OC_LIM has tripped the comparator, and the trip
registers at the next tick (R251). -/
def feedTick (s : State) (z : Nat) (x : FeedIn) : State :=
  let i := feedCurrent (s.feedB z) x.shunt
  let s := s.onFeed z (fun r =>
    let caps := if s.due r.capsReq then r.caps.clear else r.caps
    { r with caps := caps.tick i x.vout (r.phase == .on) (r.rd.ticks == 0) s.shelfNs
             capsReq := if s.due r.capsReq then none else r.capsReq
             rd := r.rd.tick x i })
  let s := s.seatingFault z
  let s := s.feedIntegrate z
  let s := s.feedRows z
  let s := s.overlapEnd z
  let s := if s.overLimit z then s.overcurrent z else s
  s.thrUpdate z

/-- A shed step is requested of a feed, which takes it at its next tick (R205, R256, R479). -/
def askShed (s : State) (z : Nat) : State := s.onFeed z (fun r => { r with shedReq := s.raised r.shedReq })

/-- The feed's state at the end of a warm reset; a trip of the comparator during it is `tripped`, or stands in the feed since
an OVERCURRENT_TRIP (R259). -/
def feedAfterReset (s : State) (z : Nat) (tripped : Bool) : State :=
  let r := s.feed z
  if tripped || r.ocTrip.isSome then
    ((s.feedTo z .retryWait).onFeed z (fun r => { r with retry := 1, cause := 10, x := 0, ocTrip := none })).detect (srcFeed z) 0
  else if r.mng then s.onFeed z (fun r => { r with phase := .on, since := s.clock.slots, x := 0, dropFrom := none })
  else if r.pcg then s.feedTo z .seating
  else s.feedTo z .off

end State
end Sys2Proof.Machine
end

