-- ==== Sys2Proof/Machine/Strings.lean ====
section
/-!
DEFINITION. Battery strings: charge counting, charge states and set-points, anchors, capacity learning, the
reported forms and the learned-values slots (R215 to R242).
-/
namespace Sys2Proof.Machine
set_option Elab.async false

/-! ### String configuration word (Table 07-5) -/

def StringBank.ctrlEn (b : StringBank) : Bool := bitAt b.cfg 0
def StringBank.learnEn (b : StringBank) : Bool := bitAt b.cfg 1
def StringBank.shuntPol (b : StringBank) : Bool := bitAt b.cfg 2

/-! ### The count (R215 to R217) -/

/-- The charge of a tick as a quotient in mC (R215, R216): numerator and denominator. -/
def chargeOf (b : StringBank) (native : Int) : Int × Nat :=
  let n := if b.shuntPol then -native else native
  ((10 * n - b.offsetTrim) * (1000000 + b.gainTrim), 1000000 * b.shuntR)

/-- The count of one tick: A takes the whole mC, the remainder keeps the rest exactly (R216). -/
def StringRun.count (r : StringRun) (b : StringBank) (x : StringIn) : StringRun :=
  let (n, d) := chargeOf b x.native
  let num := r.remNum * d + n * r.remDen
  let den := r.remDen * d
  let left := num % den
  let g := Nat.gcd left.toNat den
  { r with a := r.a + num / den, remNum := left / g, remDen := den / g
           current := roundDiv (n * 1000) d, bsv := x.bsv }

/-! ### Slots (R238) -/

/-- Words 0 to 3 of a slot with STATE complete, as the check takes them. -/
def LearnSlot.octets (l : LearnSlot) : List Byte :=
  leBytes 4 l.seq ++ leBytes 4 2 ++ leBytes 8 l.w1.toNat ++ leBytes 8 l.w2.toNat ++ leBytes 8 l.w3.toNat

/-- A slot is valid when it is complete and its check is right (R238). -/
def LearnSlot.valid (l : LearnSlot) : Bool := l.state == 2 && l.check == crc32 l.octets

/-- A complete slot with its check. -/
def LearnSlot.make (seq : Nat) (w1 w2 w3 : Dword) : LearnSlot :=
  let l : LearnSlot := { seq := seq, state := 2, w1 := w1, w2 := w2, w3 := w3 }
  { l with check := crc32 l.octets }

/-- The valid slot of a pair with the higher SEQ, 2 where neither is valid (R239). -/
def newest (v : Vector LearnSlot 2) : Nat :=
  let a := vget v 0 {}
  let b := vget v 1 {}
  if a.valid && (!b.valid || decide (b.seq ≤ a.seq)) then 0 else if b.valid then 1 else 2

/-- EOH_RES and LEARNS as word 2 of a capacity slot. -/
def learnWord (res learns : Nat) : Dword := BitVec.ofNat 64 (res % 65536 + learns * 4294967296)

/-- EOH_RES in force: EOH_RES_INIT before the first qualified cycle (R236). -/
def StringRun.res (r : StringRun) (b : StringBank) : Nat := if r.learns = 0 then b.eohResInit else r.eohRes

/-- The capacity slot under way is complete: words 1 to 4, then STATE 2; it holds the capacity in force (R238). -/
def StringRun.learnDone (r : StringRun) : StringRun :=
  match r.writing with
  | some w => { r with slots := vmod r.slots w.index (fun _ => w.slot), inForce := w.index, writing := none }
  | none => r

/-- The checkpoint under way is complete (R238). -/
def StringRun.checkDone (r : StringRun) : StringRun :=
  match r.checking with
  | some w => { r with checks := vmod r.checks w.index (fun _ => w.slot), checking := none }
  | none => r

/-- Writes under way that have taken 50 µs are complete: a commit takes less (R239). DESIGN CHOICE (assumption 123): it takes
all of them. -/
def StringRun.writesDone (r : StringRun) (now : Nat) : StringRun :=
  let ended (w : Option SlotWrite) : Bool := match w with | some w => decide (100 ≤ now - w.from') | none => false
  let r := if ended r.writing then r.learnDone else r
  if ended r.checking then r.checkDone else r

/-- The learned capacity is committed into the slot that does not hold the capacity in force: word 0 with the next SEQ and
STATE 1 first, the rest as long as the commit lasts (R238). -/
def StringRun.commitLearn (r : StringRun) (b : StringBank) (shelf now : Nat) : StringRun :=
  let r := r.learnDone
  let i := if r.inForce = 0 then 1 else 0
  let seq := ((vget r.slots r.inForce {}).seq + 1) % 4294967296
  { r with slots := vmod r.slots i (fun l => { l with seq := seq, state := 1 })
           writing := some { index := i, from' := now, slot := LearnSlot.make seq (BitVec.ofInt 64 r.cap)
                                                               (learnWord (r.res b) r.learns) (BitVec.ofNat 64 shelf) } }

/-- A count checkpoint: A, A_ref and C go into the older slot of the second pair, in the same order (R231, R238). -/
def StringRun.checkpoint (r : StringRun) (now : Nat) : StringRun :=
  let r := r.checkDone
  let k := newest r.checks
  let i := if k = 0 then 1 else 0
  let seq := ((vget r.checks k {}).seq + 1) % 4294967296
  { r with checks := vmod r.checks i (fun l => { l with seq := seq, state := 1 })
           checking := some { index := i, from' := now, slot := LearnSlot.make seq (BitVec.ofInt 64 r.cap)
                                                                (BitVec.ofInt 64 r.aRef) (BitVec.ofInt 64 r.a) } }

/-! ### Charge states (R221 to R224) -/

/-- I_WANT and V_LIM of a charge state (Table 07-2); in Settle 0 while input loss is declared (R223). -/
def chargeWant (b : StringBank) (p : ChargePhase) (loss : Bool) : Int × Int :=
  match p with
  | .bulk | .topup => (b.chgI, b.chgV)
  | .float => (b.chgI, b.floatV)
  | .hold => (0, b.chgV)
  | .settle => (if loss then 0 else -b.settleI, b.chgV)

/-- The I_CV step of R221. -/
def cvStep (b : StringBank) (iCv v vLim : Int) : Int := clampInt 0 b.chgI (iCv + b.cvKi * (vLim - v))

/-- The discharge set-point of R224, rounded to nearest. -/
def dischargeSet (b : StringBank) (bsv : Int) : Int :=
  let span := b.emptyV - b.cutoffV
  (0 : Int) - max (roundDiv (b.disI * clampInt 0 span (bsv - b.cutoffV)) span) 1

namespace State

/-- The firmware runs: not in hardware-run, and started (R226). -/
def fw (s : State) : Bool := s.score.firmware && !s.hardwareRun

/-- A refresh is due (R222). -/
def refreshDue (s : State) (k : Nat) : Bool :=
  let n := (s.strB k).refreshInt
  n != 0 && decide (n * 3600000000000 ≤ s.shelfNs - (s.str k).lastFull)

/-- The run of a condition of a string: its first tick while it holds. -/
def runFrom (s : State) (b : Bool) (t : Option Nat) : Option Nat := if b then some (t.getD s.clock.slots) else none

/-- A run of ticks has lasted `ms`. -/
def lasted (s : State) (t : Option Nat) (ms : Nat) : Bool :=
  match t with | some t => decide (ms * 1000 ≤ elapsedUs s t) | none => false

/-- Termination holds (R222). -/
def terminated (s : State) (k : Nat) : Bool :=
  (s.str k).phase == .bulk && s.lasted (s.str k).termFrom (s.strB k).termT

/-- The recharge condition of Float (Table 07-2). -/
def rechargeDue (s : State) (k : Nat) : Bool :=
  (s.str k).phase == .float && s.lasted (s.str k).rechgFrom 10000

/-- Conditions of the present tick that must last (R222, R228). -/
def stringRuns (s : State) (k : Nat) : State :=
  let b := s.strB k
  let r := s.str k
  let atEmpty := decide (r.bsv ≤ b.emptyV) && decide (b.emptyIMin ≤ -r.current) && decide (r.current < 0)
  s.onStr k (fun r => { r with
    termFrom := s.runFrom (decide (r.iCv < b.chgI) && decide (0 ≤ r.current) && decide (r.current ≤ b.termI)) r.termFrom
    rechgFrom := s.runFrom (r.phase == .float && decide (r.bsv < b.rechgV)) r.rechgFrom
    emptyFrom := s.runFrom atEmpty r.emptyFrom
    emptyDone := r.emptyDone && atEmpty })

/-- The full anchor: Q_c becomes C, the full early flag drops, and a learning cycle starts at its last tick (R227, R230,
R232). -/
def fullAnchor (s : State) (k : Nat) : State :=
  let b := s.strB k
  s.onStr k (fun r => { r with
    aRef := r.a - r.cap, lastFull := s.shelfNs, uncertain := false, early := false
    cycle := some { a0 := r.a, from' := s.clock.up, good := b.learnEn && !r.uncertain } })

/-- The first row of Table 07-2 that matches; rows on SOC_c or a refresh need the firmware. -/
def chargeRow (s : State) (k : Nat) : ChargePhase :=
  let b := s.strB k
  let r := s.str k
  let due := s.fw && s.refreshDue k
  let full := s.fw && (b.chgTarget == 10000 || due)
  let past (v : Int) : Bool := s.fw && decide (0 < r.socOver v)
  let under (v : Int) : Bool := s.fw && decide (r.socOver v < 0)
  match r.phase with
  | .bulk =>
    if s.terminated k then .float
    else if s.fw && decide (b.chgTarget < 10000) && !due && decide (0 ≤ r.socOver b.chgTarget) then .hold else .bulk
  | .float =>
    if decide (b.chgTarget < 10000) && past (b.chgTarget + b.targetHyst) then .settle
    else if s.rechargeDue k then .bulk else .float
  | .hold =>
    if full then .bulk
    else if under (b.chgTarget - b.targetHyst) then .topup
    else if past (b.chgTarget + b.targetHyst) then .settle else .hold
  | .topup => if full then .bulk else if s.fw && decide (0 ≤ r.socOver b.chgTarget) then .hold else .topup
  | .settle => if full then .bulk else if s.fw && decide (r.socOver b.chgTarget ≤ 0) then .hold else .settle

/-- The charge state after the tick, with the termination event and the anchor in Float (R222, R227). -/
def chargeState (s : State) (k : Nat) : State :=
  let ended := s.terminated k
  let p := s.chargeRow k
  let s := s.onStr k (fun r => { r with phase := p, termFrom := if ended then none else r.termFrom
                                        rechgFrom := if p == .float then r.rechgFrom else none })
  if s.fw && (ended || (p == .float && decide (0 ≤ (s.str k).current))) then s.fullAnchor k else s

/-- The set-points of CHG_CH and DIS_CH (R221, R223, R224). -/
def stringSetpoints (s : State) (k : Nat) : State :=
  let b := s.strB k
  let r := s.str k
  if !b.ctrlEn then s
  else
    let want := (chargeWant b r.phase s.shelf.loss.declared).1
    let s := s.writeSetpoint b.chargeCh (if want < 0 then want else min want r.iCv)
    s.writeSetpoint b.dischargeCh (dischargeSet b r.bsv)

/-! ### Empty anchor and learning (R228, R232, R233) -/

/-- The string temperature and whether it has been missing for more than 10 s (R232). -/
def stringTempOk (s : State) (k : Nat) : Bool :=
  let b := s.strB k
  let within (t : Int) : Bool := decide (b.qualTLo ≤ t) && decide (t ≤ b.qualTHi)
  match b.tempSrc with
  | 0 => true
  | 1 => within b.hostTemp
  | _ =>
    let x := vget s.sensors k {}
    match x.goodAt with
    | some t => within x.reading && decide (elapsedAo s t ≤ 10000000)
    | none => false

/-- The learning cycle at a tick: what R232 forbids ends its chance to qualify. -/
def cycleTick (s : State) (k : Nat) (dA : Int) : State :=
  let b := s.strB k
  let ok := s.stringTempOk k
  s.onStr k (fun r => { r with cycle := r.cycle.map (fun c =>
    let inward := c.inward + max 0 dA
    { c with inward := inward
             good := c.good && ok && b.learnEn && !r.uncertain && decide (-r.current ≤ b.qualIMax) &&
                     decide (10000 * inward ≤ b.qualChgMax * r.cap) &&
                     decide (elapsedAo s c.from' ≤ b.qualDurMax * 3600000000)
             atEoh := if c.atEoh.isSome then c.atEoh
                      else if r.bsv ≤ s.cfg.hang.eohV then some r.a else none }) })

/-- Learning at the empty anchor of a qualified cycle: a candidate inside the band becomes the capacity and is committed,
but after a power-fail warning, when no commit begins (R239); any other is rejected with a record (R233). -/
def learn (s : State) (k : Nat) (c : LearnCycle) : State :=
  let r := s.str k
  let cand := c.a0 - r.a
  if !c.good then s
  else if 10000 * (cand - r.cap).natAbs ≤ (s.strB k).learnBand * r.cap.natAbs then
    let res := (roundDiv (10000 * (c.atEoh.getD r.a - r.a)) cand).toNat
    s.onStr k (fun r =>
      let r := { r with cap := cand, eohRes := res, learns := r.learns + 1 }
      if s.score.stopped then r else r.commitLearn (s.strB k) s.shelfNs s.clock.slots)
  else (s.onStr k (fun r => { r with rejected := true })).blockEvent 4 k 1
    (leInt 8 cand ++ leInt 8 r.cap ++ List.replicate 20 0)

/-- The empty anchor is due at this tick (R228). -/
def emptyDue (s : State) (k : Nat) : Bool :=
  let r := s.str k
  !r.emptyDone && s.lasted r.emptyFrom (s.strB k).emptyT

/-- The empty anchor with its learning (R228, R233). -/
def emptyAnchor (s : State) (k : Nat) : State :=
  let s := match (s.str k).cycle with | some c => s.learn k c | none => s
  s.onStr k (fun r => { r with
    aRef := r.a, lastEmpty := s.shelfNs, emptied := true, emptyDone := true, uncertain := false, cycle := none })

/-! ### Flags and forms (R229, R230, R235, R236) -/

/-- The flags of R229 and R230; the full early flag stays until a full anchor drops it. -/
def stringFlags (s : State) (k : Nat) : State :=
  s.onStr k (fun r =>
    let r := { r with emptied := r.emptied && decide (r.current ≤ 0) }
    { r with disagree := decide (r.qc ≤ 0) && !r.emptied, early := r.early || (r.phase == .bulk && decide (r.cap < r.qc)) })

end State

/-- 100 % in the unit of Δ. -/
def formFull : Int := 600000000

/-- clamp(SOC_c, 0, 1) with the holds of R229 and R230, in the unit of Δ; while Q_c > C the clamp is the hold of R230. -/
def StringRun.base (r : StringRun) : Int :=
  if r.disagree then 0
  else roundDiv (formFull * clampInt 0 r.cap r.qc) r.cap

/-- Δ moved toward 0 by no more than `rate` (R235). -/
def towardZero (d rate : Int) : Int := if 0 ≤ d then max 0 (d - rate) else min 0 (d + rate)

/-- The facility form F from its base and Δ, in 0.01 % (R235). -/
def facForm (base delta : Int) : Int := roundDiv (clampInt 0 formFull (base + delta)) 60000

/-- The workload form W in 0.01 % (R236). -/
def StringRun.workload (r : StringRun) (b : StringBank) (eohV : Int) : Int :=
  if r.disagree || (decide (r.bsv ≤ eohV) && decide (b.emptyIMin ≤ -r.current) && decide (r.current < 0)) then 0
  else
    let den := (10000 - r.res b) * r.cap
    if den ≤ 0 then 0 else roundDiv (10000 * clampInt 0 den (10000 * r.qc - r.res b * r.cap)) den

namespace State

/-- The forms from Δ (R235, R236). -/
def formsAt (s : State) (k : Nat) (delta : Int) : State :=
  s.onStr k (fun r => { r with delta := delta, fac := facForm r.base delta, wl := r.workload (s.strB k) s.cfg.hang.eohV })

/-- The forms after a tick: `b1` is the base after counting alone; any other change is absorbed into Δ (R235, R236). -/
def stringForms (s : State) (k : Nat) (b1 : Int) : State :=
  let r := s.str k
  s.formsAt k (if r.base == b1 then towardZero r.delta (s.strB k).facRate else r.delta + b1 - r.base)

/-- The forms after a change between the steps of a tick: F does not move, W does at once (R235, R236). -/
def absorbForms (s : State) (k : Nat) (b1 : Int) : State := s.formsAt k ((s.str k).delta + b1 - (s.str k).base)

/-- The group of a string, if it is in support mode (Table 07-6): only a string with CTRL_EN 1 has the modes of R225. -/
def stringSupport (s : State) (k : Nat) : Bool :=
  (s.strB k).ctrlEn && allGroups.any (fun g => (s.stringsOf g).contains k && (s.group g).support && s.evaluated g)

/-- The string flags word (Table 07-6). -/
def stringFlagsWord (s : State) (k : Nat) : Half :=
  let r := s.str k
  let bit (b : Bool) (i : Nat) : Half := if b then BitVec.ofNat 16 (2 ^ i) else 0
  bit r.disagree 0 ||| bit r.early 1 ||| bit r.uncertain 2 |||
  bit (match r.cycle with | some c => c.good | none => false) 3 |||
  bit r.rejected 4 ||| bit r.learnLost 5 ||| bit (s.stringSupport k) 6

/-- The readings of this tick are taken as a set (R240). -/
def stringSeen (s : State) (k : Nat) : State :=
  let flags := s.stringFlagsWord k
  s.onStr k (fun r => { r with seen := {
    a := r.a, qc := r.qc, cap := r.cap, soc := r.soc, fac := r.fac, wl := r.wl, eohRes := r.res (s.strB k)
    current := r.current, bsv := r.bsv, phase := r.phase, flags := flags, learns := r.learns
    lastFull := r.lastFull, lastEmpty := r.lastEmpty } })

/-! ### A start of the firmware (R231, R239) -/

/-- Before the first count after a start: a count lost with VDD_AO is rebuilt from the checkpoint (R231). -/
def countStart (s : State) (k : Nat) : State :=
  let r := s.str k
  let i := newest r.checks
  let c := vget r.checks i {}
  if r.counted then s
  else if i = 2 then s.onStr k (fun r => { r with counted := true, aRef := r.a })
  else if r.a = 0 && c.w3 != 0 then
    (s.onStr k (fun r => { r with counted := true, uncertain := true, aRef := r.a - (c.w3.toInt - c.w2.toInt) })).detect
      (srcString k) 0
  else s.onStr k (fun r => { r with counted := true, aRef := c.w2.toInt })

/-- The capacity in force after a start, and a torn commit (R239). -/
def capacityStart (s : State) (k : Nat) : State :=
  let r := s.str k
  let b := s.strB k
  let i := newest r.slots
  let l := vget r.slots i {}
  let s := if i = 2 then
      (s.onStr k (fun r => { r with inForce := 2, cap := b.cNom, eohRes := b.eohResInit, learns := 0, writing := none })).detect
        (srcString k) 2
    else s.onStr k (fun r => { r with inForce := i, cap := l.w1.toInt, eohRes := bitsOf l.w2 15 0, learns := bitsOf l.w2 63 32 })
  let torn := [0, 1].filter (fun j =>
    let x := vget r.slots j {}
    x.state == 1 && i != 2 && x.seq == l.seq + 1)
  match torn with
  | j :: _ =>
    let s := (s.onStr k (fun r => { r with learnLost := true })).detect (srcString k) 1
    s.blockEvent 4 k 2 (leBytes 4 (vget r.slots j {}).seq ++ List.replicate 32 0)
  | [] => s

/-! ### One string tick -/

/-- The operations of a tick that follow the count and the charge state, in the order of R234. -/
def stringFirmware (s : State) (k : Nat) (b1 : Int) : State :=
  if !s.fw then s
  else
    let s := if s.emptyDue k then s.emptyAnchor k else s
    let s := s.stringFlags k
    s.stringForms k b1

/-- String command 2: C_NOM is the capacity again; forms absorb the change (R235, R240). -/
def restoreNominal (s : State) (k : Nat) : State :=
  let b := s.strB k
  let b1 := (s.str k).base
  let s := s.onStr k (fun r =>
    let r := { r with cap := b.cNom }
    if s.score.stopped then r else r.commitLearn b s.shelfNs s.clock.slots)
  if s.fw then (s.stringFlags k).absorbForms k b1 else s

/-- String command 1: the learn flags cleared (R240, R242). -/
def clearLearnFlags (s : State) (k : Nat) : State := s.onStr k (fun r => { r with rejected := false, learnLost := false })

/-- The string commands that arose before this tick are taken at it (R369, R479). -/
def stringRequests (s : State) (k : Nat) : State :=
  let r := s.str k
  let s := if s.due r.clearReq then s.clearLearnFlags k else s
  let s := if s.due r.restoreReq then s.restoreNominal k else s
  s.onStr k (fun x => { x with clearReq := if s.due r.clearReq then none else r.clearReq
                               restoreReq := if s.due r.restoreReq then none else r.restoreReq })

/-- One 1 ms string tick (R216, R221, R222, R224, R234). -/
def stringTick (s : State) (k : Nat) (x : StringIn) : State :=
  let b := s.strB k
  let s := (if s.fw then s.countStart k else s).stringRequests k
  let a0 := (s.str k).a
  let s := s.onStr k (fun r => r.count b x)
  let dA := (s.str k).a - a0
  let b1 := (s.str k).base
  let s := if b.ctrlEn then
      s.onStr k (fun r => { r with iCv := cvStep b r.iCv x.bsv (chargeWant b r.phase s.shelf.loss.declared).2 }) else s
  let s := s.stringRuns k
  let s := if s.fw then s.cycleTick k dA
    else s.onStr k (fun r => { r with cycle := r.cycle.map (fun c => { c with good := false }) })
  let s := s.chargeState k
  let s := s.stringFirmware k b1
  (s.stringSetpoints k).stringSeen k

/-- A change at a tick outside its count: the forms absorb it, the set-points follow, the readings are taken anew. -/
def stringRow (s : State) (k : Nat) (f : State → State) : State :=
  let b1 := (s.str k).base
  let s := f s
  let s := if s.fw then (s.stringFlags k).absorbForms k b1 else s
  (s.stringSetpoints k).stringSeen k

/-- Termination of Bulk, when its condition has lasted TERM_T (Table 07-2, R227). -/
def termination (s : State) (k : Nat) : State :=
  if s.onGrid 2000 && s.terminated k then s.stringRow k (fun s => s.chargeState k) else s

/-- Float back to Bulk, when BSV has been low for 10 s (Table 07-2). -/
def recharge (s : State) (k : Nat) : State :=
  if s.onGrid 2000 && s.rechargeDue k then s.stringRow k (fun s => s.chargeState k) else s

/-- The empty anchor alone, when its condition has lasted EMPTY_T (R228). -/
def emptyAnchorDue (s : State) (k : Nat) : State :=
  if s.onGrid 2000 && s.fw && s.emptyDue k then s.stringRow k (fun s => s.emptyAnchor k) else s

/-- Every string begins its count checkpoint (R231); none after a power-fail warning. -/
def checkpointAll (s : State) : State :=
  (List.range 8).foldl (fun s k => s.onStr k (·.checkpoint s.clock.slots)) s

/-- Slot writes that have run their time are complete (R238). -/
def slotWrites (s : State) : State :=
  (List.range 8).foldl (fun s k => s.onStr k (·.writesDone s.clock.slots)) s

end State
end Sys2Proof.Machine
end

