-- ==== Sys2Proof/Machine/Soak.lean ====
section
/-!
DEFINITION. Soak models: loss, network, flags, action states, thermal holds and cap requests (R283 to R300).
-/
namespace Sys2Proof.Machine
set_option Elab.async false

/-! ### Model configuration word (Table 10-4) -/

def ModelBank.inletSrc (b : ModelBank) : Nat := bitsOf b.cfg 17 16
def ModelBank.en (b : ModelBank) : Bool := bitAt b.cfg 0

/-- The loss in µW from sums over a step (R284, Table 10-2): voltages in mV, currents in mA. Without a sample in
the step the means are the latest readings, which the caller passes as sums of one. -/
def lossOf (b : ModelBank) (x : ModelSums) : Int :=
  roundDiv (1000 * b.k0 * (x.nI * x.nV * 1000000) + b.k1 * x.iAbs * (x.nV * 1000000) +
    b.k2 * x.iSq * x.nV + b.k3 * x.v * x.iAbs) (x.nI * x.nV * 1000000)

/-- The change of a node in 2^−16 °C in one step: heat in µW, heat flows as temperature differences over
resistances in mK/W, capacity in mJ/K (R285). -/
def nodeStep (heat flowIn rIn flowOut rOut c : Int) : Int :=
  -- heat·65,536/10^6/c + 1,000·(flowIn/rIn − flowOut/rOut)/c
  roundDiv (65536 * heat * rIn * rOut + 1000000000 * (flowIn * rOut - flowOut * rIn)) (1000000 * rIn * rOut * c)

/-- One step of the three nodes from a loss in µW and an inlet in 0.01 °C (R285). -/
def ModelRun.network (r : ModelRun) (b : ModelBank) (p inlet : Int) : ModelRun :=
  let a := roundDiv (inlet * 65536) 100
  { r with t1 := r.t1 + nodeStep p 0 1 (r.t1 - r.t2) b.r12 b.c1
           t2 := r.t2 + nodeStep 0 (r.t1 - r.t2) b.r12 (r.t2 - r.t3) b.r24 b.c2
           t3 := r.t3 + nodeStep 0 (r.t2 - r.t3) b.r24 (r.t3 - a) b.r3a b.c3 }

/-- A node temperature in 0.01 °C. -/
def nodeTemp (t : Int) : Int := roundDiv (t * 100) 65536

/-- A flag of Table 10-1 after a step. -/
def flagStep (old : Bool) (t thr : Int) (hyst : Nat) : Bool := if old then decide (thr - hyst ≤ t) else decide (thr ≤ t)

/-- A disabled model has loss 0, clear flags and no cap request, and does not step (Table 10-4). -/
def ModelRun.disabled (r : ModelRun) : ModelRun :=
  { r with loss := 0, lossU := 0, warning := false, throttle := false, shut := false, cap := 2147483647
           invalid := false, invalidFrom := none, inletLost := false, sums := {} }

/-- The flags of a model (M+0x05.07). -/
def ModelRun.flags (r : ModelRun) : Byte :=
  let b (x : Bool) (k : Nat) : Nat := if x then 2 ^ k else 0
  BitVec.ofNat 8 (b r.warning 0 + b r.throttle 1 + b r.shut 2 + b r.invalid 3 + b r.inletLost 4)

namespace State

/-! ### Targets and thermal holds (R292, R293) -/

/-- Thermal stop requests to every target of a model, each taken at the target's next boundary; one that will change a
target's state marks it (R292, R293). -/
def stopTargets (s : State) (m : Nat) : State :=
  let s := (s.modelGroups m).foldl (fun s g => s.onGroup g (fun r =>
    { r with stopReq := s.raised r.stopReq, stopFaults := r.stopFaults ||| 16
             thermalMark := r.thermalMark || !(r.phase == .stopped || r.phase == .latched) })) s
  (s.modelFeeds m).foldl (fun s z => s.onFeed z (fun r =>
    { r with stopReq := some (r.stopReq.getD (9, s.clock.slots))
             thermalMark := r.thermalMark || !(r.phase == .off || r.phase == .latched) })) s

/-- Restart of the marked targets of a model that are under no other thermal hold; the mark goes (R293). Safe state, and for
a feed the shed mark, refuse the start (R256, R308). -/
def restartTargets (s : State) (m : Nat) : State :=
  let s := (s.modelGroups m).foldl (fun s g =>
    if (s.group g).thermalMark && !(s.groupHeld g) then s.onGroup g (fun r =>
      { r with thermalMark := false, startReq := if s.lint.safe then r.startReq else s.raised r.startReq
               startHost := r.startHost && r.startReq.isSome }) else s) s
  (s.modelFeeds m).foldl (fun s z =>
    if (s.feed z).thermalMark && !(s.feedHeld z) then s.onFeed z (fun r =>
      { r with thermalMark := false, startReq := if s.lint.safe || r.shed then r.startReq else s.raised r.startReq
               startHost := r.startHost && r.startReq.isSome }) else s) s

/-! ### Inlet (R288) -/

/-- A two-wire sensor's reading as an inlet: answered within 5 s and inside −40 °C to +100 °C (R288). -/
def sensorInlet (s : State) (n : Nat) : Option Int :=
  let x := vget s.sensors n {}
  match x.goodAt with
  | some t => if elapsedAo s t < 5000000 && -4000 ≤ x.reading && x.reading ≤ 10000 then some x.reading else none
  | none => none

/-- The selected inlet of a model, none while it is unavailable (R288). -/
def inletOf (s : State) (m : Nat) : Option Int :=
  let b := s.modelB m
  if s.hardwareRun then some 5500
  else match b.inletSrc with
    | 1 => match (s.model m).hostAt with
      | some t => if elapsedAo s t < 60000000 then some b.hostInlet else none
      | none => none
    | 2 => s.sensorInlet b.inletTw
    | _ => some 5500

/-- The inlet in force of an enabled model, with the lint bit when it becomes unavailable (R288, R300). -/
def inletStep (s : State) (m : Nat) : State :=
  if !(s.modelB m).en then s
  else
  let t := s.inletOf m
  let lost := t.isNone
  let was := (s.model m).inletLost
  (s.onModel m (fun r => { r with inlet := t.getD 5500, inletLost := lost })).detectIf (lost && !was) (srcModel m) 5

/-! ### Loss (R284, R289, R294) -/

/-- The inputs of a port model or bus-bar model are invalid in this step (R294). -/
def inputsInvalid (s : State) (m : Nat) : Bool :=
  if m < 48 then
    let g := (s.portB m).group
    let expects := g < 32 && (s.evaluated g || (s.group g).phase == .fallback)
    (s.model m).sums.bad || (!(s.live m) && expects)
  else (s.model m).sums.bad

/-- The latest readings as sums of one sample, for a step without a sample. -/
def latestSums (s : State) (m : Nat) : ModelSums :=
  let i : Int := if m < 48 then s.iout m
    else sumInt ((setBits (s.modelB m).iFeeds).map (fun z => (s.feed z).rd.current)) +
         sumInt ((setBits (s.modelB m).iGroups).flatMap (fun g => (s.livePorts g).map s.iout))
  { v := if m < 48 then (s.port m).up.vin else s.busMv, nV := 1, iAbs := i.natAbs, iSq := i * i, nI := 1 }

/-- The loss of a step in µW; an invalid step keeps the last valid one (R284, R289, R294). -/
def modelLoss (s : State) (m : Nat) (x : ChipIn) : State :=
  if m = 64 then s.onModel m (fun r => { r with lossU := x.power, loss := roundDiv x.power 1000000, invalid := false, invalidFrom := none })
  else
    let inv := s.inputsInvalid m
    let l := s.latestSums m
    s.onModel m (fun r =>
      if inv then { r with invalid := true, invalidFrom := some (r.invalidFrom.getD s.clock.slots), sums := {} }
      else
        let u := lossOf (s.modelB m)
          { v := if r.sums.nV = 0 then l.v else r.sums.v, nV := max 1 r.sums.nV
            iAbs := if r.sums.nI = 0 then l.iAbs else r.sums.iAbs, iSq := if r.sums.nI = 0 then l.iSq else r.sums.iSq
            nI := max 1 r.sums.nI }
        { r with invalid := false, invalidFrom := none, sums := {}, lossU := u, loss := roundDiv u 1000000 })

/-- At each feed tick the current of every bus-bar or connector model enters its sums (R284, R294). -/
def busbarCurrents (s : State) : State :=
  ((List.range 16).map (· + 48)).foldl (fun s m =>
    let b := s.modelB m
    if !b.en then s
    else
      let i := (s.latestSums m)
      let fullScale := (setBits b.iFeeds).any (fun z => decide (150000000 ≤ ((s.feed z).rd.shunt).natAbs))
      let limit (v : Int) : Bool := v == -327680 || v == 327670
      let ends := (setBits b.iGroups).any (fun g => (s.livePorts g).any (fun p =>
        (List.range 4).any (fun k => (s.portB p).phaseOn k && limit (vget (s.port p).up.i k 0))))
      s.onModel m (fun r => { r with sums := { r.sums with
        iAbs := r.sums.iAbs + i.iAbs, iSq := r.sums.iSq + i.iSq, nI := r.sums.nI + 1
        bad := r.sums.bad || fullScale || ends } })) s

/-- At each conversion of BUS_SN its reading enters the sums of the bus-bar models (R284). -/
def busbarVoltage (s : State) (y : Int) : State :=
  ((List.range 16).map (· + 48)).foldl (fun s m =>
    if !(s.modelB m).en then s
    else s.onModel m (fun r => { r with sums := { r.sums with v := r.sums.v + y, nV := r.sums.nV + 1 } })) s

/-! ### Flags and action states (R290, R291) -/

/-- The flags of a step; a flag that sets is detected (Table 10-1). -/
def modelFlags (s : State) (m : Nat) : State :=
  let b := s.modelB m
  let r := s.model m
  let w := flagStep r.warning r.temp b.warnT b.warnHyst
  let t := flagStep r.throttle r.temp b.thrT b.thrHyst
  let d := flagStep r.shut r.temp b.sdT b.sdHyst
  let s := s.onModel m (fun r => { r with warning := w, throttle := t, shut := d })
  let s := s.detectIf (w && !r.warning) (srcModel m) 0
  let s := s.detectIf (t && !r.throttle) (srcModel m) 1
  s.detectIf (d && !r.shut) (srcModel m) 2

/-- Inputs have been invalid for INVALID_T (R294). -/
def invalidLong (s : State) (m : Nat) : Bool :=
  match (s.model m).invalidFrom with
  | some t => decide ((s.modelB m).invalidT ≤ elapsedUs s t)
  | none => false

/-- Entries to Shut-down within the last 3,600 s. -/
def recentEntries (s : State) (m : Nat) : Nat :=
  ((s.model m).entries.filter (fun t => decide (s.shelfNs - t ≤ 3600000000000))).length

/-- Entry to Latched (Table 10-3). -/
def latchModel (s : State) (m : Nat) : State :=
  (s.onModel m (fun r => { r with phase := .latched })).detect (srcModel m) 3

/-- The first row of Table 10-3 that matches. -/
def modelAction (s : State) (m : Nat) : State :=
  let b := s.modelB m
  let r := s.model m
  match r.phase with
  | .running =>
    if s.invalidLong m then ((s.detect (srcModel m) 4).latchModel m).stopTargets m
    else if r.shut then
      if 2 ≤ s.recentEntries m then (s.latchModel m).stopTargets m
      else (s.onModel m (fun r => { r with
        phase := .shutDown, entries := (s.shelfNs :: r.entries).take 2 })).stopTargets m
    else s
  | .shutDown =>
    if s.invalidLong m then (s.detect (srcModel m) 4).latchModel m
    else if r.temp < b.thrT - b.thrHyst then (s.onModel m (fun r => { r with phase := .running })).restartTargets m
    else s
  | .latched => s

/-- The cap request of a bus-bar or connector model in throttle (R297). -/
def modelCap (s : State) (m : Nat) : Int :=
  let b := s.modelB m
  let r := s.model m
  if 48 ≤ m && m < 64 && r.throttle && b.capAtThr != 2147483647 then
    max b.capFloor (b.capAtThr - roundDiv (b.capSlope * (r.temp - b.thrT)) 100)
  else 2147483647

/-! ### One model step (R283) -/

/-- The start value of every node at the first step after power-on reset, of a disabled model too (R287). -/
def modelStart (s : State) (m : Nat) : State :=
  let inlet := (s.inletOf m).getD 5500
  s.onModel m (fun r =>
    if r.set then r
    else
      let a := roundDiv (inlet * 65536) 100
      let r := { r with t1 := a, t2 := a, t3 := a, set := true, temp := inlet }
      match r.report with | some t => { r.raise t with report := none } | none => r)

/-- The readings of a model as this step leaves them (R299). -/
def modelSeen (s : State) (m : Nat) : State :=
  let n := s.recentEntries m
  s.onModel m (fun r => { r with seen :=
    { temp := r.temp, node2 := nodeTemp r.t2, node3 := nodeTemp r.t3, loss := r.loss, inlet := r.inlet
      phase := r.phase, flags := r.flags, entries := n, lastEntry := r.entries.headD 0, cap := r.cap } })

/-- One model for one step (R283, R300). -/
def modelOne (s : State) (m : Nat) (x : ChipIn) : State :=
  let b := s.modelB m
  let s := (s.inletStep m).modelStart m
  if !b.en then (s.onModel m ModelRun.disabled).modelSeen m
  else
    let s := s.modelLoss m x
    let s := s.onModel m (fun r =>
      let r := r.network b r.lossU r.inlet
      { r with temp := if m = 64 then max (nodeTemp r.t1) x.die else nodeTemp r.t1 })
    let s := s.modelFlags m
    let s := s.modelAction m
    (s.onModel m (fun r => { r with cap := s.modelCap m })).modelSeen m

/-- A derate channel's SETPOINT is held at 0 (R295). -/
def holdDerates (s : State) : State :=
  allModels.foldl (fun s m => s.writeSetpoint (s.modelB m).derateCh 0) s

/-- One 1 ms model step of every model (R283, R295); G off the 1 ms grid is no model step (R22). -/
def modelStep (s : State) (x : ChipIn) : State :=
  if !(s.onGrid 2000) then s
  else (allModels.foldl (fun s m => s.modelOne m x) s).holdDerates

/-- At a model step the inputs of a model have been invalid for INVALID_T: it latches (Table 10-3, R294). -/
def modelInvalid (s : State) (m : Nat) : State :=
  if s.onGrid 2000 && (s.modelB m).en && s.invalidLong m then s.modelAction m else s

end State
end Sys2Proof.Machine
end

