-- ==== Sys2Proof/Machine/Shelf.lean ====
section
/-!
DEFINITION. The shelf: shed sequencer, caps, zone grants and hang time (R201 to R213).
-/
namespace Sys2Proof.Machine
set_option Elab.async false
namespace State

/-! ### Shed sequencer (R203 to R206) -/

/-- A feed is on for the shed sequencer (R203). -/
def shedOn (s : State) (z : Nat) : Bool :=
  match (s.feed z).phase with
  | .seating | .preCharge | .on | .retryWait => true
  | .off | .latched => false

def shedRank (s : State) (z : Nat) : Nat := (s.feedB z).zone.shedRank

/-- The next rank: the lowest from 1 to 15 with a feed that is on and not shed (R203). -/
def nextRank (s : State) : Option Nat :=
  ((List.range 15).map (· + 1)).find? (fun r => allFeeds.any (fun z => s.shedRank z == r && s.shedOn z && !(s.feed z).shed))

/-- The highest rank that holds a shed feed; a shed feed that a commit has given rank 0 since is still shed (R204). -/
def topShed (s : State) : Option Nat :=
  ((List.range 16).map (15 - ·)).find? (fun r => allFeeds.any (fun z => s.shedRank z == r && (s.feed z).shed))

/-- The feeds that are shed, as a mask. -/
def shedMask (s : State) : BitVec 16 :=
  BitVec.ofNat 16 (allFeeds.foldl (fun a z => if (s.feed z).shed then a + 2 ^ z else a) 0)

/-- The bus is low (R204). -/
def busLow (s : State) : Bool := decide (s.busMv < s.cfg.shed.shedV)

def shedTo (s : State) (ph : ShedPhase) : State :=
  s.onShelf (fun r => { r with shed := { r.shed with phase := ph, since := s.clock.slots } })

/-- The shed warning of every feed asserted or released (R204). -/
def warnRank (s : State) (r : Nat) : State :=
  (allFeeds.filter (fun z => s.shedRank z == r && s.shedOn z && !(s.feed z).shed)).foldl (fun s z =>
    (s.onFeed z (fun f => { f with thr := { f.thr with warned := true } })).thrUpdate z) s

def releaseWarning (s : State) : State :=
  (allFeeds.filter (fun z => (s.feed z).thr.warned)).foldl (fun s z =>
    (s.onFeed z (fun f => { f with thr := { f.thr with warned := false } })).thrUpdate z) s

/-- The shed step of the warned rank, which its feeds take at their next tick, with its record (R205, R256, Table 11-9). -/
def shedStep (s : State) : State :=
  let r := s.shelf.shed.rank
  let zs := allFeeds.filter (fun z => s.shedRank z == r && s.shedOn z)
  let mask := zs.foldl (fun a z => a + 2 ^ z) 0
  let s := zs.foldl askShed s
  let s := s.releaseWarning
  s.blockEvent 7 0 0 ([BitVec.ofNat 8 r, 0] ++ leBytes 2 mask ++ leInt 4 s.busMv ++ List.replicate 28 0)

/-- The start of a shed rank (R206): each of its feeds is requested and stops being shed; a thermal hold refuses
the request and leaves the mark (R293). -/
def startRank (s : State) (r : Nat) : State :=
  (allFeeds.filter (fun z => s.shedRank z == r && (s.feed z).shed)).foldl (fun s z =>
    let held := s.feedHeld z
    let safe := s.lint.safe
    s.onFeed z (fun f => { f with shed := false, thermalMark := f.thermalMark || held
                                  startReq := if held || safe then none else s.raised f.startReq })) s

/-- A wait of the sequencer has lasted `us`. -/
def shedWaited (s : State) (us : Nat) : Bool := decide (us ≤ elapsedUs s s.shelf.shed.since)

/-- The first row of Table 06-3 that matches in the present state (R204). -/
def shedRow (s : State) : State :=
  let c := s.cfg.shed
  let low := !s.lossHigh
  match s.shelf.shed.phase with
  | .idle => if s.shelf.loss.declared then s.shedTo .watch else s
  | .watch =>
    if low then s.shedTo .paused
    else if s.busLow && s.nextRank.isSome then s.shedTo .dwell else s
  | .dwell =>
    if low then s.shedTo .paused
    else if !s.busLow then s.shedTo .watch
    else if s.shedWaited c.shedDwell then
      match s.nextRank with
      | none => s.shedTo .watch
      | some r => ((s.shedTo .warn).onShelf (fun x => { x with shed := { x.shed with rank := r } })).warnRank r
    else s
  | .warn =>
    if low then (s.shedTo .paused).releaseWarning
    else if s.shedWaited c.shedWarn then (s.shedTo .gap).shedStep else s
  | .gap =>
    if low then s.shedTo .paused
    else if s.shedWaited c.shedGap then s.shedTo .watch else s
  | .paused =>
    if s.lossHigh then s.shedTo .watch
    else if s.shelf.loss.declared then s
    else match s.topShed with
      | none => s.shedTo .idle
      | some r => (s.shedTo .restoring).startRank r
  | .restoring =>
    if s.lossHigh then s.shedTo .watch
    else match s.topShed with
      | none => s.shedTo .idle
      | some r => if s.shedWaited c.restoreGap then (s.shedTo .restoring).startRank r else s

/-- A row of the sequencer in one state only: its timer rows. -/
def shedRowIn (s : State) (ph : ShedPhase) (us : Nat) : State :=
  if s.shelf.shed.phase == ph && s.shedWaited us then s.shedRow else s

/-! ### Means over milliseconds -/

/-- The figures of this millisecond join the history of at most 16 s. -/
def powerTick (s : State) : State :=
  let x : PowerMs := { bus := s.busLoad, inp := s.shelfInput, rect := s.rectOut
                       zone := sumInt (allFeeds.map (fun z => (s.feed z).rd.meanP)), cap := s.shelf.caps.cEff }
  s.onShelf (fun r => { r with power := (x :: r.power).take 16000 })

/-- Sum of a figure over the last `n` milliseconds, and how many there were. -/
def sumOver (s : State) (n : Nat) (f : PowerMs → Int) : Int × Nat :=
  let xs := s.shelf.power.take n
  (sumInt (xs.map f), xs.length)

/-- Mean of a figure over the last `n` milliseconds, 0 without one. -/
def meanOver (s : State) (n : Nat) (f : PowerMs → Int) : Int :=
  let (t, k) := s.sumOver n f
  if k = 0 then 0 else roundDiv t k

/-- η_R in 1/10,000: rectifier output over shelf input power, each over the last 1 s (R182). -/
def etaR (s : State) : Int :=
  let i := (s.sumOver 1000 (·.inp)).1
  if i ≤ 0 then 0 else roundDiv (10000 * (s.sumOver 1000 (·.rect)).1) i

/-! ### Caps (R207 to R209) -/

/-- The smallest of some requests. -/
def minInt (xs : List Int) : Int := xs.foldl min 2147483647

/-- C_eff, the bound in force and the seat named (R208). -/
def capCompute (s : State) : State :=
  let ceil : Int := s.capCeiling
  let reqs := s.cfg.capShelf.toList
  let req := minInt reqs
  let th := minInt (allModels.map (fun m => (s.model m).cap))
  let c := min ceil (min req th)
  s.onShelf (fun r => { r with caps := { r.caps with
    cEff := c, thermal := th, changed := if c = r.caps.cEff then r.caps.changed else some s.clock.up
    bound := if c = ceil then 0 else if c = req then 1 else 2
    seat := if c = 2147483647 then 255
      else match reqs.findIdx? (· == c) with | some k => k | none => 255 } })

/-- The groups with a rectifier-role port. -/
def rectifierGroups (s : State) : List Nat :=
  allGroups.filter (fun g => (s.portsOf g).any (fun p => (s.portB p).role == roleRectifier))

/-- The share weights of a group's ports that count in its pool. -/
def groupWeight (s : State) (g : Nat) : Nat :=
  (((s.portsOf g).filter (s.counts g)).map (s.shareWeight g)).sum

/-- The cap set-points of the rectifier groups (R209). -/
def capSetpoints (s : State) : State :=
  let gs := s.rectifierGroups.filter (fun g => (s.groupB g).share.capCh < 128)
  let sum := ((gs.filter s.evaluated).map s.groupWeight).sum
  gs.foldl (fun s g =>
    let w := s.groupWeight g
    s.writeSetpoint (s.groupB g).share.capCh
      (if w = 0 || sum = 0 then 0 else roundDiv (s.shelf.caps.cEff * w) sum)) s

/-- One 1 ms cap tick, a multiple of 2,000 slots; without the firmware C_eff keeps its value, in hardware-run the captured one
(R208, R209, Table 01-7). -/
def capTick (s : State) : State :=
  if !(s.onGrid 2000) then s
  else
    let s := if s.fw then s.capCompute else s
    s.powerTick.capSetpoints

/-! ### Zones (R211, R212) -/

/-- The effective cap of a zone: its smallest request, and the fused feed current at the present bus (R211). -/
def zoneCap (s : State) (z : Nat) : Int :=
  min (minInt (vget s.cfg.capZone z (Vector.replicate 8 2147483647)).toList)
    (roundDiv (s.maxFeedCurrent * s.busMv) 1000000)

/-- The zone budget B_z, with the 1 s mean of every term, C_eff included (R212). -/
def zoneBudget (s : State) : Int :=
  let i := (s.sumOver 1000 (·.inp)).1
  let o := (s.sumOver 1000 (·.rect)).1
  let (c, n) := s.sumOver 1000 (·.cap)
  let fromCap := if i ≤ 0 then 0 else roundDiv (c * o) (n * i)
  fromCap - (s.meanOver 1000 (·.bus) - s.meanOver 1000 (·.zone))

/-- Grants of the zones every 10 ms (R212); none in hardware-run. -/
def zoneGrant (s : State) : State :=
  if !s.fw then s
  else
    let b := s.zoneBudget
    let on := allFeeds.filter (fun z => (s.feed z).phase == .on)
    let sum := (on.map (fun z => (s.feedB z).zone.grantWeight)).sum
    let s := s.onShelf (fun r => { r with caps := { r.caps with budget := b } })
    allFeeds.foldl (fun s z =>
      let w := (s.feedB z).zone.grantWeight
      let cap := s.zoneCap z
      let g := if w = 0 then cap else if on.contains z then min cap (roundDiv (b * w) sum) else 0
      s.onFeed z (fun f => { f with grant := g })) s

/-! ### Hang time (R201, R202) -/

/-- The averaging window in ms: the flattening leader's valid period above 1 s, else 1 s (R201). -/
def hangWindow (s : State) : Nat :=
  match s.flatLeader with
  | some l =>
    let r := s.iron l
    if !r.invalid && 1000000000 < r.period then (roundDiv r.period 1000000).toNat else 1000
  | none => 1000

/-- SOC_w × Q × V summed over the strings whose group is in hot standby, in 10^−10 J (R201). -/
def hangSum (s : State) : Int :=
  sumInt ((s.batteryGroups.filter s.hotStandby).flatMap (fun g =>
    (s.stringsOf g).map (fun k => (s.str k).wl * (s.str k).cap * (s.str k).bsv)))

/-- The hang time published every 100 ms (R201, R202); in hardware-run it reads 0. -/
def hangPublish (s : State) : State :=
  if !s.fw then s.onShelf (fun r => { r with hang := { r.hang with hang := 0 } })
  else
    let w := s.hangWindow
    let p := s.meanOver w (·.bus)
    let e := s.hangSum
    let rated := sumInt ((s.batteryGroups.filter s.hotStandby).map (fun g => (s.groupB g).share.ratedP))
    let short := decide (rated < p)
    let t := if p ≤ 0 then 0xFFFFFFFF
      else if short then 0
      else min 0xFFFFFFFE (roundDiv (s.cfg.hang.htEff * e * 1000) (4194304 * 10000000000 * p)).toNat
    s.onShelf (fun r => { r with hang :=
      { hang := t, energy := roundDiv e 10000000000, pAvg := p, short := decide (0 < p) && short, window := w } })

end State
end Sys2Proof.Machine
end

