-- ==== Sys2Proof/Machine/Orders.lean ====
section
/-!
DEFINITION. Batting orders: rails, dependence, the 10 µs sequencer tick, requests and resets (R264 to R282).
-/
namespace Sys2Proof.Machine
set_option Elab.async false

/-! ### Rail configuration and predecessor words (Tables 09-4 and 09-5) -/

/-- ORDER of a rail, 7 none. -/
def RailCfg.order (c : RailCfg) : Nat := bitsOf c.cfg 30 28
def RailCfg.rstEn (c : RailCfg) : Bool := bitAt c.cfg 20
def RailCfg.rstSel (c : RailCfg) : Nat := bitsOf c.cfg 19 16
def RailCfg.rstPol (c : RailCfg) : Bool := bitAt c.cfg 3
def RailCfg.enPol (c : RailCfg) : Bool := bitAt c.cfg 2
def RailCfg.pgPol (c : RailCfg) : Bool := bitAt c.cfg 1

/-- The predecessors a rail names. -/
def RailCfg.predList (c : RailCfg) : List Nat :=
  (List.range 4).filterMap (fun j => if bitAt c.preds (8 * j + 7) then some (bitsOf c.preds (8 * j + 4) (8 * j)) else none)

def allRails : List Nat := List.range 32
def allOrders : List Nat := List.range 4

/-- A rail is flagged when it has failed or is blocked (R270). -/
def RailRun.flagged (r : RailRun) : Bool := r.failed || r.blocked

/-- The enable of a rail is active in Enabling and Good (Table 09-1). -/
def RailRun.enabled (r : RailRun) : Bool := r.phase == .enabling || r.phase == .good

namespace State

def railC (s : State) (r : Nat) : RailCfg := vget s.cfg.rails r {}
def rail (s : State) (r : Nat) : RailRun := vget s.rails r {}
def order (s : State) (k : Nat) : OrderRun := vget s.orders k {}
def onRail (s : State) (r : Nat) (f : RailRun → RailRun) : State := { s with rails := vmod s.rails r f }
def onOrder (s : State) (k : Nat) (f : OrderRun → OrderRun) : State := { s with orders := vmod s.orders k f }

/-- The member rails of an order (R265). -/
def membersOf (s : State) (k : Nat) : List Nat := allRails.filter (fun r => (s.railC r).order == k)

/-- A rail's power-good input reads good (R264). -/
def pgGood (s : State) (r : Nat) : Bool := bitAt s.seq.pgin r != (s.railC r).pgPol

/-- The level of EN r (Table 09-4); a rail of no order is inactive (R265). -/
def enLevel (s : State) (r : Nat) : Bool :=
  ((s.rail r).enabled && (s.railC r).order < 4) != (s.railC r).enPol

/-- EN levels of all rails as a word. -/
def enLevels (s : State) : Word :=
  BitVec.ofNat 32 (allRails.foldl (fun a r => if s.enLevel r then a + 2 ^ r else a) 0)

/-- The level of RSTO j: driven by its member rail, low without one (R267, R271). -/
def rstoLevel (s : State) (j : Nat) : Bool :=
  match allRails.find? (fun r => (s.railC r).order < 4 && (s.railC r).rstEn && (s.railC r).rstSel == j) with
  | some r => (s.rail r).asserted == (s.railC r).rstPol
  | none => false

def rstoLevels (s : State) : Half :=
  BitVec.ofNat 16 ((List.range 16).foldl (fun a j => if s.rstoLevel j then a + 2 ^ j else a) 0)

/-! ### Dependence (R266, R268) -/

/-- The rails reached from some rails along predecessors, `n` steps at most. -/
def closure (s : State) : Nat → List Nat → List Nat
  | 0, rs => rs
  | n + 1, rs => s.closure n (rs ++ (rs.flatMap (fun r => (s.railC r).predList)).eraseDups.filter (fun q => !rs.contains q))

/-- Rail `q` depends on rail `r`, directly or through other rails (R266). -/
def dependsOn (s : State) (q r : Nat) : Bool := (s.closure 32 (s.railC q).predList.eraseDups).contains r

/-- A rail on which `r` depends is flagged: `r` is blocked at the next tick (R272). -/
def predFlagged (s : State) (r : Nat) : Bool :=
  (s.closure 32 (s.railC r).predList.eraseDups).any (fun q => (s.rail q).flagged)

/-- The dependants of a rail. -/
def dependants (s : State) (r : Nat) : List Nat :=
  (s.membersOf (s.railC r).order).filter (fun q => s.dependsOn q r)

/-- Every dependant of a rail is Off. -/
def dependantsOff (s : State) (r : Nat) : Bool := (s.dependants r).all (fun q => (s.rail q).phase == .off)

/-- The validation of an order at an up request (R268). -/
def validOrder (s : State) (k : Nat) : Bool :=
  let ms := s.membersOf k
  let resets := (allRails.filter (fun r => (s.railC r).order < 4 && (s.railC r).rstEn)).map (fun r => (s.railC r).rstSel)
  !ms.isEmpty &&
  ms.all (fun r => (s.railC r).predList.all (fun q => (s.railC q).order == k)) &&
  ms.all (fun r => !(s.dependsOn r r)) &&
  resets.eraseDups.length == resets.length

/-! ### Timers (R280: whole ticks of 10 µs) -/

/-- Elapsed µs of sequencer ticks since a tick. -/
def seqUs (s : State) (t : Nat) : Nat := 10 * (s.seq.tick - t)

/-- A run that began at a tick has lasted `us`. -/
def ranUs (s : State) (t : Option Nat) (us : Nat) : Bool :=
  match t with | some t => decide (us ≤ s.seqUs t) | none => false

/-- A running-rail fault: a Good rail of an order that is not Dropped reads not good for PG_DEG (R273). -/
def runningFault (s : State) (r : Nat) : Bool :=
  (s.rail r).phase == .good && (s.railC r).order < 4 && (s.order (s.railC r).order).phase != .dropped &&
  s.ranUs (s.rail r).badFrom (s.railC r).pgDeg

/-- The readings of the power-good inputs enter the runs of every member rail (R270). -/
def readPg (s : State) (pgin : Word) : State :=
  let s := { s with seq := { s.seq with pgin := pgin } }
  allRails.foldl (fun s r =>
    let good := s.pgGood r
    s.onRail r (fun x => { x with
      goodFrom := if good then some (x.goodFrom.getD s.seq.tick) else none
      badFrom := if good then none else some (x.badFrom.getD s.seq.tick)
      lastGood := if good then s.seq.tick else x.lastGood })) s

/-! ### Rails (Table 09-1) -/

/-- A rail enters a state at this tick. -/
def railTo (s : State) (r : Nat) (ph : RailPhase) : State :=
  s.onRail r (fun x => { x with phase := ph, since := s.seq.tick, asserted := if ph == .good then x.asserted else true })

/-- The fault record of an order (R275): levels as they stood at the start of the tick `s0`. -/
def orderFault (s s0 : State) (r cause : Nat) : State :=
  s.onOrder (s.railC r).order (fun o => { o with
    faultRail := r, faultCause := cause, faultTime := s.shelfNs, faultPg := s.seq.pgin, faultEn := s0.enLevels })

/-- The first row of Table 09-1 that matches rail `r`, judged on the state `s0` at the start of the tick. -/
def railRow (s0 s : State) (r : Nat) : State :=
  let c := s0.railC r
  let x := s0.rail r
  let o := (s0.order c.order).phase
  let dropped := o == .dropped
  let t := s0.seqUs x.since
  match x.phase with
  | .off =>
    if o != .rising then s
    else if s0.predFlagged r then s.onRail r (fun x => { x with blocked := true })
    else if !x.flagged && c.predList.all (fun q => (s0.rail q).phase == .good) then s.railTo r .delay
    else s
  | .delay =>
    if dropped then s.railTo r .discharging
    else if o == .falling then s.railTo r .off
    else if s0.predFlagged r then (s.railTo r .off).onRail r (fun x => { x with blocked := true })
    else if c.onDelay ≤ t then s.railTo r .enabling else s
  | .enabling =>
    if dropped then s.railTo r .discharging
    else if o == .falling && s0.dependantsOff r then s.railTo r .discharging
    else if s0.ranUs x.goodFrom c.pgDeg then
      (s.railTo r .good).onRail r (fun x => { x with asserted := true, goodTime := s.shelfNs })
    else if c.pgTimeout ≤ t then
      let s := (s.railTo r .discharging).onRail r (fun x => { x with failed := true })
      let s := s.detect (srcRail r) 0
      if (s0.membersOf c.order).any s0.runningFault then s else s.orderFault s0 r 1
    else s
  | .good =>
    if dropped then s.railTo r .discharging
    else if s0.runningFault r then s.railTo r .discharging
    else if o == .falling && s0.dependantsOff r then s.railTo r .discharging
    else if x.asserted && c.rstStretch ≤ t then s.onRail r (fun x => { x with asserted := false }) else s
  | .discharging =>
    if !s0.pgGood r && c.disWait ≤ s0.seqUs (max x.since x.lastGood) then s.railTo r .off
    else if c.disTimeout ≤ t then
      ((s.railTo r .off).onRail r (fun x => { x with timeout := true })).detect (srcRail r) 2
    else s

/-! ### Orders (Table 09-2) -/

def orderTo (s : State) (k : Nat) (ph : OrderPhase) : State := s.onOrder k (fun o => { o with phase := ph })

/-- An up request in Off, or a queued one that falls due: validated, then Rising or refused (R268, Table 09-2). -/
def orderRise (s : State) (k : Nat) : State :=
  if s.validOrder k then
    let s := (s.membersOf k).foldl (fun s r =>
      s.onRail r (fun x => { x with failed := false, blocked := false, timeout := false })) s
    s.orderTo k .rising
  else (s.orderTo k .off).detect (srcOrder k) 0

/-- The running-rail fault row of Table 09-2, with the fault record and the lint bits (R273 to R275). -/
def orderDrop (s0 s : State) (k : Nat) : State :=
  let rs := (s0.membersOf k).filter s0.runningFault
  let s := rs.foldl (fun s r => s.detect (srcRail r) 1) s
  let s := s.orderFault s0 (rs.headD 0) 2
  s.onOrder k (fun o => { o with
    phase := .dropped, queued := false, drops := o.drops + 1, droppedFlag := true })

/-- The first row of Table 09-2 that matches order `k`, judged on the state `s0` at the start of the tick. The tick takes
every request that arose before it; of an up and a down request that fall on one tick the down request applies (R276, R479).
Safe state refuses an up request outside SAFE_KEEP (R308). -/
def orderRow (s0 s : State) (k : Nat) : State :=
  let o := s0.order k
  let ms := s0.membersOf k
  let rails := ms.map s0.rail
  let allOff := rails.all (fun r => r.phase == .off)
  let down := s0.due o.downReq
  let up := s0.due o.upReq && !down && !(s0.lint.safe && !bitAt s0.cfg.episode.safeKeep k)
  let s := s.onOrder k (fun o => { o with
    upReq := if s0.due o.upReq then none else o.upReq, downReq := if down then none else o.downReq })
  if ms.any s0.runningFault then orderDrop s0 s k
  else match o.phase with
    | .off => if up then s.orderRise k else s
    | .rising =>
      if down then s.orderTo k .falling
      else if !ms.isEmpty && rails.all (fun r => r.phase == .off && r.flagged) then
        s.onOrder k (fun o => { o with phase := .off, degraded := true })
      else if !ms.isEmpty && rails.all (fun r => r.phase == .good || (r.phase == .off && r.flagged)) then
        s.onOrder k (fun o => { o with phase := .up, degraded := o.degraded || rails.any RailRun.flagged })
      else s
    | .up =>
      if down then s.orderTo k .falling
      else if up && o.degraded then
        let s := (ms.filter (fun r => (s0.rail r).flagged)).foldl (fun s r =>
          s.onRail r (fun x => { x with failed := false, blocked := false, timeout := false })) s
        s.onOrder k (fun o => { o with phase := .rising, degraded := false })
      else s
    | .falling | .dropped =>
      if up then s.onOrder k (fun o => { o with queued := true })
      else if down then s.onOrder k (fun o => { o with queued := false })
      else if allOff then
        let s := s.onOrder k (fun o => { o with queued := false })
        if o.queued then s.orderRise k else s.orderTo k .off
      else s

/-- The readings of R282 are taken at this tick. -/
def sequencerSeen (s : State) : State :=
  let s := { s with seq := { s.seq with seenEn := s.enLevels, seenRsto := s.rstoLevels } }
  allOrders.foldl (fun s k =>
    let ms := s.membersOf k
    let mask (rs : List Nat) : Word := BitVec.ofNat 32 (rs.foldl (fun a r => a + 2 ^ r) 0)
    let good := mask (ms.filter (fun r => (s.rail r).phase == .good))
    s.onOrder k (fun o => { o with seen := { phase := o.phase, queued := o.queued, degraded := o.degraded
                                             droppedFlag := o.droppedFlag, members := mask ms, good := good } })) s

/-- Order command 3: the fault record and the degraded flag cleared (O.01, O.04). -/
def orderClear (s : State) (k : Nat) : State :=
  s.onOrder k (fun o => { o with
    degraded := false, droppedFlag := false, faultRail := 255, faultCause := 0, faultTime := 0, faultPg := 0, faultEn := 0 })

/-- Order command 3, where it arose before this tick, is taken before the rows of the tick (R369, R479, assumption 57). -/
def takeOrderClear (s : State) (k : Nat) : State :=
  if s.due (s.order k).clearReq then (s.orderClear k).onOrder k (fun o => { o with clearReq := none }) else s

/-- One 10 µs sequencer tick with the PGIN levels it reads (R269); G off the 10 µs grid is no tick (R22). -/
def sequencerTick (s : State) (pgin : Word) : State :=
  if !(s.onGrid 20) then s
  else
  let s := { s with seq := { s.seq with tick := s.seq.tick + 1 } }
  let s0 := (allOrders.foldl takeOrderClear s).readPg pgin
  let s := allOrders.foldl (fun s k => orderRow s0 s k) s0
  ((allRails.filter (fun r => (s0.railC r).order < 4)).foldl (fun s r => railRow s0 s r) s).sequencerSeen

/-- A rail's rows in one state, applied on their own at a tick when a timer of that state has run out. -/
def railDue (s : State) (r : Nat) (ph : RailPhase) : State :=
  if s.onGrid 20 && (s.rail r).phase == ph && (s.railC r).order < 4 then (railRow s s r).sequencerSeen else s

/-- An enabling rail has read good for PG_DEG (Table 09-1). -/
def railUp (s : State) (r : Nat) : State :=
  if s.ranUs (s.rail r).goodFrom (s.railC r).pgDeg then s.railDue r .enabling else s

/-- A discharging rail has read not good for DIS_WAIT (Table 09-1). -/
def railDown (s : State) (r : Nat) : State :=
  let x := s.rail r
  if !s.pgGood r && (s.railC r).disWait ≤ s.seqUs (max x.since x.lastGood) then s.railDue r .discharging else s

/-- The running-rail fault of a rail on its own at a tick: the order drops, and the rail's own row takes it to Discharging
(Table 09-1, R273). -/
def railFault (s : State) (r : Nat) : State :=
  if s.onGrid 20 && s.runningFault r then (railRow s (orderDrop s s (s.railC r).order) r).sequencerSeen else s

/-- The sequencer at the end of a warm reset: every timer restarts, waiting requests are lost (R278). -/
def sequencerResume (s : State) : State :=
  let s := allRails.foldl (fun s r => s.onRail r (fun x =>
    { x with since := s.seq.tick, goodFrom := none, badFrom := none, lastGood := s.seq.tick })) s
  allOrders.foldl (fun s k => s.onOrder k (fun o => { o with upReq := none, downReq := none, clearReq := none })) s

end State
end Sys2Proof.Machine
end

