-- ==== Sys2Proof/Machine/Lint.lean ====
section
/-!
DEFINITION. The lint collector, episodes, snapshots, change records and captures (R301 to R326).
-/
namespace Sys2Proof.Machine
set_option Elab.async false

def ReactCfg.own (c : ReactCfg) : Bool := bitAt c.word 8
def ReactCfg.safe (c : ReactCfg) : Bool := bitAt c.word 4
def ReactCfg.stopOrder (c : ReactCfg) : Bool := bitAt c.word 3
def ReactCfg.stopFeed (c : ReactCfg) : Bool := bitAt c.word 2
def ReactCfg.stopGroup (c : ReactCfg) : Bool := bitAt c.word 1
def ReactCfg.notify (c : ReactCfg) : Bool := bitAt c.word 0
/-- A stop reaction or SAFE is set: every occurrence is a lint event (R302). -/
def ReactCfg.stops (c : ReactCfg) : Bool := c.stopGroup || c.stopFeed || c.stopOrder || c.safe
/-- None of the five reactions is set (R305). -/
def ReactCfg.silent (c : ReactCfg) : Bool := !c.notify && !c.stops

/-- A mask of unit numbers. -/
def maskOf (w : Nat) (xs : List Nat) : BitVec w := BitVec.ofNat w (xs.foldl (fun a x => a ||| 2 ^ x) 0)

/-- A source that Table 11-1 names. -/
def sourceExists (src : Nat) : Bool := decide (src ≤ 418) || (decide (448 ≤ src) && decide (src ≤ 460))

/-- How many causes a source has (Table 11-1, R417, R428, R447). -/
def causeCount (src : Nat) : Nat :=
  if src < 144 then (match src % 3 with | 0 => 6 | 1 => 3 | _ => 1)
  else if src < 240 then src % 3 + 1
  else if src < 257 then 3
  else if src < 258 then 1
  else if src < 274 then 4
  else if src < 282 then 3
  else if src < 298 then 6
  else if src < 314 then 1
  else if src < 346 then 3
  else if src < 350 then 1
  else if src < 415 then 6
  else if src < 419 then 2
  else match src with
    | 448 => 2 | 449 | 450 => 1 | 451 | 452 | 453 | 454 | 455 => 3 | 456 | 457 | 458 => 1 | 459 => 9 | 460 => 6 | _ => 0

namespace State

def reactC (s : State) (src : Nat) : ReactCfg := vget s.cfg.reacts src {}

/-! ### Targets (Table 11-3, R306) -/

/-- A source's own group targets. -/
def ownGroups (s : State) (src : Nat) : List Nat :=
  if src < 144 then [(s.portB (src / 3)).group].filter (decide <| · < 32)
  else if src < 240 then [(src - 144) / 3]
  else if src < 257 then s.groupsOnLane (src - 240)
  else if src < 258 then []
  else if src < 274 then [(s.chanB (s.ironB (src - 258)).target).group].filter (decide <| · < 32)
  else if src < 282 then
    allGroups.filter (fun g => (setBits (s.strB (src - 274)).ports).any (fun p => (s.portB p).group == g))
  else if 350 ≤ src ∧ src < 415 then s.modelGroups (src - 350)
  else []

/-- A source's own feed targets. -/
def ownFeeds (s : State) (src : Nat) : List Nat :=
  if 282 ≤ src ∧ src < 298 then [src - 282]
  else if 298 ≤ src ∧ src < 314 then [src - 298]
  else if 350 ≤ src ∧ src < 415 then s.modelFeeds (src - 350)
  else []

/-- A source's own order targets. -/
def ownOrders (s : State) (src : Nat) : List Nat :=
  if 314 ≤ src ∧ src < 346 then [(s.railC (src - 314)).order].filter (decide <| · < 4)
  else if 346 ≤ src ∧ src < 350 then [src - 346]
  else []

/-- Group targets of an event: own targets when OWN is 1, and the group mask (R306). -/
def groupTargets (s : State) (d : Detected) : Word :=
  let c := s.reactC d.src
  (if c.own then d.own.getD (maskOf 32 (s.ownGroups d.src)) else 0) ||| c.groups

def feedTargets (s : State) (d : Detected) : BitVec 16 :=
  let c := s.reactC d.src
  (if c.own then maskOf 16 (s.ownFeeds d.src) else 0) ||| c.feeds

def orderTargets (s : State) (d : Detected) : BitVec 4 :=
  let c := s.reactC d.src
  (if c.own then maskOf 4 (s.ownOrders d.src) else 0) ||| c.orders

/-! ### Stop requests of the collector (R307, R308, R293) -/

/-- A stop request to a group with cause lint reaction, which the group takes at its next boundary; `keep` leaves the thermal
mark in place (R293, R307, R325). -/
def lintStopGroup (s : State) (keep : Bool) (g : Nat) : State :=
  s.onGroup g (fun r => { r with stopReq := s.raised r.stopReq, stopFaults := r.stopFaults ||| 8
                                 thermalMark := keep && r.thermalMark })

/-- A stop request to a feed with a cause code of Table 08-5, which the feed takes at its next tick (R307). -/
def lintStopFeed (s : State) (keep : Bool) (cause z : Nat) : State :=
  s.onFeed z (fun r => { r with stopReq := some (r.stopReq.getD (cause, s.clock.slots))
                                thermalMark := keep && r.thermalMark })

/-- A down request to an order, which the order takes at its next tick (R307). -/
def lintStopOrder (s : State) (k : Nat) : State := s.onOrder k (fun o => { o with downReq := s.raised o.downReq })

/-- Entry to safe state: a stop to every group and feed, a down to every order outside SAFE_KEEP (R308); `keep` leaves the thermal
marks in place, where a soak model's bit has brought the reaction (R293). -/
def enterSafe (s : State) (keep : Bool) : State :=
  let s := s.onLint (fun l => { l with safe := true })
  let s := allGroups.foldl (fun s g => s.lintStopGroup keep g) s
  let s := allFeeds.foldl (fun s z => s.lintStopFeed keep 12 z) s
  (allOrders.filter (fun k => !bitAt s.cfg.episode.safeKeep k)).foldl lintStopOrder s

/-- Safe state ends (R308). -/
def endSafe (s : State) : State := s.onLint (fun l => { l with safe := false })

/-- The reactions of one lint event (R307, R308). -/
def react (s : State) (d : Detected) : State :=
  let c := s.reactC d.src
  let keep := decide (350 ≤ d.src) && decide (d.src < 415)
  let gs := if c.stopGroup then s.groupTargets d else 0
  let zs := if c.stopFeed then s.feedTargets d else 0
  let ks := if c.stopOrder then s.orderTargets d else 0
  let s := (setBits gs).foldl (fun s g => s.lintStopGroup keep g) s
  let s := (setBits zs).foldl (fun s z => s.lintStopFeed keep 11 z) s
  let s := (setBits ks).foldl lintStopOrder s
  let s := if c.safe then s.enterSafe keep else s
  s.onLint (fun l => { l with episode := { l.episode with
    groups := l.episode.groups ||| gs, feeds := l.episode.feeds ||| zs, orders := l.episode.orders ||| ks
    safe := l.episode.safe || c.safe } })

/-! ### Registration (R302) -/

/-- One occurrence sets its cause bit and counts; it is a lint event when the bit was clear or its source stops. -/
def registerOne (s : State) (d : Detected) : State × Bool :=
  let old := vget s.lint.causes d.src 0
  let bit : Half := BitVec.ofNat 16 (2 ^ d.cause)
  let event := old &&& bit == 0 || (s.reactC d.src).stops
  (s.onLint (fun l => { l with causes := vmod l.causes d.src (· ||| bit)
                               counts := vmod l.counts d.src (fun n => min 65535 (n + 1)) }), event)

/-! ### Snapshots (R319, Table 11-7) -/

/-- The 1,640 octets of a snapshot. -/
def snapshotOctets (s : State) : List Byte :=
  (List.range 16).flatMap (fun w => leBytes 4 (s.lintWord w).toNat) ++
  allPorts.flatMap (fun p =>
    let u := (s.port p).up
    leInt 2 (u.vout / 2) ++ leInt 2 (u.vin / 10) ++ (List.range 4).flatMap (fun k => leInt 2 (vget u.i k 0 / 10)) ++
    [u.status, BitVec.ofNat 8 (s.port p).link.code, 0, 0]) ++
  allGroups.flatMap (fun g =>
    let r := s.group g
    [BitVec.ofNat 8 r.phase.code, BitVec.ofNat 8 r.winner, BitVec.ofNat 8 r.strikes, 0] ++ leInt 4 r.s) ++
  allFeeds.flatMap (fun z =>
    let r := s.feed z
    [BitVec.ofNat 8 r.phase.code, BitVec.ofNat 8 r.cause, 0, 0] ++ leInt 4 r.rd.vout ++ leInt 4 r.rd.current) ++
  (List.range 8).flatMap (fun k => leInt 8 (s.str k).a ++ leInt 4 (s.str k).bsv ++ leInt 4 (s.str k).current) ++
  allModels.flatMap (fun m => leInt 2 (s.model m).temp) ++
  (List.range 32).flatMap (fun n => leInt 2 (s.sense n).code) ++
  leInt 4 s.busMv ++ leInt 4 s.busLoad ++ leInt 4 s.shelfInput ++
  [BitVec.ofNat 8 s.lossCode,
   BitVec.ofNat 8 s.shelf.shed.phase.code, BitVec.ofNat 8 s.tb.phase.code, 0] ++ leInt 4 s.shelf.caps.cEff ++
  allOrders.map (fun k => BitVec.ofNat 8 (s.order k).phase.code) ++
  leBytes 4 s.seq.pgin.toNat ++ leBytes 4 s.enLevels.toNat ++ List.replicate 6 0

/-- A snapshot is latched in its buffer, or lost when the buffer still holds one; none without the firmware
(R318, R319). -/
def latchSnapshot (s : State) (closing : Bool) : State :=
  if !s.fw then s
  else
    let buf := if closing then s.lint.snapClose else s.lint.snapOpen
    if buf.isSome then
      (s.onLint (fun l => { l with episode :=
        if closing then { l.episode with lostClose := true } else { l.episode with lostOpen := true } })).detect srcScorebook 2
    else
      let o : Snapshot := { time := s.shelfNs, episode := s.openEpisode, octets := s.snapshotOctets }
      s.onLint (fun l => if closing then { l with snapClose := some o } else { l with snapOpen := some o })

/-- The 41 parts of a latched snapshot are written, with the time and the episode of its latch (R314, R319, Table 11-6). -/
def writeSnapshot (s : State) (closing : Bool) : State :=
  match (if closing then s.lint.snapClose else s.lint.snapOpen) with
  | none => s
  | some o =>
    let s := (List.range 41).foldl (fun s k =>
      s.recordAt o.time o.episode 3 ([if closing then 1 else 0, 0] ++ leBytes 2 k ++ (o.octets.drop (40 * k)).take 40)) s
    s.onLint (fun l => if closing then { l with snapClose := none } else { l with snapOpen := none })

/-! ### Episodes (R310 to R312, Table 11-4) -/

/-- The reaction bits of a source in an episode's union. -/
def reactBits (s : State) (src : Nat) : BitVec 5 := (s.reactC src).word.setWidth 5

/-- A source that has not joined the episode yet joins it, and its NOTIFY bit is 1 (R311, R312). -/
def joinNotifies (s : State) (d : Detected) : Bool :=
  (s.reactC d.src).notify && s.lint.episode.joined &&& BitVec.ofNat 512 (2 ^ d.src) == 0

/-- The status objects show the reaction union and the joined count as they are now (R312). -/
def showEpisode (s : State) : State :=
  s.onLint (fun l => { l with episode := { l.episode with
    shownUnion := l.episode.union, shownJoined := (setBits l.episode.joined).length } })

/-- Non-silent events open the episode or join it (Table 11-4); the status objects follow at the opening and at a join that
notifies (R312). -/
def episodeEvents (s : State) (ds : List Detected) : State :=
  let ds := ds.filter (fun d => !(s.reactC d.src).silent)
  if ds.isEmpty then s
  else
    let opening := !s.lint.episode.opn
    let shows := opening || ds.any s.joinNotifies
    let s := if opening then
        s.onLint (fun l => { l with episode := { l.episode with
          opn := true, number := (l.episode.number + 1) % 65536, openedAt := s.shelfNs, union := 0, joined := 0, events := 0
          ageFrom := s.clock.slots, lostOpen := false, lostClose := false }
            }) else s
    let s := ds.foldl (fun s d => s.onLint (fun l => { l with episode := { l.episode with
      union := l.episode.union ||| s.reactBits d.src
      joined := l.episode.joined ||| BitVec.ofNat 512 (2 ^ d.src)
      events := l.episode.events + 1, quietFrom := s.clock.slots } })) s
    let s := if shows then s.showEpisode else s
    if opening then
      let e := s.lint.episode
      let s := s.latchSnapshot false
      let s := s.record 1 ([e.union.setWidth 8, 0] ++ leBytes 2 (setBits e.joined).length ++ List.replicate 40 0)
      s.captureEvent 1 0
    else s

/-- Every stop reaction of the episode, and safe state if it is one, is complete (R310). -/
def stopsComplete (s : State) : Bool :=
  let e := s.lint.episode
  let g (k : Nat) : Bool := (s.group k).phase == .stopped || (s.group k).phase == .latched
  let f (z : Nat) : Bool := (s.feed z).phase == .off || (s.feed z).phase == .latched
  let o (k : Nat) : Bool := (s.order k).phase == .off
  (setBits e.groups).all g && (setBits e.feeds).all f && (setBits e.orders).all o &&
  (!e.safe || (allGroups.all g && allFeeds.all f && allOrders.all (fun k => bitAt s.cfg.episode.safeKeep k || o k)))

/-- The episode closes: closing snapshot and record; a warm reset takes no snapshot (Table 11-4, R304). -/
def closeEpisode (s : State) (cause : Nat) : State :=
  let s := if cause = 2 then s else s.latchSnapshot true
  let e := s.lint.episode
  let lost := (if e.lostOpen then 1 else 0) + (if e.lostClose then 2 else 0)
  let s := s.record 2 ([e.union.setWidth 8, BitVec.ofNat 8 cause] ++ leBytes 2 (setBits e.joined).length ++
    leBytes 4 e.events ++ [BitVec.ofNat 8 lost] ++ List.replicate 35 0)
  s.onLint (fun l => { l with episode := { l.episode with opn := false, groups := 0, feeds := 0, orders := 0, safe := false } })

/-- Every cause detected strictly before this boundary registers: bits, counts, reactions, the episode, and the triggers of
the captures set to its source (R302 to R312, R323, R479). -/
def registerAll (s : State) : State :=
  let ds := s.lint.detected.filter (fun d => s.due (some d.at'))
  let s := s.onLint (fun l => { l with detected := l.detected.filter (fun d => !s.due (some d.at')) })
  let (s, evs) := ds.foldl (fun (a : State × List Detected) d =>
    let (s, e) := a.1.registerOne d
    (s, if e then a.2 ++ [d] else a.2)) (s, [])
  -- the episode opens before its reactions are added to it
  let s := s.episodeEvents evs
  let s := evs.foldl (fun s d => s.captureEvent 2 d.src) s
  evs.foldl react s

/-- An event joins the episode at this very boundary, so that no row that closes it applies (Table 11-4, R310). -/
def episodeJoined (s : State) : Bool := s.lint.episode.quietFrom == s.clock.slots

/-- The quiet timer has run out and every stop reaction is complete (Table 11-4). -/
def quietOver (s : State) : Bool := decide (s.cfg.episode.epQuiet ≤ elapsedUs s s.lint.episode.quietFrom) && s.stopsComplete

/-- The age timer has run out (Table 11-4). -/
def ageOver (s : State) : Bool := decide (s.cfg.episode.epMax ≤ elapsedUs s s.lint.episode.ageFrom)

/-- The rows of Table 11-4 at this boundary: the events that it registers join first, then the age row, then the quiet
row. -/
def episodeRows (s : State) : State :=
  let s := s.registerAll
  if !s.lint.episode.opn || s.episodeJoined then s
  else if s.ageOver then s.closeEpisode 1
  else if s.quietOver then s.closeEpisode 0
  else s

/-! ### Change records (R320, R321) -/

/-- The value octets of a change record: old and new of at most 8 octets, or length and check of a longer one. -/
def changeValues (old new : List Byte) : List Byte :=
  let pad (b : List Byte) : List Byte := b ++ List.replicate (8 - b.length) 0
  if 8 < new.length then List.replicate 8 0 ++ leBytes 4 new.length ++ leBytes 4 (crc32 new).toNat
  else pad (old.take 8) ++ pad new

/-- A change record with its merge count (R320). -/
def changeWrite (s : State) (time episode index sub : Nat) (origin : List Byte) (count : Nat) (old new : List Byte) : State :=
  s.recordAt time episode 4 (leBytes 2 index ++ [BitVec.ofNat 8 sub] ++ origin ++ leBytes 2 count ++
    [BitVec.ofNat 8 new.length, 0] ++ changeValues old new ++ List.replicate 16 0)

/-- The hold of an object and origin has run out. -/
def holdDue (s : State) (h : ChangeHold) : Bool := decide (s.cfg.ring.chgHoldoff ≤ elapsedUs s h.lastAt)

/-- Held writes whose hold-off has passed are written as one record each (R321). -/
def flushHolds (s : State) : State :=
  let due := s.score.holds.filter s.holdDue
  let keep := s.score.holds.filter (fun h => !s.holdDue h)
  let again := (due.filter (fun h => h.count != 0)).map (fun h =>
    { h with count := 0, lastAt := s.clock.slots })
  let s := due.foldl (fun s h => if h.count = 0 then s else s.changeWrite h.time h.episode h.index h.sub h.origin h.count h.old h.new) s
  { s with score := { s.score with holds := keep ++ again } }

/-- A write accepted at `time`, with `episode` open, that changed a value: recorded, or merged into the last record of its
origin (R320, R321). -/
def changeAt (s : State) (time episode index sub : Nat) (origin : List Byte) (old new : List Byte) : State :=
  if old == new || !s.fw then s
  else
    let s := s.flushHolds
    let same (h : ChangeHold) : Bool := h.index == index && h.sub == sub && h.origin == origin
    match s.score.holds.find? same with
    | some _ =>
      if s.cfg.ring.chgHoldoff = 0 then s.changeWrite time episode index sub origin 1 old new
      else
        let hs := s.score.holds.map (fun h => if same h then
          { h with count := h.count + 1, old := if h.count = 0 then old else h.old, new := new, time := time
                   episode := episode } else h)
        { s with score := { s.score with holds := hs, merged := s.score.merged + 1 } }
    | none =>
      let s := s.changeWrite time episode index sub origin 1 old new
      { s with score := { s.score with holds := { index := index, sub := sub, origin := origin, lastAt := s.clock.slots } :: s.score.holds } }

/-- An accepted write of the present instant. -/
def change (s : State) (index sub : Nat) (origin : List Byte) (old new : List Byte) : State :=
  s.changeAt s.shelfNs s.openEpisode index sub origin old new

/-- A change record that is never merged (R361). -/
def changeAlone (s : State) (index sub : Nat) (origin old new : List Byte) : State :=
  if old == new then s else s.changeWrite s.shelfNs s.openEpisode index sub origin 1 old new

end State

/-- Origin octets 19 to 23 of an internal block (R320). -/
def originBlock (kind number : Nat) : List Byte := [1, BitVec.ofNat 8 kind, 0] ++ leBytes 2 number

/-- Origin octets 19 to 23 of a host: seat, transport code and physical port (R320). -/
def originHost (seat transport port : Nat) : List Byte :=
  [0, BitVec.ofNat 8 seat, BitVec.ofNat 8 (16 * transport + port), 0, 0]

/-! ### Reading the ring (R314, R326) -/

/-- The 64 octets of a record (Table 11-5). -/
def Record.octets (r : Record) : List Byte :=
  let body := leBytes 8 r.time ++ leBytes 4 r.seq ++ [BitVec.ofNat 8 r.kind, 0] ++ leBytes 2 r.episode ++ r.payload
  body ++ leBytes 2 (crc16 body).toNat ++ leBytes 2 (r.seq % 65536)

namespace State

/-- The records that count, newest first: their COMMIT words are written (R315). -/
def counting (s : State) : List Record := s.score.recs.drop s.score.writing

/-- SEQ of the oldest record that counts; the next SEQ when there is none. -/
def oldestSeq (s : State) : Nat := match s.counting.getLast? with | some r => r.seq | none => s.score.seq

/-- SEQ of the newest record; the one before the next SEQ when there is none. -/
def newestSeq (s : State) : Nat :=
  match s.counting with | r :: _ => r.seq | [] => (s.score.seq + 4294967295) % 4294967296

/-- A seat's read cursor. -/
def cursor (s : State) (seat : Nat) : Nat := (vget s.score.cursors seat none).getD s.oldestSeq

/-- The records of a seat's window (R326). -/
def window (s : State) (seat : Nat) : List Record :=
  let n := s.counting.length
  -- how far the cursor lies beyond the oldest record, modulo 2^32; a cursor before it starts at the oldest
  let d := (s.cursor seat + 4294967296 - s.oldestSeq) % 4294967296
  let skip := if d ≤ n then d else if d < 2147483648 then n else 0
  (s.counting.reverse.drop skip).take 16

/-- The record writes of the slot that ends are complete. DESIGN CHOICE (assumption 124): a record counts once the slot in which
it is written has passed. -/
def recordsWritten (s : State) : State := { s with score := { s.score with writing := 0 } }

end State

/-! ### Captures (R322 to R324) -/

/-- Saturation to a signed 16-bit value. -/
def sat16 (x : Int) : Nat := (clampInt (-32768) 32767 x % 65536).toNat

/-- A selector that Table 11-10 admits. -/
def selectorOk (w : Nat) : Bool :=
  let kind := w / 4096
  let item := w / 256 % 16
  let n := w % 256
  match kind with
  | 0 => w == 0
  | 1 => item == 0 && decide (n < 32)
  | 2 => decide (item < 6) && decide (n < 48)
  | 3 => item == 0 && decide (n < 32)
  | 4 => item == 0 && decide (n < 48)
  | 5 => decide (item < 2) && decide (n < 16)
  | 6 => item == 0 && decide (n < 8)
  | 7 => item == 0 && decide (n < 65)
  | _ => false

namespace State

/-- The 16-bit value of a capture signal (Table 11-10). -/
def signal (s : State) (w : Nat) : Nat :=
  let item := w / 256 % 16
  let n := w % 256
  match w / 4096 with
  | 1 => sat16 (s.sense n).code
  | 2 =>
    let u := (s.port n).up
    if item = 4 then (u.vout / 2).toNat % 65536 else if item = 5 then (u.vin / 10).toNat % 65536
    else sat16 (vget u.i item 0 / 10)
  | 3 => ((s.group n).s / 256 % 65536).toNat
  | 4 => ((s.port n).code / 256 % 65536).toNat
  | 5 => if item = 0 then sat16 (roundDiv (s.feed n).rd.current 20) else sat16 (roundDiv (s.feed n).rd.vout 2)
  | 6 => sat16 (roundDiv (s.str n).fast 20)
  | 7 => sat16 (s.model n).temp
  | _ => 0

/-- Captures that hold a staging window, or wait for their next grid slot to take one (R323). -/
def windowsTaken (s : State) : Nat :=
  ((List.range 8).filter (fun c => match (s.capture c).phase with
    | .armed | .triggered | .saving => true | _ => (s.capture c).reqs.any (fun q => q.1 == 1))).length

/-- The arm command is admitted (Table 11-11). -/
def canArm (s : State) (c : Nat) : Bool :=
  (match (s.capture c).phase with | .off | .held | .invalid => true | _ => false) && decide (s.windowsTaken < 2)

def captureArm (s : State) (c : Nat) : State :=
  if s.canArm c then s.onCapture c (fun r => { r with phase := .armed, window := some [], after := 0 }) else s

def captureDisarm (s : State) (c : Nat) : State :=
  if (s.capture c).phase == .armed then s.onCapture c (fun r => { r with phase := .off, window := none }) else s

/-- The commands of a capture that arose before this slot are taken, in their order of arrival (R369, R479). -/
def captureRequests (s : State) (c : Nat) : State :=
  let qs := (s.capture c).reqs.filter (fun q => s.due (some q.2))
  let s := s.onCapture c (fun r => { r with reqs := r.reqs.filter (fun q => !s.due (some q.2)) })
  qs.foldl (fun s q => match q.1 with
    | 1 => s.captureArm c
    | 2 => s.captureTrigger c 0 0
    | _ => s.captureDisarm c) s

/-- The same for every capture. -/
def captureCommands (s : State) : State := (List.range 8).foldl captureRequests s

/-- Samples to take after the trigger. -/
def captureAfter (s : State) (c : Nat) : Nat := 4096 - (s.captureC c).pre

/-- One sample of an active capture at a grid instant of its rate; none in hardware-run or bench mode (R322, R324). -/
def captureSample (s : State) (c : Nat) : State :=
  let r := s.capture c
  match r.window with
  | none => s
  | some xs =>
    let x := (s.captureC c).signals.toList.map s.signal
    if !s.fw || !(s.onGrid (crateSlots (s.captureC c).crate)) then s
    else match r.phase with
      | .armed => s.onCapture c (fun r => { r with window := some ((x :: xs).take 4096) })
      | .triggered =>
        if r.after < s.captureAfter c then
          s.onCapture c (fun r => { r with window := some ((x :: xs).take 4096), after := r.after + 1 })
        else s
      | _ => s

/-- The window is full: sampling stops and the copy to MRAM starts (Table 11-11); after a power-fail warning no save starts
(R316). -/
def captureFull (s : State) (c : Nat) : State :=
  let r := s.capture c
  if r.phase == .triggered && !s.score.stopped && s.captureAfter c ≤ r.after then
    s.onCapture c (fun r => { r with phase := .saving, dataValid := false }) else s

/-- The copy completes (Table 11-11); samples older than the arm command read 0x8000. -/
def captureSaved (s : State) (c : Nat) : State :=
  let r := s.capture c
  if r.phase != .saving || s.score.stopped then s
  else
    let xs := (r.window.getD []).reverse
    let old := List.replicate (4096 - xs.length) (List.replicate 32 0x8000)
    let s := s.record 0x0A ([BitVec.ofNat 8 c, BitVec.ofNat 8 r.trigKind] ++ leBytes 2 r.trigSrc ++
      leBytes 8 r.trigTime ++ List.replicate 32 0)
    s.onCapture c (fun r => { r with
      data := old ++ xs, dataValid := true
      phase := if (s.captureC c).autoRearm then .armed else .held
      window := if (s.captureC c).autoRearm then some [] else none, after := 0 })

/-- A capture at a reset (R324); commands that wait are lost (assumption 57). -/
def captureReset (s : State) (c : Nat) : State :=
  let s := s.onCapture c (fun r => { r with reqs := [] })
  match (s.capture c).phase with
  | .triggered | .saving =>
    (s.onCapture c (fun r => { r with phase := .invalid, window := none })).detect srcScorebook 1
  | .armed => s.onCapture c (fun r => { r with window := none })
  | _ => s

/-- At the started checkpoint an armed capture gets a fresh window (R324). -/
def captureResume (s : State) (c : Nat) : State :=
  if (s.capture c).phase == .armed then s.onCapture c (fun r => { r with window := some [] }) else s

/-- 16 samples of the saved window from the capture's data offset (R326). -/
def captureData (s : State) (c : Nat) : List Byte :=
  let r := s.capture c
  if r.dataValid then ((r.data.drop r.offset).take 16).flatMap (fun x => x.flatMap (leBytes 2)) else []

end State
end Sys2Proof.Machine
end

