-- ==== Sys2Proof/Machine/TwoWire.lean ====
section
/-!
DEFINITION. Two-wire controller ports and their temperature sensors (R419 to R428).
-/
namespace Sys2Proof.Machine
set_option Elab.async false

/-- A LINEAR11 word as mantissa and exponent (R436). -/
def linear11Parts (w : Nat) : Int × Int := (signed 11 (w % 2048), signed 5 (w / 2048 % 32))

/-- A LINEAR11 word times a scale, rounded to nearest. -/
def linear11Scaled (w : Nat) (scale : Int) : Int :=
  let (y, n) := linear11Parts w
  if 0 ≤ n then y * scale * 2 ^ n.toNat else roundDiv (y * scale) (2 ^ (-n).toNat)

/-- LINEAR11 of a value `num / den` for a positive `den`: the smallest exponent from −16 to 15 for which the value
rounded to nearest fits the mantissa (R436); the largest exponent saturates. -/
def toLinear11 (num : Int) (den : Nat) : Nat :=
  let mant (k : Nat) : Int :=   -- exponent k − 16
    if k < 16 then roundDiv (num * 2 ^ (16 - k)) den else roundDiv num (den * 2 ^ (k - 16))
  let fits (k : Nat) : Bool := decide (-1024 ≤ mant k) && decide (mant k ≤ 1023)
  let k := ((List.range 32).find? fits).getD 31
  let y := clampInt (-1024) 1023 (mant k)
  ((k + 16) % 32) * 2048 + (y % 2048).toNat

/-- The register code of a sensor type (Table 15-2). -/
def sensorRegister (ty : Nat) : Byte := if ty = 1 then 0x00 else 0x8D

/-- The reading in 0.01 °C of two data octets (Table 15-2). -/
def sensorReading (ty : Nat) (b0 b1 : Byte) : Int :=
  if ty = 1 then roundDiv (signed 16 (b0.toNat * 256 + b1.toNat) * 100) 256
  else linear11Scaled (b0.toNat + b1.toNat * 256) 100

/-- The PEC of a transaction is right, where its type has one (Table 15-2). -/
def sensorPecOk (c : SensorCfg) (b0 b1 pec : Byte) : Bool :=
  c.stype != 3 || crc8 [BitVec.ofNat 8 (2 * c.addr), sensorRegister c.stype, BitVec.ofNat 8 (2 * c.addr + 1), b0, b1] == pec

namespace State

def tw (s : State) (t : Nat) : TwRun := vget s.tws t {}
def twC (s : State) (t : Nat) : TwPortCfg := vget s.cfg.twPorts t {}
def sensorC (s : State) (n : Nat) : SensorCfg := vget s.cfg.sensors n {}
def onTw (s : State) (t : Nat) (f : TwRun → TwRun) : State := { s with tws := vmod s.tws t f }
def onSensor (s : State) (n : Nat) (f : SensorRun → SensorRun) : State := { s with sensors := vmod s.sensors n f }

/-- The cause sensor not answering of a port holds: an entry on it has status 2 (R427). -/
def sensorSilent (s : State) (t : Nat) : Bool :=
  s.sensors.toList.zipIdx.any (fun x => (s.sensorC x.2).port == t && x.1.status == 2)

/-- The transaction of a sensor: START, address and register code, repeated START, then the read of two data octets and,
for type 3, of the PEC (R426, Table 15-2). -/
def twTransaction (s : State) (t n : Nat) : Sent :=
  let c := s.sensorC n
  .twStart t [BitVec.ofNat 8 (2 * c.addr), sensorRegister c.stype] (BitVec.ofNat 8 (2 * c.addr + 1)) (if c.stype = 3 then 3 else 2)

/-- Idle with SCL and SDA high: the lowest-numbered due poll of a sensor on the port starts (Table 15-1, R427). -/
def twNext (s : State) (t : Nat) : State :=
  match (s.tw t).due.filter (fun n => (s.sensorC n).port == t && (s.sensorC n).stype != 0) with
  | [] => s.onTw t (fun r => { r with due := [] })
  | n :: rest => { s.onTw t (fun r => { r with phase := .busy, polling := n, due := rest }) with
                   out := s.out ++ [s.twTransaction t n] }

/-- A STOP of the port, which is Idle after it; a poll that is due then starts at once. -/
def twIdle (s : State) (t clocks : Nat) : State :=
  let s : State := { s.onTw t (fun r => { r with phase := .idle, polling := 255 }) with out := s.out ++ [.twStop t clocks] }
  s.twNext t

/-- Entry to Recovery (Table 15-1). -/
def twRecover (s : State) (t : Nat) : State :=
  s.onTw t (fun r => { r with phase := .recovery, polling := 255, since := s.clock.up, recoveries := r.recoveries + 1 })

/-- A recovery ends in Stuck, with its cause (R422, R423). -/
def twStuck (s : State) (t : Nat) : State :=
  (s.onTw t (fun r => { r with phase := .stuck, since := s.clock.up, stuck := true })).detect (srcTw t) 0

/-- EN of a port as it stands (Table 15-1). -/
def twEnable (s : State) (t : Nat) : State :=
  if !(s.twC t).en then s.onTw t (fun r => { r with phase := .disabled, polling := 255, due := [] })
  else if (s.tw t).phase == .disabled then s.twRecover t else s

/-- A failed poll: reading and time stay, the status is 2 (R427). -/
def pollFailed (s : State) (t n : Nat) : State :=
  (s.onSensor n (fun r => { r with status := 2 })).detectIf (!s.sensorSilent t) (srcTw t) 2

/-- The setting of a polled sensor changes: an unused entry has status 0; the cause begins to hold on the port that an
entry with status 2 comes to (R427). -/
def sensorSet (s : State) (old : Vector SensorCfg 16) (n : Nat) : State :=
  let c := s.sensorC n
  if c.stype = 0 then s.onSensor n (fun r => { r with status := 0 })
  else if c.port < 4 ∧ (vget old n {}).port ≠ c.port then
    let others := s.sensors.toList.zipIdx.any (fun x => x.2 != n && (s.sensorC x.2).port == c.port && x.1.status == 2)
    s.detectIf ((vget s.sensors n {}).status == 2 && !others) (srcTw c.port) 2
  else s

/-- A bus error in Busy: the poll fails and the port recovers (R424, R425, R427). -/
def twBusError (s : State) (t : Nat) : State :=
  let n := (s.tw t).polling
  let s := (s.pollFailed t n).detect (srcTw t) 1
  (s.onTw t (fun r => { r with errors := r.errors + 1 })).twRecover t

/-- A poll of a sensor is due: it waits already, or one poll interval has passed since one last fell due (R427). -/
def pollDue (s : State) (n : Nat) : Bool :=
  (s.tw (s.sensorC n).port).due.contains n ||
    match (vget s.sensors n {}).dueAt with | some t => decide ((s.sensorC n).pollInt ≤ elapsedAo s t) | none => true

/-- A sensor poll falls due: the lowest-numbered due entry starts, or the port recovers from a low SDA (Table 15-1, R427). -/
def sensorPoll (s : State) (n : Nat) (scl sda : Bool) : State :=
  let c := s.sensorC n
  if 3 < c.port || c.stype == 0 || !s.fw || !(s.pollDue n) then s
  else
    let t := c.port
    let s := if (s.tw t).due.contains n then s else s.onSensor n (fun r => { r with dueAt := some s.clock.up })
    let s := s.onTw t (fun r => { r with due := if r.due.contains n then r.due else (n :: r.due).mergeSort })
    if (s.tw t).phase != .idle then s
    else if !sda then s.twRecover t
    else if !scl then s
    else s.twNext t

/-- A transaction ends (Table 15-1, R424 to R427). -/
def twComplete (s : State) (t : Nat) (x : TwResult) : State :=
  if (s.tw t).phase != .busy then s
  else
    let n := (s.tw t).polling
    let c := s.sensorC n
    match x with
    | .noAck => (s.pollFailed t n).twIdle t 0
    | .busError => s.twBusError t
    | .data b0 b1 pec =>
      if sensorPecOk c b0 b1 pec then
        (s.onSensor n (fun r => { r with reading := sensorReading c.stype b0 b1, time := s.shelfNs, status := 1
                                         goodAt := some s.clock.up })).twIdle t 0
      else s.twBusError t

/-- A recovery runs to its end over the samples of SDA, the first before any clock and one after each clock: STOP at the
first that is high, Stuck when SDA is still low after the ninth clock (R422); fewer samples without a high one do not
end it. -/
def twRecoveryEnd (s : State) (t : Nat) (sda : List Bool) : State :=
  if (s.tw t).phase != .recovery then s
  else match (sda.take 10).findIdx? id with
    | some clocks => (s.onTw t (fun r => { r with stuck := false })).twIdle t clocks
    | none => if sda.length < 10 then s else { s.twStuck t with out := s.out ++ [.twClocks t 9] }

/-- SCL held low for 25 ms: a recovery ends in Stuck, a transaction is a bus error (R423, R424). -/
def twSclTimeout (s : State) (t : Nat) : State :=
  match (s.tw t).phase with
  | .recovery => s.twStuck t
  | .busy => s.twBusError t
  | _ => s

/-- One second in Stuck starts a recovery (Table 15-1). -/
def twStuckRetry (s : State) (t : Nat) : State :=
  if (s.tw t).phase == .stuck && 1000000 ≤ elapsedAo s (s.tw t).since then s.twRecover t else s

/-- Port command 1 is admitted in Idle and Stuck (Table 15-1). -/
def twCommandOk (s : State) (t : Nat) : Bool := (s.tw t).phase == .idle || (s.tw t).phase == .stuck

/-- A reset releases the pins and ends every transaction (R439). -/
def twReset (s : State) : State :=
  (List.range 4).foldl (fun s t => s.onTw t (fun r => { r with phase := .disabled, polling := 255, due := [] })) s

/-- At the started checkpoint every enabled port enters Recovery (R421). -/
def twStart (s : State) : State :=
  (List.range 4).foldl (fun s t => if (s.twC t).en then s.twRecover t else s) s

end State
end Sys2Proof.Machine
end

