-- ==== Sys2Proof/Machine/Fuses.lean ====
section
/-!
DEFINITION. Fuses, the owner lock, physical presence and the seal (R357 to R360, R407 to R418).
-/
namespace Sys2Proof.Machine
set_option Elab.async false

/-- The region of a fuse word: 0 TRIM, 1 IDENT, 2 OWNER, 3 LIMIT, 4 SEAL, 5 SPARE (Table 14-9). -/
def fuseRegion (w : Nat) : Nat :=
  if w < 64 then 0 else if w < 80 then 1 else if w < 96 then 2 else if w < 112 then 3 else if w < 128 then 4 else 5

/-- The control word of a region. -/
def controlWord : Nat → Nat
  | 0 => 63 | 1 => 79 | 2 => 95 | 3 => 111 | 4 => 127 | _ => 255

/-- The fuses with the stitch under way complete: both cells of every bit of the shadow are burned (R414). -/
def FuseRun.stitched (f : FuseRun) : Vector Word 256 :=
  match f.busy with
  | some (.stitch, w, _) => vmod f.burned w (· ||| vget f.shadow w 0)
  | _ => f.burned

namespace State

def onFuses (s : State) (f : FuseRun → FuseRun) : State := { s with fuses := f s.fuses }
/-- The boot record changes; the change is committed (R389). -/
def onRec (s : State) (f : BootRecord → BootRecord) : State :=
  { s with bootRec := s.bootRec.commit (f s.bootRec.toBootRecord) s.clock.up }
def shadowOf (s : State) (w : Nat) : Word := vget s.fuses.shadow w 0

/-- The locks that the shadows set, SEAL always (R412). -/
def fuseLocks (s : State) : BitVec 6 :=
  maskOf 6 ((List.range 6).filter (fun r => r == 4 || bitAt (s.shadowOf (controlWord r)) 0))

/-- The latch of the shadows at power-on reset; a word of `weak` misses the bits of cells that do not read (R409). -/
def latchFuses (s : State) (weak : List (Nat × Word)) : State :=
  let s := s.onFuses (fun f => { f with shadow := mapIdx f.burned (fun i b =>
    match weak.find? (fun w => w.1 == i.val) with | some w => b &&& ~~~w.2 | none => b) })
  s.onFuses (fun f => { f with locks := s.fuseLocks })

def ownerFix (s : State) : Bool := bitAt (s.shadowOf 80) 0

/-- A fuse event (Table 14-11). -/
def fuseEvent (s : State) (event word seat : Nat) (before after readN readM : Word) : State :=
  s.record 8 ([BitVec.ofNat 8 event, BitVec.ofNat 8 word, BitVec.ofNat 8 seat, 0] ++ leBytes 4 before.toNat ++
    leBytes 4 after.toNat ++ leBytes 4 readN.toNat ++ leBytes 4 readM.toNat ++ List.replicate 24 0)

/-- A margin read's comparison: the word is flagged, or its flag clears (R410). -/
def marginResult (s : State) (w seat : Nat) (n t : Word) : State :=
  let sh := s.shadowOf w
  if n != t then
    ((s.onFuses (fun f => { f with marginal := if f.marginal.contains w then f.marginal else w :: f.marginal })).fuseEvent
      4 w seat sh sh n t).detect srcFuses 0
  else if s.fuses.marginal.contains w then
    (s.onFuses (fun f => { f with marginal := f.marginal.filter (· != w) })).fuseEvent 5 w seat sh sh n t
  else s

/-- A read or margin read begins (R410). -/
def fuseBegin (s : State) (op : FuseOp) (seat : Nat) : State :=
  s.onFuses (fun f => { f with busy := some (op, f.addr, s.clock.up), status := 1, seat := seat })

/-- A fuse operation completes; the cells read at the normal and the tightened threshold miss some bits (R410, R414).
A read takes 40 µs, a margin read 80 µs. -/
def fuseDone (s : State) (missN missT : Word) : State :=
  match s.fuses.busy with
  | some (.read, w, t) =>
    if elapsedAo s t < 40 then s
    else s.onFuses (fun f => { f with busy := none, status := 2, value := vget f.burned w 0 &&& ~~~missN })
  | some (.margin, w, t) =>
    if elapsedAo s t < 80 then s
    else
      let n := vget s.fuses.burned w 0 &&& ~~~missN
      let m := vget s.fuses.burned w 0 &&& ~~~missT
      (s.onFuses (fun f => { f with busy := none, status := 2, value := m })).marginResult w s.fuses.seat n m
  | _ => s

/-- A stitch completes, and the word is read back (R414). -/
def stitchDone (s : State) (missN missT : Word) : State :=
  match s.fuses.busy with
  | some (.stitch, w, _) =>
    let seat := s.fuses.seat
    let sh := s.shadowOf w
    let s := s.onFuses (fun f => { f with burned := f.stitched, busy := none })
    let n := vget s.fuses.burned w 0 &&& ~~~missN
    let m := vget s.fuses.burned w 0 &&& ~~~missT
    let good := n == sh && m == sh
    let s := s.onFuses (fun f => { f with status := if good then 2 else 3, value := m })
    let s := if good then (s.marginResult w seat n m).fuseEvent 2 w seat sh sh n m
      else ((s.marginResult w seat n m).fuseEvent 3 w seat sh sh n m).detect srcBoot 8
    let r := fuseRegion w
    if w == controlWord r && bitAt sh 0 then
      (s.onFuses (fun f => { f with locks := f.locks ||| BitVec.ofNat 6 (2 ^ r) })).fuseEvent 6 w seat sh sh n m
    else s
  | _ => s

/-- The sweep is due: none has been run since the start, or 24 h have passed since the last (R411). -/
def sweepDue (s : State) : Bool :=
  match s.fuses.sweep with | some t => decide (86400000000 ≤ elapsedAo s t) | none => true

/-- The margin sweep of every word, when it is due; the listed words miss bits at the two thresholds (R411). -/
def marginSweep (s : State) (weak : List (Nat × Word × Word)) : State :=
  if !s.sweepDue then s
  else (List.range 256).foldl (fun s w =>
    let b := vget s.fuses.burned w 0
    let (n, t) := match weak.find? (fun x => x.1 == w) with
      | some x => (b &&& ~~~x.2.1, b &&& ~~~x.2.2)
      | none => (b, b)
    s.marginResult w 255 n t) (s.onFuses (fun f => { f with sweep := some s.clock.up }))

/-! ### Basting and stitching (R413, R414) -/

/-- TAKEOVER_V and the SETPOINT of every channel with a source of kind 1, 2 or 3 lie within a bus ceiling (R413). -/
def busWithin (s : State) (bus : Int) : Bool :=
  decide (s.cfg.loss.takeoverV ≤ bus) &&
  allChans.all (fun c => !([1, 2, 3].contains (srcKind (s.chanB c).src)) || decide ((s.chanB c).setpoint ≤ bus))

/-- OC_LIM, I_CONT and the SETPOINT of every channel with a source of kind 11 lie within a feed current ceiling (R413). -/
def currentWithin (s : State) (amp : Int) : Bool :=
  allChans.all (fun c => srcKind (s.chanB c).src != 11 || decide ((s.chanB c).setpoint ≤ amp)) &&
  allFeeds.all (fun z => decide ((s.feedB z).core.ocLim ≤ amp) && decide ((s.feedB z).core.iCont ≤ amp))

/-- Some shadows place no ceiling anew below a value in force that it bounds; a ceiling that they leave as it is refuses
nothing (R413). -/
def withinCeilings (s : State) (shadow : Vector Word 256) : Bool :=
  let bus := fusedCeiling shadow 96 65000
  let amp := fusedCeiling shadow 100 1000000
  (bus == s.maxBusSetpoint || s.busWithin bus) && (amp == s.maxFeedCurrent || s.currentWithin amp)

/-- The region of the addressed word is locked, the owner lock is set, or the controller is busy (R413, R414). -/
def fuseRefused (s : State) : Bool :=
  bitAt s.fuses.locks (fuseRegion s.fuses.addr) || s.bootRec.ownerLock || s.fuses.busy.isSome

/-- The shadows after a baste of the addressed word. -/
def basted (s : State) : Vector Word 256 := vmod s.fuses.shadow s.fuses.addr (fun _ => s.fuses.baste)

/-- A baste takes effect (R413). -/
def basteNow (s : State) (seat : Nat) : State :=
  let w := s.fuses.addr
  let before := s.shadowOf w
  (s.onFuses (fun f => { f with shadow := s.basted })).fuseEvent 1 w seat before s.fuses.baste 0 0

/-- A stitch is refused by the state of the word or a power-fail warning (R414). -/
def stitchRefused (s : State) : Bool :=
  s.fuseRefused || s.score.stopped || (vget s.fuses.burned s.fuses.addr 0 &&& ~~~(s.shadowOf s.fuses.addr)) != 0

/-! ### The owner lock (R416) -/

def ownerSet (s : State) (seat : Nat) : State :=
  (s.onRec (fun r => { r with ownerLock := true })).fuseEvent 7 80 seat (s.shadowOf 80) (s.shadowOf 80) 0 0

def ownerRelease (s : State) (seat : Nat) : State :=
  (s.onRec (fun r => { r with ownerLock := false })).fuseEvent 8 80 seat (s.shadowOf 80) (s.shadowOf 80) 0 0

/-! ### Presence (R357, R358, R360) -/

/-- Window remaining in µs. -/
def windowLeft (s : State) : Nat :=
  match s.presence.window with
  | some t => s.cfg.presWindow - elapsedAo s t
  | none => 0

/-- Physical presence is in force: the window still runs, or the jumper is fitted (R357). -/
def present (s : State) : Bool := s.windowLeft != 0 || s.presence.jumper

def presenceSource (s : State) : Nat := (if s.windowLeft != 0 then 1 else 0) + (if s.presence.jumper then 2 else 0)

/-- A presence event (Table 12-11). -/
def presenceEvent (s : State) (event seat index sub previous : Nat) : State :=
  s.record 7 ([BitVec.ofNat 8 event, BitVec.ofNat 8 s.presenceSource, BitVec.ofNat 8 seat, 0] ++
    leBytes 4 (s.windowLeft / 1000) ++ leBytes 2 index ++ [BitVec.ofNat 8 sub, BitVec.ofNat 8 previous] ++ List.replicate 32 0)

/-- The button has been held for 2 s: a window opens or restarts (R357). -/
def windowOpen (s : State) : State :=
  let again := s.windowLeft != 0
  ({ s with presence := { s.presence with window := some s.clock.up } }).presenceEvent (if again then 2 else 1) 255 0 0 0

/-- The window reaches its length (R357). -/
def windowExpire (s : State) : State :=
  match s.presence.window with
  | some t => if s.cfg.presWindow ≤ elapsedAo s t then
      ({ s with presence := { s.presence with window := none } }).presenceEvent 3 255 0 0 0 else s
  | none => s

/-- Presence command 1 (R357). -/
def windowEnd (s : State) (seat : Nat) : State :=
  if s.presence.window.isSome then
    ({ s with presence := { s.presence with window := none } }).presenceEvent 4 seat 0 0 0 else s

def jumperFit (s : State) : State :=
  if s.presence.jumper then s else ({ s with presence := { s.presence with jumper := true } }).presenceEvent 5 255 0 0 0

def jumperOut (s : State) : State :=
  if s.presence.jumper then ({ s with presence := { s.presence with jumper := false } }).presenceEvent 6 255 0 0 0 else s

/-! ### The seal (R359) -/

/-- A mark stitched into the SEAL region by the seal logic; the shadow changes at the next power-on reset alone (R409). -/
def sealStitch (s : State) (w : Nat) (v : Word) : State :=
  (s.onFuses (fun f => { f with burned := vmod f.burned w (· ||| v) })).fuseEvent 9 w 255 (s.shadowOf w) (s.shadowOf w) 0 0

/-- Arming is admitted: the last 100 checks matched, and the seal is not armed yet (R359). -/
def sealReady (s : State) : Bool := decide (100 ≤ s.tamper.matched) && !s.tamper.armed

def sealArm (s : State) (seat : Nat) : State :=
  let s := { s with tamper := { s.tamper with armed := true, differed := 0 } }
  (s.sealStitch 112 1).presenceEvent 7 seat 0 0 0

/-- The break is stitched, with its shelf time (R359). -/
def stitchBreak (s : State) : State :=
  let t := s.tamper.breakAt
  let s := ((s.sealStitch 113 1).sealStitch 114 (BitVec.ofNat 32 t)).sealStitch 115 (BitVec.ofNat 32 (t / 4294967296))
  ({ s with tamper := { s.tamper with stitched := true } }).presenceEvent 9 255 0 0 0

/-- The sequence changes, and 500 µs later SEAL_B is checked against SEAL_A (R359). -/
def sealCheck (s : State) (equal : Bool) : State :=
  let s := { s with tamper := { s.tamper with
    seq := Config.freeSeal s.tamper.seq
    matched := if equal then min 100 (s.tamper.matched + 1) else 0
    differed := if equal then 0 else s.tamper.differed + 1 } }
  if s.tamper.armed && !s.tamper.broken && s.tamper.differed == 4 then
    let s := { s with tamper := { s.tamper with broken := true, breakAt := s.shelfNs } }
    let s := (s.detect srcSeal 0).presenceEvent 8 255 0 0 0
    if s.score.stopped then s else s.stitchBreak
  else s

/-- The seal as its fuses give it at power-on reset; a break not stitched yet is stitched at the next start (R359). -/
def sealLoad (s : State) : State :=
  let broken := s.shadowOf 113 != 0
  { s with tamper := { s.tamper with
    armed := s.shadowOf 112 != 0, broken := s.tamper.broken || broken, stitched := broken
    breakAt := if broken then (s.shadowOf 114).toNat + 4294967296 * (s.shadowOf 115).toNat else s.tamper.breakAt } }

end State
end Sys2Proof.Machine
end

