-- ==== Sys2Proof/Machine/Sha.lean ====
section
/-!
DEFINITION. SHA-256 over octets, for the body digest of a firmware slot (R387, R388).
-/
namespace Sys2Proof.Machine
set_option Elab.async false

/-- The greatest `r + x` with `x < 2 ^ b` whose `k`-th power is at most `n`, found bit by bit. -/
def rootUpTo (k n : Nat) : Nat → Nat → Nat
  | 0, r => r
  | b + 1, r => rootUpTo k n b (if (r + 2 ^ b) ^ k ≤ n then r + 2 ^ b else r)

/-- The first 32 bits of the fraction of the `k`-th root of `p`. -/
def rootFraction (k p : Nat) : Word := BitVec.ofNat 32 (rootUpTo k (p * 2 ^ (32 * k)) 37 0)

/-- The first 64 primes. -/
def shaPrimes : List Nat :=
  (List.range 312).filter (fun n => decide (2 ≤ n) && (List.range 18).all (fun d => d < 2 || n ≤ d || n % d != 0))

/-- The 64 round constants: the cube roots of the first 64 primes. -/
def shaK : List Word := shaPrimes.map (rootFraction 3)

/-- The eight working words. -/
structure ShaState where
  a : Word
  b : Word
  c : Word
  d : Word
  e : Word
  f : Word
  g : Word
  h : Word
  deriving DecidableEq, Repr

/-- The words as a list, in order. -/
def ShaState.words (s : ShaState) : List Word := [s.a, s.b, s.c, s.d, s.e, s.f, s.g, s.h]

/-- The initial hash value: the square roots of the first eight primes. -/
def shaInit : ShaState :=
  let r (i : Nat) := rootFraction 2 (shaPrimes.getD i 0)
  ⟨r 0, r 1, r 2, r 3, r 4, r 5, r 6, r 7⟩

/-- The exclusive or of a word turned right by each of the distances. -/
def turned (x : Word) (ds : List Nat) : Word := ds.foldl (fun w d => w ^^^ x.rotateRight d) 0

/-- The schedule extended by `n` words; `ws` is newest first and holds at least 16. -/
def shaExtend : Nat → List Word → List Word
  | 0, ws => ws
  | n + 1, ws =>
    let newer (x : Word) := turned x [17, 19] ^^^ (x >>> 10)
    let older (x : Word) := turned x [7, 18] ^^^ (x >>> 3)
    let w := newer (ws.getD 1 0) + ws.getD 6 0 + older (ws.getD 14 0) + ws.getD 15 0
    shaExtend n (w :: ws)

/-- Bit for bit, `g` where `e` is 0 and `f` where it is 1. -/
def chosen (e f g : Word) : Word := g ^^^ (e &&& (f ^^^ g))

/-- Bit for bit, what two of three words agree on. -/
def agreed (a b c : Word) : Word := (a &&& b) ||| (c &&& (a ||| b))

/-- One round with its constant and schedule word. -/
def shaRound (s : ShaState) (kw : Word × Word) : ShaState :=
  let step := kw.1 + kw.2 + s.h + turned s.e [6, 11, 25] + chosen s.e s.f s.g
  { a := step + turned s.a [2, 13, 22] + agreed s.a s.b s.c, b := s.a, c := s.b, d := s.c,
    e := step + s.d, f := s.e, g := s.f, h := s.g }

/-- The compression of one block of 16 words. -/
def shaBlock (s : ShaState) (ws : List Word) : ShaState :=
  let t := (shaK.zip (shaExtend 48 ws.reverse).reverse).foldl shaRound s
  { a := s.a + t.a, b := s.b + t.b, c := s.c + t.c, d := s.d + t.d,
    e := s.e + t.e, f := s.f + t.f, g := s.g + t.g, h := s.h + t.h }

/-- The words of some octets, most significant octet first; `n` words. -/
def shaWords : Nat → List Byte → List Word
  | 0, _ => []
  | n + 1, bs => BitVec.ofNat 32 (beNat (bs.take 4)) :: shaWords n (bs.drop 4)

/-- All blocks of a padded message, `n` blocks. -/
def shaBlocks : Nat → List Byte → ShaState → ShaState
  | 0, _, s => s
  | n + 1, bs, s => shaBlocks n (bs.drop 64) (shaBlock s (shaWords 16 bs))

/-- SHA-256 of a message, as 32 octets. -/
def sha256 (m : List Byte) : List Byte :=
  let pad := (119 - m.length % 64) % 64
  let bs := m ++ [0x80] ++ List.replicate pad 0 ++ beBytes 8 (8 * m.length)
  (shaBlocks (bs.length / 64) bs shaInit).words.flatMap (fun w => beBytes 4 w.toNat)

end Sys2Proof.Machine
end

