-- ==== Sys2Proof/Machine/Loads.lean ====
section
/-!
DEFINITION. Firmware slots, patches and image loads (R371, R387, R388, R399 to R406).
-/
namespace Sys2Proof.Machine
set_option Elab.async false

/-! ### The slot header (Table 14-3) -/

/-- A little-endian field of some octets. -/
def fieldLe (bs : List Byte) (at' n : Nat) : Nat := leNat ((bs.drop at').take n)

def fwVersion (c : List Byte) : Nat := fieldLe c 8 4
def dataVersion (c : List Byte) : Nat := fieldLe c 12 4
def bodyLen (c : List Byte) : Nat := fieldLe c 16 4

/-- The boot ROM version, 1.1 build 0 (0x1000.07). -/
def romVersion : Nat := 0x01010000

/-- The slot header is whole (R388). -/
def headerOk (c : List Byte) : Bool :=
  decide (256 ≤ c.length) && fieldLe c 0 4 == 0x3153504C && fieldLe c 4 2 == 1 &&
  fieldLe c 60 4 == (crc32 (c.take 60)).toNat && decide (1 ≤ bodyLen c) && decide (bodyLen c ≤ 3145472)

/-- A slot's content verifies (R388). -/
def slotVerifies (c : List Byte) : Bool :=
  headerOk c && decide (256 + bodyLen c ≤ c.length) && decide (fieldLe c 20 4 ≤ romVersion) &&
  fieldLe c 24 4 == (crc32 ((c.drop 256).take (bodyLen c))).toNat &&
  (c.drop 28).take 32 == sha256 ((c.drop 256).take (bodyLen c))

/-- The version a slot reports, 0 for an invalid header (0x1000.06). -/
def slotVersion (c : List Byte) : Nat := if headerOk c then fwVersion c else 0

/-! ### Patches (Tables 14-5 and 14-6) -/

/-- One operation of a patch. -/
inductive PatchOp where
  | copy (len from' : Nat)
  | data (octets : List Byte)
  | fill (len : Nat) (value : Byte)
  deriving DecidableEq, Repr

/-- The operations in some octets; none where an opcode is not listed or an operation does not lie within them. -/
def parseOps : Nat → List Byte → Option (List PatchOp)
  | 0, bs => if bs.isEmpty then some [] else none
  | n + 1, bs =>
    if bs.isEmpty then some []
    else
      let len := fieldLe bs 1 3
      match (bs.headD 0).toNat with
      | 1 => if bs.length < 8 then none else (parseOps n (bs.drop 8)).map (PatchOp.copy len (fieldLe bs 4 4) :: ·)
      | 2 => if bs.length < 4 + len then none
        else (parseOps n (bs.drop (4 + len))).map (PatchOp.data ((bs.drop 4).take len) :: ·)
      | 3 => if bs.length < 8 then none else (parseOps n (bs.drop 8)).map (PatchOp.fill len (bs.getD 4 0) :: ·)
      | _ => none

def PatchOp.len : PatchOp → Nat
  | .copy n _ => n
  | .data bs => bs.length
  | .fill n _ => n

/-- The octets an operation puts into the target. -/
def PatchOp.run (base : List Byte) : PatchOp → List Byte
  | .copy n a => (base.drop a).take n
  | .data bs => bs
  | .fill n v => List.replicate n v

def opsLen (c : List Byte) : Nat := fieldLe c 52 4
def targetVersion (c : List Byte) : Nat := fieldLe c 44 4
def targetLen (c : List Byte) : Nat := fieldLe c 48 4

/-- The patch operations of a content. -/
def patchOps (c : List Byte) : Option (List PatchOp) := parseOps (opsLen c) ((c.drop 64).take (opsLen c))

/-- The first failure of a patch's verification against the active slot, 0 none (R400, Tables 14-5 and 14-12). -/
def patchFailure (c base : List Byte) : Nat :=
  if !(fieldLe c 0 4 == 0x3150504C && fieldLe c 4 2 == 1 && fieldLe c 60 4 == (crc32 (c.take 60)).toNat &&
      fieldLe c 56 4 == (crc32 ((c.drop 64).take (opsLen c))).toNat) then 1
  else if !(fieldLe c 8 4 == fwVersion base && (c.drop 12).take 32 == (base.drop 28).take 32) then 2
  else match patchOps c with
    | none => 3
    | some ops =>
      if ops.any (fun o => match o with | .copy n a => decide (256 + bodyLen base < a + n) | _ => false) then 3
      else if targetLen c < 257 ∨ 3145728 < targetLen c ∨ (ops.map PatchOp.len).sum ≠ targetLen c then 4 else 0

/-- The slot a patch builds (R402). -/
def buildSlot (c base : List Byte) : List Byte := ((patchOps c).getD []).flatMap (PatchOp.run base)

namespace State

def slotImg (s : State) (k : Nat) : SlotImage := vget s.slots k {}
def onSlot (s : State) (k : Nat) (f : SlotImage → SlotImage) : State := { s with slots := vmod s.slots k f }
/-- A slot that a load writes is no longer marked good. -/
def unmark (s : State) (k : Nat) : State := if s.bootRec.good k then s.onRec (fun r => r.mark k false) else s
/-- The slot that a load writes. -/
def inactive (s : State) : Nat := 1 - s.bootRec.active
def activeContent (s : State) : List Byte := (s.slotImg s.bootRec.active).content
def onPatch (s : State) (f : LoadRun → LoadRun) : State := { s with patch := f s.patch }
def onImage (s : State) (f : LoadRun → LoadRun) : State := { s with image := f s.image }

/-! ### Conditions (Table 14-7) -/

/-- The conditions that refuse a slot write, as bits of Table 14-7; bench mode does not evaluate bit 4 (R398). -/
def writeConditions (s : State) : Half :=
  let bit (b : Bool) (k : Nat) : Half := if b then BitVec.ofNat 16 (2 ^ k) else 0
  let bench := s.boot.phase == .bench
  bit (s.shelf.loss.declared || s.batteryGroups.any (fun g => (s.group g).support && s.evaluated g)) 0 |||
  bit (allOrders.any (fun k => match (s.order k).phase with | .off | .up => false | _ => true) ||
    s.shelf.shed.phase != .idle) 1 |||
  bit (allGroups.any (fun g => (s.groupB g).share.capCh < 128 && (s.chan (s.groupB g).share.capCh).moving) ||
    (match s.shelf.caps.changed with | some t => decide (elapsedAo s t < 1000000) | none => false)) 2 |||
  bit ((List.range 4).any (fun k => (s.press k).burstOpen)) 3 |||
  bit (!bench && (List.range 8).any (fun k => (s.strB k).ports != 0 && decide ((s.str k).socOver s.cfg.updateSoc < 0))) 4 |||
  bit s.bootRec.ownerLock 5 ||| bit (!s.present) 6

/-! ### Patch events (Table 14-12) -/

def patchEvent (s : State) (event seat : Nat) (cond : Half) (base target len failure : Nat) : State :=
  s.record 9 ([BitVec.ofNat 8 event, BitVec.ofNat 8 seat] ++ leBytes 2 cond.toNat ++ leBytes 4 base ++ leBytes 4 target ++
    leBytes 4 len ++ [BitVec.ofNat 8 failure] ++ List.replicate 27 0)

/-- A patch event of the patch. -/
def patchNote (s : State) (event seat failure : Nat) (cond : Half) : State :=
  let c := s.patch.content
  s.patchEvent event seat cond (fieldLe c 8 4) (targetVersion c) c.length failure

/-- A patch event of the image. -/
def imageNote (s : State) (event seat failure : Nat) (cond : Half) : State :=
  let c := s.image.content
  s.patchEvent event seat cond (fwVersion s.activeContent) (fwVersion c) c.length failure

end State

/-! ### Pieces (R371, R403, Table 14-8) -/

/-- A patch is complete when its length is what its header gives (R399, R405). -/
def patchComplete (c : List Byte) : Bool := decide (64 ≤ c.length) && c.length == 64 + opsLen c

/-- An image is complete when its length is what its header gives (R401, R405). -/
def imageComplete (c : List Byte) : Bool := decide (256 ≤ c.length) && c.length == 256 + bodyLen c

/-- A refusal: status of Table 12-8 and reason of Table 01-5. -/
abbrev Refused := Nat × Nat

namespace State

/-- A load after a piece: Loaded when complete, else Loading. -/
def pieceOn (r : LoadRun) (c : List Byte) (complete : Bool) (seat : Nat) : LoadRun :=
  { r with content := c, phase := if complete then .loaded else .loading, failure := 0, seat := seat }

/-- A piece of a patch (R371, Table 14-8). -/
def patchPiece (s : State) (seat offset : Nat) (bs : List Byte) : Except Refused State :=
  let r := s.patch
  if offset = 0 then
    if 1048576 < bs.length then .error (0x07, 0x01)
    else
      let t := s.onPatch (fun r => pieceOn r bs (patchComplete bs) seat)
      .ok (if patchComplete bs then t.patchNote 1 seat 0 0 else t)
  else if offset ≠ r.content.length ∨ 1048576 < offset + bs.length then .error (0x07, 0x01)
  else if r.phase != .loading then .error (0x10, 0)
  else
    let c := r.content ++ bs
    let t := s.onPatch (fun r => pieceOn r c (patchComplete c) seat)
    .ok (if patchComplete c then t.patchNote 1 seat 0 0 else t)

/-- A piece of an image, written into the inactive slot (R371, R401, R403). -/
def imagePiece (s : State) (seat offset : Nat) (bs : List Byte) : Except Refused State :=
  let r := s.image
  let inSlot (t : State) : State :=
    (t.onSlot t.inactive (fun x => { x with content := t.image.content, unusable := true })).unmark t.inactive
  let note (t : State) : State := if imageComplete t.image.content then t.imageNote 9 seat 0 0 else t
  if offset = 0 then
    if 3145728 < bs.length then .error (0x07, 0x01)
    else if s.patch.phase == .busy || s.patch.phase == .done || r.phase == .busy || r.phase == .done then .error (0x10, 0)
    else .ok (note (inSlot (s.onImage (fun r => pieceOn r bs (imageComplete bs) seat))))
  else if offset ≠ r.content.length ∨ 3145728 < offset + bs.length then .error (0x07, 0x01)
  else if r.phase != .loading then .error (0x10, 0)
  else
    let c := r.content ++ bs
    .ok (note (inSlot (s.onImage (fun r => pieceOn r c (imageComplete c) seat))))

/-! ### Commands (Table 14-8) -/

/-- A refused slot write records its conditions (R404). -/
def refuseWrite (s : State) : State := { s with boot := { s.boot with refusals := s.writeConditions } }

/-- An accepted command of a load leaves no refusal causes (R376). -/
def noRefusals (s : State) : State := { s with boot := { s.boot with refusals := 0 } }

/-- Patch command 1 in Loaded (R400). -/
def patchVerify (s : State) (seat : Nat) : Except Refused State :=
  if s.patch.phase != .loaded then .error (0x10, 0)
  else
    let f := patchFailure s.patch.content s.activeContent
    if f = 0 then .ok ((s.onPatch (fun r => { r with phase := .verified, failure := 0 })).patchNote 2 seat 0 0)
    else .ok (((s.onPatch (fun r => { r with phase := .failed, failure := f })).patchNote 3 seat f 0).detect srcBoot 5)

/-- Patch command 2 is admitted by Table 14-8 and R403; the conditions of Table 14-7 apart. -/
def patchApplyOk (s : State) : Bool :=
  s.patch.phase == .verified && (s.image.phase == .empty || s.image.phase == .failed)

/-- Patch command 2 (R402, R404). -/
def patchApply (s : State) (seat : Nat) : State :=
  let s := s.onPatch (fun r => { r with phase := .busy, seat := seat })
  ((s.onSlot s.inactive (fun x => { x with unusable := true })).unmark s.inactive).patchNote 4 seat 0 0

/-- The application ends: the built slot is the trial, or the application has failed (R402). -/
def patchApplied (s : State) : State :=
  if s.patch.phase != .busy then s
  else
    let c := s.patch.content
    let b := buildSlot c s.activeContent
    let k := s.inactive
    let s := s.onSlot k (fun x => { x with content := b })
    if slotVerifies b && fwVersion b == targetVersion c then
      let s := s.onSlot k (fun x => { x with unusable := false })
      let s := s.onRec (fun r => { r with trial := k })
      (s.onPatch (fun r => { r with phase := .done, doneAt := s.clock.up, inBench := s.boot.phase == .bench })).patchNote 5 s.patch.seat 0 0
    else
      let f := if romVersion < fieldLe b 20 4 && headerOk b then 6 else 5
      ((s.onPatch (fun r => { r with phase := .failed, failure := f })).patchNote 6 s.patch.seat f 0).detect srcBoot 5

/-- Command 3 of a load: Empty, and a trial that it made is cleared (Table 14-8). -/
def clearTrial (s : State) (made : Bool) : State :=
  if made && s.bootRec.trial == s.inactive then
    (s.onSlot s.inactive (fun x => { x with unusable := true })).onRec (fun r => { r with trial := 255 })
  else s

def patchDiscard (s : State) (seat : Nat) : Except Refused State :=
  if s.patch.phase == .busy then .error (0x10, 0)
  else
    let t := (s.clearTrial (s.patch.phase == .done)).patchNote 8 seat 0 0
    .ok (t.onPatch (fun _ => {}))

def imageDiscard (s : State) (seat : Nat) : Except Refused State :=
  if s.image.phase == .busy then .error (0x10, 0)
  else
    let t := (s.clearTrial (s.image.phase == .done)).imageNote 12 seat 0 0
    .ok (t.onImage (fun _ => {}))

/-- Image command 1 is admitted by Table 14-8 and R376; the conditions of Table 14-7 apart. -/
def imageWriteOk (s : State) : Bool := s.image.phase == .loaded && s.patch.phase != .busy

/-- Image command 1: the loaded slot is verified, and named trial (R401). -/
def imageWrite (s : State) (seat : Nat) : State :=
  let c := s.image.content
  if slotVerifies c then
    (s.onImage (fun r => { r with phase := .busy, seat := seat })).onRec (fun r => { r with trial := s.inactive })
  else
    let f := if !headerOk c then 1 else if romVersion < fieldLe c 20 4 then 6 else 5
    ((s.onImage (fun r => { r with phase := .failed, failure := f })).imageNote 10 seat f 0).detect srcBoot 5

/-- The write completes: state 5 (R401, R405). -/
def imageWritten (s : State) : State :=
  if s.image.phase != .busy then s
  else
    let s := s.onSlot s.inactive (fun x => { x with unusable := false })
    (s.onImage (fun r => { r with phase := .done, doneAt := s.clock.up, inBench := s.boot.phase == .bench })).imageNote 11 s.image.seat 0 0

/-- A condition of Table 14-7 arises during a slot write, which is tested at every 1 ms; presence is tested at the request
alone (R358, R404). -/
def writeStop (s : State) : State :=
  let c := s.writeConditions &&& 0x3F
  if c = 0 || !(s.onGrid 2000) then s
  else
    let stopSlot (s : State) : State :=
      { s.onSlot s.inactive (fun x => { x with unusable := true }) with
        boot := { s.boot with refusals := c } }
    let s := if s.patch.phase == .busy then
        ((stopSlot s).onPatch (fun r => { r with phase := .verified })).patchNote 7 s.patch.seat 0 c else s
    if s.image.phase == .busy then
      let s := (stopSlot s).onRec (fun r => { r with trial := if r.trial == s.inactive then 255 else r.trial })
      (s.onImage (fun r => { r with phase := .loaded })).imageNote 7 s.image.seat 0 c
    else s

/-- The loads at a start (R406): verification must be repeated, an interrupted write leaves the slot unusable. -/
def loadsStart (s : State) : State :=
  let s := if s.patch.phase == .busy || s.image.phase == .busy then
      s.onSlot s.inactive (fun x => { x with unusable := true }) else s
  let s := if s.image.phase == .busy then s.onRec (fun r => { r with trial := if r.trial == s.inactive then 255 else r.trial }) else s
  let back (r : LoadRun) : LoadRun := if r.phase == .verified || r.phase == .busy then { r with phase := .loaded } else r
  (s.onPatch back).onImage back

/-- The start of the trial slot makes its load Empty (Table 14-8). -/
def loadsTrial (s : State) : State :=
  let fin (r : LoadRun) : LoadRun := if r.phase == .done then {} else r
  (s.onPatch fin).onImage fin

end State
end Sys2Proof.Machine
end

