-- ==== Sys2Proof/Machine/Objects.lean ====
section
/-!
DEFINITION. The object dictionary (chapter 13): every index and sub-entry with its type, access, policy, kind and
range, the areas of Table 00-5, and values as octets (R336, R366 to R368).
-/
namespace Sys2Proof.Machine
set_option Elab.async false

/-- Object types (Table 12-6). -/
inductive ObjType where
  | bool | u8 | u16 | u32 | u64 | i16 | i32 | i64 | q24 | str | domain
  deriving DecidableEq, Repr

/-- Type codes in message bodies (R336). -/
def ObjType.code : ObjType → Nat
  | .bool => 0 | .u8 => 1 | .u16 => 2 | .u32 => 3 | .u64 => 4 | .i16 => 5 | .i32 => 6 | .i64 => 7 | .q24 => 8
  | .str => 9 | .domain => 10

/-- Octets of a value of the type; none for a STR or DOMAIN (R336). -/
def ObjType.size : ObjType → Option Nat
  | .bool | .u8 => some 1
  | .u16 | .i16 => some 2
  | .u32 | .i32 | .q24 => some 4
  | .u64 | .i64 => some 8
  | .str | .domain => none

/-- The type is signed. -/
def ObjType.signed? : ObjType → Bool
  | .i16 | .i32 | .i64 | .q24 => true
  | _ => false

/-- A value as octets (R336). -/
def ObjType.encode (t : ObjType) (v : Int) : List Byte :=
  match t.size with | some n => leInt n v | none => []

/-- The value that octets of the type's length hold. -/
def ObjType.decode (t : ObjType) (bs : List Byte) : Int :=
  if t.signed? then signed (8 * bs.length) (leNat bs) else (leNat bs : Int)

/-- Access codes (Table 00-6 text, R337). -/
inductive Access where
  | ro | rw | wo | rwP | rwS
  deriving DecidableEq, Repr

/-- Write policies (R343 to R345); no object of the map has CMB-MAX. -/
inductive Policy where
  | opn | stw | cmbMin
  deriving DecidableEq, Repr

/-- Object kinds (Table 13-1); `plain` is a reading or a command. -/
inductive EffectKind where
  | plain | staged | immediate | mark | tap | reply | nextOpening | capture
  deriving DecidableEq, Repr

/-- The rows of the object tables, by what they describe. -/
inductive Family where
  | channel | loopGroup | timebase | modulator | sense | pset | press | det | iron | flat | stagePort | bus
  | loss | hang | shed | caps | capShelf | capZone | share | zone | batString | feed | rail | order | levels
  | soakModel | lintBits | lintClear | lintResult | episode | cause | react | ring | cursor | window
  | capture | lastFault | seat | own | rights | t1s | can | tt | time | presence | seal | identity | engine
  | commitList | commitStatus | firstFailed | safeSet | bootRec | patch | image | fuse | locks | ceilings
  | owner | twPort | sensor | clocks | resets | alive | vendor
  deriving DecidableEq, Repr

/-- One row: offset of the index from the unit's first index, sub-indices from `lo` to `hi`, and the columns. -/
structure Row where
  off : Nat
  lo  : Nat
  hi  : Nat
  ty  : ObjType
  acc : Access
  pol : Policy
  kind : EffectKind
  min : Int
  max : Int
  deriving DecidableEq, Repr

/-- A read-only row. -/
def ro (off lo hi : Nat) (ty : ObjType) : Row := ⟨off, lo, hi, ty, .ro, .opn, .plain, 0, 0⟩

/-- The object tables (Tables 02-6 to 13-9). -/
def Family.rows : Family → List Row
  | .channel => [
  .mk 0 1 1 .u32 .rw .opn .staged 0 4294967295, .mk 0 2 2 .u16 .rw .opn .staged 0 65535,
   .mk 0 3 3 .i32 .rw .opn .staged 1 2147483647, .mk 1 1 7 .q24 .rw .opn .staged (-8388608) 8388607,
   .mk 2 1 1 .i32 .rw .opn .staged (-8388608) 8388607, .mk 2 2 2 .i32 .rw .opn .staged (-8388608) 8388607,
   .mk 3 1 1 .i32 .rw .opn .immediate (-2147483648) 2147483647, .mk 3 2 2 .u32 .rw .opn .staged 0 4294967295,
   ro 4 1 4 .i32, ro 4 5 6 .u8, ro 4 7 7 .u16, .mk 5 1 48 .u16 .rw .opn .staged 0 65535 ]
  | .loopGroup => [
  .mk 0 1 1 .u32 .rw .opn .staged 0 4294967295, .mk 0 2 2 .u64 .rwS .opn .staged 0 281474976710655,
   .mk 1 1 1 .i32 .rw .opn .staged 0 8388607, .mk 1 2 2 .i32 .rw .opn .staged (-8388608) 8388607,
   .mk 1 3 3 .u32 .rw .opn .staged 0 16777215, .mk 1 4 4 .u32 .rw .opn .staged 0 16777215,
   .mk 2 1 1 .u32 .rw .opn .staged 1000 1000000, .mk 2 2 2 .u8 .rw .opn .staged 0 15,
   .mk 2 3 3 .u32 .rw .opn .staged 10000 10000000, .mk 3 1 1 .u16 .rw .opn .staged 0 65535,
   .mk 3 2 2 .q24 .rw .opn .staged (-8388608) 8388607, .mk 4 1 1 .u8 .wo .stw .plain 1 3, ro 5 1 2 .u8,
   ro 5 3 3 .i32, ro 5 4 5 .u8 ]
  | .timebase => [
  .mk 0 1 1 .u32 .rw .stw .mark 0 4294967295, .mk 0 2 2 .u32 .rw .stw .mark 0 4294967295,
   .mk 0 3 3 .u32 .rw .stw .mark 0 10000000, .mk 0 4 4 .u32 .rw .stw .mark 0 4294967295, ro 0 5 5 .u8, ro 0 6 7 .i32,
   ro 0 8 8 .u64, ro 0 9 9 .u32 ]
  | .modulator => [
  .mk 0 1 1 .u32 .rw .opn .staged 20000 2000000, .mk 0 2 2 .u16 .rw .opn .staged 0 65535,
   .mk 0 3 3 .u8 .rw .opn .staged 0 1, .mk 0 4 4 .u32 .rw .opn .staged 20 20000,
   .mk 0 5 5 .u32 .rw .opn .staged 20 5000, .mk 0 6 6 .u8 .rw .opn .staged 0 255,
   .mk 0 7 7 .q24 .rw .opn .staged 0 8388607, .mk 0 8 8 .q24 .rw .opn .staged 0 8388607,
   .mk 0 9 9 .i32 .rw .opn .staged 0 8388607, .mk 0 10 10 .u16 .rw .opn .staged 1 10000, ro 0 11 11 .u8,
   ro 0 12 12 .u32, ro 0 13 13 .u16 ]
  | .sense => [.mk 0 1 1 .u32 .rw .opn .mark 1000 100000, .mk 0 2 2 .i32 .rw .opn .mark (-100000) 100000, ro 0 3 4 .i32]
  | .pset => [
  .mk 0 1 1 .u64 .rw .stw .mark 0 281474976710655, .mk 0 2 2 .u16 .rw .stw .mark 20 2000,
   .mk 0 3 3 .u32 .rw .stw .mark 20 10000, .mk 0 4 4 .u8 .rw .stw .mark 1 255, ro 0 5 6 .u32, ro 0 7 7 .bool,
   ro 0 8 8 .u64 ]
  | .press => [ro 0 1 1 .bool, ro 0 2 2 .u32]
  | .det => [
  .mk 0 1 1 .u32 .rw .stw .mark 0 4294967295, .mk 0 2 2 .i32 .rw .stw .mark (-2147483648) 2147483647,
   .mk 0 3 3 .i32 .rw .stw .mark (-2147483648) 2147483647, .mk 0 4 4 .u32 .rw .stw .mark 5 50000, ro 0 5 5 .u8,
   ro 0 6 6 .u32, ro 0 7 7 .i32 ]
  | .iron => [
  .mk 0 1 1 .u32 .rw .opn .staged 0 4294967295, .mk 0 2 2 .u16 .rw .opn .staged 32 16384,
   .mk 0 3 3 .q24 .rw .opn .staged 0 4194304, .mk 0 4 4 .q24 .rw .opn .staged 2097152 4194304,
   .mk 0 5 5 .q24 .rw .opn .staged 0 1048576, .mk 0 6 6 .u16 .rw .opn .staged 0 255,
   .mk 0 7 7 .i32 .rw .opn .staged 1 2147483647, .mk 0 8 8 .u16 .rw .opn .staged 1 65535,
   .mk 1 1 1 .u64 .rw .stw .immediate 50000 16000000000, .mk 1 2 2 .u8 .rw .opn .staged 1 12,
   .mk 1 3 3 .u64 .rw .opn .staged 50000 16000000000, .mk 1 4 4 .u64 .rw .opn .staged 50000 16000000000,
   ro 1 5 6 .u64, ro 1 7 7 .u16, ro 1 8 8 .u32, .mk 2 1 1 .u8 .wo .stw .plain 1 2, ro 2 2 2 .u8, ro 2 3 3 .i32,
   ro 2 4 4 .u32, ro 2 5 7 .i32, ro 3 1 1 .domain ]
  | .flat => [
  .mk 0 1 1 .i32 .rw .stw .tap 0 1000000, .mk 0 2 2 .u32 .rw .stw .tap 100 1000000,
   .mk 0 3 3 .u16 .rw .stw .tap 0 10000, .mk 0 4 4 .u16 .rw .stw .tap 0 10000, .mk 0 5 5 .u16 .rw .stw .tap 0 1000,
   .mk 0 6 6 .q24 .rw .stw .tap 0 4194304, ro 0 7 7 .i32, ro 0 8 8 .u8, ro 0 9 9 .u16, ro 0 10 10 .i32 ]
  | .stagePort => [
  ro 1 1 1 .u8, ro 1 2 2 .u16, .mk 1 3 3 .u8 .rw .opn .staged 1 64, .mk 1 4 4 .bool .rw .opn .staged 0 1,
   .mk 1 5 5 .i32 .rw .opn .staged 0 131070, .mk 1 6 6 .i32 .rw .opn .staged 0 1310680,
   .mk 1 7 7 .i32 .rw .opn .staged 0 131070, ro 1 8 8 .u64, ro 1 9 13 .u32, ro 1 14 14 .u16, ro 1 15 15 .u8,
   ro 2 1 6 .i32, ro 2 7 7 .i16, ro 2 8 8 .u16, .mk 0 1 1 .u32 .rw .opn .staged 0 4294967295, ro 0 2 2 .u16,
   ro 0 3 3 .bool ]
  | .bus => [
  .mk 0 1 1 .u8 .rw .stw .mark 0 31, .mk 0 2 2 .i32 .rw .stw .mark (-2147483648) 65000,
   .mk 0 3 3 .i32 .rw .stw .mark (-2147483648) 65000, ro 0 4 6 .u32, ro 0 7 8 .i32,
   .mk 0 9 9 .bool .wo .stw .plain 1 1 ]
  | .loss => [
  .mk 0 1 1 .i32 .rw .stw .mark 0 655350, .mk 0 2 2 .u16 .rw .stw .mark 1 1000,
   .mk 0 3 3 .u32 .rw .stw .mark 10000 60000000, .mk 0 4 4 .i32 .rw .stw .mark 0 2147483647, ro 0 5 5 .u8,
   ro 0 6 6 .u16, ro 0 7 7 .u64, ro 0 8 8 .u32, ro 0 9 9 .u64 ]
  | .hang => [
  .mk 0 1 1 .i32 .rw .stw .mark 0 65000, .mk 0 2 2 .q24 .rw .stw .mark 2097152 4194304, ro 0 3 3 .u32, ro 0 4 4 .i64,
   ro 0 5 5 .i32, ro 0 6 6 .bool, ro 0 7 7 .u32 ]
  | .shed => [
  .mk 0 1 1 .i32 .rw .stw .mark 0 65000, .mk 0 2 2 .u32 .rw .stw .mark 100 1000000,
   .mk 0 3 3 .u32 .rw .stw .mark 0 100000, .mk 0 4 4 .u32 .rw .stw .mark 1000 10000000,
   .mk 0 5 5 .u32 .rw .stw .mark 10000 10000000, ro 0 6 6 .u8, ro 0 7 7 .u16, ro 0 8 8 .u8 ]
  | .caps => [
  ro 0 1 1 .i32, ro 0 2 3 .u8, ro 0 4 6 .i32, ro 0 7 7 .u16 ]
  | .capShelf => [.mk 0 1 8 .i32 .rw .cmbMin .mark 0 2147483647]
  | .capZone => [.mk 0 1 8 .i32 .rw .cmbMin .mark 0 2147483647]
  | .share => [
  .mk 0 1 1 .u8 .rw .opn .staged 0 255, .mk 0 2 2 .u8 .rw .opn .staged 0 1,
   .mk 0 3 3 .i32 .rw .opn .staged 1 2147483647, .mk 0 4 4 .u32 .rw .opn .staged 1000 10000000,
   .mk 0 5 5 .u8 .rw .opn .staged 0 255, .mk 0 6 6 .i32 .rw .opn .staged 0 10000000, ro 0 7 7 .i32, ro 0 8 8 .u8,
   ro 0 9 9 .bool ]
  | .zone => [
  .mk 0 1 1 .u8 .rw .opn .staged 0 15, .mk 0 2 2 .u16 .rw .opn .staged 0 65535, ro 0 3 5 .i32, ro 0 6 6 .u8,
   .mk 0 7 7 .bool .rw .stw .mark 0 1 ]
  | .batString => [
  .mk 0 1 1 .u32 .rw .opn .staged 0 4294967295, .mk 0 2 2 .u64 .rwS .opn .staged 0 281474976710655,
   .mk 0 3 3 .u32 .rw .opn .staged 10000 10000000, .mk 0 4 4 .i32 .rw .opn .staged (-10000) 10000,
   .mk 0 5 5 .i32 .rw .opn .staged (-2000) 2000, .mk 1 1 1 .i32 .rw .opn .staged 0 500000,
   .mk 1 2 2 .i32 .rw .opn .staged (-2147483648) 65000, .mk 1 3 3 .i32 .rw .opn .staged (-2147483648) 65000,
   .mk 1 4 4 .i32 .rw .opn .staged (-2147483648) 65000, .mk 1 5 5 .u16 .rw .opn .staged 0 1000,
   .mk 1 6 6 .i32 .rw .opn .staged 0 500000, .mk 1 7 7 .u32 .rw .opn .staged 1000 3600000,
   .mk 1 8 8 .u16 .rw .stw .immediate 0 10000, .mk 1 9 9 .u16 .rw .opn .staged 10 1000,
   .mk 1 10 10 .i32 .rw .opn .staged 0 100000, .mk 1 11 11 .u32 .rw .opn .staged 0 8760,
   .mk 1 12 12 .i32 .rw .opn .staged 1 1000000, .mk 1 13 13 .i32 .rw .opn .staged 0 65000,
   .mk 1 14 14 .i32 .rw .opn .staged 0 5000, .mk 1 15 15 .u32 .rw .opn .staged 1 10000,
   .mk 2 1 1 .i32 .rw .opn .staged 0 65000, .mk 2 2 2 .i32 .rw .opn .staged 0 1000000,
   .mk 2 3 3 .u32 .rw .opn .staged 10 60000, .mk 2 4 4 .i64 .rw .opn .staged 1000000 10000000000000,
   .mk 2 5 5 .u16 .rw .opn .staged 0 5000, .mk 2 6 6 .i32 .rw .opn .staged 0 1000000,
   .mk 2 7 7 .u16 .rw .opn .staged 0 1000, .mk 2 8 8 .u32 .rw .opn .staged 1 1000,
   .mk 2 9 9 .i16 .rw .opn .staged (-4000) 8500, .mk 2 10 10 .i16 .rw .opn .staged (-4000) 8500,
   .mk 3 1 1 .u16 .rw .opn .staged 1 10000, .mk 3 2 2 .u16 .rw .opn .staged 0 5000,
   .mk 3 3 3 .u8 .rw .opn .staged 0 2, .mk 3 4 4 .i16 .rw .stw .immediate (-4000) 12500, ro 4 1 3 .i64,
   ro 4 4 4 .i32, ro 4 5 8 .u16, ro 4 9 10 .i32, ro 4 11 11 .u8, ro 4 12 12 .u16, ro 4 13 13 .u32, ro 4 14 15 .u64,
   .mk 5 1 1 .u8 .wo .stw .plain 1 2 ]
  | .feed => [
  .mk 0 1 1 .u32 .rw .opn .staged 0 4294967295, .mk 0 2 2 .u32 .rw .opn .staged 10000 10000000,
   .mk 0 3 3 .u32 .rw .opn .staged 100 1000000, .mk 0 4 4 .i32 .rw .opn .staged 1000 2147483647,
   .mk 0 5 5 .i32 .rw .opn .staged 0 2147483647, .mk 0 6 6 .u32 .rw .opn .staged 1 10000000,
   .mk 0 7 7 .i32 .rw .opn .staged 50 10000, .mk 1 1 1 .u32 .rw .opn .staged 1000 1000000,
   .mk 1 2 2 .u16 .rw .opn .staged 500 995, .mk 1 3 3 .u32 .rw .opn .staged 1000 10000000,
   .mk 1 4 4 .u32 .rw .opn .staged 1 1000000, .mk 1 5 5 .u32 .rw .opn .staged 10000 60000000,
   .mk 1 6 6 .u32 .rw .opn .staged 10 100000, .mk 2 1 1 .u8 .wo .stw .plain 1 4, ro 2 2 4 .u8, ro 2 5 5 .bool,
   ro 2 6 7 .u32, ro 2 8 8 .u8, ro 3 1 4 .i32, ro 4 1 1 .i32, ro 4 2 2 .u64, ro 4 3 3 .i32, ro 4 4 4 .u64,
   ro 4 5 6 .i32 ]
  | .rail => [
  .mk 0 1 1 .u32 .rwS .opn .mark 0 4294967295, .mk 0 2 2 .u32 .rwS .opn .mark 0 4294967295,
   .mk 0 3 3 .u32 .rwS .opn .mark 0 10000000, .mk 0 4 4 .u32 .rwS .opn .mark 100 10000000,
   .mk 0 5 5 .u32 .rwS .opn .mark 10 10000, .mk 0 6 6 .u32 .rwS .opn .mark 0 10000000,
   .mk 0 7 7 .u32 .rwS .opn .mark 1000 60000000, .mk 0 8 8 .u32 .rwS .opn .mark 1000 1000000, ro 1 1 2 .u8,
   ro 1 3 3 .u64 ]
  | .order => [
  .mk 0 1 1 .u8 .wo .stw .plain 1 3, ro 0 2 4 .u8, .mk 0 5 5 .bool .rw .stw .mark 0 1, ro 0 6 8 .u32, ro 0 9 10 .u8,
   ro 0 11 11 .u64, ro 0 12 13 .u32 ]
  | .levels => [ro 0 1 2 .u32, ro 0 3 3 .u16]
  | .soakModel => [
  .mk 0 1 1 .u32 .rw .opn .staged 0 4294967295, .mk 0 2 2 .u32 .rw .opn .staged 0 4294967295,
   .mk 0 3 3 .u16 .rw .opn .staged 0 65535, .mk 0 4 4 .u32 .rw .opn .staged 0 4294967295,
   .mk 0 5 5 .u32 .rw .opn .staged 10000 10000000, .mk 1 1 1 .i32 .rw .opn .staged (-1000000000) 1000000000,
   .mk 1 2 2 .i32 .rw .opn .staged (-1000000000) 1000000000, .mk 1 3 3 .i32 .rw .opn .staged 0 1000000000,
   .mk 1 4 4 .i32 .rw .opn .staged 0 1000000000, .mk 2 1 1 .u32 .rw .opn .staged 1 10000000,
   .mk 2 2 2 .u32 .rw .opn .staged 1 10000000, .mk 2 3 3 .u32 .rw .opn .staged 1 10000000,
   .mk 2 4 4 .u32 .rw .opn .staged 1 1000000000, .mk 2 5 5 .u32 .rw .opn .staged 1 1000000000,
   .mk 2 6 6 .u32 .rw .opn .staged 1 1000000000, .mk 3 1 1 .i16 .rw .opn .staged (-4000) 15000,
   .mk 3 2 2 .u16 .rw .opn .staged 0 65535, .mk 3 3 3 .i16 .rw .opn .staged (-4000) 15000,
   .mk 3 4 4 .u16 .rw .opn .staged 0 65535, .mk 3 5 5 .i16 .rw .opn .staged (-4000) 15000,
   .mk 3 6 6 .u16 .rw .opn .staged 0 65535, .mk 3 7 7 .i32 .rw .opn .staged 0 2147483647,
   .mk 3 8 8 .i32 .rw .opn .staged 0 10000000, .mk 3 9 9 .i32 .rw .opn .staged 0 2147483647,
   .mk 4 1 1 .i16 .rw .stw .immediate (-4000) 10000, .mk 4 2 2 .u8 .rw .opn .staged 0 255, ro 5 1 3 .i16,
   ro 5 4 4 .i32, ro 5 5 5 .i16, ro 5 6 8 .u8, ro 5 9 9 .u64, ro 5 10 10 .i32 ]
  | .lintBits => [ro 0 1 16 .u32]
  | .lintClear => [.mk 0 1 16 .u32 .wo .opn .plain 0 4294967295]
  | .lintResult => [ro 0 1 16 .u32]
  | .episode => [
  ro 0 1 1 .u8, ro 0 2 2 .u16, ro 0 3 3 .u64, ro 0 4 4 .u8, ro 0 5 5 .u16,
   .mk 0 6 6 .u32 .rw .stw .mark 1000 10000000, .mk 0 7 7 .u32 .rw .stw .mark 1000 600000000, ro 0 8 8 .bool,
   .mk 0 9 9 .u8 .rwP .stw .plain 1 1, .mk 0 10 10 .u8 .rw .stw .mark 0 15 ]
  | .cause => [ro 0 1 32 .u16]
  | .react => [
  .mk 0 1 1 .u32 .rw .opn .mark 0 4294967295, .mk 0 2 2 .u32 .rw .opn .mark 0 4294967295,
   .mk 0 3 3 .u16 .rw .opn .mark 0 65535, .mk 0 4 4 .u8 .rw .opn .mark 0 15, ro 0 5 5 .u16 ]
  | .ring => [ro 0 1 4 .u32, .mk 0 5 5 .u32 .rw .stw .mark 0 10000000]
  | .cursor => [.mk 0 1 8 .u32 .rw .opn .plain 0 4294967295]
  | .window => [ro 0 1 1 .domain]
  | .capture => [
  .mk 0 1 1 .u32 .rw .stw .mark 0 4294967295, .mk 0 2 2 .domain .rw .stw .mark 0 0,
   .mk 0 3 3 .u16 .rw .stw .mark 0 4095, .mk 0 4 4 .u16 .rw .stw .mark 0 511, .mk 0 5 5 .u8 .wo .stw .plain 1 3,
   ro 0 6 6 .u8, ro 0 7 7 .u64, ro 0 8 8 .u16, .mk 0 9 9 .u16 .rw .opn .plain 0 4080, ro 0 10 10 .domain ]
  | .lastFault => [ro 0 1 1 .domain, ro 0 2 2 .bool]
  | .seat => [
  .mk 0 1 1 .u32 .rwP .opn .nextOpening 0 4294967295, ro 0 2 4 .u8, ro 0 5 5 .u64, ro 0 6 6 .u32, ro 0 7 7 .u64,
   ro 0 8 8 .u32, ro 0 9 11 .u8, .mk 0 12 12 .u8 .rwP .opn .plain 1 1 ]
  | .own => [ro 0 1 2 .u8]
  | .rights => [.mk 0 1 24 .u8 .rwP .opn .plain 0 255]
  | .t1s => [
  .mk 0 1 1 .u32 .rw .stw .reply 0 4294967295, .mk 0 2 2 .u16 .rw .stw .reply 1024 65535, ro 0 3 4 .u64,
   ro 0 5 6 .u32, ro 0 7 7 .u8 ]
  | .can => [.mk 0 1 1 .u32 .rw .stw .reply 0 4294967295, ro 0 2 2 .u8, ro 0 3 5 .u32]
  | .tt => [.mk 0 1 1 .u32 .rw .stw .reply 0 4294967295, ro 0 2 2 .u32]
  | .time => [
  ro 0 1 1 .u64, .mk 0 2 2 .u32 .rw .stw .reply 0 4294967295, ro 0 3 3 .u8, ro 0 4 4 .i32, ro 0 5 5 .u32,
   ro 0 6 6 .i32, ro 0 7 7 .u32, ro 0 8 8 .u64, ro 0 9 9 .bool ]
  | .presence => [
  ro 0 1 1 .bool, ro 0 2 2 .u8, .mk 0 3 3 .u32 .rwP .opn .mark 60000000 3600000000, ro 0 4 4 .u32,
   .mk 0 5 5 .u8 .rwP .opn .plain 1 1 ]
  | .seal => [ro 0 1 1 .u8, .mk 0 2 2 .u8 .rwP .opn .plain 1 1, ro 0 3 3 .u64]
  | .identity => [
  ro 0 1 3 .str, ro 0 4 4 .u8, ro 0 5 5 .u64, ro 0 6 7 .u32, ro 0 8 8 .u16, ro 0 9 9 .u8, ro 0 10 10 .bool ]
  | .engine => [ro 0 1 1 .u32, ro 0 2 2 .u8, ro 0 3 5 .u32]
  | .commitList => [.mk 0 1 1 .domain .wo .opn .plain 0 0]
  | .commitStatus => [ro 0 1 8 .u32]
  | .firstFailed => [ro 0 1 8 .u16]
  | .safeSet => [.mk 0 1 1 .u8 .rw .stw .capture 0 2, .mk 0 2 2 .bool .wo .stw .plain 1 1, ro 0 3 3 .u8]
  | .bootRec => [
  ro 0 1 3 .u8, ro 0 4 5 .u32, ro 0 6 6 .bool, ro 0 7 8 .u32, ro 0 9 9 .bool, ro 0 10 10 .u64, ro 0 11 11 .u32 ]
  | .patch => [
  .mk 0 1 1 .domain .rwP .stw .plain 0 0, .mk 0 2 2 .u8 .rwP .stw .plain 1 3, ro 0 3 3 .u8, ro 0 4 4 .u16,
   .mk 0 5 5 .u16 .rwP .stw .mark 0 10000, ro 0 6 6 .u32 ]
  | .image => [
  .mk 0 1 1 .domain .rwP .stw .plain 0 0, .mk 0 2 2 .u8 .rwP .stw .plain 1 3, ro 0 3 3 .u8, ro 0 4 4 .u32 ]
  | .fuse => [
  .mk 0 1 1 .u8 .rw .stw .plain 0 255, .mk 0 2 2 .u8 .rw .stw .plain 1 2, ro 0 3 3 .u8, ro 0 4 5 .u32,
   .mk 0 6 6 .u32 .rwP .stw .plain 0 4294967295, .mk 0 7 7 .u8 .rwP .stw .plain 1 2, ro 0 8 8 .u16 ]
  | .locks => [ro 0 1 6 .bool]
  | .ceilings => [ro 0 1 3 .i32]
  | .owner => [ro 0 1 1 .bool, .mk 0 2 2 .u8 .rwP .stw .plain 1 2]
  | .twPort => [
  .mk 0 1 1 .bool .rw .stw .mark 0 1, .mk 0 2 2 .u8 .rw .stw .mark 0 2, ro 0 3 3 .u8, ro 0 4 5 .u32,
   .mk 0 6 6 .u8 .wo .stw .plain 1 1 ]
  | .sensor => [
  .mk 0 1 1 .u8 .rw .stw .mark 0 255, .mk 0 2 2 .u8 .rw .stw .mark 8 119, .mk 0 3 3 .u8 .rw .stw .mark 0 3,
   .mk 0 4 4 .u32 .rw .stw .mark 100000 60000000, ro 0 5 5 .i16, ro 0 6 6 .u64, ro 0 7 7 .u8 ]
  | .clocks => [ro 0 1 1 .u8, ro 0 2 2 .bool, ro 0 3 4 .u32]
  | .resets => [
  ro 0 1 1 .u8, ro 0 2 2 .u32, .mk 0 3 3 .u8 .rwP .stw .plain 1 1, ro 0 4 4 .u64 ]
  | .alive => [ro 0 1 1 .u16, .mk 0 2 2 .u32 .rw .stw .mark 10000 10000000, ro 0 3 3 .u32]
  | .vendor => []

/-- The unit and offset of an index in spans of `step` from `base`, `n` units with offsets 0 to `top`. -/
def span (f : Family) (base step n top index : Nat) : Option (Family × Nat × Nat) :=
  if base ≤ index ∧ index < base + step * n ∧ (index - base) % step ≤ top then
    some (f, (index - base) / step, (index - base) % step) else none

/-- The spans of Table 13-2: family, first index, step, units, last offset. -/
def dictionaryMap : List (Family × Nat × Nat × Nat × Nat) :=
  [(.identity, 0x1000, 1, 1, 0), (.seat, 0x1100, 1, 8, 0), (.own, 0x1110, 1, 1, 0), (.rights, 0x1120, 1, 1, 0),
   (.t1s, 0x1200, 1, 2, 0), (.can, 0x1210, 1, 2, 0), (.tt, 0x1220, 1, 2, 0), (.time, 0x1300, 1, 1, 0),
   (.bus, 0x2000, 1, 1, 0), (.loss, 0x2001, 1, 1, 0), (.hang, 0x2002, 1, 1, 0), (.shed, 0x2003, 1, 1, 0),
   (.caps, 0x2004, 1, 1, 0), (.share, 0x2010, 1, 32, 0), (.zone, 0x2030, 1, 16, 0), (.flat, 0x2040, 1, 1, 0),
   (.engine, 0x20E0, 1, 1, 0), (.commitList, 0x20F0, 1, 1, 0), (.commitStatus, 0x20F1, 1, 1, 0),
   (.firstFailed, 0x20F2, 1, 1, 0), (.safeSet, 0x20F8, 1, 1, 0), (.capShelf, 0x2100, 1, 1, 0),
   (.capZone, 0x2110, 1, 16, 0), (.stagePort, 0x3000, 0x20, 48, 2), (.channel, 0x4000, 0x10, 128, 5),
   (.loopGroup, 0x4800, 0x10, 32, 5), (.iron, 0x4A00, 0x10, 16, 3), (.timebase, 0x5000, 1, 1, 0),
   (.press, 0x5001, 1, 1, 0), (.pset, 0x5008, 1, 4, 0), (.det, 0x5010, 1, 8, 0), (.modulator, 0x5020, 1, 32, 0),
   (.sense, 0x5040, 1, 32, 0), (.batString, 0x6000, 0x20, 8, 5), (.feed, 0x6400, 0x20, 16, 4),
   (.order, 0x7000, 0x10, 4, 0), (.levels, 0x7040, 1, 1, 0), (.rail, 0x7100, 8, 32, 1), (.soakModel, 0x7800, 0x10, 65, 5),
   (.lintBits, 0x8000, 1, 1, 0), (.lintClear, 0x8001, 1, 1, 0), (.lintResult, 0x8002, 1, 1, 0),
   (.episode, 0x8003, 1, 1, 0), (.cause, 0x8010, 1, 16, 0), (.react, 0x8100, 1, 512, 0), (.ring, 0x8800, 1, 1, 0),
   (.cursor, 0x8801, 1, 1, 0), (.window, 0x8802, 1, 1, 0), (.capture, 0x8810, 1, 8, 0), (.lastFault, 0x8820, 1, 32, 0),
   (.bootRec, 0x9000, 1, 1, 0), (.patch, 0x9001, 1, 1, 0), (.image, 0x9002, 1, 1, 0), (.fuse, 0x9100, 1, 1, 0),
   (.locks, 0x9101, 1, 1, 0), (.ceilings, 0x9102, 1, 1, 0), (.owner, 0x9103, 1, 1, 0), (.presence, 0x9110, 1, 1, 0),
   (.seal, 0x9111, 1, 1, 0), (.twPort, 0xA000, 1, 4, 0), (.sensor, 0xA010, 1, 16, 0), (.clocks, 0xA100, 1, 1, 0),
   (.resets, 0xA101, 1, 1, 0), (.alive, 0xA102, 1, 1, 0), (.vendor, 0xF000, 1, 0x1000, 0)]

/-- The family, unit and offset of an index of Table 13-2. -/
def locate (index : Nat) : Option (Family × Nat × Nat) :=
  dictionaryMap.findSome? (fun m => span m.1 m.2.1 m.2.2.1 m.2.2.2.1 m.2.2.2.2 index)

/-- The index of a family's unit and offset, the inverse of `locate`. -/
def Family.index (f : Family) (unit off : Nat) : Nat :=
  match dictionaryMap.find? (fun m => m.1 == f) with
  | some m => m.2.1 + m.2.2.1 * unit + off
  | none => 0

/-- One object: where it lies and its row. -/
structure Obj where
  fam  : Family
  unit : Nat
  off  : Nat
  sub  : Nat
  row  : Row
  deriving DecidableEq, Repr

/-- The highest sub-index of a unit's offset; a vendor index has as many objects as it happens to have (R367, R380). -/
def Family.last (f : Family) (unit off : Nat) : Nat :=
  if f == .vendor then Config.freeVendorCount unit % 256
  else (f.rows.filter (fun r => r.off == off)).foldl (fun a r => max a r.hi) 0

/-- An object by index and sub-index, sub-index 0 apart (R366, R380). -/
def object? (index sub : Nat) : Option Obj :=
  match locate index with
  | none => none
  | some (f, u, o) =>
    if f == .vendor then
      if 1 ≤ sub && sub ≤ f.last u o then some ⟨f, u, o, sub, ro 0 sub sub .domain⟩ else none
    else (f.rows.find? (fun r => r.off == o && decide (r.lo ≤ sub) && decide (sub ≤ r.hi))).map (fun r => ⟨f, u, o, sub, r⟩)

/-- The objects of an index, sub-entries 1 onward. -/
def objectsOf (index : Nat) : List Obj :=
  match locate index with
  | none => []
  | some (f, u, o) => (List.range (f.last u o)).filterMap (fun k => object? index (k + 1))

/-- The sub-index 0 of an index: a U8 with the number of its sub-entries (R367). -/
def countObj (f : Family) (u o : Nat) : Obj := ⟨f, u, o, 0, ro o 0 0 .u8⟩

/-- An object or a sub-index 0. -/
def anyObject? (index sub : Nat) : Option Obj :=
  match object? index sub with
  | some x => some x
  | none => if sub = 0 then (locate index).map (fun l => countObj l.1 l.2.1 l.2.2) else none

/-- The areas of Table 00-5: first and last index and the sub-index of the rights word (Table 12-4). -/
def areas : List (Nat × Nat × Nat) :=
  [(0x1000, 0x10FF, 1), (0x1100, 0x11FF, 2), (0x1200, 0x12FF, 3), (0x1300, 0x13FF, 4), (0x2000, 0x20FF, 5),
   (0x2100, 0x21FF, 6), (0x3000, 0x35FF, 7), (0x4000, 0x47FF, 8), (0x4800, 0x49FF, 9), (0x4A00, 0x4AFF, 10),
   (0x5000, 0x50FF, 11), (0x6000, 0x60FF, 12), (0x6400, 0x65FF, 13), (0x7000, 0x70FF, 14), (0x7100, 0x71FF, 15),
   (0x7800, 0x7C0F, 16), (0x8000, 0x80FF, 17), (0x8100, 0x82FF, 18), (0x8800, 0x88FF, 19), (0x9000, 0x90FF, 20),
   (0x9100, 0x91FF, 21), (0xA000, 0xA0FF, 22), (0xA100, 0xA1FF, 23), (0xF000, 0xFFFF, 24)]

/-- The number of an index's area, 0 for an index in none (R333). -/
def areaOf (index : Nat) : Nat :=
  match areas.find? (fun a => decide (a.1 ≤ index) && decide (index ≤ a.2.1)) with | some a => a.2.2 | none => 0

/-- The objects that bench mode serves, with whether it lets them be written (Table 13-10, R381). -/
def benchServes (x : Obj) : Option Bool :=
  let only (xs : List Nat) (w : Bool) : Option Bool := if xs.contains x.sub then some w else none
  if x.sub = 0 then none else
  match x.fam with
  | .identity | .own | .lintBits | .lintResult | .cause | .lastFault | .bootRec => some false
  | .time => only [0, 1] false
  | .safeSet => only [0, 1, 3] false
  | .lintClear => some true
  | .episode => only [0, 1, 2, 3, 4, 5, 8] false
  | .patch => some (x.row.acc == .rwP)
  | .image => some (x.row.acc == .rwP)
  | .presence => if x.sub = 5 then some true else only [0, 1, 2, 4] false
  | .seal => only [0, 1, 3] false
  | .resets => only [0, 1, 2, 4] false
  | .alive => only [0, 1] false
  | _ => none

/-! ### Words (reserved bits, R7) -/

/-- The bits that a configuration word defines; every other bit of it is reserved. -/
def wordMask (f : Family) (off sub : Nat) : Option Nat :=
  match f, off, sub with
  | .channel, 0, 1 => some 0x3F030103
  | .channel, 0, 2 => some 0xF0FF
  | .loopGroup, 0, 1 => some 0x07307F00
  | .loopGroup, 3, 1 => some 0xF0FF
  | .stagePort, 0, 1 => some 0x3F0F03F0
  | .iron, 0, 1 => some 0x7F0F0333
  | .batString, 0, 1 => some 0xFFFF0007
  | .feed, 0, 1 => some 0xFF000F16
  | .soakModel, 0, 1 => some 0xFF030001
  | .timebase, _, 1 => some 0x00FFFF07
  | .det, _, 1 => some 0x31
  | .rail, 0, 1 => some 0x701F000E
  | .rail, 0, 2 => some 0x9F9F9F9F
  | .react, _, 1 => some 0x11F
  | .capture, _, 1 => some 0x00070301
  | .seat, _, 1 => some 0xFF003F07
  | .rights, _, _ => some 0x3F
  | .t1s, _, 1 => some 0xFFFFFF03
  | .can, _, 1 => some 0x1F00FF01
  | .tt, _, 1 => some 0x7F71
  | .time, _, 2 => some 0xFF07
  | _, _, _ => none

/-- A value has no reserved bit set. -/
def wordOk (f : Family) (off sub : Nat) (v : Int) : Bool :=
  match wordMask f off sub with
  | some m => v.toNat &&& m == v.toNat
  | none => true

/-- A value as it reads: reserved bits read 0 (R7). -/
def readWord (f : Family) (off sub : Nat) (v : Int) : Int :=
  match wordMask f off sub with
  | some m => (v.toNat &&& m : Nat)
  | none => v

end Sys2Proof.Machine
end

