-- ==== Sys2Proof/Machine/Reads.lean ====
section
/-!
DEFINITION. What every object reads: bank fields, settings and readings (R5 to R7, R341, R382 and the object tables).
-/
namespace Sys2Proof.Machine
set_option Elab.async false

/-! ### Stored values by family -/

/-- A bank field of a family, if the sub-entry is one. -/
def Banks.get? (b : Banks) (f : Family) (u off sub : Nat) : Option Int :=
  match f with
  | .channel => (vget b.chans u {}).get? off sub
  | .loopGroup => (vget b.groups u {}).core.get? off sub
  | .modulator => (vget b.groups u {}).modul.get? sub
  | .share => (vget b.groups u {}).share.get? sub
  | .stagePort => (vget b.ports u {}).get? off sub
  | .feed => (vget b.feeds u {}).core.get? off sub
  | .zone => (vget b.feeds u {}).zone.get? sub
  | .batString => (vget b.strings u {}).get? off sub
  | .soakModel => (vget b.models u {}).get? off sub
  | .iron => (vget b.irons u {}).get? off sub
  | _ => none

/-- The banks with one field of one family replaced. -/
def Banks.put (b : Banks) (f : Family) (u off sub : Nat) (v : Int) : Banks :=
  match f with
  | .channel => { b with chans := vmod b.chans u (fun x => x.put off sub v) }
  | .loopGroup => { b with groups := vmod b.groups u (fun x => { x with core := x.core.put off sub v }) }
  | .modulator => { b with groups := vmod b.groups u (fun x => { x with modul := x.modul.put sub v }) }
  | .share => { b with groups := vmod b.groups u (fun x => { x with share := x.share.put sub v }) }
  | .stagePort => { b with ports := vmod b.ports u (fun x => x.put off sub v) }
  | .feed => { b with feeds := vmod b.feeds u (fun x => { x with core := x.core.put off sub v }) }
  | .zone => { b with feeds := vmod b.feeds u (fun x => { x with zone := x.zone.put sub v }) }
  | .batString => { b with strings := vmod b.strings u (fun x => x.put off sub v) }
  | .soakModel => { b with models := vmod b.models u (fun x => x.put off sub v) }
  | .iron => { b with irons := vmod b.irons u (fun x => x.put off sub v) }
  | _ => b

/-- A setting outside the banks, if the sub-entry is one. -/
def Settings.get? (c : Settings) (f : Family) (u off sub : Nat) : Option Int :=
  match f with
  | .timebase => c.timebase.get? sub
  | .sense => (vget c.senses u {}).get? sub
  | .pset => (vget c.psets u {}).get? sub
  | .det => (vget c.dets u {}).get? sub
  | .flat => c.flat.get? sub
  | .bus => c.bus.get? sub
  | .loss => c.loss.get? sub
  | .hang => c.hang.get? sub
  | .shed => c.shed.get? sub
  | .capShelf => some (vget c.capShelf (sub - 1) 0)
  | .capZone => some (vget (vget c.capZone u (Vector.replicate 8 0)) (sub - 1) 0)
  | .rail => if off = 0 then (vget c.rails u {}).get? sub else none
  | .order => (vget c.orders u {}).get? sub
  | .episode => c.episode.get? sub
  | .react => (vget c.reacts u {}).get? sub
  | .ring => c.ring.get? sub
  | .capture =>
    let x := vget c.captures u {}
    match sub with | 1 => some x.word.toNat | 3 => some x.pre | 4 => some x.trigSrc | _ => none
  | .seat => if sub = 1 then some (vget c.bindings u 0).toNat else none
  | .rights => some (vget c.rights (sub - 1) 0).toNat
  | .t1s => (vget c.t1s u {}).get? sub
  | .can => (vget c.cans u {}).get? sub
  | .tt => (vget c.tts u {}).get? sub
  | .time => if sub = 2 then some c.ptpWord.toNat else none
  | .presence => if sub = 3 then some c.presWindow else none
  | .patch => if sub = 5 then some c.updateSoc else none
  | .twPort => (vget c.twPorts u {}).get? sub
  | .sensor => (vget c.sensors u {}).get? sub
  | .alive => if sub = 2 then some c.wdtTimeout else none
  | .safeSet => if sub = 1 then some c.hwMode else none
  | _ => none

/-- The settings with one of them replaced. -/
def Settings.put (c : Settings) (f : Family) (u sub : Nat) (v : Int) : Settings :=
  match f with
  | .timebase => { c with timebase := c.timebase.put sub v }
  | .sense => { c with senses := vmod c.senses u (fun x => x.put sub v) }
  | .pset => { c with psets := vmod c.psets u (fun x => x.put sub v) }
  | .det => { c with dets := vmod c.dets u (fun x => x.put sub v) }
  | .flat => { c with flat := c.flat.put sub v }
  | .bus => { c with bus := c.bus.put sub v }
  | .loss => { c with loss := c.loss.put sub v }
  | .hang => { c with hang := c.hang.put sub v }
  | .shed => { c with shed := c.shed.put sub v }
  | .capShelf => { c with capShelf := vmod c.capShelf (sub - 1) (fun _ => v) }
  | .capZone => { c with capZone := vmod c.capZone u (fun z => vmod z (sub - 1) (fun _ => v)) }
  | .rail => { c with rails := vmod c.rails u (fun x => x.put sub v) }
  | .order => { c with orders := vmod c.orders u (fun x => x.put sub v) }
  | .episode => { c with episode := c.episode.put sub v }
  | .react => { c with reacts := vmod c.reacts u (fun x => x.put sub v) }
  | .ring => { c with ring := c.ring.put sub v }
  | .capture => { c with captures := vmod c.captures u (fun x =>
      match sub with
      | 1 => { x with word := BitVec.ofInt 32 v }
      | 3 => { x with pre := v.toNat }
      | 4 => { x with trigSrc := v.toNat }
      | _ => x) }
  | .seat => { c with bindings := vmod c.bindings u (fun _ => BitVec.ofInt 32 v) }
  | .rights => { c with rights := vmod c.rights (sub - 1) (fun _ => BitVec.ofInt 8 v) }
  | .t1s => { c with t1s := vmod c.t1s u (fun x => x.put sub v) }
  | .can => { c with cans := vmod c.cans u (fun x => x.put sub v) }
  | .tt => { c with tts := vmod c.tts u (fun x => x.put sub v) }
  | .time => { c with ptpWord := BitVec.ofInt 32 v }
  | .presence => { c with presWindow := v.toNat }
  | .patch => { c with updateSoc := v.toNat }
  | .twPort => { c with twPorts := vmod c.twPorts u (fun x => x.put sub v) }
  | .sensor => { c with sensors := vmod c.sensors u (fun x => x.put sub v) }
  | .alive => { c with wdtTimeout := v.toNat }
  | .safeSet => { c with hwMode := v.toNat }
  | _ => c

/-! ### Readings of the units -/

/-- A bit of a status word. -/
def flagBit (b : Bool) (k : Nat) : Nat := if b then 2 ^ k else 0

namespace State

def seat (s : State) (k : Nat) : SeatRun := vget s.seats k {}
def onSeat (s : State) (k : Nat) (f : SeatRun → SeatRun) : State := { s with seats := vmod s.seats k f }

/-- The class of a seat, 0xFF when Free (0x1100+s.03). -/
def seatClass (s : State) (k : Nat) : Nat := if (s.seat k).phase == .free then 255 else (s.seat k).cls

/-- Channel status values (Table 02-6). DESIGN CHOICE (assumption 116): the ramp position reads rounded to nearest, which the
manual does not say. -/
def readChannel (s : State) (c sub : Nat) : Int :=
  let r := s.chan c
  match sub with
  | 1 => r.y
  | 2 => roundDiv r.ramp 65536
  | 3 => r.e
  | 4 => r.h.u1
  | 5 => r.strikes
  | 6 => r.lane
  | _ => flagBit r.winner 0 + flagBit r.held 1 + flagBit r.moving 2 + flagBit r.atMin 3 + flagBit r.atMax 4

/-- Group status values (Table 02-9). -/
def readGroup (s : State) (g sub : Nat) : Int :=
  let r := s.group g
  match sub with
  | 1 => r.phase.code
  | 2 => r.winner
  | 3 => r.s
  | 4 => r.retry
  | _ => r.strikes

/-- Timebase readings (Table 03-2). -/
def readTimebase (s : State) (sub : Nat) : Int :=
  match sub with
  | 5 => s.tb.phase.code
  | 6 => s.tb.rho
  | 7 => s.tb.phaseErr
  | 8 => s.clock.grid
  | _ => s.tb.lostCount

/-- Lock status of a group: locked once every enabled phase has reported 100 small errors in a row (Table 03-6, R104, R105). -/
def lockStatus (s : State) (g : Nat) : Nat :=
  let r := s.group g
  if (s.groupB g).mode != 2 || !(s.evaluated g) then 0
  else if r.lock.suspended then 3
  else if (s.phasesOf g).all (fun x => decide (100 ≤ (vget (s.port x.1).locks x.2 {}).good)) then 2 else 1

def readModulator (s : State) (g sub : Nat) : Int :=
  match sub with
  | 11 => s.lockStatus g
  | 12 => ((s.group g).inc % 4294967296 : Nat)
  | _ => ((s.group g).lock.recent.foldl max 0 : Nat)

/-- Sense readings (Table 03-7). -/
def readSense (s : State) (n sub : Nat) : Int :=
  let r := s.sense n
  if sub = 3 then r.y else if r.prev.length < 3 then 0 else roundDiv (2 * (r.y - r.prev.getD 2 0)) 3

def readPset (s : State) (k sub : Nat) : Int :=
  let r := s.press k
  match sub with
  | 5 => r.launches
  | 6 => r.suppressed
  | 7 => flagBit r.burstOpen 0
  | _ => r.lastShelf

/-- Shelf press status (Table 03-9). -/
def readPress (s : State) (sub : Nat) : Int :=
  if sub = 1 then flagBit ((List.range 4).any (fun k => (s.press k).burstOpen)) 0
  else ((((List.range 4).map (fun k => (s.press k).launches)).sum : Nat) : Int)

def readDet (s : State) (n sub : Nat) : Int :=
  match sub with
  | 5 => (s.det n).phase.code
  | 6 => (s.det n).triggers
  | _ => levelInForce (s.senseC n) (s.detC n).pressLevel

/-- RMS of an iron's taps in Q1.23 (I+0x02.06). -/
def memoryRms (r : IronRun) : Nat :=
  if r.nTaps = 0 then 0
  else isqrt ((sumInt ((r.mem.filter (fun t => decide (t.1 < r.nTaps))).map (fun t => 256 * t.2 * t.2))).toNat / r.nTaps)

/-- Iron readings (Table 04-2). -/
def readIron (s : State) (i off sub : Nat) : Int :=
  let r := s.iron i
  match off, sub with
  | 1, 5 => r.period
  | 1, 6 => r.estimate
  | 1, 7 => r.nTaps
  | 1, 8 =>
    let g := s.ironGroup i
    if r.nTaps = 0 then 0 else roundDiv (1000 * r.period) (r.nTaps * (500 * (s.groupB g).k))
  | 2, 2 => r.phase.code
  | 2, 3 => min 8388607 (r.w / 33554432)
  | 2, 4 => r.relearn
  | 2, 5 => r.rms
  | 2, 6 => memoryRms r
  | _, _ => if (s.ironB i).inj then r.term else roundDiv r.term 65536

/-- Flattening readings (Table 04-4). -/
def readFlat (s : State) (sub : Nat) : Int :=
  match sub with
  | 7 => roundDiv s.flat.pTgt 4294967296
  | 8 => match s.flatLeader with | some l => (s.iron l).phase.code + 1 | none => 0
  | 9 => s.flat.cause.toNat
  | _ => s.flat.swing

/-- Port, link and uplink readings (Tables 13-4 and 05-17). -/
def readPort (s : State) (p off sub : Nat) : Int :=
  let r := s.port p
  match off, sub with
  | 0, 2 => r.epoch.toNat
  | 0, _ => flagBit (s.live p) 0
  | 1, 1 => r.link.code
  | 1, 2 => 1250 * r.dp
  | 1, 8 => r.identity.toNat
  | 1, 9 => r.bad
  | 1, 10 => r.missing
  | 1, 11 => r.stale
  | 1, 12 => r.badDl
  | 1, 13 => r.losses
  | 1, 14 => r.up.digest.toNat
  | 1, _ => r.up.status.toNat
  | _, 5 => r.up.vout
  | _, 6 => r.up.vin
  | _, 7 => r.up.temp
  | _, 8 => r.up.line
  | _, k => vget r.up.i (k - 1) 0

def readBus (s : State) (sub : Nat) : Int :=
  match sub with
  | 4 => s.shelf.exc.total / 2
  | 5 => s.shelf.exc.largest / 2
  | 6 => s.shelf.exc.episodes
  | 7 => s.busLoad
  | _ => s.shelfInput

def readLoss (s : State) (sub : Nat) : Int :=
  let r := s.shelf.loss
  match sub with
  | 5 => s.lossCode
  | 6 => roundDiv (1000 * r.dNum) r.dDen
  | 7 => (allPorts.filter (fun p => s.live p && (s.port p).inputDown)).foldl (fun a p => a + 2 ^ p) 0
  | 8 => r.count
  | _ => r.shelfAt

def readHang (s : State) (sub : Nat) : Int :=
  let r := s.shelf.hang
  match sub with
  | 3 => r.hang
  | 4 => r.energy
  | 5 => r.pAvg
  | 6 => flagBit r.short 0
  | _ => r.window

def readShed (s : State) (sub : Nat) : Int :=
  match sub with
  | 6 => s.shelf.shed.phase.code
  | 7 => s.shedMask.toNat
  | _ => s.nextRank.getD 0

/-- Effective caps (Table 06-8). -/
def readCaps (s : State) (sub : Nat) : Int :=
  let r := s.shelf.caps
  match sub with
  | 1 => r.cEff
  | 2 => r.bound
  | 3 => r.seat
  | 4 => r.thermal
  | 5 => s.capCeiling
  | 6 => r.budget
  | _ => clampInt 0 65535 s.etaR

def readShare (s : State) (g sub : Nat) : Int :=
  let r := s.group g
  match sub with
  | 7 => r.f
  | 8 => r.primary
  | _ => flagBit (s.hotStandby g) 0

def readZone (s : State) (z sub : Nat) : Int :=
  match sub with
  | 3 => s.zoneCap z
  | 4 => (s.feed z).grant
  | 5 => (s.feed z).rd.meanP
  | _ => (s.feed z).thr.reasons.toNat

/-- String readings (Table 07-4), all of the last string tick (R240); the reported state of charge follows the class of the
reading seat (R237). -/
def readString (s : State) (k sub cls : Nat) : Int :=
  let r := (s.str k).seen
  match sub with
  | 1 => r.a
  | 2 => r.qc
  | 3 => r.cap
  | 4 => r.soc
  | 5 => if cls = 0 then r.fac else if cls = 1 then r.wl else clampInt 0 10000 r.soc
  | 6 => r.fac
  | 7 => r.wl
  | 8 => r.eohRes
  | 9 => r.current
  | 10 => r.bsv
  | 11 => r.phase.code
  | 12 => r.flags.toNat
  | 13 => r.learns
  | 14 => r.lastFull
  | _ => r.lastEmpty

/-- Feed readings (Table 08-3). -/
def readFeed (s : State) (z off sub : Nat) : Int :=
  let r := s.feed z
  match off, sub with
  | 2, 2 => r.phase.code
  | 2, 3 => r.cause
  | 2, 4 => r.retry
  | 2, 5 => flagBit r.shed 0
  | 2, 6 => (r.energy / 1000000 : Nat)
  | 2, 7 => r.x / 1000000000000
  | 2, _ => flagBit r.rd.seatL 0 + flagBit r.rd.seatS 1
  | 3, 1 => r.rd.vbus
  | 3, 2 => r.rd.vout
  | 3, 3 => r.rd.current
  | 3, _ => r.rd.meanI
  | _, 1 => r.caps.peak
  | _, 2 => r.caps.peakAt
  | _, 3 => r.caps.minV
  | _, 4 => r.caps.minAt
  | _, 5 => r.caps.peakSecond
  | _, _ => r.caps.minSecond

/-- Rail readings (Table 09-3). -/
def readRail (s : State) (r sub : Nat) : Int :=
  let x := s.rail r
  let c := s.railC r
  match sub with
  | 1 => x.phase.code
  | 2 => flagBit x.failed 0 + flagBit x.blocked 1 + flagBit x.timeout 2 + flagBit (s.pgGood r) 3 +
         flagBit (x.enabled && c.order < 4) 4 + flagBit (x.asserted && c.order < 4 && c.rstEn) 5
  | _ => x.goodTime

/-- Order readings, of the last sequencer tick, and fault record (R282, Table 09-6). -/
def readOrder (s : State) (k sub : Nat) : Int :=
  let o := s.order k
  match sub with
  | 2 => o.seen.phase.code
  | 3 => flagBit o.seen.queued 0
  | 4 => flagBit o.seen.degraded 0 + flagBit o.seen.droppedFlag 1
  | 6 => o.seen.members.toNat
  | 7 => o.seen.good.toNat
  | 8 => o.drops
  | 9 => o.faultRail
  | 10 => o.faultCause
  | 11 => o.faultTime
  | 12 => o.faultPg.toNat
  | _ => o.faultEn.toNat

def readLevels (s : State) (sub : Nat) : Int :=
  match sub with
  | 1 => s.seq.pgin.toNat
  | 2 => s.seq.seenEn.toNat
  | _ => s.seq.seenRsto.toNat

/-- Model readings (Table 10-2), all of the last model step (R299). -/
def readModel (s : State) (m sub : Nat) : Int :=
  let r := (s.model m).seen
  match sub with
  | 1 => r.temp
  | 2 => r.node2
  | 3 => r.node3
  | 4 => r.loss
  | 5 => r.inlet
  | 6 => r.phase.code
  | 7 => r.flags.toNat
  | 8 => r.entries
  | 9 => r.lastEntry
  | _ => r.cap

/-- Episode readings (Table 11-14); union and joined count as the status objects show them (R312), and the safe state
command reads 0 (R369). -/
def readEpisode (s : State) (sub : Nat) : Int :=
  let e := s.lint.episode
  match sub with
  | 1 => flagBit e.opn 0
  | 2 => e.number
  | 3 => e.openedAt
  | 4 => e.shownUnion.toNat
  | 5 => e.shownJoined
  | 8 => flagBit s.lint.safe 0
  | _ => 0

def readRing (s : State) (sub : Nat) : Int :=
  match sub with
  | 1 => s.newestSeq
  | 2 => s.oldestSeq
  | 3 => s.score.discards
  | _ => s.score.merged

def readCapture (s : State) (c sub : Nat) : Int :=
  let r := s.capture c
  match sub with
  | 6 => r.phase.code
  | 7 => r.trigTime
  | 8 => r.trigEpisode
  | _ => r.offset

/-- Seat readings (Table 12-12); a Free seat reads the defaults, and the seat command reads 0 (R369). -/
def readSeat (s : State) (k sub : Nat) : Int :=
  let r := s.seat k
  let held := r.phase != .free
  match sub with
  | 2 => r.phase.code
  | 3 => s.seatClass k
  | 4 => if held then 16 * r.host.code + r.host.port else 0
  | 5 => if held && r.host.code = 1 then r.host.addr % 18446744073709551616 else 0
  | 6 => if held then 100 * r.lease else 0
  | 7 => r.openedAt
  | 8 => r.processed
  | 9 => r.subs.length
  | 10 => r.stews.length
  | 11 => r.lastClose
  | _ => 0

/-- MAC address of a T1S port, from IDENT (Table 14-9). -/
def mac (s : State) (t : Nat) : Nat :=
  ((s.shadowOf (66 + 2 * t)).toNat + 4294967296 * (s.shadowOf (67 + 2 * t)).toNat) % 281474976710656

/-- The modified EUI-64 of a MAC address: 0xFFFE in the middle, the universal bit inverted (R350, RFC 4291). -/
def eui64 (m : Nat) : Nat :=
  ((m / 16777216 * 1099511627776 + 0xFFFE000000 + m % 16777216) ^^^ 0x0200000000000000)

def t1sOn (s : State) (t : Nat) : Bool := bitAt (vget s.cfg.t1s t {}).word 0
/-- PLCA is in use: PLCA_EN with a NODE_ID other than 255 (Table 12-16). -/
def plcaOn (s : State) (t : Nat) : Bool := bitAt (vget s.cfg.t1s t {}).word 1 && bitsOf (vget s.cfg.t1s t {}).word 31 24 != 255

def readT1s (s : State) (t sub : Nat) : Int :=
  match sub with
  | 3 => s.mac t
  | 4 => eui64 (s.mac t)
  | 5 => (vget s.t1s t {}).received
  | 6 => (vget s.t1s t {}).discarded
  | _ => if !(s.plcaOn t) then 0 else if Config.freeBeacon t s.clock.up then 1 else 2

def readCan (s : State) (c sub : Nat) : Int :=
  let r := vget s.cans c {}
  match sub with
  | 2 => r.errorState
  | 3 => r.received
  | 4 => r.discarded
  | _ => r.busOffs

def readTime (s : State) (sub : Nat) : Int :=
  match sub with
  | 1 => s.shelfNs
  | 3 => s.ptp.phase.code
  | 4 => s.ptp.offset
  | 5 => s.ptp.delay
  | 6 => s.ptpAdj
  | 7 => s.ptp.steps
  | 8 => s.ptp.source
  | _ => flagBit (s.ptp.phase == .locked || s.ptp.phase == .holdover) 0

def readPresence (s : State) (sub : Nat) : Int :=
  match sub with
  | 1 => flagBit s.present 0
  | 2 => s.presenceSource
  | 4 => s.windowLeft
  | _ => 0

def readSeal (s : State) (sub : Nat) : Int :=
  match sub with
  | 1 => if !s.tamper.armed then 0 else if !s.tamper.broken then 1 else if s.tamper.stitched then 3 else 2
  | 3 => s.tamper.breakAt
  | _ => 0

/-- Serial number of IDENT (Table 14-9). -/
def serial (s : State) : Nat := (s.shadowOf 64).toNat + 4294967296 * (s.shadowOf 65).toNat

/-- Mode: 0 normal, 1 bench (0x1000.09). -/
def modeCode (s : State) : Nat := flagBit (s.boot.phase == .bench) 0

def readIdentity (s : State) (sub : Nat) : Int :=
  match sub with
  | 4 => 0xB1
  | 5 => s.serial
  | 6 => slotVersion s.activeContent
  | 7 => romVersion
  | 8 => 1
  | 9 => s.modeCode
  | _ => flagBit s.hardwareRun 0

def readEngine (s : State) (sub : Nat) : Int :=
  match sub with
  | 1 => s.engine.retired.toNat
  | 2 => s.engine.carried
  | 3 => budget s.active
  | 4 => s.engine.capacity
  | _ => s.engine.sramFixed

/-- Commit status word of a seat (Table 01-5). -/
def commitStatus (s : State) (k : Nat) : Nat :=
  let r := s.seat k
  r.ticket % 65536 * 65536 + r.result * 256 + r.reason

/-- The hardware-run mode that the header of the valid safe set holds, 0 without one (R41). -/
def safeMode (s : State) : Nat := match s.safeSet.newest with | some c => c.hwMode | none => 0

/-- The hardware-run mode, as written last, in bench mode as the safe-set header holds it, and the capture status (R41,
Table 13-10). -/
def readSafeSet (s : State) (sub : Nat) : Int :=
  if sub = 3 then s.safeSet.status else if s.boot.phase == .bench then s.safeMode else s.cfg.hwMode

def readBootRec (s : State) (sub : Nat) : Int :=
  let r := s.bootRec
  match sub with
  | 1 => r.reason
  | 2 => r.count
  | 3 => r.active
  | 4 => slotVersion (s.slotImg 0).content
  | 5 => slotVersion (s.slotImg 1).content
  | 6 => flagBit (r.good r.active) 0
  | 7 => r.stored
  | 8 => if headerOk s.activeContent then dataVersion s.activeContent else 0
  | 9 => flagBit s.boot.checkpoint 0
  | 10 => s.boot.startAt
  | _ => s.boot.starts

def readPatch (s : State) (sub : Nat) : Int :=
  match sub with
  | 3 => s.patch.phase.code
  | 4 => s.boot.refusals.toNat
  | 6 => s.patch.content.length
  | _ => 0

def readImage (s : State) (sub : Nat) : Int :=
  match sub with
  | 3 => s.image.phase.code
  | 4 => s.image.content.length
  | _ => 0

def readFuse (s : State) (sub : Nat) : Int :=
  let f := s.fuses
  match sub with
  | 1 => f.addr
  | 3 => f.status
  | 4 => f.value.toNat
  | 5 => (s.shadowOf f.addr).toNat
  | 6 => f.baste.toNat
  | 8 => f.marginal.length
  | _ => 0

def readCeilings (s : State) (sub : Nat) : Int :=
  match sub with
  | 1 => s.maxBusSetpoint
  | 2 => s.maxFeedCurrent
  | _ => s.capCeiling

def readTw (s : State) (t sub : Nat) : Int :=
  match sub with
  | 3 => (s.tw t).phase.code
  | 4 => (s.tw t).recoveries
  | _ => (s.tw t).errors

def readSensor (s : State) (n sub : Nat) : Int :=
  let r := vget s.sensors n {}
  match sub with
  | 5 => r.reading
  | 6 => r.time
  | _ => r.status

def readClocks (s : State) (sub : Nat) : Int :=
  match sub with
  | 1 => s.boot.reference
  | 2 => flagBit s.boot.locked 0
  | 3 => s.boot.losses
  | _ => s.boot.aoHz

def readResets (s : State) (sub : Nat) : Int :=
  match sub with
  | 1 => s.boot.cause
  | 2 => s.boot.warm
  | 4 => s.boot.lastAt
  | _ => 0

/-- The rate at which ALIVE toggles: 1,000 Hz while firmware serves its watchdog, 10 Hz in bench mode (R453). -/
def aliveRate (s : State) : Nat := if s.boot.phase == .bench then 10 else 1000

def readAlive (s : State) (sub : Nat) : Int := if sub = 1 then s.aliveRate else s.boot.watchdogs

/-- The reading of a numeric object that is no stored setting, for a seat of class `cls`. -/
def reading (s : State) (seat : Nat) (x : Obj) : Int :=
  match x.fam with
  | .channel => s.readChannel x.unit x.sub
  | .loopGroup => s.readGroup x.unit x.sub
  | .timebase => s.readTimebase x.sub
  | .modulator => s.readModulator x.unit x.sub
  | .sense => s.readSense x.unit x.sub
  | .pset => s.readPset x.unit x.sub
  | .press => s.readPress x.sub
  | .det => s.readDet x.unit x.sub
  | .iron => s.readIron x.unit x.off x.sub
  | .flat => s.readFlat x.sub
  | .stagePort => s.readPort x.unit x.off x.sub
  | .bus => s.readBus x.sub
  | .loss => s.readLoss x.sub
  | .hang => s.readHang x.sub
  | .shed => s.readShed x.sub
  | .caps => s.readCaps x.sub
  | .share => s.readShare x.unit x.sub
  | .zone => s.readZone x.unit x.sub
  | .batString => s.readString x.unit x.sub (s.seatClass seat)
  | .feed => s.readFeed x.unit x.off x.sub
  | .rail => s.readRail x.unit x.sub
  | .order => s.readOrder x.unit x.sub
  | .levels => s.readLevels x.sub
  | .soakModel => s.readModel x.unit x.sub
  | .lintBits => (s.lintWord (x.sub - 1)).toNat
  | .lintResult => (vget s.lint.left (x.sub - 1) 0).toNat
  | .episode => s.readEpisode x.sub
  | .cause => (vget s.lint.causes (32 * x.unit + x.sub - 1) 0).toNat
  | .react => (vget s.lint.counts x.unit 0 : Nat)
  | .ring => s.readRing x.sub
  | .cursor => s.cursor (x.sub - 1)
  | .capture => s.readCapture x.unit x.sub
  | .lastFault => flagBit (s.group x.unit).last.valid 0
  | .seat => s.readSeat x.unit x.sub
  | .own => if x.sub = 1 then seat else s.seatClass seat
  | .t1s => s.readT1s x.unit x.sub
  | .can => s.readCan x.unit x.sub
  | .tt => (vget s.tts x.unit {}).discarded
  | .time => s.readTime x.sub
  | .presence => s.readPresence x.sub
  | .seal => s.readSeal x.sub
  | .identity => s.readIdentity x.sub
  | .engine => s.readEngine x.sub
  | .commitStatus => s.commitStatus (x.sub - 1)
  | .firstFailed => (s.seat (x.sub - 1)).failed
  | .safeSet => s.readSafeSet x.sub
  | .bootRec => s.readBootRec x.sub
  | .patch => s.readPatch x.sub
  | .image => s.readImage x.sub
  | .fuse => s.readFuse x.sub
  | .locks => flagBit (bitAt s.fuses.locks (x.sub - 1)) 0
  | .ceilings => s.readCeilings x.sub
  | .owner => if x.sub = 1 then flagBit s.bootRec.ownerLock 0 else 0
  | .twPort => s.readTw x.unit x.sub
  | .sensor => s.readSensor x.unit x.sub
  | .clocks => s.readClocks x.sub
  | .resets => s.readResets x.sub
  | .alive => s.readAlive x.sub
  | _ => 0

/-- The pending value of a bank field, with the writes held for it under R29 (R341); a reserved bit reads 0 whatever was
written (R7). -/
def pendingField (s : State) (x : Obj) : Option Int :=
  let idx := x.fam.index x.unit x.off
  let waits := (s.commits.held.filter (fun (w : Waiting) => w.index == idx && w.sub == x.sub)).getLast?
  let v := match waits with
    | some w => some w.value
    | none => s.staged.get? x.fam x.unit x.off x.sub
  v.map (readWord x.fam x.off x.sub)

/-- The value of a numeric object for a seat; `active` selects the bank of a staged field (R341). A bank field of
another kind reads what is in force. -/
def value (s : State) (seat : Nat) (active : Bool) (x : Obj) : Int :=
  if x.sub = 0 then x.fam.last x.unit x.off
  else match (if x.row.kind == .staged && !active then s.pendingField x else s.active.get? x.fam x.unit x.off x.sub) with
    | some v => v
    | none =>
      if x.fam == .safeSet then s.readSafeSet x.sub
      else (s.cfg.get? x.fam x.unit x.off x.sub).getD (s.reading seat x)

/-- The snapshot of an iron's memory: N taps, each an I32 (I+0x03.01). -/
def ironSnapshot (s : State) (i : Nat) : List Byte :=
  let r := s.iron i
  (List.range r.nTaps).flatMap (fun j => leInt 4 (tapGet r.snap j))

/-- The content of a STR or DOMAIN object; the record window apart, which moves its cursor (R326). -/
def content (s : State) (x : Obj) : List Byte :=
  match x.fam with
  | .identity => asciiBytes (if x.sub = 1 then "Lodrimon Power Silicon" else if x.sub = 2 then "TF4812" else "TF4812-B1F")
  | .iron => s.ironSnapshot x.unit
  | .capture => if x.sub = 2 then (s.captureC x.unit).signals.toList.flatMap (leBytes 2) else s.captureData x.unit
  | .lastFault =>
    let o := (s.group x.unit).last.octets
    if o.isEmpty then List.replicate 1024 0 else o
  | .patch => s.patch.content
  | .image => s.image.content
  | .vendor => Config.freeVendor (0xF000 + x.unit) x.sub s.clock.up
  | _ => []

/-- The type code an object answers with; sub-index 0 of every index is a U8 (R367). -/
def typeCode (s : State) (x : Obj) : Nat :=
  if x.fam == .vendor && x.sub != 0 then Config.freeVendorType (0xF000 + x.unit) x.sub s.clock.up else x.row.ty.code

/-- The octets an object reads for a seat, without the effect of the read (R341, R382). -/
def octets (s : State) (seat : Nat) (active : Bool) (x : Obj) : List Byte :=
  if x.fam == .window && x.sub == 1 then (s.window seat).flatMap Record.octets
  else match x.row.ty with
    | .str | .domain => s.content x
    | t => t.encode (s.value seat active x)

end State
end Sys2Proof.Machine
end

