-- ==== Sys2Proof/Machine/Checks.lean ====
section
/-!
DEFINITION. Validation of values and configurations: ranges, fused ceilings, run-locked fields, membership, roles and
the engine budget (R13, R15, R25, R36, R37, R50 to R57, R67, R77, R106, R135, R179, R183, R197, R210, R220, R254, R286,
R290, R295, R300, R467, R481, R482).
-/
namespace Sys2Proof.Machine
set_option Elab.async false

/-! ### Blocks by R24 identifier -/

/-- Block kinds of an identifier (R24). -/
def blockChannel (n : Nat) : Nat := n
def blockGroup (n : Nat) : Nat := 0x1000 + n
def blockPort (n : Nat) : Nat := 0x2000 + n
def blockFeed (n : Nat) : Nat := 0x3000 + n
def blockString (n : Nat) : Nat := 0x4000 + n
def blockModel (n : Nat) : Nat := 0x5000 + n
def blockIron (n : Nat) : Nat := 0x6000 + n

/-- Kind and number of an identifier. -/
def blockKind (id : Nat) : Nat := id / 4096
def blockNum (id : Nat) : Nat := id % 256

/-- How many blocks a kind has; none for a kind that does not exist (R24). -/
def blockCount : Nat → Nat
  | 0 => 128 | 1 => 32 | 2 => 48 | 3 => 16 | 4 => 8 | 5 => 65 | 6 => 16 | _ => 0

/-- An identifier names a block that exists (R24). -/
def blockExists (id : Nat) : Bool := id / 256 % 16 == 0 && decide (blockNum id < blockCount (blockKind id))

/-- The block that holds a family's bank fields; none for a family without a bank (Table 01-1). -/
def Family.block? (f : Family) (unit : Nat) : Option Nat :=
  match f with
  | .channel => some (blockChannel unit)
  | .loopGroup | .modulator | .share => some (blockGroup unit)
  | .stagePort => some (blockPort unit)
  | .feed | .zone => some (blockFeed unit)
  | .batString => some (blockString unit)
  | .soakModel => some (blockModel unit)
  | .iron => some (blockIron unit)
  | _ => none

/-- The families of a block. -/
def blockFamilies (id : Nat) : List Family :=
  match blockKind id with
  | 0 => [.channel] | 1 => [.loopGroup, .modulator, .share] | 2 => [.stagePort] | 3 => [.feed, .zone]
  | 4 => [.batString] | 5 => [.soakModel] | _ => [.iron]

/-- One bank of a block copied from other banks. -/
def Banks.take (b : Banks) (id : Nat) (from' : Banks) : Banks :=
  let n := blockNum id
  match blockKind id with
  | 0 => { b with chans := vmod b.chans n (fun x => vget from'.chans n x) }
  | 1 => { b with groups := vmod b.groups n (fun x => vget from'.groups n x) }
  | 2 => { b with ports := vmod b.ports n (fun x => vget from'.ports n x) }
  | 3 => { b with feeds := vmod b.feeds n (fun x => vget from'.feeds n x) }
  | 4 => { b with strings := vmod b.strings n (fun x => vget from'.strings n x) }
  | 5 => { b with models := vmod b.models n (fun x => vget from'.models n x) }
  | 6 => { b with irons := vmod b.irons n (fun x => vget from'.irons n x) }
  | _ => b

namespace Banks

def chan (b : Banks) (c : Nat) : ChannelBank := vget b.chans c {}
def group (b : Banks) (g : Nat) : GroupBank := vget b.groups g {}
def port (b : Banks) (p : Nat) : PortBank := vget b.ports p {}
def feed (b : Banks) (z : Nat) : FeedBank := vget b.feeds z {}
def str (b : Banks) (k : Nat) : StringBank := vget b.strings k {}
def model (b : Banks) (m : Nat) : ModelBank := vget b.models m {}
def iron (b : Banks) (i : Nat) : IronBank := vget b.irons i {}

/-- The channels of a group. -/
def chansOf (b : Banks) (g : Nat) : List Nat := allChans.filter (fun c => (b.chan c).group == g)

/-- A competing channel of a group. -/
def competes (b : Banks) (c g : Nat) : Bool := decide (c < 128) && (b.chan c).group == g && (b.chan c).kind == 0

/-- The role of a group's ports, 0 without one (R10). -/
def roleOf (b : Banks) (g : Nat) : Nat :=
  match (b.group g).members with | p :: _ => (b.port p).role | [] => 0

/-- The members of a pool value (R183). -/
def poolMembers (b : Banks) (v : Nat) : List Nat :=
  allGroups.filter (fun g => (b.group g).share.sharePool == v && (b.group g).core.ports != 0)

end Banks

/-! ### Ranges -/

/-- A value lies in the range of its row and sets no reserved bit. -/
def rowOk (x : Obj) (v : Int) : Bool :=
  decide (x.row.min ≤ v) && decide (v ≤ x.row.max) && wordOk x.fam x.off x.sub v

/-- An input source that Table 02-8 admits (R77). -/
def sourceOk (src : Nat) : Bool :=
  let n := srcNum src
  src / 256 % 16 == 0 &&
  match srcKind src with
  | 0 | 7 => n == 0
  | 1 | 3 | 5 | 6 => decide (n < 32)
  | 2 | 4 | 10 => decide (n < 48)
  | 8 => decide (n < 65)
  | 9 => decide (n < 8)
  | 11 => decide (n < 16)
  | _ => false

/-- A group number field: 0 to 31, or 63 for none. -/
def groupFieldOk (g : Nat) : Bool := decide (g < 32) || g == 63

/-- A channel number field: 0 to 127, or 0xFF for none. -/
def chanFieldOk (c : Nat) : Bool := decide (c < 128) || c == 255

/-! ### Check 0x01: value out of range -/

/-- The staged fields of a family's unit lie in their ranges. -/
def rowsOk (b : Banks) (f : Family) (u : Nat) : Bool :=
  f.rows.all (fun r => (List.range (r.hi + 1 - r.lo)).all (fun k =>
    let sub := r.lo + k
    r.kind != .staged || rowOk ⟨f, u, r.off, sub, r⟩ ((b.get? f u r.off sub).getD r.min)))

def channelOk (x : ChannelBank) : Bool :=
  groupFieldOk x.group && decide (x.kind < 2) && sourceOk x.src && decide (x.uMin ≤ x.uMax)

def groupOk (x : GroupBank) : Bool :=
  x.rate != 7 && x.mode != 3 && decide (x.core.cmdLo ≤ x.core.cmdHi) && sourceOk x.core.ffSrc &&
  (decide (x.share.sharePool < 8) || x.share.sharePool == 255) && chanFieldOk x.share.capCh &&
  -- R106: 1.25 × T_ON_NOM + MIN_OFF against 1 / F_SW
  !(x.mode == 2 && decide (4000000000 < (5 * x.modul.tOnNom + 4 * x.modul.minOff) * x.modul.fSw))

def portOk (x : PortBank) : Bool :=
  groupFieldOk x.group && decide (x.role ≤ 5) && decide (x.phEn < 2 ^ x.phases) &&
  decide (x.fbIlim ≤ 327670 * x.phases) && decide (x.fbVref ≤ x.fbVov)

def stringOk (x : StringBank) : Bool :=
  chanFieldOk x.chargeCh && chanFieldOk x.dischargeCh && decide ((setBits x.ports).length ≤ 4) &&
  decide (x.floatV ≤ x.chgV) && decide (x.rechgV ≤ x.floatV) && decide (x.emptyV ≤ x.rechgV) &&
  decide (x.cutoffV < x.emptyV) && decide (x.termI ≤ x.chgI) && decide (x.qualTLo ≤ x.qualTHi)

def feedOk (x : FeedBank) : Bool :=
  (decide (x.model < 65) || x.model == 255) && decide (x.core.iCont ≤ x.core.ocLim) &&
  -- R467: OC_LIM × RSH in mA × nΩ, from 10 mV to 150 mV
  decide (10000000000 ≤ x.core.ocLim * x.core.rsh) && decide (x.core.ocLim * x.core.rsh ≤ 150000000000)

/-- The step of every node is stable: Δt × (sum of conductances) / C below 0.5 (R286); R in mK/W, C in mJ/K, and a
step of 1 ms, so that Δt / (R × C) is 1,000 / (R × C). -/
def nodesOk (x : ModelBank) : Bool :=
  decide (2 * 1000 < x.r12 * x.c1) &&
  decide (2 * 1000 * (x.r12 + x.r24) < x.r12 * x.r24 * x.c2) &&
  decide (2 * 1000 * (x.r24 + x.r3a) < x.r24 * x.r3a * x.c3)

def modelOk (m : Nat) (x : ModelBank) : Bool :=
  let bar := decide (48 ≤ m) && decide (m < 64)
  chanFieldOk x.derateCh && x.inletSrc != 3 && (bar || (x.iGroups == 0 && x.iFeeds == 0 && x.capAtThr == 2147483647)) &&
  (!x.en || nodesOk x) && decide (x.warnT ≤ x.thrT) && decide (x.thrT < x.sdT) &&
  decide ((x.warnHyst : Int) < x.warnT + 4000) && decide ((x.thrHyst : Int) < x.thrT + 4000) &&
  decide ((x.sdHyst : Int) < x.sdT + 4000) && decide (x.capFloor ≤ x.capAtThr) && decide (x.inletTw < 16)

def ironOk (x : IronBank) : Bool := x.psrc != 3 && x.function != 3 && decide (x.estMin ≤ x.estMax)

/-- Check 0x01 of a block. -/
def rangesOk (b : Banks) (id : Nat) : Bool :=
  let n := blockNum id
  (blockFamilies id).all (fun f => rowsOk b f n) &&
  match blockKind id with
  | 0 => channelOk (b.chan n)
  | 1 => groupOk (b.group n)
  | 2 => portOk (b.port n)
  | 3 => feedOk (b.feed n)
  | 4 => stringOk (b.str n)
  | 5 => modelOk n (b.model n)
  | _ => ironOk (b.iron n)

/-! ### Check 0x06: fused ceilings -/

/-- The ceiling that binds the SETPOINT of a channel with source `src` (R482). -/
def State.setpointCeiling (s : State) (src : Nat) : Option Int :=
  match srcKind src with
  | 1 | 2 | 3 => some s.maxBusSetpoint
  | 11 => some s.maxFeedCurrent
  | _ => none

/-- A set-point lies within the ceiling of its source (R482). -/
def State.setpointOk (s : State) (src : Nat) (v : Int) : Bool :=
  match s.setpointCeiling src with | some c => decide (v ≤ c) | none => true

/-- Check 0x06 of a block (R254, R482). -/
def State.ceilingsOk (s : State) (b : Banks) (id : Nat) : Bool :=
  let n := blockNum id
  match blockKind id with
  | 0 => s.setpointOk (b.chan n).src (b.chan n).setpoint
  | 3 => decide ((b.feed n).core.ocLim ≤ s.maxFeedCurrent) && decide ((b.feed n).core.iCont ≤ s.maxFeedCurrent)
  | _ => true

/-! ### Check 0x02: run-locked fields (R36, Table 01-6) -/

/-- The bits of a word that are run-locked; the whole value for the port lists. -/
def lockedMask (f : Family) (off sub : Nat) : Nat :=
  match f, off, sub with
  | .channel, 0, 1 => 0x3F000100
  | .loopGroup, 0, 1 => 0x07300000
  | .loopGroup, 0, 2 | .batString, 0, 2 => 0xFFFFFFFFFFFF
  | .stagePort, 0, 1 => 0x3F0F0300
  | _, _, _ => 0

/-- The groups that a block's run-lock looks at, from one bank (R34, R36). -/
def lockGroups (b : Banks) (id : Nat) : List Nat :=
  let n := blockNum id
  match blockKind id with
  | 0 => [(b.chan n).group].filter (decide <| · < 32)
  | 1 => [n]
  | 2 => [(b.port n).group].filter (decide <| · < 32)
  | 4 => ((setBits (b.str n).ports).map (fun p => (b.port p).group)).filter (decide <| · < 32)
  | _ => []

/-- The group counts as stopped: stopped or latched (R36). -/
def State.groupStopped (s : State) (g : Nat) : Bool := (s.group g).phase == .stopped || (s.group g).phase == .latched

/-- The sub-entries that hold run-locked fields of a block. -/
def lockedFields (id : Nat) : List (Family × Nat × Nat) :=
  match blockKind id with
  | 0 => [(.channel, 0, 1)]
  | 1 => [(.loopGroup, 0, 1), (.loopGroup, 0, 2)]
  | 2 => [(.stagePort, 0, 1)]
  | 4 => [(.batString, 0, 2)]
  | _ => []

/-- The block's run-locked fields differ between two banks (R36). -/
def lockedDiffer (old new : Banks) (id : Nat) : Bool :=
  (lockedFields id).any (fun x =>
    let m := lockedMask x.1 x.2.1 x.2.2
    ((old.get? x.1 (blockNum id) x.2.1 x.2.2).getD 0).toNat &&& m != ((new.get? x.1 (blockNum id) x.2.1 x.2.2).getD 0).toNat &&& m)

/-- Check 0x02 of a block: no run-locked field changes while a group that either bank names runs. -/
def State.locksOk (s : State) (new : Banks) (id : Nat) : Bool :=
  !(lockedDiffer s.active new id) || (lockGroups s.active id ++ lockGroups new id).all s.groupStopped

/-- The groups of which a commit changes a run-locked field: one of the group's own bank, or of a channel or port that names
it (R34). -/
def State.lockedBy (s : State) (new : Banks) (ids : List Nat) : List Nat :=
  ((ids.filter (fun id => blockKind id != 4)).filter (lockedDiffer s.active new)).flatMap (fun id => lockGroups s.active id ++ lockGroups new id)

/-! ### Checks 0x04 and 0x05: membership and roles -/

/-- One condition of a configuration: the blocks it concerns, and whether it holds. -/
structure Condition where
  blocks : List Nat
  ok     : Bool
  deriving Repr

/-- R37: a port's GROUP and the port lists agree. -/
def agreeConditions (b : Banks) : List Condition :=
  allGroups.flatMap (fun g => (allPorts.filter (fun p => (b.port p).group == g || bitAt (b.group g).core.ports p)).map (fun p =>
    ⟨[blockPort p, blockGroup g], (b.port p).group == g && bitAt (b.group g).core.ports p⟩))

/-- R10 and R57: the channels of a group; the banks before the commit tell which channels leave it. -/
def channelConditions (old b : Banks) : List Condition :=
  allGroups.map (fun g =>
    let cs := b.chansOf g
    let comp := cs.filter (fun c => (b.chan c).kind == 0)
    let x := b.group g
    ⟨blockGroup g :: (cs ++ old.chansOf g ++ [x.primary]).map blockChannel,
     decide (comp.length ≤ 8) &&
    (x.core.ports == 0 ||
      (comp.any (fun c => (b.chan c).en) && decide ((cs.filter (fun c => (b.chan c).kind == 1)).length ≤ 1) &&
       comp.contains x.primary))⟩)

/-- R12: a port serves at most one string. -/
def serveConditions (b : Banks) : List Condition :=
  allPorts.filterMap (fun p =>
    let ks := (List.range 8).filter (fun k => bitAt (b.str k).ports p)
    if ks.length < 2 then none else some ⟨blockPort p :: ks.map blockString, false⟩)

/-- The group of a string's ports. -/
def stringGroup (b : Banks) (k : Nat) : Nat :=
  match setBits (b.str k).ports with | p :: _ => (b.port p).group | [] => 63

/-- R220 and R241, membership: the strings that drive their channels. -/
def stringConditions (b : Banks) : List Condition :=
  ((List.range 8).filter (fun k => (b.str k).ctrlEn)).map (fun k =>
    let x := b.str k
    let ps := setBits x.ports
    let g := stringGroup b k
    let chOk (c : Nat) : Bool := b.competes c g && (b.chan c).src == 0x9000 + k && (b.chan c).inv
    ⟨blockString k :: blockGroup g :: ps.map blockPort ++ ([x.chargeCh, x.dischargeCh].map blockChannel) ++
       ((List.range 8).filter (fun j => (setBits (b.str j).ports).any (fun p => (b.port p).group == g))).map blockString,
     decide (g < 32) && ps.all (fun p => (b.port p).group == g) &&
     (List.range 8).all (fun j => j == k || (setBits (b.str j).ports).all (fun p => (b.port p).group != g)) &&
     x.chargeCh != x.dischargeCh && chOk x.chargeCh && chOk x.dischargeCh⟩)

/-- R12 and R220, role: the ports that serve a string are battery ports. -/
def stringRoles (b : Banks) : List Condition :=
  (List.range 8).map (fun k =>
    let ps := setBits (b.str k).ports
    ⟨blockString k :: ps.map blockPort, ps.all (fun p => (b.port p).role == roleBattery)⟩)

/-- The enabled irons. -/
def ironsOn (b : Banks) : List Nat := allIrons.filter (fun i => (b.iron i).en)

/-- R135, membership: flattening leaders and followers, and one iron per channel. -/
def ironConditions (b : Banks) : List Condition :=
  let on := ironsOn b
  let leaders := on.filter (fun i => (b.iron i).function == 1)
  let flat := on.filter (fun i => (b.iron i).function == 1 || (b.iron i).function == 2)
  flat.map (fun i =>
    let x := b.iron i
    let c := b.chan x.target
    ⟨[blockIron i, blockChannel x.target, blockGroup c.group],
     decide (c.group < 32) && c.kind == 0 && srcKind c.src == 9 && !x.inj⟩) ++
  (flat.filter (fun i => (b.iron i).function == 2)).map (fun i =>
    let x := b.iron i
    let g := (b.chan x.target).group
    let h := (b.chan (b.iron x.leader).target).group
    ⟨[blockIron i, blockIron x.leader, blockGroup g, blockGroup h, blockChannel x.target,
      blockChannel (b.iron x.leader).target],
     leaders.contains x.leader && (b.group g).rate == (b.group h).rate⟩) ++
  (if leaders.length ≤ 1 then [] else [⟨leaders.map blockIron, false⟩]) ++
  allChans.filterMap (fun c =>
    let is := on.filter (fun i => (b.iron i).target == c)
    if is.length ≤ 1 then none else some ⟨blockChannel c :: is.map blockIron, false⟩)

/-- R135, role: flattening irons target battery-role groups. -/
def ironRoles (b : Banks) : List Condition :=
  ((ironsOn b).filter (fun i => (b.iron i).function == 1 || (b.iron i).function == 2)).map (fun i =>
    let c := (b.iron i).target
    let g := (b.chan c).group
    ⟨blockIron i :: blockChannel c :: blockGroup g :: (b.group g).members.map blockPort, b.roleOf g == roleBattery⟩)

/-- R183, rate and mode of the members of a pool. -/
def poolConditions (b : Banks) : List Condition :=
  (List.range 8).map (fun v =>
    let ms := b.poolMembers v
    let x := b.group (ms.headD 0)
    ⟨ms.map blockGroup, ms.all (fun g => (b.group g).rate == x.rate && (b.group g).mode == x.mode)⟩)

/-- R183, role of the members of a pool. -/
def poolRoles (b : Banks) : List Condition :=
  (List.range 8).map (fun v =>
    let ms := b.poolMembers v
    ⟨ms.map blockGroup ++ ms.flatMap (fun g => (b.group g).members.map blockPort),
     ms.all (fun g => b.roleOf g == b.roleOf (ms.headD 0))⟩)

/-- R197 and R210: takeover mode sums rectifier contributions; a cap channel measures its group's input power. -/
def shareConditions (b : Banks) : List Condition :=
  allGroups.map (fun g => ⟨[blockGroup g], (b.group g).share.ffMode != 1 || (b.group g).core.ffSrc == 0x7000⟩) ++
  (allGroups.filter (fun g => (b.group g).share.capCh != 255)).map (fun g =>
    let c := (b.group g).share.capCh
    ⟨[blockGroup g, blockChannel c], b.competes c g && (b.chan c).src == 0x6000 + g⟩)

/-- R295: derate channels; a condition concerns the models that feed the channel and the model that its source names. -/
def derateConditions (b : Banks) : List Condition :=
  ((List.range 65).filter (fun m => (b.model m).derateCh != 255)).map (fun m =>
    let c := (b.model m).derateCh
    let g := (b.chan c).group
    let ms := (List.range 65).filter (fun k => (b.model k).derateCh == c)
    let named := if srcKind (b.chan c).src = 8 then [blockModel (srcNum (b.chan c).src)] else []
    ⟨blockModel m :: blockChannel c :: (if m < 48 then [blockPort m] else []) ++ ms.map blockModel ++ named,
     decide (g < 32) && b.competes c g && (decide (48 ≤ m) || (b.port m).group == g) &&
     srcKind (b.chan c).src == 8 && ms.contains (srcNum (b.chan c).src)⟩)

/-- R10 and Table 01-2: the ports of a group have one role, and one that may belong to a group. -/
def roleConditions (b : Banks) : List Condition :=
  (allPorts.filter (fun p => (b.port p).group < 32)).map (fun p =>
    ⟨[blockPort p], (b.port p).role != 0 && (b.port p).role != 5⟩) ++
  allGroups.map (fun g =>
    let ps := allPorts.filter (fun p => (b.port p).group == g)
    ⟨blockGroup g :: ps.map blockPort, ps.all (fun p => (b.port p).role == (b.port (ps.headD 0)).role)⟩)

/-- R179: the companion of a trained port offers the port's mode and phases. -/
def State.capsConditions (s : State) (b : Banks) : List Condition :=
  (allPorts.filter (fun p => (s.port p).link == .trained)).map (fun p =>
    let x := b.port p
    let inGroup := decide (x.group < 32)
    ⟨[blockPort p] ++ (if inGroup then [blockGroup x.group] else []),
     !capsLack ((s.port p).identity.setWidth 8) (b.group x.group).mode x.phases inGroup⟩)

/-- The conditions of check 0x04. -/
def State.memberConditions (s : State) (b : Banks) : List Condition :=
  agreeConditions b ++ channelConditions s.active b ++ serveConditions b ++ stringConditions b ++ ironConditions b ++
  poolConditions b ++ shareConditions b ++ derateConditions b

/-- The conditions of check 0x05. -/
def State.rolesConditions (s : State) (b : Banks) : List Condition :=
  roleConditions b ++ stringRoles b ++ ironRoles b ++ poolRoles b ++ s.capsConditions b

/-- The blocks that a failing condition concerns. -/
def failing (cs : List Condition) : List Nat := (cs.filter (fun c => !c.ok)).flatMap Condition.blocks

/-! ### R481: the order of the checks -/

/-- R300: a commit may not disable a model in Shut-down or Latched. -/
def State.disableOk (s : State) (b : Banks) (id : Nat) : Bool :=
  blockKind id != 5 || (b.model (blockNum id)).en || !(s.modelB (blockNum id)).en ||
  (s.model (blockNum id)).phase == .running

/-- The first check that a block fails; `ms` and `rs` are the blocks of the failing conditions. -/
def State.blockFails (s : State) (b : Banks) (ms rs : List Nat) (id : Nat) : Option Nat :=
  if !(rangesOk b id && s.disableOk b id) then some 0x01
  else if !(s.ceilingsOk b id) then some 0x06
  else if !(s.locksOk b id) then some 0x02
  else if ms.contains id then some 0x04
  else if rs.contains id then some 0x05
  else none

/-- Evaluations per second of one channel (R67). -/
def channelLoad (b : Banks) (c : Nat) : Nat :=
  let g := (b.chan c).group
  if g < 32 then 2000000 / (b.group g).k else 0

/-- The block's own change raises B: the channel's load, or the load of the channels of a group whose rate rises. A group
whose RATE rises counts even where it holds no channel (DEDUCED from R481's example, assumption 158). -/
def State.raisesBudget (s : State) (b : Banks) (id : Nat) : Bool :=
  let n := blockNum id
  match blockKind id with
  | 0 => decide (channelLoad (s.active.take id b) n > channelLoad s.active n)
  | 1 => decide (budget (s.active.take id b) > budget s.active) ||
         decide ((b.group n).k < (s.groupB n).k)
  | _ => false

/-- The configuration that a commit of some blocks makes: their pending banks, and the active banks of every other. -/
def State.merged (s : State) (ids : List Nat) : Banks := ids.foldl (fun b id => b.take id s.staged) s.active

/-- The first failure of a commit of some blocks in their order: reason and block (R481). -/
def State.validate (s : State) (ids : List Nat) : Option (Nat × Nat) :=
  let b := s.merged ids
  let ms := failing (s.memberConditions b)
  let rs := failing (s.rolesConditions b)
  match ids.findSome? (fun id => (s.blockFails b ms rs id).map (fun r => (r, id))) with
  | some f => some f
  | none =>
    if budget b ≤ s.engine.capacity then none
    else some (0x03, (ids.find? (s.raisesBudget b)).getD 0)

end Sys2Proof.Machine
end

