-- ==== Sys2Proof/Machine/Commit.lean ====
section
/-!
DEFINITION. Commits: lists, validation, swaps, and the writes that wait for a boundary, a mark or a tap (R19 to R37,
R89, R141, R479, R481).
-/
namespace Sys2Proof.Machine
set_option Elab.async false

/-- The identifiers of a commit list of 1 to 64 entries that all exist; none for a malformed list (R24). -/
def parseList (bs : List Byte) : Option (List Nat) :=
  if bs.length % 2 = 0 ∧ 2 ≤ bs.length ∧ bs.length ≤ 128 then
    let ids := (List.range (bs.length / 2)).map (fun k => fieldLe bs (2 * k) 2)
    if ids.all blockExists then some ids else none
  else none

namespace State

/-! ### Lists and boundaries -/

/-- The channels and irons that a listed group names, in ascending identifier order (R27). -/
def impliedBy (s : State) (g : Nat) : List Nat :=
  let cs := allChans.filter (fun c => (s.chanB c).group == g || (s.staged.chan c).group == g)
  cs.map blockChannel ++
  (allIrons.filter (fun i => cs.contains (s.ironB i).target || cs.contains (s.staged.iron i).target)).map blockIron

/-- The listed and implied blocks, each at its first place (R481). -/
def expandIds (s : State) (ids : List Nat) : List Nat :=
  (ids.flatMap (fun id => if blockKind id == 1 then id :: s.impliedBy (blockNum id) else [id])).eraseDups

/-- The groups that a block's active or pending bank names (R27, Table 01-4). -/
def groupsNamed (s : State) (id : Nat) : List Nat :=
  if blockKind id == 6 then
    let ts := [(s.ironB (blockNum id)).target, (s.staged.iron (blockNum id)).target]
    ((ts.map (fun c => (s.chanB c).group)) ++ ts.map (fun c => (s.staged.chan c).group)).filter (decide <| · < 32)
  else lockGroups s.active id ++ lockGroups s.staged id

/-- The grid slots between a block's boundaries (Table 01-4, R22, R27). -/
def blockPeriod (s : State) (id : Nat) : Nat :=
  match blockKind id with
  | 3 => 2
  | 4 | 5 => 2000
  | kind =>
    match s.groupsNamed id with
    | [] => if kind = 2 then 1 else 200
    | gs => gs.foldl (fun a g => Nat.lcm a (s.groupB g).k) 1

/-- The slots between the common boundaries of some blocks (Table 01-4). -/
def commonPeriod (s : State) (ids : List Nat) : Nat := ids.foldl (fun a id => Nat.lcm a (s.blockPeriod id)) 1

/-- The first common boundary of some blocks strictly after now (R25, R479). -/
def swapInstant (s : State) (ids : List Nat) : Nat :=
  let p := s.commonPeriod ids
  (s.clock.grid / p + 1) * p

/-! ### Status (R31) -/

/-- The outcome of a list, in the status word of its seat when it is the seat's latest list (R31). -/
def commitShow (s : State) (l : CommitList) (result reason failed : Nat) : State :=
  s.onSeat l.seat (fun r => if r.ticket == l.ticket then { r with result := result, reason := reason, failed := failed } else r)

/-- The block event of a swap or a refusal (Table 11-9). -/
def commitEvent (s : State) (l : CommitList) (result reason : Nat) : State :=
  let ids := l.octets.take 30
  s.blockEvent 12 l.seat result (leBytes 2 l.ticket ++ [BitVec.ofNat 8 reason, 0, BitVec.ofNat 8 (min 255 (l.octets.length / 2))] ++
    ids ++ List.replicate (31 - ids.length) 0)

/-- A list is received: the seat's ticket advances and its status names the new list (R30, R31). -/
def commitReceive (s : State) (seat : Nat) (bs : List Byte) : State :=
  let s := s.onSeat seat (fun r => { r with ticket := (r.ticket + 1) % 65536, result := 0, reason := 0, failed := 0 })
  { s with commits := { s.commits with queue := s.commits.queue ++ [⟨seat, (s.seat seat).ticket, bs⟩] } }

/-- Steps 1 to 4 of R25 for the list at the head of the queue, when no earlier commit is armed (R30). -/
def commitProcess (s : State) : State :=
  match s.commits.armed, s.commits.queue with
  | none, l :: rest =>
    let s := { s with commits := { s.commits with queue := rest } }
    let refuse (reason failed : Nat) : State := (s.commitShow l 4 reason failed).commitEvent l 4 reason
    match parseList l.octets with
    | none => refuse 0x07 0
    | some ids =>
      let bs := s.expandIds ids
      match s.validate bs with
      | some (reason, b) => refuse reason b
      | none =>
        { s.commitShow l 2 0 0 with commits := { s.commits with armed := some ⟨l, bs, s.swapInstant bs, s.commonPeriod bs⟩ } }
  | _, _ => s

/-- An armed commit has frozen the block's pending bank (R25). -/
def frozen (s : State) (id : Nat) : Bool :=
  match s.commits.armed with | some a => a.blocks.contains id | none => false

/-- An armed commit changes a run-locked field of the group: its start requests are held (R34). -/
def startHeld (s : State) (g : Nat) : Bool :=
  match s.commits.armed with
  | some a => (s.lockedBy (s.merged a.blocks) a.blocks).contains g
  | none => false

/-- The ROLE that a port's pending bank holds, or will hold once the held writes have reached it (R29). -/
def roleToCome (s : State) (p : Nat) : Nat :=
  match object? (Family.stagePort.index p 0) 1 with
  | some x => match s.pendingField x with | some v => bitsOf (BitVec.ofInt 32 v) 19 16 | none => (s.staged.port p).role
  | none => (s.staged.port p).role

/-- A received list that is neither refused nor swapped changes the ROLE of a port: the armed one by the bank that it has
frozen, a later one with the writes held for it too (R29, R346). -/
def rolePending (s : State) (p : Nat) : Bool :=
  let frozen := (s.staged.port p).role != (s.portB p).role
  s.commits.queue.any (fun l => ((parseList l.octets).getD []).contains (blockPort p) &&
    (frozen || s.roleToCome p != (s.portB p).role)) ||
  (match s.commits.armed with | some a => a.blocks.contains (blockPort p) && frozen | none => false)

/-! ### Swap effects on running blocks -/

/-- A channel whose EN turns on is initialised as at a group start (R56). `old` is its bank before the swap. DESIGN CHOICE
(assumption 152): a share channel that turns on leaves the share histories and trims of its ports as they stand, since R59 names
competing channels alone. -/
def channelSwapped (s : State) (c : Nat) (old : ChannelBank) : State :=
  let b := s.chanB c
  let s := if b.en && (!old.en || old.kind != b.kind) then s.onChan c (fun r => { r with fresh := true, fill := none }) else s
  if b.group < 32 then s.assignLanes [c] else s.onChan c (fun r => { r with lane := 255 })

/-- An iron at a swap (Table 04-1, R133). A flattening leader that leaves Fading in or Active by it returns only inside the
hysteresis band (R139). -/
def ironSwapped (s : State) (i : Nat) (old : IronBank) : State :=
  let b := s.ironB i
  let moved := old.taps != b.taps || old.injFs != b.injFs || old.function != b.function || old.inj != b.inj ||
    old.target != b.target || old.leader != b.leader
  let ph := (s.iron i).phase
  let leaves := old.function == 1 && (ph == .fadingIn || ph == .active) && (!b.en || moved)
  let s := if leaves then { s with flat := { s.flat with left := true } } else s
  let off := (s.iron i).phase == .off
  let s := if b.function == 1 && b.en && (off || moved) then { s with flat := s.flat.restart off } else s
  s.onIron i (fun r =>
    if !b.en then { r.clear with phase := .off, w := 0, invalid := false }.offActive
    else if off then { r.clear with phase := .idle, w := 0, phi := 0 }
    else if moved then { r.clear with phase := .idle, w := 0 }.offActive else r)

/-- A port at a swap: a new ROLE advances its epoch, which is kept in the parameter store, and starts the handshake
after a stop symbol (R16, R38, R449). -/
def portSwapped (s : State) (p : Nat) (old : PortBank) : State :=
  if old.role == (s.portB p).role then s
  else
    let s := s.onPort p (fun r => { r with epoch := r.epoch + 1 })
    let s := { s with working := { s.working with
      halves := vmod s.working.halves s.bootRec.half (fun w => { w with epochs := vmod w.epochs p (fun _ => (s.port p).epoch) }) } }
    if (s.port p).link == .down then s else s.enterTraining p true

/-- A feed at a swap: its FDn_THR is driven from the first one on (R260). -/
def feedSwapped (s : State) (z : Nat) : State := (s.onFeed z (fun r => { r with thr := { r.thr with armed := true } })).thrUpdate z

/-- A group at a swap: a stopped group leaves a safe-set mismatch behind (R44). -/
def groupSwapped (s : State) (g : Nat) : State :=
  s.onGroup g (fun r => if r.phase == .stopped || r.phase == .latched then { r with safeMismatch := false } else r)

/-- What the swap of one block does beside the exchange of its banks; `old` are the banks before. -/
def blockSwapped (old : Banks) (s : State) (id : Nat) : State :=
  let n := blockNum id
  match blockKind id with
  | 0 => s.channelSwapped n (old.chan n)
  | 1 => s.groupSwapped n
  | 2 => s.portSwapped n (old.port n)
  | 3 => s.feedSwapped n
  | 6 => s.ironSwapped n (old.iron n)
  | _ => s

/-- The exchange of the banks of some blocks, with each new active bank copied back (R25, steps 4 and 5). -/
def swapBanks (s : State) (ids : List Nat) : State :=
  let b := s.merged ids
  let t := ids.foldl (fun x id => x.take id b) s.staged
  { s with active := b, staged := t }

/-- A swap of some blocks with its effects; `host` says that a host's list makes it (R16). -/
def swapBlocks (s : State) (ids : List Nat) (host : Bool) : State :=
  let old := s.active
  let s := s.swapBanks ids
  let ids := if host then ids else ids.filter (fun id => blockKind id != 2)
  let s := ids.foldl (blockSwapped old) s
  let s := allPorts.foldl deliverParams s
  let s := allGroups.foldl deliverInc s
  s.recomputeD.holdDerates

/-- The held writes reach the pending bank in order of arrival, each with its change record (R29, R320). -/
def releaseHeld (s : State) : State :=
  let s := s.commits.held.foldl (fun s w =>
    match object? w.index w.sub with
    | some x =>
      let old := (s.staged.get? x.fam x.unit x.off x.sub).getD 0
      ({ s with staged := s.staged.put x.fam x.unit x.off x.sub w.value }).changeAt w.time w.episode w.index w.sub w.origin
        (x.row.ty.encode old) (x.row.ty.encode w.value)
    | none => s) s
  { s with commits := { s.commits with held := [] } }

/-- Start requests held for the swap are raised: the group takes them at its next boundary (R34, R62). -/
def releaseStarts (s : State) : State :=
  allGroups.foldl (fun s g => s.onGroup g (fun r => if r.heldStart then { r with heldStart := false, startReq := s.raised r.startReq } else r)) s

/-- The armed commit swaps at its instant (R25, R26, R29, R34); a step that comes late finds it at a later common boundary, and at
no other instant (R20). -/
def commitSwap (s : State) : State :=
  match s.commits.armed with
  | none => s
  | some a =>
    if s.clock.grid < a.swapAt || (s.clock.grid - a.swapAt) % a.period != 0 then s
    else
      let s := s.swapBlocks a.blocks true
      let s := { s with commits := { s.commits with armed := none }
                        boot := { s.boot with leftOut := s.boot.leftOut.filter (fun id => !a.blocks.contains id) } }
      let s := s.releaseHeld.releaseStarts
      (s.commitShow a.list 3 0 0).commitEvent a.list 3 0

/-! ### Writes that wait -/

/-- The first 100 µs mark strictly after an instant has come (R89). -/
def markPassed (s : State) (t : Nat) : Bool := decide (t / 200 < s.clock.grid / 200)

/-- The effect of a setting on the unit that it configures, once it is in force (Tables 03-8 and 15-1, R87). The 300 µs of a
PRESS_TON change run from the mark at which it takes effect (DESIGN CHOICE, assumption 166). -/
def settingTaken (s : State) (old : Settings) (x : Obj) : State :=
  match x.fam with
  | .timebase => s.timebaseChange old.timebase
  | .det => s.detectorEnable x.unit
  | .twPort => s.twEnable x.unit
  | .sensor => s.sensorSet old.sensors x.unit
  | _ => s

/-- A setting of kind Mark or Tap takes its value (R89, R141); THR_FORCE lies in both banks of its feed (R213). -/
def takeSetting (s : State) (w : Waiting) : State :=
  match object? w.index w.sub with
  | none => s
  | some x =>
    if x.fam == .zone then
      { s with active := s.active.put .zone x.unit 0 x.sub w.value, staged := s.staged.put .zone x.unit 0 x.sub w.value }
    else if x.fam == .capture && x.sub == 2 then
      { s with cfg := { s.cfg with captures := vmod s.cfg.captures x.unit (fun c =>
        { c with signals := Vector.ofFn (fun i => w.list.getD i.val 0) }) } }
    else
      let old := s.cfg
      ({ s with cfg := s.cfg.put x.fam x.unit x.sub w.value }).settingTaken old x

/-- Mark writes whose mark has come take effect in order of acceptance (R89); LOSS_FRAC may move the input loss across its rows
(R196). PRESS_TON and the masks of the press sets reach the companions as one change of parameters at each mark (R93, R121). -/
def marksTake (s : State) : State :=
  let due := s.commits.marks.filter (fun w => s.markPassed w.at')
  let s := { s with commits := { s.commits with marks := s.commits.marks.filter (fun w => !s.markPassed w.at') } }
  let s := due.foldl takeSetting s
  (if due.any (fun w => (object? w.index w.sub).any (·.fam == .pset)) then allPorts.foldl deliverParams s else s).lossEdge

/-- Tap writes take effect at the leader's next tap boundary (R141); without a leader no tap boundary comes. -/
def tapsTake (s : State) : State :=
  let isDue (w : Waiting) : Bool := decide (w.at' < s.flat.taps)
  let due := s.commits.taps.filter isDue
  let s := { s with commits := { s.commits with taps := s.commits.taps.filter (fun w => !isDue w) } }
  due.foldl takeSetting s

/-- The boundary that an immediate write waits for has come (R23, R479). -/
def boundaryPassed (s : State) (w : Waiting) : Bool :=
  match object? w.index w.sub with
  | some x =>
    let p := match x.fam.block? x.unit with | some id => s.blockPeriod id | none => 1
    decide (w.at' / p < s.clock.grid / p)
  | none => true

/-- Immediate writes reach the active bank at their blocks' boundaries (R23); an inlet is in force from there on (R288). -/
def immediatesTake (s : State) : State :=
  let due := s.commits.imm.filter s.boundaryPassed
  let s := { s with commits := { s.commits with imm := s.commits.imm.filter (fun w => !s.boundaryPassed w) } }
  due.foldl (fun s w =>
    match object? w.index w.sub with
    | some x =>
      let s := { s with active := s.active.put x.fam x.unit x.off x.sub w.value }
      if x.fam == .soakModel then s.onModel x.unit (fun r => { r with hostAt := r.hostNew.or r.hostAt, hostNew := none }) else s
    | none => s) s

end State
end Sys2Proof.Machine
end

