-- ==== Sys2Proof/Machine/Seats.lean ====
section
/-!
DEFINITION. Seats: opening, closing, leases, rights, stewardships, subscriptions and notifications (R328 to R348).
-/
namespace Sys2Proof.Machine
set_option Elab.async false

/-- Origin octets of a request of a seat's host (R320, R361). -/
def HostId.origin (h : HostId) (seat : Nat) : List Byte := originHost seat h.code h.port

/-- Origin of the firmware (R361). -/
def originFirmware : List Byte := originBlock 10 0

/-- The sub-indices of an index that have policy STW (R344). -/
def stwSubs (index : Nat) : List Nat := ((objectsOf index).filter (fun x => x.row.pol == .stw)).map Obj.sub

/-- A response as octets (Table 12-5). -/
def Reply.octets (r : Reply) : List Byte :=
  [0x01, BitVec.ofNat 8 r.op, BitVec.ofNat 8 r.seat, BitVec.ofNat 8 r.status, BitVec.ofNat 8 r.reason, 0] ++
  leBytes 2 r.session.toNat ++ leBytes 2 r.tag ++ leBytes 2 r.body.length ++ r.body

/-- A notification as octets: a message with OP 0x30 and TAG 0 (Tables 12-5 and 12-6). -/
def noticeOctets (seat flags : Nat) (session : Half) (n : Notice) : List Byte :=
  let body := [BitVec.ofNat 8 n.num, BitVec.ofNat 8 flags] ++ leBytes 2 n.nseq ++ leBytes 8 n.time ++ leBytes 2 n.index ++
    [BitVec.ofNat 8 n.sub, BitVec.ofNat 8 n.type] ++ leBytes 2 n.data.length ++ n.data
  [0x01, 0x30, BitVec.ofNat 8 seat, 0, 0, 0] ++ leBytes 2 session.toNat ++ [0, 0] ++ leBytes 2 body.length ++ body

/-! ### CAN FD frames (R352, R353) -/

/-- The identifier of a frame that the part sends (Table 12-10). -/
def canIdent (func node seat mark : Nat) (last : Bool) (seg : Nat) : BitVec 29 :=
  BitVec.ofNat 4 func ++ BitVec.ofNat 5 node ++ BitVec.ofNat 3 seat ++ (0 : BitVec 1) ++ BitVec.ofNat 8 mark ++
    BitVec.ofBool last ++ BitVec.ofNat 7 seg

/-- The next length that a CAN FD frame can have, from a number of octets up to 64. -/
def canLength (n : Nat) : Nat := ([8, 12, 16, 20, 24, 32, 48, 64].find? (fun k => decide (n ≤ k) && decide (8 < n))).getD n

/-- A message as frames of 64 octets, the last one padded with zeros to a valid length (R353). -/
def canFrames (ctrl func node seat mark : Nat) (m : List Byte) : List Sent :=
  let n := (m.length + 63) / 64
  (List.range n).map (fun k =>
    let x := (m.drop (64 * k)).take 64
    .can ctrl (canIdent func node seat mark (k + 1 == n) k) (x ++ List.replicate (canLength x.length - x.length) 0))

namespace State

/-- The word of a CAN FD controller: bench mode takes the default (R356). -/
def canWord (s : State) (c : Nat) : Word := if s.boot.phase == .bench then 0x00002101 else (vget s.cfg.cans c {}).word

/-- A host is on a CAN FD bus whose controller is bus-off: nothing reaches it (R354). -/
def busOff (s : State) (h : HostId) : Bool := h.code == 2 && (vget s.cans h.port {}).errorState == 2

/-- The NODE of the shelf on a controller's bus (Table 12-15). -/
def canNode (s : State) (c : Nat) : Nat := bitsOf (s.canWord c) 28 24

/-- A response as it leaves at once: the message, over CAN FD with its frames of FUNC 0x2 (R351, R352, R353). -/
def replySent (s : State) (r : Reply) : List Sent :=
  .reply r :: if r.host.code = 2 then canFrames r.host.port 2 (s.canNode r.host.port) r.seat r.mark r.octets else []

/-- A notification as it leaves to a host: the message, over CAN FD with its frames of FUNC 0x3 (Table 12-9). -/
def noticeSent (s : State) (k : Nat) (host : HostId) (mark flags : Nat) (n : Notice) : List Sent :=
  .notice k host mark flags n ::
    if host.code = 2 then canFrames host.port 3 (s.canNode host.port) k mark (noticeOctets k flags (s.seat k).session n) else []

/-! ### The queues of the target ports (R355, Table 12-17) -/

def onTt (s : State) (t : Nat) (f : TargetRun → TargetRun) : State := { s with tts := vmod s.tts t f }
def tt (s : State) (t : Nat) : TargetRun := vget s.tts t {}
def ttWord (s : State) (t : Nat) : Word := (vget s.cfg.tts t {}).word
/-- The seat that a target port serves. -/
def ttSeat (s : State) (t : Nat) : Nat := bitsOf (s.ttWord t) 6 4

/-- Notifications of the port's seat wait in its queue. -/
def ttNotices (s : State) (t : Nat) : List Notice :=
  let r := s.seat (s.ttSeat t)
  if r.latest.1.code = 3 ∧ r.latest.1.port = t then r.notices else []

/-- The queue of the port holds nothing. -/
def ttEmpty (s : State) (t : Nat) : Bool := (s.tt t).responses.isEmpty && (s.ttNotices t).isEmpty

/-- A port whose queue has been emptied has no Host Notify under way: the next entry calls anew (R437). -/
def ttQuiet (s : State) : State :=
  [0, 1].foldl (fun s t => if s.ttEmpty t then s.onTt t (fun x => { x with notified := none, retry := false }) else s) s

/-- Responses of a seat that wait in the queues of the target ports: its requests that are not answered yet (R339). -/
def unanswered (s : State) (k : Nat) : Nat :=
  ([0, 1].flatMap (fun t => (s.tt t).responses.filter (fun q => q.counts && q.reply.seat == k))).length

/-- The queue of a port holds 8 responses (R355). -/
def ttFull (s : State) (t : Nat) : Bool := decide (8 ≤ ((s.tt t).responses.filter Queued.counts).length)

/-! ### Values as last accepted -/

/-- The value that the latest accepted write gave an object, whether it is in force yet or not; without one that waits,
the value that a READ returns. -/
def accepted (s : State) (x : Obj) : Int :=
  let idx := x.fam.index x.unit x.off
  let ws := (s.commits.marks ++ s.commits.taps ++ s.commits.imm).filter (fun w => w.index == idx && w.sub == x.sub)
  let unsent := s.tts.toList.flatMap (fun t => t.responses.filterMap (fun q => q.effect))
  match ws.getLast?, unsent.reverse.find? (fun e => e.1 == idx && e.2.1 == x.sub) with
  | some w, _ => w.value
  | none, some e => e.2.2
  | none, none => s.value 255 false x

/-! ### Closing (R331) -/

/-- The combined sub-entries of a seat: shelf input cap and zone caps (R345). -/
def subEntries (k : Nat) : List Obj :=
  (objectsOf 0x2100 ++ (List.range 16).flatMap (fun z => objectsOf (0x2110 + z))).filter (fun x => x.sub == k + 1)

/-- A combined sub-entry takes its neutral value, the top of its range, with a record that is never merged (R331, R345,
R361). -/
def neutralise (s : State) (x : Obj) : State :=
  let idx := x.fam.index x.unit x.off
  let old := s.accepted x
  let marks := s.commits.marks.filter (fun w => !(w.index == idx && w.sub == x.sub))
  let s := { s with cfg := s.cfg.put x.fam x.unit x.sub x.row.max, commits := { s.commits with marks := marks } }
  s.changeAlone idx x.sub originFirmware (x.row.ty.encode old) (x.row.ty.encode x.row.max)

/-- A seat closes with a cause: the steps of R331 and the change record of its state (R361). -/
def closeSeat (s : State) (k cause : Nat) (origin : List Byte) : State :=
  let old := (s.seat k).phase.code
  let s := (subEntries k).foldl neutralise s
  let s := { s with tts := s.tts.map (fun (t : TargetRun) => { t with responses := t.responses.filter (fun q => q.reply.seat != k) }) }
  let s := s.onSeat k (fun r => { r with
    phase := .free, session := 0, host := {}, lease := 0, subs := [], stews := [], notices := [], overrun := false
    replay := [], inBench := false, lastClose := cause })
  s.ttQuiet.change (0x1100 + k) 2 origin [BitVec.ofNat 8 old] [0]

/-- The lease timer of a seat has reached the lease granted (Table 12-2). -/
def leaseOver (s : State) (k : Nat) : Bool := decide (100000 * (s.seat k).lease ≤ elapsedAo s (s.seat k).leaseAt)

/-- Expiry of an open seat (cause 1). -/
def seatExpire (s : State) (k : Nat) : State :=
  if (s.seat k).phase == .opened && s.leaseOver k then s.closeSeat k 1 originFirmware else s

/-- Expiry of an orphaned seat (cause 5). -/
def orphanExpire (s : State) (k : Nat) : State :=
  if (s.seat k).phase == .orphaned && s.leaseOver k then s.closeSeat k 5 originFirmware else s

/-- Seats open over one port close with cause 4 (R363). -/
def closeTransport (s : State) (code port : Nat) : State :=
  (List.range 8).foldl (fun s k =>
    let r := s.seat k
    if r.phase == .opened && r.host.code == code && r.host.port == port then s.closeSeat k 4 originFirmware else s) s

/-- Firmware closes the seats that bench mode opened (R356). -/
def closeBench (s : State) : State :=
  (List.range 8).foldl (fun s k => if (s.seat k).inBench then s.closeSeat k 4 originFirmware else s) s

/-- An open seat at a reset other than power-on reset (Table 12-2). -/
def orphanSeat (s : State) (k : Nat) : State :=
  s.onSeat k (fun r => if r.phase == .opened then { r with
    phase := .orphaned, subs := [], notices := [], overrun := false, replay := [], leaseAt := s.clock.up } else r)

/-! ### Opening (R329, R330) -/

/-- The bit of TRANSPORTS for a host (Table 12-1). -/
def transportBit (h : HostId) : Nat := 8 + 2 * (h.code - 1) + h.port

/-- An OPEN of a seat is valid and a row of Table 12-2 admits it (R329, R330). -/
def openOk (s : State) (k cls : Nat) (h : HostId) : Bool :=
  let b := vget s.cfg.bindings k 0
  let r := s.seat k
  bitAt b (transportBit h) && bitAt b cls && decide (cls < 3) &&
  (match r.phase with
   | .free => true
   | .opened => r.host == h
   | .orphaned => r.host == h && r.cls == cls)

/-- A new session number, never 0 (R330). -/
def drawSession (s : State) : Half := if Config.freeSession s.draws = 0 then 1 else Config.freeSession s.draws

/-- The lease that a seat grants, in 100 ms (Table 12-6). -/
def leaseGranted (s : State) (k lease : Nat) : Nat := min lease (10 * bitsOf (vget s.cfg.bindings k 0) 31 24)

/-- A seat opens: a reopening closes the old session first, an orphan keeps its stewardships (Table 12-2). -/
def openSeat (s : State) (k cls lease : Nat) (h : HostId) : State :=
  let s := if (s.seat k).phase == .opened then s.closeSeat k 2 originFirmware else s
  let old := (s.seat k).phase.code
  let session := s.drawSession
  let granted := s.leaseGranted k lease
  let s := s.onSeat k (fun r => { r with
    phase := .opened, cls := cls, host := h, session := session, lease := granted
    leaseAt := s.clock.up, openedAt := s.shelfNs, processed := 0, subs := [], notices := [], nseq := 0, overrun := false
    replay := [], canMark := 0, inBench := s.boot.phase == .bench })
  let s := { s with draws := s.draws + 1 }
  s.change (0x1100 + k) 2 (h.origin k) [BitVec.ofNat 8 old] [1]

/-- The mask of Free seats (IDENTIFY). -/
def freeSeats (s : State) : Nat :=
  (List.range 8).foldl (fun a k => if (s.seat k).phase == .free then a + 2 ^ k else a) 0

/-! ### Rights (R333, R356, R382) -/

/-- The class holds a right in the area of an index; bench mode applies no rights. -/
def hasRight (s : State) (cls index : Nat) (write : Bool) : Bool :=
  s.boot.phase == .bench ||
  bitAt (vget s.cfg.rights (areaOf index - 1) 0) (2 * cls + (if write then 1 else 0))

/-- A seat may read an object (R333, Table 13-11). -/
def mayRead (s : State) (k : Nat) (index sub : Nat) : Bool :=
  index == 0x1110 || (index == 0x8801 && sub == k + 1) ||
  ((index == 0x20F1 || index == 0x20F2) && sub == k + 1) ||
  (s.hasRight (s.seat k).cls index false && !(index == 0x8801 && sub != 0 && s.boot.phase != .bench))

/-- A seat may read what a subscription names: a sub-entry, or with sub 0xFF every sub-entry of the index (R333, R347). -/
def mayReadAll (s : State) (k index sub : Nat) : Bool :=
  if sub = 255 then (objectsOf index).all (fun x => s.mayRead k index x.sub) else s.mayRead k index sub

/-- A seat may write an object (R333, Table 13-11). -/
def mayWrite (s : State) (k : Nat) (index sub : Nat) : Bool :=
  if index == 0x8801 then sub == k + 1 else s.hasRight (s.seat k).cls index true

/-! ### Stewardships (R344) -/

/-- The holder of a sub-entry's stewardship, 255 none. -/
def steward (s : State) (index sub : Nat) : Nat :=
  ((List.range 8).find? (fun k => (s.seat k).stews.contains (index, sub))).getD 255

/-- The sub-entries that a STEWARD request covers. -/
def stewardSubs (index sub : Nat) : List Nat := if sub = 255 then stwSubs index else (stwSubs index).filter (· == sub)

/-- Stewardships of some sub-entries pass to a seat. -/
def grant (s : State) (k index : Nat) (subs : List Nat) : State :=
  let s := { s with seats := s.seats.map (fun (r : SeatRun) =>
    { r with stews := r.stews.filter (fun p => !(p.1 == index && subs.contains p.2)) }) }
  s.onSeat k (fun r => { r with stews := r.stews ++ subs.map (fun b => (index, b)) })

/-- The seat would hold at most 64 stewardships (R344). -/
def grantFits (s : State) (k index : Nat) (subs : List Nat) : Bool :=
  decide (((s.seat k).stews.filter (fun p => !(p.1 == index && subs.contains p.2))).length + subs.length ≤ 64)

/-- Acquire is admitted: every sub-entry is free or the seat's own. -/
def acquireOk (s : State) (k index : Nat) (subs : List Nat) : Bool :=
  subs.all (fun b => s.steward index b == 255 || s.steward index b == k)

/-- Release of the seat's own stewardships among some sub-entries. -/
def ungrant (s : State) (k index : Nat) (subs : List Nat) : State :=
  s.onSeat k (fun r => { r with stews := r.stews.filter (fun p => !(p.1 == index && subs.contains p.2)) })

/-- Release is admitted (R344). -/
def releaseOk (s : State) (k index : Nat) (subs : List Nat) : Bool :=
  subs.any (fun b => s.steward index b == k) || subs.all (fun b => s.steward index b == 255)

/-! ### Notifications (R347, R348, R382) -/

/-- The octets a subscription compares and sends: one sub-entry, or sub-entries 1 onward; the active bank (R341). -/
def subscribed (s : State) (k index sub : Nat) : List Byte :=
  if sub = 255 then (objectsOf index).flatMap (fun x => s.octets k true x)
  else match anyObject? index sub with | some x => s.octets k true x | none => []

/-- The type code of a notification; 255 where it carries a whole index (DESIGN CHOICE). -/
def subscribedType (s : State) (index sub : Nat) : Nat :=
  if sub = 255 then 255 else match anyObject? index sub with | some x => s.typeCode x | none => 255

/-- A notification joins the seat's queue of 64 with the next NSEQ; the oldest goes when it is full (R348). -/
def queueNotice (s : State) (k : Nat) (sub : Subscription) (ended : Bool) (data : List Byte) : State :=
  s.onSeat k (fun r =>
    let n : Notice := { num := sub.num, ended := ended, nseq := r.nseq, time := s.shelfNs, index := sub.index, sub := sub.sub
                        type := s.subscribedType sub.index sub.sub, data := data, stamp := s.clock.up }
    let q := r.notices ++ [n]
    { r with notices := if 64 < q.length then q.drop 1 else q, overrun := r.overrun || decide (64 < q.length)
             nseq := (r.nseq + 1) % 65536 })

/-- The oldest queued notification leaves: OVERRUN in the first after a discard, and the seat's CAN FD message number
advances (R348, R352). -/
def popNotice (s : State) (k : Nat) : State × Option (Nat × Notice) :=
  let r := s.seat k
  match r.notices with
  | [] => (s, none)
  | n :: rest =>
    (s.onSeat k (fun r => { r with notices := rest, overrun := false, canMark := (r.canMark + 1) % 256 }),
     some (flagBit r.overrun 0 + flagBit n.ended 1, n))

/-- Queued notifications of a seat go out over UDP or CAN FD, `n` of them at most; a target port's wait for
OAP_READ, those over a controller that is bus-off for its recovery. -/
def drainNotices (s : State) (k : Nat) : Nat → State
  | 0 => s
  | n + 1 =>
    let r := s.seat k
    if r.latest.1.code = 3 ∨ s.busOff r.latest.1 then s
    else match s.popNotice k with
      | (s, some (flags, x)) =>
        let mark := if r.latest.1.code = 2 then r.canMark else r.latest.2
        drainNotices { s with out := s.out ++ s.noticeSent k r.latest.1 mark flags x } k n
      | (s, none) => s

/-- A subscription notifies its present value. -/
def notify (s : State) (k : Nat) (sub : Subscription) : State :=
  let v := s.subscribed k sub.index sub.sub
  (s.queueNotice k sub false v).onSeat k (fun r => { r with subs := r.subs.map (fun x =>
    if x.num == sub.num then { x with sentAt := s.clock.up, last := v } else x) })

/-- The subscription of a number. -/
def subscription? (s : State) (k num : Nat) : Option Subscription := (s.seat k).subs.find? (·.num == num)

/-- A periodic subscription whose interval has passed (R347). -/
def notifyPeriodic (s : State) (k num drain : Nat) : State :=
  match s.subscription? k num with
  | some x => if x.periodic && x.interval ≤ elapsedAo s x.sentAt then (s.notify k x).drainNotices k drain else s.drainNotices k drain
  | none => s.drainNotices k drain

/-- An on-change subscription whose value differs and whose interval has passed (R347). -/
def notifyChange (s : State) (k num drain : Nat) : State :=
  match s.subscription? k num with
  | some x =>
    if !x.periodic && x.interval ≤ elapsedAo s x.sentAt && s.subscribed k x.index x.sub != x.last then
      (s.notify k x).drainNotices k drain
    else s.drainNotices k drain
  | none => s.drainNotices k drain

/-- A subscription ends with a final notification that carries ENDED (R334). -/
def endSubscription (s : State) (k : Nat) (x : Subscription) : State :=
  let s := s.queueNotice k x true (s.subscribed k x.index x.sub)
  (s.onSeat k (fun r => { r with subs := r.subs.filter (·.num != x.num) })).drainNotices k 64

/-- Subscriptions whose read right a rights word has withdrawn end (R334). -/
def endUnread (s : State) : State :=
  (List.range 8).foldl (fun s k =>
    ((s.seat k).subs.filter (fun x => !(s.mayReadAll k x.index x.sub))).foldl
      (fun s x => s.endSubscription k x) s) s

end State
end Sys2Proof.Machine
end

