-- ==== Sys2Proof/Machine/Boot.lean ====
section
/-!
DEFINITION. Boot, hardware-run, bench mode and resets (R39 to R44, R383 to R398, R440 to R453).
-/
namespace Sys2Proof.Machine
set_option Elab.async false

/-! ### What a warm reset keeps (Table 16-3) -/

/-- The state of a port that a warm reset keeps: its epoch (R449), and that its first temperature report has come since power-on
reset (R287). -/
def PortRun.kept (r : PortRun) : PortRun := { epoch := r.epoch, tempSeen := r.tempSeen }

/-- The state of a group that a warm reset keeps, with its resume mark (R325, R450). -/
def GroupRun.kept (r : GroupRun) : GroupRun :=
  { last := r.last, thermalMark := r.thermalMark
    resumeMark := match r.phase with | .softStart | .run | .retryWait | .fallback => true | _ => r.resumeMark }

/-- The state of a feed that a warm reset keeps (R256, R259, Table 16-3). -/
def FeedRun.kept (r : FeedRun) : FeedRun :=
  { phase := r.phase, cause := r.cause, retry := r.retry, shed := r.shed, pcg := r.pcg, mng := r.mng
    seatFault := r.seatFault, thr := r.thr, thermalMark := r.thermalMark, ocTrip := r.ocTrip }

/-- The count of a string, its slots in MRAM, and the flags that only an anchor or a host drops (R217, R231, R238, R242). -/
def StringRun.kept (r : StringRun) : StringRun :=
  { a := r.a, remNum := r.remNum, remDen := r.remDen, slots := r.slots, checks := r.checks
    early := r.early, uncertain := r.uncertain, rejected := r.rejected, learnLost := r.learnLost }

/-- The slot writes under way are completed (R239). -/
def StringRun.written (r : StringRun) : StringRun := r.learnDone.checkDone

namespace State

def onBoot (s : State) (f : BootRun → BootRun) : State := { s with boot := f s.boot }

/-- Time passes, and nothing else does, while the logic die is in reset. -/
def running (s : State) (f : State → State) : State := if s.boot.phase == .held then s else f s

/-- A function that only the management firmware performs. -/
def withFirmware (s : State) (f : State → State) : State := if s.fw then f s else s

/-! ### Records -/

/-- A boot event (Table 14-10); slot 255 is none. -/
def bootEvent (s : State) (event slot : Nat) : State :=
  let r := s.bootRec
  let c := (s.slotImg slot).content
  s.record 6 ([BitVec.ofNat 8 event, BitVec.ofNat 8 r.reason, BitVec.ofNat 8 slot, BitVec.ofNat 8 r.count,
    BitVec.ofNat 8 r.cause, BitVec.ofNat 8 s.boot.cause, 0, 0] ++ leBytes 4 (slotVersion c) ++ leBytes 4 r.stored ++
    leBytes 4 (if headerOk c then dataVersion c else 0) ++ List.replicate 24 0)

/-! ### Requests of the part itself (R42, R450, R282) -/

/-- A start request to a group; safe state and a thermal hold refuse it (R293, R308). -/
def requestGroup (s : State) (g : Nat) : State :=
  if s.lint.safe then s
  else if s.groupHeld g then s.onGroup g (fun r => { r with thermalMark := true })
  else s.onGroup g (fun r => { r with startReq := s.raised r.startReq, startHost := false })

/-- A start request to a feed; safe state, a thermal hold and a shed mark refuse it (R256, R293, R308). -/
def requestFeed (s : State) (z : Nat) : State :=
  if s.lint.safe then s
  else if s.feedHeld z then s.onFeed z (fun r => { r with thermalMark := true })
  else if (s.feed z).shed then s
  else s.onFeed z (fun r => { r with startReq := s.raised r.startReq, startHost := false })

/-- An up request to an order; safe state refuses it outside SAFE_KEEP (R308). -/
def requestUp (s : State) (k : Nat) : State :=
  if s.lint.safe && !bitAt s.cfg.episode.safeKeep k then s else s.onOrder k (fun o => { o with upReq := s.raised o.upReq })

/-- Start requests to the marked groups; every mark is cleared (R450). -/
def resumeMarks (s : State) : State :=
  allGroups.foldl (fun s g =>
    if (s.group g).resumeMark then (s.requestGroup g).onGroup g (fun r => { r with resumeMark := false }) else s) s

/-! ### The safe set (R39 to R43) -/

/-- The copy that the boot ROM uses: the valid one with the higher sequence number (R39). -/
def newestSafe (s : State) : Option SafeCopy := s.safeSet.newest

/-- What a capture copies, with the next sequence number (R39, R40, R42). -/
def safeContent (s : State) : SafeContent :=
  { seq := match s.newestSafe with | some c => (c.seq + 1) % 4294967296 | none => 1
    banks := s.active, cfg := s.cfg, hwMode := s.cfg.hwMode, cEff := s.shelf.caps.cEff
    groups := maskOf 32 (allGroups.filter (fun g => s.evaluated g || (s.group g).phase == .retryWait || (s.group g).phase == .fallback))
    feeds := maskOf 16 (allFeeds.filter (fun z => (s.feed z).phase != .off && (s.feed z).phase != .latched))
    orders := maskOf 4 (allOrders.filter (fun k => (s.order k).phase == .rising || (s.order k).phase == .up)) }

/-- A capture is copied into the older copy, which is invalid until its CRC is written (R39, R40). -/
def safeCapture (s : State) : State :=
  let c : SafeCopy := { toSafeContent := s.safeContent }
  let toA := s.safeSet.overA
  { s with safeSet := { copyA := if toA then some c else s.safeSet.copyA, copyB := if toA then s.safeSet.copyB else some c
                        status := 1, writing := some toA } }

/-- A copy with the CRC over its content (R39). -/
def sealed (c : Option SafeCopy) : Option SafeCopy := c.map (fun c => { c with crc := some (Config.freeSafeCrc c.toSafeContent) })

/-- The CRC of a capture is written: its copy is valid (R40). -/
def safeDone (s : State) : State :=
  match s.safeSet.writing with
  | none => s
  | some toA =>
    { s with safeSet :=
      { copyA := if toA then sealed s.safeSet.copyA else s.safeSet.copyA
        copyB := if toA then s.safeSet.copyB else sealed s.safeSet.copyB, status := 2, writing := none } }

/-! ### Loading a configuration -/

/-- Cap requests of the seats lie in the always-on section and are not loaded (R330, R345). -/
def loadSettings (s : State) (c : Settings) : State :=
  let old := s.cfg
  let s := { s with cfg := { c with capShelf := old.capShelf, capZone := old.capZone } }
  let s := (List.range 8).foldl detectorEnable s
  (s.timebaseChange old.timebase)

/-- Ports whose uplink has symbol lock begin their bring-up when the links start (R177). -/
def linksStart (s : State) : State := allPorts.foldl trainDown s

/-- The boot ROM starts hardware-run from the newest valid copy (R42, R43). -/
def hardwareStart (s : State) : State :=
  match s.newestSafe with
  | none => s
  | some c =>
    let s := { s with active := c.banks, staged := c.banks, hardwareRun := true, seq := { s.seq with driven := true } }
    let s := (s.loadSettings { c.cfg with wdtTimeout := s.cfg.wdtTimeout }).onShelf (fun r =>
      { r with caps := { r.caps with cEff := c.cEff } })
    let s := s.assignLanes (allChans.filter (fun k => decide ((s.chanB k).group < 32)))
    let s := allFeeds.foldl feedSwapped s
    let s := allGroups.foldl (fun s g => s.deliverInc g) s
    let s := s.recomputeD.holdDerates
    let s := (setBits c.groups).foldl requestGroup s
    let s := (setBits c.feeds).foldl requestFeed s
    let s := (setBits c.orders).foldl requestUp s
    (s.resumeMarks.linksStart).bootEvent 8 255

/-! ### The firmware's load (R44, R385, R386) -/

/-- Every block of the part. -/
def allBlocks : List Nat :=
  (List.range 7).flatMap (fun k => (List.range (blockCount k)).map (4096 * k + ·))

/-- The groups named by a block whose run-locked fields a load under hardware-run would change (R44). -/
def lockedRunning (s : State) (b : Banks) (id : Nat) : List Nat :=
  if s.hardwareRun && lockedDiffer s.active b id then lockGroups s.active id ++ lockGroups b id else []

/-- A block's bank with the run-locked fields that are in force (R44). -/
def keepLocked (s : State) (b : Banks) (id : Nat) : Banks :=
  (lockedFields id).foldl (fun b x =>
    let m := lockedMask x.1 x.2.1 x.2.2
    let old := ((s.active.get? x.1 (blockNum id) x.2.1 x.2.2).getD 0).toNat
    let new := ((b.get? x.1 (blockNum id) x.2.1 x.2.2).getD 0).toNat
    b.put x.1 (blockNum id) x.2.1 x.2.2 ((new - (new &&& m) + (old &&& m) : Nat) : Int)) b

/-- The firmware loads the working configuration and commits it without stopping a group (R44, R385, R386). DESIGN CHOICE
(assumption 127): the pending banks keep the working configuration, so that a host that stops a group with a mismatch has its
values to commit; R25 step 5 would leave the values in force there, and R44 says neither. -/
def loadWorking (s : State) : State :=
  let w := s.working.half s.bootRec.half
  let s := s.loadSettings w.cfg
  let bad := allBlocks.filter (fun id => !s.ceilingsOk w.banks id)
  let locked := (allBlocks.filter (fun id => !bad.contains id)).filter (fun id => !(s.lockedRunning w.banks id).isEmpty)
  let gs := (locked.flatMap (s.lockedRunning w.banks)).eraseDups
  let mixed := locked.foldl s.keepLocked w.banks
  let s := { s with staged := mixed }
  let s := s.swapBlocks (allBlocks.filter (fun id => !bad.contains id)) false
  let s := { s with staged := w.banks, boot := { s.boot with leftOut := bad } }
  let s := gs.foldl (fun s g => (s.onGroup g (fun r => { r with safeMismatch := true })).detect (srcGroupLock g) 2) s
  s.detectIf (!bad.isEmpty) srcBoot 6

/-- The working configuration as the firmware has stored it (R38, R44): the active banks, but for a block that a start
left out or whose run-locked fields the safe set holds. -/
def saveWorking (s : State) : State :=
  if s.boot.phase != .serving then s
  else
    let kept := allBlocks.filter (fun id => s.boot.leftOut.contains id ||
      (lockGroups s.active id).any (fun g => (s.group g).safeMismatch))
    { s with working := { s.working with halves := vmod s.working.halves s.bootRec.half (fun w =>
      { w with banks := kept.foldl (fun b id => b.take id w.banks) s.active, cfg := s.cfg }) } }

/-! ### From reset to the release of the cores -/

/-- The record writes under way are stopped: of the oldest, `n` of its eight words are in the ring, the others have not begun. None
of them counts, and their SEQ numbers are given again (R315 to R317). -/
def cutRecord (s : State) (n : Nat) : State :=
  let k := s.score.writing
  if 0 < k ∧ n < 8 then
    { s with score := { s.score with recs := s.counting, writing := 0, seq := (s.score.seq + 4294967296 - k) % 4294967296
                                     torn := if n = 0 then s.score.torn else some n } }
  else s.recordsWritten

/-- A power-fail warning acts (R316, R325, R451): it stops a record whose write is under way, and the saves of captures and
last-fault records; the count checkpoints are written. -/
def powerFail (s : State) (cut : Option Nat) : State :=
  let s := match cut with | some n => s.cutRecord n | none => s.recordsWritten
  let s := s.detect srcSupply 0
  let s := if s.fw then s.checkpointAll else s
  let saving := (List.range 8).filter (fun c => (s.capture c).phase == .saving)
  let s := saving.foldl (fun s c => (s.onCapture c (fun r => { r with phase := .invalid, window := none })).detect srcScorebook 1) s
  let s := allGroups.foldl (fun s g => s.onGroup g (fun r => { r with last := r.last.cut })) s
  { s with score := { s.score with stopped := true } }

/-- An open start attempt is marked: the reset that ends it is not a failed start (R392, R451). -/
def excuseAttempt (s : State) : State := s.onRec (fun r => { r with excused := r.excused || r.attempt })

/-- Failed-start cause of a reset cause (Table 16-2), 0 none. -/
def failedCause : Nat → Nat
  | 0x14 => 1 | 0x13 => 2 | 0x11 => 3 | 0x10 => 4 | _ => 0

/-- The boot ROM rebuilds a boot record that has no valid copy; where no slot verifies, none is marked good (R390). -/
def rebuildRecord (s : State) : State :=
  let ok (k : Nat) : Bool := slotVerifies (s.slotImg k).content && !(s.slotImg k).unusable
  let k := if ok 1 && (!ok 0 || fwVersion (s.slotImg 0).content < fwVersion (s.slotImg 1).content) then 1 else 0
  let s := s.onRec (fun _ => ({ active := k, goodA := false, stored := dataVersion (s.slotImg k).content, reason := 6
                                next := some 6 } : BootRecord).mark k (ok k))
  (s.detect srcBoot 7).bootEvent 10 k

/-- The boot ROM reads the boot record: the newest valid copy, or a rebuilt record (R384, R389, R390). -/
def readRecord (s : State) : State :=
  match s.bootRec.newest with
  | some c => { s with bootRec := { s.bootRec with toBootRecord := c.record } }
  | none => s.rebuildRecord

/-- The learned-values area as a migration copy takes it, and put back from one (R395, R396). -/
def learnedCopy (s : State) : LearnedCopy :=
  { slots := s.strings.map (fun (r : StringRun) => r.slots), checks := s.strings.map (fun (r : StringRun) => r.checks)
    faults := s.groups.map (fun (r : GroupRun) => r.last) }

def learnedBack (s : State) (c : LearnedCopy) : State :=
  { s with strings := mapIdx s.strings (fun k r => { r with slots := vget c.slots k.val r.slots, checks := vget c.checks k.val r.checks })
           groups := mapIdx s.groups (fun g r => { r with last := vget c.faults g.val r.last }) }

/-- The old half and the migration copy are restored, where a migration is held (R396). -/
def restoreOld (s : State) : State :=
  if s.bootRec.migrated then
    let s := match s.working.copy with | some c => s.learnedBack c | none => s
    ({ s with working := { s.working with copy := none } }).onRec (fun r => { r with half := 1 - r.half, migrated := false })
  else s

/-- The attempt that the last start left open (R392, R393, R396). A trial is never tried twice: one whose attempt is no failed
start ends as well, and the previous slot starts with its old data (R393). DEDUCED (assumption 153): its start has reason 0x00. -/
def judgeAttempt (s : State) : State :=
  let r := s.bootRec
  let c := failedCause s.boot.cause
  if !r.attempt then s
  else if r.excused || c = 0 then
    let s := s.onRec (fun r => { r with
      attempt := false, excused := false, ofTrial := false, trial := if r.ofTrial then 255 else r.trial })
    if r.ofTrial then s.restoreOld else s
  else
    let n := min 3 (r.count + 1)
    let s := s.onRec (fun r => { r with
      attempt := false, count := n, cause := c, ofTrial := false, trial := if r.ofTrial then 255 else r.trial })
    let s := (s.detect srcBoot 0).bootEvent 2 s.boot.slot
    if r.ofTrial then
      let s := (s.detect srcBoot 1).restoreOld
      if n < 3 then (s.onRec (fun r => { r with next := some 2, reason := 2 })).bootEvent 5 r.active else s
    else s

/-- The reference that the boot ROM selects from the count of REFIN in 100 µs: REFIN (1) within ±3 % of 25 MHz, the crystal (0)
otherwise (R440). -/
def referenceOf (count : Nat) : Nat := if 2425 ≤ count ∧ count ≤ 2575 then 1 else 0

/-- The hold of the reset under way has ended: WARM_RESET_END for a warm reset, every supply up for 1 ms and RESET_N high for a
power-on reset (R445, R458). -/
def holdOver (s : State) : Bool :=
  let b := s.boot
  !b.aoLost && !b.resetLow &&
    (if b.powerOn then (match b.riseAt with | some t => decide (1000 ≤ elapsedAo s t) | none => true) else b.ended)

/-- A warning that began during the reset acts at its end, when the attempt that the reset ended is closed already (R392, R452). -/
def lateWarning (s : State) : State := if s.boot.warned then s.powerFail none else s

/-- The PLL locks, or fails to lock within 10 ms: the boot ROM's steps 1 to 3 (R384, R440, R442, R447, R449). This start opens the
scorebook, but after a warning that began during the reset it stays closed until the next one (R316, R452). -/
def pllLock (s : State) (locked : Bool) (refin : Nat) (weak : List (Nat × Word)) : State :=
  if s.boot.phase != .held || !locked || !s.holdOver then s
  else
    let ref := referenceOf refin
    let s := if s.boot.powerOn then s.lateWarning else s
    let s := s.detectIf (s.boot.refKnown && ref != s.boot.reference) srcWatchdog 4
    let s := { s with clock := { s.clock with grid := 0, frac := 0 }, score := { s.score with stopped := s.boot.warned } }
    let s := s.onBoot (fun b => { b with
      reference := ref, refKnown := true, locked := true, phase := .rom, warned := false, riseAt := none })
    let s := if s.boot.powerOn then (s.latchFuses weak).sealLoad else s
    let s := s.readRecord.judgeAttempt
    let s := if s.boot.powerOn then
        { s with ports := mapIdx s.ports (fun p r => { r with epoch := vget (s.working.half s.bootRec.half).epochs p.val 0 }) }
      else s
    if s.safeMode = 2 then s.hardwareStart else s

/-- The boot ROM enters bench mode (R391, R397). -/
def enterBench (s : State) (reason : Nat) : State :=
  let s := (s.onRec (fun r => { r with reason := reason, next := none })).onBoot (fun b => { b with phase := .bench })
  let s := (s.detect srcBoot 4).bootEvent 6 255
  if s.safeMode = 1 && !s.hardwareRun then s.hardwareStart else s

/-- The cores are released into a slot and the start timer runs (R384, R392). -/
def startSlot (s : State) (k reason : Nat) : State :=
  let trial := s.bootRec.trial == k
  let s := s.onRec (fun r => { r with attempt := true, ofTrial := trial, excused := false, reason := reason, next := none })
  let s := s.onBoot (fun b => { b with
    phase := .starting, slot := k, released := s.clock.up, served := s.clock.up, starts := b.starts + 1
    startAt := s.shelfNs, checkpoint := false, alive := false })
  let s := s.bootEvent 1 k
  if trial then s.loadsTrial else s

/-- A slot may be started (R388, R391). -/
def startable (s : State) (k : Nat) : Bool :=
  slotVerifies (s.slotImg k).content && !(s.slotImg k).unusable && decide (s.bootRec.stored ≤ dataVersion (s.slotImg k).content)

/-- The other slot is eligible (R391). -/
def eligible (s : State) (k : Nat) : Bool :=
  s.startable k && s.bootRec.good k && dataVersion (s.slotImg k).content == s.bootRec.stored

/-- The choice of slot and its verification (R388, R391, R393, R406). -/
def slotVerified (s : State) : State :=
  if s.boot.phase != .rom then s
  else
    let s := s.loadsStart
    let r := s.bootRec
    if r.count = 3 then s.enterBench 0x80
    else
      let trial := decide (r.trial < 2)
      let k := if trial then r.trial else r.active
      if s.startable k then s.startSlot k (r.next.getD (if trial then 1 else 0))
      else
        let s := (s.onRec (fun r => { r with count := min 3 (r.count + 1), cause := 5, trial := 255 })).bootEvent 2 k
        let s := s.detect srcBoot 2
        let s := if trial then s.detect srcBoot 1 else s
        if s.bootRec.count = 3 then s.enterBench 0x80
        else if s.eligible (1 - k) then (s.startSlot (1 - k) (if trial then 2 else 3)).bootEvent 5 (1 - k)
        else s.enterBench 0x81

/-! ### The started checkpoint -/

/-- The data version of the image that starts. -/
def imageData (s : State) : Nat := dataVersion (s.slotImg s.boot.slot).content

/-- The migration of a first start: the working configuration goes into the other half, the learned-values area into the migration
copy (R395). A migration that an earlier start left without a checkpoint begins again from the old data. DEDUCED (assumption
154): the conversion changes the form of the data in MRAM, and no value that the model holds. -/
def migrate (s : State) : State :=
  if s.imageData = s.bootRec.stored then s
  else
    let s := s.restoreOld
    let h := s.bootRec.half
    let s := { s with working := { halves := vmod s.working.halves (1 - h) (fun _ => s.working.half h), copy := some s.learnedCopy } }
    (s.onRec (fun r => { r with half := 1 - r.half, migrated := true })).bootEvent 9 s.boot.slot

/-- The boot record that the firmware writes at its checkpoint (R385, R393, R395): the count 0, the stored data version, the
migration copy released, and a trial slot marked good and active. -/
def recordStart (s : State) : State :=
  let k := s.boot.slot
  let r := s.bootRec
  let v := s.imageData
  let s := ({ s with working := { s.working with copy := none } }).onRec (fun r =>
    let r := { r with attempt := false, count := 0, migrated := false, stored := v }
    if r.ofTrial then { r.mark k true with active := k, trial := 255, ofTrial := false } else r)
  let s := if r.ofTrial then s.bootEvent 4 k else s
  let s := s.bootEvent 3 k
  if r.migrated then s.patchEvent 13 255 0 0 0 0 0 else s

/-- At a start the firmware looks at the position after the newest record: it discards what lies there when its SEQ field is one
above the newest, as that of a record cut after two words or more is, or when the low half of its SEQ in COMMIT is, as that of the
oldest record of a full ring of 65,536 is (R317, assumption 155). -/
def discardTorn (s : State) : State :=
  let n := s.score.recs.length
  let hit := match s.score.torn with | some k => decide (2 ≤ k) || decide (65535 ≤ n) | none => decide (65536 ≤ n)
  let recs := if s.score.torn.isNone then s.score.recs.take 65535 else s.score.recs
  let s := { s with score := { s.score with recs := recs, torn := none, discards := s.score.discards + (if hit then 1 else 0) } }
  s.detectIf hit srcScorebook 0

/-- The firmware reaches its started checkpoint (R385 and the rules it names). The swap of the working configuration falls at it,
so that it comes at a common boundary of all blocks and at no other instant (R20, R22; DEDUCED, assumption 159). -/
def startedCheckpoint (s : State) : State :=
  if s.boot.phase != .starting || s.clock.grid % s.commonPeriod allBlocks != 0 then s
  else
    let s := { s.discardTorn.migrate.loadWorking with hardwareRun := false }
    let s := s.onBoot (fun b => { b with phase := .serving, checkpoint := true })
    let s := { s with score := { s.score with firmware := true }, seq := { s.seq with driven := true } }
    let s := s.recordStart
    let s := s.detectIf s.newestSafe.isNone srcSafeSet 0
    let s := (List.range 8).foldl capacityStart s
    let s := (List.range 8).foldl captureResume s
    let s := s.twStart
    let s := { s with fuses := { s.fuses with sweep := none }
                      tts := Vector.replicate 2 {}
                      ptp := if bitAt s.cfg.ptpWord 0 then { s.ptp with phase := .listening } else s.ptp }
    let s := if s.tamper.broken && !s.tamper.stitched && !s.score.stopped then s.stitchBreak else s
    let s := s.closeBench
    let s := (allOrders.filter (fun k => (vget s.cfg.orders k {}).autoUp)).foldl requestUp s
    s.resumeMarks.linksStart

/-! ### Resets (R442 to R450, Table 16-3) -/

/-- The causes of source 460 by reset cause (R447); 255 none. -/
def resetLint : Nat → Nat
  | 0x11 => 0 | 0x15 => 1 | 0x10 => 2 | 0x12 => 3 | _ => 255

/-- A warm reset (R304, R324, R445, R448 to R450). A commit list that waits or is armed is gone, and the seat's status word stands:
DESIGN CHOICE (assumption 151). -/
def warmReset (s : State) (cause : Nat) : State :=
  if s.boot.phase == .held && s.boot.powerOn then s
  else
    let s := s.saveWorking
    let s := if s.lint.episode.opn then s.closeEpisode 2 else s
    let s := (List.range 8).foldl captureReset s
    let s := (List.range 8).foldl orphanSeat s
    let s := s.onBoot (fun b => { b with
      phase := .held, powerOn := false, cause := cause, warm := b.warm + 1, lastAt := s.shelfNs, checkpoint := false
      watchdogs := b.watchdogs + (if cause = 0x11 then 1 else 0), losses := b.losses + (if cause = 0x15 then 1 else 0)
      locked := false, alive := false, heldFrom := s.clock.up, ended := false })
    let s := s.detectIf (resetLint cause != 255) srcWatchdog (resetLint cause)
    let s := s.twReset
    { s with
      tb := { lostCount := s.tb.lostCount }
      chans := Vector.replicate 128 {}
      groups := s.groups.map GroupRun.kept
      ports := s.ports.map PortRun.kept
      irons := Vector.replicate 16 {}
      flat := {}
      senses := Vector.replicate 32 {}
      dets := Vector.replicate 8 {}
      presses := Vector.replicate 4 {}
      shelf := { loss := { count := s.shelf.loss.count, shelfAt := s.shelf.loss.shelfAt } }
      strings := s.strings.map (fun (r : StringRun) => r.written.kept)
      feeds := s.feeds.map FeedRun.kept
      models := s.models.map (fun (r : ModelRun) => { r with sums := {}, hostNew := none })
      fuses := { s.fuses with busy := none, status := 0 }
      sensors := Vector.replicate 16 {}
      lint := { s.lint with snapOpen := none, snapClose := none }
      score := { s.recordsWritten.score with firmware := false, holds := [] }
      t1s := Vector.replicate 2 {}
      cans := Vector.replicate 2 {}
      tts := Vector.replicate 2 {}
      ptp := { steps := s.ptp.steps }
      ptpAdj := 0
      bootRec := s.bootRec.commitDone
      safeSet := { s.safeSet with writing := none, status := 0 }
      commits := {}
      hardwareRun := false }

/-- The pin RESET_N in a reset: it is high again where `released` says so (R445). -/
def resetReleased (s : State) (released : Bool) : State :=
  if s.boot.phase == .held then s.onBoot (fun b => { b with resetLow := b.resetLow && !released }) else s

/-- A warm reset ends, 10 µs after it began and with RESET_N high (R445); the feeds of `tripped` had an overcurrent during it (R259,
R278). A warning that began during it acts (R452). DESIGN CHOICE (assumption 173): the row carries the pin, whose rise has none. -/
def warmResetEnd (s : State) (x : HoldIn) : State :=
  let s := s.resetReleased x.released
  let b := s.boot
  if b.phase != .held || b.powerOn || b.ended || b.resetLow || decide (elapsedAo s b.heldFrom < 10) then s
  else
    let s := (allFeeds.foldl (fun s z => s.feedAfterReset z (bitAt x.tripped z)) s).sequencerResume
    (s.onBoot (fun b => { b with ended := true })).lateWarning

/-- RESET_N has been low for 1 µs (R445); one that is low already stays so. -/
def resetPin (s : State) : State :=
  let was := s.boot.resetLow
  let s := s.onBoot (fun b => { b with resetLow := true })
  if was then s else s.warmReset 0x10

/-- A string at a power-on reset: a slot write under way is completed within the hold-up that follows a warning, and torn without
one (R239); a loss of VDD_AO clears the count (R217). -/
def stringAtPower (warned lost : Bool) (r : StringRun) : StringRun :=
  let k := (if warned then r.written else r).kept
  if lost then { k with a := 0, remNum := 0, remDen := 1 } else k

/-- A supply falls while records are being written: how far the oldest has come is free (R315). -/
def supplyCut (s : State) : State :=
  if s.score.writing = 0 then s
  else ({ s with draws := s.draws + 1 }).cutRecord (Config.freeCutWords s.draws % 8)

/-- Power-on reset with VDD_AO kept (cause 0x00), or with VDD_AO lost (0x01): what MRAM, the fuses and the always-on
supply hold stays (Table 16-3). After a warning the hold-up completes a stitch and a write of the boot record (R239, R414). The
part is held until every supply has been up for 1 ms (R458). -/
def powerReset (s : State) (lost : Bool) : State :=
  let s := s.saveWorking.supplyCut
  let t : State :=
    { pending := s.pending, out := s.out, draws := s.draws
      clock := if lost then { up := s.clock.up }
        else { up := s.clock.up, shelf := s.clock.shelf, shelfFrac := s.clock.shelfFrac }
      groups := s.groups.map (fun (r : GroupRun) => { last := r.last.cut })
      strings := s.strings.map (stringAtPower s.score.stopped lost)
      fuses := { burned := if s.score.stopped then s.fuses.stitched else s.fuses.burned }
      score := { recs := s.score.recs, seq := s.score.seq, torn := s.score.torn, captures := s.score.captures }
      boot := { cause := if lost then 1 else 0, lastAt := s.boot.lastAt, reference := s.boot.reference
                refKnown := s.boot.refKnown, resetLow := s.boot.resetLow, riseAt := some s.clock.up }
      bootRec := if s.score.stopped then s.bootRec.commitDone else { s.bootRec with writing := none }
      slots := s.slots, patch := s.patch, image := s.image
      safeSet := { copyA := s.safeSet.copyA, copyB := s.safeSet.copyB }
      working := s.working
      presence := { jumper := s.presence.jumper }
      tamper := { s.tamper with matched := 0 } }
  (List.range 8).foldl captureReset t

/-- POWER_ON_RESET: a supply has fallen and risen again, or VDD_AO, which was absent, has returned (R445, R459). -/
def powerOnReset (s : State) : State := s.powerReset s.boot.aoLost

/-- VDD_AO falls below its threshold: charge counts and shelf time are gone, and nothing of the always-on section runs until it
returns (R217, R362, R459). -/
def vddAoLoss (s : State) : State :=
  if s.boot.aoLost then s else (s.powerReset true).onBoot (fun b => { b with aoLost := true })

/-- What the always-on section does, while VDD_AO is present (R459). -/
def withAo (s : State) (f : State → State) : State := if s.boot.aoLost then s else f s

/-- The comparator of a feed, which a power-on reset switches off with the gates (R251, R259, Table 16-3). -/
def comparatorTrip (s : State) (z : Nat) : State := if s.boot.phase == .held && s.boot.powerOn then s else s.overcurrent z

/-- The watchdog runs out (R446). -/
def watchdogExpire (s : State) : State :=
  if (s.boot.phase == .starting || s.boot.phase == .serving) && s.cfg.wdtTimeout ≤ elapsedAo s s.boot.served then
    s.warmReset 0x11 else s

/-- The start timer runs out 2 s after the release (R385, R392). -/
def startTimer (s : State) : State :=
  if s.boot.phase == .starting && 2000000 ≤ elapsedAo s s.boot.released then s.warmReset 0x14 else s

/-- The firmware requests a reset, also after a migration that failed: its cause goes into the boot record (R396). -/
def firmwareReset (s : State) (migration : Bool) : State :=
  let failed := migration && s.boot.phase == .starting && s.imageData != s.bootRec.stored
  if s.boot.phase == .starting || s.boot.phase == .serving then
    (if failed then (s.detect srcBoot 3).onRec (fun r => { r with cause := 2 }) else s).warmReset 0x13
  else s

/-- Bench mode ends by the button (R398). -/
def benchButton (s : State) : State :=
  if s.boot.phase != .bench then s
  else ((s.onRec (fun r => { r with count := 2, trial := 255, next := some 4 })).bootEvent 7 255).warmReset 0x16

/-- A load that reached state 5 in bench mode has been there for 1 s (R398). -/
def benchLoaded (s : State) : Bool :=
  let one (r : LoadRun) : Bool := r.phase == .done && r.inBench && decide (1000000 ≤ elapsedAo s r.doneAt)
  one s.patch || one s.image

/-- Bench mode ends by the slot written in it (R398). -/
def benchTrial (s : State) : State :=
  if s.boot.phase == .bench && s.benchLoaded then
    ((s.onRec (fun r => { r with count := 2, trial := s.inactive, next := some 5 })).bootEvent 7 s.inactive).warmReset 0x16
  else s

/-- A power-fail warning begins; during a reset it is acted on at its end (R451, R452). -/
def powerFailWarning (s : State) (cut : Option Nat) : State :=
  if s.boot.phase == .held then s.onBoot (fun b => { b with warned := true })
  else (s.powerFail cut).excuseAttempt

/-- The measurement, once per second, of the always-on oscillator against CCLK, in Hz (R442). -/
def oscMeasure (s : State) (hz : Nat) : State :=
  let bad := decide (hz < 3920000) || decide (4080000 < hz)
  let s := s.detectIf (bad && !s.boot.aoBad) srcWatchdog 5
  s.onBoot (fun b => { b with aoHz := hz, aoBad := bad })

/-- The firmware services its watchdog (R446). -/
def watchdogService (s : State) : State :=
  if s.boot.phase == .starting || s.boot.phase == .serving then
    s.onBoot (fun b => { b with served := s.clock.up, alive := true }) else s

/-- The present slot is one at which ALIVE toggles (R453). -/
def aliveDue (s : State) : Bool :=
  match s.boot.phase with
  | .serving => s.clock.grid % 1000 == 0 && s.boot.alive && decide (elapsedAo s s.boot.served ≤ 10000)
  | .bench => s.clock.grid % 100000 == 0
  | _ => false

def aliveToggle (s : State) : State := if s.aliveDue then { s with alive := !s.alive } else s

/-- A commit of the boot record that has run its time is complete (R389). -/
def recordWrites (s : State) : State := { s with bootRec := s.bootRec.commitEnd s.clock.up }

/-- One grid slot, with the writes to MRAM that end in it; while the PLL is not locked only always-on time passes (R81, R238,
R325, R389, R448). -/
def passSlot (s : State) : State :=
  if s.boot.aoLost then s
  else if s.boot.phase == .held then
    { s with clock := { s.clock with up := s.clock.up + 200, shelf := s.clock.shelf + 200 } }
  else s.recordsWritten.slot.captureCommands.slotWrites.lastFaultWrites.recordWrites

end State
end Sys2Proof.Machine
end

