-- ==== Sys2Proof/Machine/Writes.lean ====
section
/-!
DEFINITION. What a host's write does: the value checks of the objects' chapters and the effect of each kind of object
(R19, R23, R36, R89, R109 to R114, R141, R257, R280, R293, R303, R308, R329, R334, R338, R342, R345, R363, R369, R400 to
R416, R482).
-/
namespace Sys2Proof.Machine
set_option Elab.async false

/-- Addresses that SMBus reserves (PRESUMED: the SMBus specification's list). -/
def smbusReserved (a : Nat) : Bool := decide (a < 8) || decide (120 ≤ a) || [0x08, 0x0C, 0x28, 0x37, 0x61].contains a

namespace State

/-! ### Clearing lint (R303) -/

/-- i_k of a phase has stayed at a limit for 10 ms (R105). -/
def lockLimit (s : State) (p k : Nat) : Bool :=
  match (vget (s.port p).locks k {}).limFrom with | some t => decide (10000 ≤ elapsedUs s t) | none => false

/-- The condition of a condition cause holds (Table 11-1, R428, R417, R447). -/
def condHolds (s : State) (src cause : Nat) : Bool :=
  let flag (p k : Nat) : Bool := bitAt (s.port p).reported k
  if src < 144 then
    let p := src / 3
    if src % 3 = 1 then flag p (3 - cause) else if src % 3 = 2 then flag p 7 else false
  else if src < 240 then
    let g := (src - 144) / 3
    match (src - 144) % 3, cause with
    | 1, 1 => (s.group g).phase == .latched
    | 2, 0 => (s.portsOf g).any (fun p => (List.range 4).any (s.lockLimit p))
    | 2, 1 => (s.portsOf g).any s.shareAtLimit
    | 2, 2 => (s.group g).safeMismatch
    | _, _ => false
  else if 258 ≤ src && src < 274 then
    (cause == 0 && (s.iron (src - 258)).invalid) || (cause == 2 && (s.iron (src - 258)).phase == .frozen)
  else if 282 ≤ src && src < 298 then cause == 5 && (s.feed (src - 282)).phase == .latched
  else if 298 ≤ src && src < 314 then (s.feed (src - 298)).seatFault
  else if 350 ≤ src && src < 415 then
    let r := s.model (src - 350)
    match cause with
    | 0 => r.warning | 1 => r.throttle | 2 => r.shut | 3 => r.phase == .latched | 4 => r.invalid | _ => r.inletLost
  else if 451 ≤ src && src < 455 then
    let t := src - 451
    match cause with
    | 0 => (s.tw t).stuck
    | 2 => s.sensors.toList.zipIdx.any (fun x => (s.sensorC x.2).port == t && x.1.status == 2)
    | _ => false
  else match src, cause with
    | 457, _ => s.tamper.broken
    | 458, _ => !s.fuses.marginal.isEmpty
    | 459, 4 => s.boot.phase == .bench
    | 459, 6 => !s.boot.leftOut.isEmpty
    | 460, 5 => s.boot.aoBad
    | _, _ => false

/-- The causes of a word that a clear leaves set. -/
def stillHolds (s : State) (src : Nat) : Half :=
  maskOf 16 ((setBits (vget s.lint.causes src 0)).filter (s.condHolds src))

/-- A write to a clear word: the sources of the mask lose what does not hold; the result word of the same sub-index
shows the sources of the mask that stay set (R303). -/
def clearWord (s : State) (w : Nat) (mask : Word) : State :=
  let srcs := (setBits mask).map (32 * w + ·)
  let left := srcs.filter (fun c => s.stillHolds c != 0)
  let keep (c : Nat) : Half := s.stillHolds c
  s.onLint (fun l =>
    { l with
      causes := srcs.foldl (fun v c => vmod v c (fun _ => keep c)) l.causes
      counts := srcs.foldl (fun v c => if keep c = 0 then vmod v c (fun _ => 0) else v) l.counts
      left := vmod l.left w (fun _ => maskOf 32 (left.map (· % 32))) })

/-! ### Value checks of settings -/

/-- The latest accepted value of a sub-entry. -/
def latest (s : State) (index sub : Nat) : Int := match object? index sub with | some x => s.accepted x | none => 0

/-- The sense settings of an input as last accepted. -/
def latestSense (s : State) (n : Nat) : SenseCfg :=
  { div := (s.latest (Family.sense.index n 0) 1).toNat, offset := s.latest (Family.sense.index n 0) 2 }

/-- A detector's levels lie within 0 V to 2.5 V at the pins of an input (R109, R112). -/
def levelsOk (s : State) (n : Nat) (c : SenseCfg) : Bool :=
  let d := Family.det.index n 0
  pinOk c (s.latest d 2) && pinOk c (s.latest d 3)

/-- A detector has been enabled. -/
def latestEn (s : State) (n : Nat) : Bool := bitAt (BitVec.ofInt 32 (s.latest (Family.det.index n 0) 1)) 0

/-- The reason for which a value of a setting is refused; none where it is admitted (Table 01-5). DESIGN CHOICE (assumption 128):
a timebase word is admitted whatever SYNC_OFFSET and SYNCOUT_OFFSET hold, also where its divider leaves one at or above the
new period (R90 bounds the offsets when they are written). -/
def settingRefused (s : State) (x : Obj) (v : Int) : Option Nat :=
  let idx := x.fam.index x.unit x.off
  let w : Word := BitVec.ofInt 32 v
  let word : Word := BitVec.ofInt 32 (s.latest idx 1)
  let need (b : Bool) : Option Nat := if b then none else some 0x01
  if !(rowOk x v) then some 0x01
  else match x.fam, x.sub with
    | .timebase, 1 => need (decide (1 ≤ bitsOf w 23 16) && decide (bitsOf w 23 16 ≤ 200) &&
        decide (1 ≤ bitsOf w 15 8) && decide (bitsOf w 15 8 ≤ 200))
    | .timebase, 2 => need (decide (v < 500 * bitsOf word 15 8))
    | .timebase, 4 => need (decide (v < 500 * bitsOf word 23 16))
    | .bus, 2 => need (decide (0 ≤ v) && decide (v ≤ s.latest idx 3))
    | .bus, 3 => need (decide (s.latest idx 2 ≤ v))
    | .loss, 4 => if v ≤ s.maxBusSetpoint then none else some 0x06
    | .episode, 7 => need (decide (s.latest idx 6 ≤ v))
    | .flat, 3 => need (decide (v ≤ s.latest idx 4))
    | .flat, 4 => need (decide (s.latest idx 3 ≤ v))
    | .sense, sub =>
      let c := s.latestSense x.unit
      let c := if sub = 1 then { c with div := v.toNat } else { c with offset := v }
      need (!(decide (x.unit < 8) && s.latestEn x.unit) || s.levelsOk x.unit c)
    | .det, 1 => need (!bitAt w 0 || (decide (s.latest idx 2 < s.latest idx 3) && s.levelsOk x.unit (s.latestSense x.unit)))
    | .det, 2 => need (pinOk (s.latestSense x.unit) v)
    | .det, 3 => need (decide (s.latest idx 2 < v) && pinOk (s.latestSense x.unit) v)
    | .pset, 1 =>
      let others := ((List.range 4).filter (· != x.unit)).map (fun j => (s.latest (Family.pset.index j 0) 1).toNat)
      if others.any (fun m => m &&& v.toNat != 0) then some 0x04 else none
    | .rail, 1 => need (let o := bitsOf w 30 28; decide (o < 4) || o == 7)
    | .seat, 1 => need (bitsOf w 31 24 != 0)
    | .t1s, 1 => need (bitsOf w 23 16 != 0)
    | .can, 1 => need (decide (bitsOf w 15 12 ≤ 4) && decide (bitsOf w 11 8 ≤ 2))
    | .tt, 1 => need (!smbusReserved (bitsOf w 14 8))
    | .time, _ => need (decide (bitsOf w 15 8 ≤ 127))
    | .sensor, 1 => need (decide (v ≤ 3) || v == 255)
    | _, _ => none

/-- A capture is taking or saving samples, which closes its settings to writes (R327). -/
def captureBusy (s : State) (c : Nat) : Bool :=
  match (s.capture c).phase with | .armed | .triggered | .saving => true | _ => false

/-- A rail's configuration may be written (R280). -/
def railFree (s : State) (r : Nat) : Bool :=
  decide (4 ≤ (s.railC r).order) || (s.order (s.railC r).order).phase == .off

/-- Another block writes the SETPOINT of a channel (R338). -/
def setpointTaken (s : State) (c : Nat) : Bool :=
  allGroups.any (fun g => (s.groupB g).share.capCh == c) ||
  allModels.any (fun m => (s.modelB m).derateCh == c) ||
  (List.range 8).any (fun k => (s.strB k).ctrlEn && ((s.strB k).chargeCh == c || (s.strB k).dischargeCh == c))

/-! ### The kinds of Table 13-1 -/

/-- A change record of an accepted write with its origin (R320, R361). -/
def logWrite (s : State) (k : Nat) (h : HostId) (x : Obj) (old new : List Byte) : State :=
  s.change (x.fam.index x.unit x.off) x.sub (h.origin k) old new

/-- A staged field: run-locked fields, then the pending bank, or held while a commit has frozen it (R19, R29, R36). -/
def writeStaged (s : State) (k : Nat) (h : HostId) (x : Obj) (v : Int) : Except Refused State :=
  let id := (x.fam.block? x.unit).getD 0
  let m := lockedMask x.fam x.off x.sub
  let old := ((s.active.get? x.fam x.unit x.off x.sub).getD 0).toNat
  let gs := lockGroups s.active id ++ lockGroups s.staged id
  if v.toNat &&& m != old &&& m && !(gs.all s.groupStopped) then .error (0x07, 0x02)
  else if s.frozen id then
    let w : Waiting := { index := x.fam.index x.unit x.off, sub := x.sub, value := v, at' := s.clock.grid
                         origin := h.origin k, time := s.shelfNs, episode := s.openEpisode }
    .ok { s with commits := { s.commits with held := s.commits.held ++ [w] } }
  else
    let was := (s.staged.get? x.fam x.unit x.off x.sub).getD 0
    .ok (({ s with staged := s.staged.put x.fam x.unit x.off x.sub v }).logWrite k h x (x.row.ty.encode was) (x.row.ty.encode v))

/-- An immediate field: range and fused ceiling, the pending bank at once and the active bank at the boundary (R23). An inlet is
younger from its acceptance on, when it is in force (R288). -/
def writeImmediate (s : State) (k : Nat) (h : HostId) (x : Obj) (v : Int) : Except Refused State :=
  if x.fam == .channel && s.setpointTaken x.unit then .error (0x10, 0)
  else if !(rowOk x v) then .error (0x07, 0x01)
  else if x.fam == .channel && !(s.setpointOk (s.chanB x.unit).src v) then .error (0x07, 0x06)
  else
    let old := s.accepted x
    let w : Waiting := { index := x.fam.index x.unit x.off, sub := x.sub, value := v, at' := s.clock.grid }
    let s := { s with staged := s.staged.put x.fam x.unit x.off x.sub v
                      commits := { s.commits with imm := s.commits.imm ++ [w] } }
    let s := if x.fam == .soakModel then s.onModel x.unit (fun r => { r with hostNew := some s.clock.up }) else s
    .ok (s.logWrite k h x (x.row.ty.encode old) (x.row.ty.encode v))

/-- A setting that waits for its mark or its tap (R89, R141). -/
def writeWaiting (s : State) (k : Nat) (h : HostId) (x : Obj) (v : Int) : Except Refused State :=
  if x.fam == .rail && !(s.railFree x.unit) then .error (0x07, 0x02)
  else if x.fam == .capture && s.captureBusy x.unit then .error (0x10, 0)
  else match s.settingRefused x v with
    | some reason => .error (0x07, reason)
    | none =>
      let old := s.accepted x
      let tap := x.row.kind == .tap
      let w : Waiting := { index := x.fam.index x.unit x.off, sub := x.sub, value := v
                           at' := if tap then s.flat.taps else s.clock.grid }
      let c := s.commits
      let c := if tap then { c with taps := c.taps ++ [w] } else { c with marks := c.marks ++ [w] }
      .ok (({ s with commits := c }).logWrite k h x (x.row.ty.encode old) (x.row.ty.encode v))

/-- The signal list of a capture: 32 selectors of Table 11-10 (R322). -/
def writeSignals (s : State) (k : Nat) (h : HostId) (x : Obj) (bs : List Byte) : Except Refused State :=
  if s.captureBusy x.unit then .error (0x10, 0)
  else
    let ws := (List.range 32).map (fun i => fieldLe bs (2 * i) 2)
    if bs.length ≠ 64 ∨ !(ws.all selectorOk) then .error (0x07, 0x01)
    else
      let w : Waiting := { index := x.fam.index x.unit x.off, sub := 2, value := 0, list := ws, at' := s.clock.grid }
      let old := s.content x
      .ok (({ s with commits := { s.commits with marks := s.commits.marks ++ [w] } }).logWrite k h x old bs)

/-- A setting that is in force, or stored, when the write is processed: a binding word, a rights word, the hardware-run
mode (R329, R334, R41). -/
def writeStored (s : State) (k : Nat) (h : HostId) (x : Obj) (v : Int) : Except Refused State :=
  match s.settingRefused x v with
  | some reason => .error (0x07, reason)
  | none =>
    if x.fam == .rights && s.bootRec.ownerLock then .error (0x10, 0)
    else
      let old := s.accepted x
      let s := ({ s with cfg := s.cfg.put x.fam x.unit x.sub v }).logWrite k h x (x.row.ty.encode old) (x.row.ty.encode v)
      .ok (if x.fam == .rights then s.endUnread else s)

/-- A word of kind Reply is accepted; it takes effect after its response (R363). -/
def writeReply (s : State) (k : Nat) (h : HostId) (x : Obj) (v : Int) : Except Refused State :=
  match s.settingRefused x v with
  | some reason => .error (0x07, reason)
  | none => .ok (s.logWrite k h x (x.row.ty.encode (s.accepted x)) (x.row.ty.encode v))

/-- The effect of a write that acts once its response has been sent (R363, R379). -/
def afterReply (s : State) (x : Obj) (v : Int) : State :=
  if x.fam == .resets then s.warmReset 0x12
  else if s.cfg.get? x.fam x.unit x.off x.sub == some v then s
  else
    let s := { s with cfg := s.cfg.put x.fam x.unit x.sub v }
    match x.fam with
    | .t1s => s.closeTransport 1 x.unit
    | .can => s.closeTransport 2 x.unit
    | .tt => s.closeTransport 3 x.unit
    | .time => { s with ptp := { phase := if bitAt s.cfg.ptpWord 0 then .listening else .disabled, steps := s.ptp.steps } }
    | _ => s

/-! ### Requests of hosts -/

/-- A host's request to a group, which the group takes at its next boundary (R62, R293, R308, R338). -/
def askGroup (s : State) (g : Nat) (v : Int) : Except Refused State :=
  match v with
  | 1 =>
    let ph := (s.group g).phase
    if s.lint.safe || s.groupHeld g || ph == .latched || (ph == .fallback && !s.fitsLanes) then .error (0x10, 0)
    else .ok (s.onGroup g (fun r => { r with
      startReq := s.raised r.startReq, startHost := r.startReq.isNone || r.startHost }))
  | 2 => .ok (s.onGroup g (fun r => { r with stopReq := s.raised r.stopReq, thermalMark := false }))
  | _ => .ok (s.onGroup g (fun r => { r with clearReq := s.raised r.clearReq, thermalMark := false }))

/-- A host's request to a feed, which the feed takes at its next tick (R246, R257, R261, R293, R308). -/
def askFeed (s : State) (z : Nat) (v : Int) : Except Refused State :=
  match v with
  | 1 =>
    let r := s.feed z
    if s.lint.safe || s.feedHeld z || r.phase == .latched || (r.shed && s.shelf.loss.declared) then .error (0x10, 0)
    else .ok (s.onFeed z (fun r => { r with
      startReq := s.raised r.startReq, startHost := r.startReq.isNone || r.startHost, shed := false }))
  | 2 => .ok (s.onFeed z (fun r => { r with stopReq := some (r.stopReq.getD (1, s.clock.slots)), thermalMark := false }))
  | 3 => .ok (s.onFeed z (fun r => { r with clearReq := s.raised r.clearReq, thermalMark := false }))
  | _ => .ok (s.onFeed z (fun r => { r with capsReq := s.raised r.capsReq }))

/-- A host's request to a batting order, which the order takes at its next tick; an up request in Off whose validation fails is
refused (R268, R276, R282, R308). -/
def askOrder (s : State) (o : Nat) (v : Int) : Except Refused State :=
  match v with
  | 1 =>
    if s.lint.safe && !bitAt s.cfg.episode.safeKeep o then .error (0x10, 0)
    else if (s.order o).phase == .off && !(s.validOrder o) then .error (0x07, 0x04)
    else .ok (s.onOrder o (fun r => { r with upReq := s.raised r.upReq }))
  | 2 => .ok (s.onOrder o (fun r => { r with downReq := s.raised r.downReq }))
  | _ => .ok (s.onOrder o (fun r => { r with clearReq := s.raised r.clearReq }))

/-- An iron command, which the iron takes at its group's next sample boundary: 1 clears the memory, 2 releases a frozen iron to
Idle (R133, R369, Table 04-1). An iron whose target is in no group has no boundary and takes it at once (assumption 57). -/
def askIron (s : State) (i : Nat) (v : Int) : Except Refused State :=
  .ok (if s.ironGroup i < 32 then
      s.onIron i (fun r => if v = 1 then { r with clearReq := s.raised r.clearReq } else { r with releaseReq := s.raised r.releaseReq })
    else s.onIron i (fun r => if v = 1 then r.clear else r.release))

/-- A string command, which the string takes at its next tick; presence is what command 2 finds when it is processed (R240, R369,
assumption 57). -/
def askString (s : State) (k : Nat) (v : Int) : Except Refused State :=
  if v = 1 then .ok (s.onStr k (fun r => { r with clearReq := s.raised r.clearReq }))
  else if s.present then .ok (s.onStr k (fun r => { r with restoreReq := s.raised r.restoreReq })) else .error (0x06, 0)

/-- A capture command, which the capture takes at the next grid slot; the state and the free windows are those that it finds when
it is processed (Table 11-11, R369, assumption 57). -/
def askCapture (s : State) (c : Nat) (v : Int) : Except Refused State :=
  let ok : Bool := match v with
    | 1 => s.canArm c
    | 2 => (s.capture c).phase == .armed && (s.capture c).window.isSome
    | _ => (s.capture c).phase == .armed
  if ok then .ok (s.onCapture c (fun r => { r with reqs := r.reqs ++ [(v.toNat, s.clock.slots)] })) else .error (0x10, 0)

/-- Seat command 1: a force close, with its presence event (Table 12-2, Table 12-11). -/
def askSeat (s : State) (by' k : Nat) : Except Refused State :=
  if (s.seat k).phase == .free then .error (0x10, 0)
  else .ok ((s.presenceEvent 11 by' k 0 0).closeSeat k 3 originFirmware)

/-- A safe-set capture (R40, R415). -/
def askSafeSet (s : State) : Except Refused State :=
  let burned := (List.range 16).all (fun w => s.shadowOf (96 + w) == vget s.fuses.burned (96 + w) 0)
  if s.commits.armed.isSome || !burned then .error (0x10, 0) else .ok s.safeCapture

/-- A patch or image command that the conditions of Table 14-7 may refuse (R404). -/
def slotWrite (s : State) (ok : Bool) (go : State) : Except Refused State :=
  if !ok || s.writeConditions != 0 then .error (0x10, 0) else .ok go

/-- A fuse command: baste or stitch (R413, R414). -/
def askFuse (s : State) (seat : Nat) (v : Int) : Except Refused State :=
  if v = 1 then
    if s.fuseRefused then .error (0x10, 0)
    else if !(s.withinCeilings s.basted) then .error (0x07, 0x06)
    else .ok (s.basteNow seat)
  else if s.stitchRefused then .error (0x10, 0)
  else .ok (s.fuseBegin .stitch seat)

/-- The effect of a write to a command object or another object without a kind (R369); the value lies in its range. -/
def command (s : State) (k : Nat) (x : Obj) (v : Int) : Except Refused State :=
  match x.fam, x.sub with
  | .loopGroup, _ => s.askGroup x.unit v
  | .iron, _ => s.askIron x.unit v
  | .bus, _ => .ok s.excursionClear
  | .batString, _ => s.askString x.unit v
  | .feed, _ => s.askFeed x.unit v
  | .order, _ => s.askOrder x.unit v
  | .lintClear, w => .ok (s.clearWord (w - 1) (BitVec.ofInt 32 v))
  | .episode, _ => .ok s.endSafe
  | .cursor, c => .ok { s with score := { s.score with cursors := vmod s.score.cursors (c - 1) (fun _ => some v.toNat) } }
  | .capture, 5 => s.askCapture x.unit v
  | .capture, _ => .ok (s.onCapture x.unit (fun r => { r with offset := v.toNat }))
  | .seat, _ => s.askSeat k x.unit
  | .safeSet, _ => s.askSafeSet
  | .patch, _ =>
    (if v = 1 then s.patchVerify k
     else if v = 2 then s.slotWrite s.patchApplyOk (s.patchApply k)
     else s.patchDiscard k).map noRefusals
  | .image, _ => (if v = 1 then s.slotWrite s.imageWriteOk (s.imageWrite k) else s.imageDiscard k).map noRefusals
  | .fuse, 1 => .ok (s.onFuses (fun f => { f with addr := v.toNat }))
  | .fuse, 2 => if s.fuses.busy.isSome then .error (0x10, 0) else .ok (s.fuseBegin (if v = 1 then .read else .margin) k)
  | .fuse, 6 => .ok (s.onFuses (fun f => { f with baste := BitVec.ofInt 32 v }))
  | .fuse, _ => s.askFuse k v
  | .owner, _ => if v = 1 then .ok (s.ownerSet k) else if s.ownerFix then .error (0x10, 0) else .ok (s.ownerRelease k)
  | .presence, _ => .ok (s.windowEnd k)
  | .seal, _ => if s.sealReady then .ok (s.sealArm k) else .error (0x10, 0)
  | .twPort, _ => if s.twCommandOk x.unit then .ok (s.twRecover x.unit) else .error (0x10, 0)
  | _, _ => .ok s

/-- The refusal causes after a refused command of a load: the conditions found of a command that writes the slot, and for any other
command the one that can refuse it, presence (R376, R404). -/
def loadRefused (s : State) (writes : Bool) (status : Nat) : State :=
  if status != 0x10 && status != 0x06 then s
  else if writes then s.refuseWrite
  else { s with boot := { s.boot with refusals := if status = 0x06 then 0x40 else 0 } }

/-- A refusal leaves what its chapter says it leaves: the refusal causes of a load (R376, R404), the status of a refused
safe-set capture (R40), the lint bit of an order whose validation fails (R268). -/
def refusalMark (s : State) (x : Obj) (v : Int) (status : Nat) : State :=
  match x.fam, x.sub with
  | .patch, 2 => s.loadRefused (v == 2) status
  | .image, 2 => s.loadRefused (v == 1) status
  | .order, 1 => s.detectIf (v == 1 && status == 0x07) (srcOrder x.unit) 0
  | .safeSet, 2 => if status = 0x10 then { s with safeSet := { s.safeSet with status := 3 } } else s
  | _, _ => s

/-- A numeric value written to an object (R342). -/
def writeValue (s : State) (k : Nat) (h : HostId) (x : Obj) (v : Int) : Except Refused State :=
  let image2 := x.fam == .image && x.sub == 2 && v == 2
  match x.row.kind with
  | .staged => s.writeStaged k h x v
  | .immediate => s.writeImmediate k h x v
  | .mark | .tap => s.writeWaiting k h x v
  | .reply => s.writeReply k h x v
  | .nextOpening | .capture => s.writeStored k h x v
  | .plain =>
    if x.fam == .rights then s.writeStored k h x v
    else if !(rowOk x v) || image2 then .error (0x07, 0x01)
    else
      let old := match x.fam, x.sub with
        | .cursor, _ | .capture, 9 | .fuse, 1 | .fuse, 6 => s.value k false x
        | _, _ => 0
      (s.logWrite k h x (x.row.ty.encode old) (x.row.ty.encode v)).command k x v

/-- The octets of a DOMAIN: a piece of a load, a commit list, a signal list (R24, R322, R371). -/
def writeDomain (s : State) (k : Nat) (h : HostId) (x : Obj) (offset : Nat) (bs : List Byte) : Except Refused State :=
  match x.fam with
  | .patch => (s.logWrite k h x [] bs).patchPiece k offset bs
  | .image => (s.logWrite k h x [] bs).imagePiece k offset bs
  | .commitList => if offset ≠ 0 then .error (0x01, 0) else .ok ((s.logWrite k h x [] bs).commitReceive k bs)
  | .capture => if offset ≠ 0 then .error (0x01, 0) else s.writeSignals k h x bs
  | _ => .error (0x04, 0)

/-- The value checks and the effect of an admitted write (R337 step 10, R342). -/
def hostWrite (s : State) (k : Nat) (h : HostId) (x : Obj) (offset : Nat) (bs : List Byte) : Except Refused State :=
  match x.row.ty.size with
  | none => s.writeDomain k h x offset bs
  | some n =>
    if offset ≠ 0 ∨ bs.length ≠ n then .error (0x01, 0) else s.writeValue k h x (x.row.ty.decode bs)

end State
end Sys2Proof.Machine
end

