-- ==== Sys2Proof/Machine/Oap.lean ====
section
/-!
DEFINITION. The Object Access Protocol: requests, their checks in the order of R337, and their responses (R335 to R349,
R356, R366 to R372, R380 to R382).
-/
namespace Sys2Proof.Machine
set_option Elab.async false

/-! ### Requests (Table 12-6) -/

/-- A request body. -/
inductive Req where
  | identify
  | openSeat (cls lease : Nat)
  | closeSeat
  | keepalive
  | read (index sub : Nat) (active : Bool) (offset maxLen : Nat)
  | write (index sub : Nat) (expect : Expect) (offset : Nat) (value : List Byte)
  | readMulti (entries : List (Nat × Nat × Bool))
  | steward (index sub action : Nat)
  | subscribe (index sub : Nat) (periodic : Bool) (interval : Nat)
  | unsubscribe (num : Nat)
  deriving DecidableEq, Repr

/-- The OP of a request. -/
def Req.op : Req → Nat
  | .identify => 0x01 | .openSeat .. => 0x02 | .closeSeat => 0x03 | .keepalive => 0x04 | .read .. => 0x10
  | .write .. => 0x11 | .readMulti .. => 0x12 | .steward .. => 0x13 | .subscribe .. => 0x20 | .unsubscribe .. => 0x21

/-- The length of a request with its header, where its operands decide it. -/
def Req.size : Req → Nat
  | .write _ _ _ _ v => 24 + v.length
  | .readMulti es => 13 + 4 * es.length
  | _ => 22

/-- The field values of a request are those that Table 12-6 gives (status 0x01). -/
def Req.ok : Req → Bool
  | .openSeat cls lease => decide (cls < 3) && decide (10 ≤ lease) && decide (lease ≤ 2550)
  | .write _ _ (some (port, _)) _ _ => decide (port < 48)
  | .readMulti es => decide (1 ≤ es.length) && decide (es.length ≤ 16)
  | .steward _ _ action => decide (1 ≤ action) && decide (action ≤ 4)
  | .subscribe _ _ periodic interval =>
    decide ((if periodic then 10000 else 1000) ≤ interval) && decide (interval ≤ 60000000)
  | .unsubscribe num => decide (num < 32) || num == 255
  | _ => true

/-- The limit L of a transport (Table 12-9). -/
def limitOf (h : HostId) : Nat := if h.code = 3 then 255 else 1232

/-! ### Messages as octets (Table 12-5) -/

/-- A request body as octets; status 0x01 where it is malformed. -/
def parseBody (op : Nat) (b : List Byte) : Except Nat Req :=
  let f (at' n : Nat) : Nat := fieldLe b at' n
  let need (ok : Bool) (r : Req) : Except Nat Req := if ok then .ok r else .error 0x01
  match op with
  | 0x01 => need b.isEmpty .identify
  | 0x02 => need (b.length == 4 && f 1 1 == 0) (.openSeat (f 0 1) (f 2 2))
  | 0x03 => need b.isEmpty .closeSeat
  | 0x04 => need b.isEmpty .keepalive
  | 0x10 => need (b.length == 10 && decide (f 3 1 < 2)) (.read (f 0 2) (f 2 1) (f 3 1 == 1) (f 4 4) (f 8 2))
  | 0x11 => need (decide (12 ≤ b.length) && decide (f 3 1 < 2) && f 5 1 == 0)
      (.write (f 0 2) (f 2 1) (if f 3 1 = 1 then some (f 4 1, BitVec.ofNat 16 (f 6 2)) else none) (f 8 4) (b.drop 12))
  | 0x12 =>
    let es := (List.range (f 0 1)).map (fun k => (f (1 + 4 * k) 2, f (3 + 4 * k) 1, f (4 + 4 * k) 1))
    need (b.length == 1 + 4 * f 0 1 && es.all (fun e => decide (e.2.2 < 2))) (.readMulti (es.map (fun e => (e.1, e.2.1, e.2.2 == 1))))
  | 0x13 => need (b.length == 4) (.steward (f 0 2) (f 2 1) (f 3 1))
  | 0x20 => need (b.length == 8 && (f 3 1 == 1 || f 3 1 == 2)) (.subscribe (f 0 2) (f 2 1) (f 3 1 == 2) (f 4 4))
  | 0x21 => need (b.length == 1) (.unsubscribe (f 0 1))
  | _ => .error 0x01

/-- A message of at least 12 octets: its header, its OP and its request; `exact` where the transport gives the message's
length, otherwise LEN decides where the message ends (R335, R349, R353). -/
def parseMessage (host : HostId) (mark : Nat) (toAll busy exact : Bool) (m : List Byte) : Hdr × Nat × Except Nat Req :=
  let f (at' n : Nat) : Nat := fieldLe m at' n
  let h : Hdr := { host := host, mark := mark, toAll := toAll, busy := busy, seat := f 2 1 % 8
                   session := BitVec.ofNat 16 (f 6 2), tag := f 8 2 }
  let len := f 10 2
  let body := (m.drop 12).take len
  let long := if exact then decide (limitOf host < m.length) else decide (limitOf host < 12 + len)
  let lenOk := if exact then 12 + len == m.length else decide (12 + len ≤ m.length)
  let headOk := f 0 1 == 1 && decide (f 2 1 < 8) && f 3 1 == 0 && f 4 1 == 0 && f 5 1 == 0
  (h, f 1 1, if long then .error 0x0F else if headOk && lenOk then parseBody (f 1 1) body else .error 0x01)

/-- What a processed request leaves: state, status, reason, body, the session that the response carries, and what acts
once the response is sent. -/
structure Answer where
  state   : State
  status  : Nat := 0
  reason  : Nat := 0
  body    : List Byte := []
  session : Option Half := none
  /-- A write that takes effect once the response has been sent: index, sub-index, value (R363, R379). -/
  effect  : Option (Nat × Nat × Int) := none
  /-- What follows the making of the response. -/
  after   : State → State := id

namespace State

/-- The dictionary is served on a transport: from the started checkpoint, and in bench mode but not on the target ports
(R356, R372). -/
def serves (s : State) (h : HostId) : Bool := s.boot.phase == .serving || (s.boot.phase == .bench && h.code != 3)

/-- The seat is open and the session is its own. -/
def sessionOk (s : State) (k : Nat) (x : Half) : Bool := (s.seat k).phase == .opened && (s.seat k).session == x

/-! ### Responses -/

/-- A response joins the queue of its target port, with the write that waits for it; with 8 queued the request is
refused with status 0x0D, which joins behind them (R339, R355). -/
def enqueue (s : State) (r : Reply) (effect : Option (Nat × Nat × Int)) : State :=
  let q : Queued := if s.ttFull r.host.port then { at' := s.clock.up, reply := { r with status := 0x0D, reason := 0, body := [] } }
    else { at' := s.clock.up, reply := r, effect := effect }
  s.onTt r.host.port (fun t => { t with responses := t.responses ++ [q] })

/-- A response leaves: over the target port it joins the queue, a reply to a multicast IDENTIFY waits for its delay
(R351, R355). -/
def send (s : State) (r : Reply) (toAll : Bool) : State :=
  if r.host.code = 3 then s.enqueue r none
  else if toAll then { s with t1s := vmod s.t1s r.host.port (fun t => { t with delayed := t.delayed ++ [r] }) }
  else { s with out := s.out ++ s.replySent r }

/-- The response to a request, 0x0F where it would exceed the limit (R335, R349). -/
def makeReply (h : Hdr) (op status reason : Nat) (session : Half) (body : List Byte) : Reply :=
  let long := decide (limitOf h.host < 12 + body.length)
  { host := h.host, mark := h.mark, op := op + 0x80, seat := h.seat, session := session, tag := h.tag
    status := if long then 0x0F else status, reason := if status = 0x07 && !long then reason else 0
    body := if status = 0 && !long then body else [] }

/-- A request that is answered without being processed. -/
def turnAway (s : State) (h : Hdr) (op status : Nat) : State := s.send (makeReply h op status 0 h.session []) h.toAll

/-! ### Reading (R337, R341, R370) -/

/-- The checks of a READ from the existence of the object to the rights: the object, or the status. -/
def readCheck (s : State) (k index sub : Nat) : Except Nat Obj :=
  match anyObject? index sub with
  | none => .error 0x03
  | some x =>
    if s.boot.phase == .bench && (benchServes x).isNone then .error 0x12
    else if x.row.acc == .wo then .error 0x04
    else if !(s.mayRead k index sub) then .error 0x05
    else .ok x

/-- The effect of a read: a read of the record window moves the seat's cursor past the last record of which it carries
the end (R326). -/
def readEffect (s : State) (k : Nat) (x : Obj) (offset : Nat) (bs : List Byte) : State :=
  if x.fam == .window && x.sub == 1 && decide (64 ≤ offset + bs.length) then
    match (s.window k)[(offset + bs.length) / 64 - 1]? with
    | some r =>
      { s with score := { s.score with cursors := vmod s.score.cursors k (fun _ => some ((r.seq + 1) % 4294967296)) } }
    | none => s
  else s

/-- Some octets of an object, with the effect of the read. -/
def readOctets (s : State) (k : Nat) (active : Bool) (x : Obj) (offset n : Nat) : State × List Byte :=
  let bs := ((s.octets k active x).drop offset).take n
  (s.readEffect k x offset bs, bs)

/-- READ (R341). -/
def doRead (s : State) (h : Hdr) (index sub : Nat) (active : Bool) (offset maxLen : Nat) : Answer :=
  match s.readCheck h.seat index sub with
  | .error e => { state := s, status := e }
  | .ok x =>
    let total := (s.octets h.seat active x).length
    let whole := x.row.ty.size.isSome
    if whole && offset != 0 then { state := s, status := 0x01 }
    else if total < offset then { state := s, status := 0x07, reason := 0x01 }
    else
      let (t, bs) := s.readOctets h.seat active x offset (if whole then total else min maxLen (limitOf h.host - 22))
      { state := t, body := leBytes 2 index ++ [BitVec.ofNat 8 sub, BitVec.ofNat 8 (s.typeCode x)] ++ leBytes 4 total ++
          leBytes 2 bs.length ++ bs }

/-- READ_MULTI: each entry on its own (R370). -/
def doReadMulti (s : State) (h : Hdr) (es : List (Nat × Nat × Bool)) : Answer :=
  let one (a : State × List Byte) (e : Nat × Nat × Bool) : State × List Byte :=
    match a.1.readCheck h.seat e.1 e.2.1 with
    | .error st => (a.1, a.2 ++ [BitVec.ofNat 8 st, 0xFF, 0, 0])
    | .ok x =>
      let (t, bs) := a.1.readOctets h.seat e.2.2 x 0 (a.1.octets h.seat e.2.2 x).length
      (t, a.2 ++ [0, BitVec.ofNat 8 (a.1.typeCode x)] ++ leBytes 2 bs.length ++ bs)
  let (t, body) := es.foldl one (s, [])
  if limitOf h.host < 12 + body.length then { state := s, status := 0x0F } else { state := t, body := body }

/-! ### Writing (R337, R342 to R346) -/

/-- A value of a command that needs presence where the other values of the object do not: string command 2 (R240). -/
def presentOnly (x : Obj) (bs : List Byte) : Bool := x.fam == .batString && x.off == 5 && x.row.ty.decode bs == 2

/-- The checks of a WRITE from the existence of the object to the expected epoch: the object, or the status. Bench mode
asks for presence at every write and for no right or stewardship (R356, R381). A WRITE to a vendor index is refused with
0x04 whatever its sub-index (R380). -/
def writeCheck (s : State) (k index sub : Nat) (e : Expect) (bs : List Byte) : Except Nat Obj :=
  let bench := s.boot.phase == .bench
  match anyObject? index sub with
  | none => .error (if 0xF000 ≤ index then (if bench then 0x12 else 0x04) else 0x03)
  | some x =>
    if bench && (benchServes x).isNone then .error 0x12
    else if x.sub == 0 || x.row.acc == .ro || x.fam == .vendor || (x.fam == .react && !sourceExists x.unit) ||
        (bench && benchServes x != some true) then .error 0x04
    else if !bench && !(s.mayWrite k index sub) then .error 0x05
    else if (bench || x.row.acc == .rwP || presentOnly x bs) && !s.present then .error 0x06
    else if !bench && x.row.pol == .stw && s.steward index sub != k then .error 0x09
    else if x.row.pol == .cmbMin && sub != k + 1 then .error 0x0A
    else match e with
      | some (p, epoch) =>
        if (s.port p).epoch != epoch then .error 0x0B
        else if s.rolePending p then .error 0x0C else .ok x
      | none => .ok x

/-- WRITE (R342); an effect that waits for the response follows it (R363, R379). -/
def doWrite (s : State) (h : Hdr) (index sub : Nat) (e : Expect) (offset : Nat) (bs : List Byte) : Answer :=
  match s.writeCheck h.seat index sub e bs with
  | .error st =>
    { state := match anyObject? index sub with
        | some x => if st = 0x06 then s.refusalMark x (x.row.ty.decode bs) st else s
        | none => s
      status := st }
  | .ok x =>
    match s.hostWrite h.seat h.host x offset bs with
    | .error r => { state := s.refusalMark x (x.row.ty.decode bs) r.1, status := r.1, reason := r.2 }
    | .ok t =>
      if x.row.kind == .reply || x.fam == .resets then { state := t, effect := some (index, sub, x.row.ty.decode bs) }
      else { state := t }

/-! ### Stewardships and subscriptions (R344, R347) -/

/-- STEWARD: actions 1 acquire, 2 release, 3 query, 4 take over. -/
def doSteward (s : State) (h : Hdr) (index sub action : Nat) : Answer :=
  let k := h.seat
  let subs := stewardSubs index sub
  let first := s.steward index (subs.headD 0)
  let no (e : Nat) : Answer := { state := s, status := e }
  let say (t : State) : Answer := { state := t, body := [BitVec.ofNat 8 (t.steward index (subs.headD 0))] }
  if (locate index).isNone || (sub != 255 && (anyObject? index sub).isNone) then no 0x03
  else if subs.isEmpty then no 0x04
  else match action with
    | 2 => if s.releaseOk k index subs then say (s.ungrant k index subs) else no 0x08
    | 3 => say s
    | 1 =>
      if !(s.hasRight (s.seat k).cls index true) then no 0x05
      else if !(s.acquireOk k index subs) then no 0x08
      else if !(s.grantFits k index subs) then no 0x11
      else say (s.grant k index subs)
    | _ =>
      if !(s.hasRight (s.seat k).cls index true) || (s.seat k).cls != 2 then no 0x05
      else if !s.present then no 0x06
      else if !(s.grantFits k index subs) then no 0x11
      else say ((s.grant k index subs).presenceEvent 10 k index sub first)

/-- SUBSCRIBE; the first notification follows the response (R347). -/
def doSubscribe (s : State) (h : Hdr) (index sub : Nat) (periodic : Bool) (interval : Nat) : Answer :=
  let k := h.seat
  let xs := if sub = 255 then objectsOf index else (anyObject? index sub).toList
  let no (e : Nat) : Answer := { state := s, status := e }
  if (locate index).isNone || xs.isEmpty then no 0x03
  else if xs.any (fun x => x.row.ty == .domain) || (sub != 255 && xs.any (fun x => x.row.acc == .wo)) then no 0x04
  else if !(s.mayReadAll k index sub) then no 0x05
  else match (List.range 32).find? (fun n => (s.subscription? k n).isNone) with
    | none => no 0x11
    | some n =>
      let x : Subscription :=
        { num := n, index := index, sub := sub, periodic := periodic, interval := interval, sentAt := s.clock.up, last := [] }
      { state := s.onSeat k (fun r => { r with subs := r.subs ++ [x] }), body := [BitVec.ofNat 8 n]
        after := fun s => (s.notify k x).drainNotices k 64 }

/-- UNSUBSCRIBE. -/
def doUnsubscribe (s : State) (h : Hdr) (num : Nat) : Answer :=
  { state := s.onSeat h.seat (fun r => { r with subs := r.subs.filter (fun x => num != 255 && x.num != num) }) }

/-! ### Seats (R330, R331, R336) -/

/-- IDENTIFY. -/
def doIdentify (s : State) : Answer :=
  { state := s, body := leBytes 8 s.serial ++ leBytes 4 (slotVersion s.activeContent) ++
      [BitVec.ofNat 8 s.modeCode, BitVec.ofNat 8 s.freeSeats] }

/-- OPEN. -/
def doOpen (s : State) (h : Hdr) (cls lease : Nat) : Answer :=
  if s.openOk h.seat cls h.host then
    let t := (s.openSeat h.seat cls lease h.host).onSeat h.seat (fun r => { r with latest := (h.host, h.mark) })
    { state := t, body := leBytes 2 (t.seat h.seat).lease ++ [BitVec.ofNat 8 cls, 0], session := some (t.seat h.seat).session }
  else { state := s, status := 0x0E }

/-- CLOSE: its response is sent, then the seat closes with cause 0 (R331). -/
def doClose (s : State) (h : Hdr) : Answer := { state := s, after := fun s => s.closeSeat h.seat 0 (h.host.origin h.seat) }

/-! ### The order of the checks (R337, R339, R340) -/

/-- The operation of a request of an open seat; bench mode serves CLOSE, KEEPALIVE, READ and WRITE of these (R356). -/
def serve (s : State) (h : Hdr) (r : Req) : Answer :=
  if s.boot.phase == .bench && !([0x03, 0x04, 0x10, 0x11].contains r.op) then { state := s, status := 0x12 }
  else match r with
    | .closeSeat => s.doClose h
    | .keepalive => { state := s, body := leBytes 8 s.shelfNs }
    | .read index sub active offset maxLen => s.doRead h index sub active offset maxLen
    | .write index sub e offset v => s.doWrite h index sub e offset v
    | .readMulti es => s.doReadMulti h es
    | .steward index sub action => s.doSteward h index sub action
    | .subscribe index sub periodic interval => s.doSubscribe h index sub periodic interval
    | .unsubscribe num => s.doUnsubscribe h num
    | .identify | .openSeat .. => { state := s, status := 0x01 }

/-- A write that waited for its response takes effect (R363, R379). -/
def takeEffect (s : State) (e : Option (Nat × Nat × Int)) : State :=
  match e with
  | some (index, sub, v) => match anyObject? index sub with | some x => s.afterReply x v | none => s
  | none => s

/-- The response of a processed request leaves and is kept for repeats, unless its seat has closed meanwhile (R332,
R340); then what waited for it acts, over a target port once OAP_READ has sent the response (R363). A close drops the
queue of a target port, which the response to the CLOSE itself then joins (R331). -/
def finish (h : Hdr) (op : Nat) (a : Answer) : State :=
  let t := a.state
  if !(t.sessionOk h.seat h.session) then t
  else
    let r := makeReply h op a.status a.reason h.session a.body
    let t := t.onSeat h.seat (fun x => { x with replay := (r :: x.replay).take 16 })
    if h.host.code = 3 then if op = 0x03 then (a.after t).enqueue r none else a.after (t.enqueue r a.effect)
    else (a.after (t.send r false)).takeEffect a.effect

/-- A request of an open seat whose message and session are right. -/
def processOpen (s : State) (h : Hdr) (r : Req) : State :=
  match (s.seat h.seat).replay.find? (fun x => x.tag == h.tag) with
  | some kept => s.send { kept with host := h.host, mark := h.mark } false
  | none =>
    if h.busy || 8 ≤ s.unanswered h.seat || (h.host.code == 3 && s.ttFull h.host.port) then s.turnAway h r.op 0x0D
    else
      let s := s.onSeat h.seat (fun x => { x with processed := (x.processed + 1) % 4294967296 })
      finish h r.op (s.serve h r)

/-- IDENTIFY and OPEN, which need no session; neither is processed over a target port with 8 queued responses. -/
def processFree (s : State) (h : Hdr) (r : Req) : State :=
  if h.host.code == 3 && s.ttFull h.host.port then s.turnAway h r.op 0x0D
  else match r with
  | .openSeat cls lease =>
    let a := s.doOpen h cls lease
    a.state.send (makeReply h r.op a.status 0 (a.session.getD h.session) a.body) h.toAll
  | _ => s.send (makeReply h r.op 0 0 h.session s.doIdentify.body) h.toAll

/-- A request as it reaches the dictionary: header and length, session, outstanding count, then the operation. A message
with the seat's session restarts its lease and is its latest request (R330, Table 12-9). -/
def process (s : State) (h : Hdr) (op : Nat) (r : Except Nat Req) : State :=
  if !(s.serves h.host) then s
  else
    let free := op == 0x01 || op == 0x02
    let mine := !free && s.sessionOk h.seat h.session
    let s := if mine then s.onSeat h.seat (fun x => { x with leaseAt := s.clock.up, latest := (h.host, h.mark) }) else s
    match r with
    | .error e => s.turnAway h op e
    | .ok r =>
      if !r.ok || (free && h.session != 0) then s.turnAway h op 0x01
      else if limitOf h.host < r.size then s.turnAway h op 0x0F
      else if free then s.processFree h r
      else if mine then s.processOpen h r
      else s.turnAway h op 0x02

/-- A well-formed request (the rows of Table 12-6). -/
def request (s : State) (h : Hdr) (r : Req) : State := s.process h r.op (.ok r)

/-- A WRITE of a numeric object by its index. -/
def writeRequest (s : State) (h : Hdr) (e : Expect) (index sub : Nat) (v : Int) : State :=
  s.request h (.write index sub e 0 (match anyObject? index sub with | some x => x.row.ty.encode v | none => []))

end State
end Sys2Proof.Machine
end

