-- ==== Sys2Proof/Machine/Transports.lean ====
section
/-!
DEFINITION. Messages as they arrive over 10BASE-T1S and CAN FD, and the PTP clock (R349 to R354, R356, R362 to R364).
-/
namespace Sys2Proof.Machine
set_option Elab.async false

namespace State

/-! ### UDP over 10BASE-T1S (R350, R351) -/

/-- The word and the UDP port of a T1S port: bench mode takes the defaults (R356). -/
def t1sWord (s : State) (t : Nat) : Word := if s.boot.phase == .bench then 0xFF080001 else (vget s.cfg.t1s t {}).word
def udpPort (s : State) (t : Nat) : Nat := if s.boot.phase == .bench then 47730 else (vget s.cfg.t1s t {}).udpPort

def onT1s (s : State) (t : Nat) (f : T1sRun → T1sRun) : State := { s with t1s := vmod s.t1s t f }
def onCan (s : State) (c : Nat) (f : CanRun → CanRun) : State := { s with cans := vmod s.cans c f }

/-- A datagram is discarded. -/
def dropDatagram (s : State) (t : Nat) : State := s.onT1s t (fun r => { r with discarded := (r.discarded + 1) % 4294967296 })

/-- A UDP datagram: fragments, other ports and messages without a whole header are discarded, datagrams to the ports of
PTP belong to PTP (R350, R351). -/
def udpDatagram (s : State) (x : Datagram) : State :=
  if !(s.serves { code := 1, port := x.port }) || !(bitAt (s.t1sWord x.port) 0) then s
  else
    let s := s.onT1s x.port (fun r => { r with received := (r.received + 1) % 4294967296 })
    if x.fragment then s.dropDatagram x.port
    else if x.dstPort ≠ s.udpPort x.port then
      if x.dstPort = 319 ∨ x.dstPort = 320 then s else s.dropDatagram x.port
    else if x.octets.length < 12 then s.dropDatagram x.port
    else
      let toAll := x.toAll && fieldLe x.octets 1 1 == 0x01
      let (h, op, r) := parseMessage { code := 1, port := x.port, addr := x.source } x.srcPort toAll x.busy true x.octets
      s.process h op r

/-- The oldest reply that waited for its random delay leaves (R351). -/
def delayedReply (s : State) (t : Nat) : State :=
  match (vget s.t1s t {}).delayed with
  | [] => s
  | r :: rest => { s.onT1s t (fun x => { x with delayed := rest }) with out := s.out ++ [.reply r] }

/-! ### CAN FD (R352 to R354) -/

/-- A message is discarded. -/
def dropMessage (s : State) (c : Nat) : State := s.onCan c (fun r => { r with discarded := (r.discarded + 1) % 4294967296 })

/-- The partial message of a seat and message number. -/
def partial? (s : State) (c seat mark : Nat) : Option CanPartial :=
  (vget s.cans c {}).partials.find? (fun p => p.seat == seat && p.mark == mark)

/-- The controller forgets the partial message of a seat and message number. -/
def forget (s : State) (c seat mark : Nat) : State :=
  s.onCan c (fun r => { r with partials := r.partials.filter (fun p => !(p.seat == seat && p.mark == mark)) })

/-- More than 50 ms have passed since the last segment of a partial message. -/
def partialStale (s : State) (p : CanPartial) : Bool := decide (400 * 50000 < s.clock.up - p.at')

/-- A message is whole: the seat of its identifier is that of its header (R352). -/
def canMessage (s : State) (c seat mark : Nat) (busy : Bool) (m : List Byte) : State :=
  if m.length < 12 ∨ fieldLe m 2 1 % 8 ≠ seat then s.dropMessage c
  else
    let (h, op, r) := parseMessage { code := 2, port := c } mark false busy false m
    s.process h op r

/-- A segment in order joins its message. -/
def canJoin (s : State) (c seat mark seg : Nat) (last busy : Bool) (before octets : List Byte) : State :=
  let s := s.forget c seat mark
  if last then s.canMessage c seat mark busy (before ++ octets)
  else if octets.length ≠ 64 then s.dropMessage c
  else s.onCan c (fun r => { r with partials :=
    r.partials ++ [{ seat := seat, mark := mark, segs := seg + 1, octets := before ++ octets, at' := s.clock.up }] })

/-- The controller's error state with a frame; an entry to bus-off is counted, and only a recovery ends it (R354). -/
def canErrors (s : State) (c errors : Nat) : State :=
  s.onCan c (fun r => if r.errorState = 2 then r
    else { r with errorState := min errors 2, busOffs := if 2 ≤ errors then (r.busOffs + 1) % 4294967296 else r.busOffs })

/-- A frame that the controller receives: other identifiers are ignored, classical frames discarded, segments assembled by
SEAT and MSGNO; a segment out of order, late or beyond the twentieth discards the message (R352, R353). -/
def canReceive (s : State) (x : CanFrame) : State :=
  let c := x.ctrl
  if bitsOf x.ident 28 25 != 4 || bitsOf x.ident 24 20 != bitsOf (s.canWord c) 28 24 then s
  else if !x.fd then s.dropMessage c
  else
    let s := s.onCan c (fun r => { r with received := (r.received + 1) % 4294967296 })
    let seat := bitsOf x.ident 19 17
    let mark := bitsOf x.ident 15 8
    let last := bitAt x.ident 7
    let seg := bitsOf x.ident 6 0
    match s.partial? c seat mark with
    | none => if seg = 0 then s.canJoin c seat mark 0 last x.busy [] x.octets else s
    | some p =>
      if seg = 0 then (s.dropMessage c).canJoin c seat mark 0 last x.busy [] x.octets
      else if seg ≠ p.segs ∨ 20 ≤ seg ∨ s.partialStale p then (s.forget c seat mark).dropMessage c
      else s.canJoin c seat mark seg last x.busy p.octets x.octets

/-- A CAN frame: a controller in service notes its error state, and receives the frame unless it is bus-off (R354). -/
def canSegment (s : State) (x : CanFrame) : State :=
  let h : HostId := { code := 2, port := x.ctrl }
  if !(s.serves h) || !(bitAt (s.canWord x.ctrl) 0) then s
  else if (s.canErrors x.ctrl x.errors).busOff h then s.canErrors x.ctrl x.errors
  else (s.canErrors x.ctrl x.errors).canReceive x

/-- More than 50 ms without the next segment (R353). -/
def segmentTimeout (s : State) (c seat mark : Nat) : State :=
  match s.partial? c seat mark with
  | some p => if s.partialStale p then (s.forget c seat mark).dropMessage c else s
  | none => s

/-- A controller that is bus-off recovers: error state active again (R354). -/
def busOffRecovery (s : State) (c : Nat) : State :=
  s.onCan c (fun r => { r with errorState := if r.errorState = 2 then 0 else r.errorState })

/-! ### Shelf time and PTP (R362, R364) -/

def onPtp (s : State) (f : PtpRun → PtpRun) : State := { s with ptp := f s.ptp }

/-- Shelf time steps by the last offset to the time transmitter's time; the step is recorded (R361, R364). -/
def timeStep (s : State) (offset : Int) : State :=
  let old := s.shelfNs
  let new := ((old : Int) - offset).toNat
  let s := { s with clock := { s.clock with shelf := (roundDiv (2 * new) 5).toNat, shelfFrac := 0 } }
  let s := s.onPtp (fun r => { r with steps := (r.steps + 1) % 4294967296, farFrom := none })
  s.changeAlone 0x1300 1 originFirmware (leBytes 8 old) (leBytes 8 s.shelfNs)

/-- An offset of shelf time is known: a step in Listening and Uncalibrated above 1 ms, a rate adjustment of at most
±200 ppm otherwise; in Locked an offset above 1 ms waits for 10 s (R364). -/
def discipline (s : State) (offset : Int) : State :=
  let far := decide (1000000 < offset) || decide (offset < -1000000)
  let s := s.onPtp (fun r => { r with offset := offset })
  if far && s.ptp.phase != .locked then s.timeStep offset
  else
    let rate := clampInt (-200000) 200000 (Config.freeRate offset s.draws)
    let lock := Config.freeLocked offset s.draws
    let s := { s with ptpAdj := rate, draws := s.draws + 1 }
    s.onPtp (fun r => { r with
      phase := if r.phase == .locked || lock then .locked else r.phase
      farFrom := if far then some (r.farFrom.getD s.clock.up) else none })

/-- The ordinary clock sends a Delay_Req, the request of the delay request-response mechanism (R364). -/
def delayReq (s : State) : State :=
  { s.onPtp (fun r => { r with request := some r.nextReq, nextReq := (r.nextReq + 1) % 65536 }) with
    out := s.out ++ [.delayReq (bitsOf s.cfg.ptpWord 1 1) s.ptp.nextReq] }

/-- A Sync with both its times; a Delay_Req follows it (R364). -/
def ptpSync (s : State) (t1 t2 : Int) : State :=
  let s := s.onPtp (fun r => { r with toSlave := t2 - t1, sync := none })
  (s.discipline (t2 - t1 - s.ptp.delay)).delayReq

/-- One dataset is better than another: the smaller in the order of the default best master clock algorithm. -/
def better : List Nat → List Nat → Bool
  | [], _ => false
  | _ :: _, [] => true
  | a :: as, b :: bs => decide (a < b) || (a == b && better as bs)

/-- An Announce of the time transmitter renews its dataset. One of another clock makes that clock the time transmitter
where none is or its dataset is the better one, and where it is the second Announce within four of its intervals (R364;
IEEE 1588-2019 qualifies a foreign clock so). -/
def ptpAnnounce (s : State) (source : Nat) (rank : List Nat) (interval : Nat) : State :=
  let r := s.ptp
  let idle := r.phase == .listening || r.phase == .holdover
  let mine (r : PtpRun) : PtpRun := { r with source := source, rank := rank, announcedAt := s.clock.up, interval := interval }
  if !idle && source == r.source then s.onPtp mine
  else
    let again := r.foreign.any (fun f => f.1 == source && decide (elapsedAo s f.2 ≤ 4 * interval))
    let s := s.onPtp (fun r => { r with foreign := r.foreign.filter (·.1 != source) ++ [(source, s.clock.up)] })
    if again && (idle || better rank r.rank) then
      s.onPtp (fun r => mine { r with phase := .uncalibrated, sync := none, farFrom := none, request := none })
    else s

/-- The message concerns the ordinary clock: enabled, its port in service, its transport and its domain (R364). -/
def ptpHears (s : State) (x : PtpIn) : Bool :=
  let w := s.cfg.ptpWord
  s.boot.phase == .serving && s.ptp.phase != .disabled && bitAt w 0 && x.port == bitsOf w 1 1 && x.transport == bitsOf w 2 2 &&
    x.domain == bitsOf w 15 8 && bitAt (s.t1sWord x.port) 0

/-- A PTP message (R364). -/
def ptpMessage (s : State) (x : PtpIn) : State :=
  if !(s.ptpHears x) then s
  else
    let mine (source : Nat) : Bool := (s.ptp.phase == .uncalibrated || s.ptp.phase == .locked) && source == s.ptp.source
    match x.body with
    | .announce source rank interval => s.ptpAnnounce source rank interval
    | .sync source seq twoStep t1 t2 =>
      if !(mine source) then s
      else if twoStep then s.onPtp (fun r => { r with sync := some (seq, t2) })
      else s.ptpSync t1 t2
    | .followUp source seq t1 =>
      match s.ptp.sync with
      | some (n, t2) => if mine source && n == seq then s.ptpSync t1 t2 else s
      | none => s
    | .delayResp source seq t3 t4 =>
      if mine source && s.ptp.request == some seq then
        s.onPtp (fun r => { r with delay := ((r.toSlave + (t4 - t3)) / 2).toNat, request := none })
      else s
    | .other => s

/-- The announce receipt timeout, three announce intervals: Holdover, the rate adjustment kept (R364). -/
def announceTimeout (s : State) : State :=
  if (s.ptp.phase == .uncalibrated || s.ptp.phase == .locked) && 3 * s.ptp.interval ≤ elapsedAo s s.ptp.announcedAt then
    s.onPtp (fun r => { r with phase := .holdover, sync := none, farFrom := none })
  else s

/-- In Locked an offset above 1 ms has lasted 10 s (R364). -/
def offsetStep (s : State) : State :=
  match s.ptp.farFrom with
  | some t => if s.ptp.phase == .locked && 10000000 ≤ elapsedAo s t then s.timeStep s.ptp.offset else s
  | none => s

end State
end Sys2Proof.Machine
end

