-- ==== Sys2Proof/Machine/Pmbus.lean ====
section
/-!
DEFINITION. The two-wire target ports: OAP over PMBus and the standard commands (R355, R429 to R439, Tables 15-3 and
15-4).
-/
namespace Sys2Proof.Machine
set_option Elab.async false

/-- A LINEAR16 reading of READ_VOUT from mV (R436). -/
def linear16 (mv : Int) : Nat := (clampInt 0 65535 (roundDiv (mv * 512) 1000)).toNat

/-- A PEC that the host sent is right; no PEC is right where one is optional (R429, R434). -/
def pecOk (sent : List Byte) (pec : Option Byte) : Bool :=
  match pec with | some x => crc8 sent == x | none => true

namespace State

/-- The port's address (Table 12-17). -/
def ttAddr (s : State) (t : Nat) : Nat := bitsOf (s.ttWord t) 14 8

/-- The port acknowledges its address (R439, Table 12-17). -/
def ttServes (s : State) (t : Nat) : Bool := decide (t < 2) && s.boot.phase == .serving && bitAt (s.ttWord t) 0

/-- Address octets of a write and of the read phase of a transaction. -/
def ttW (s : State) (t : Nat) : Byte := BitVec.ofNat 8 (2 * s.ttAddr t)
def ttR (s : State) (t : Nat) : Byte := BitVec.ofNat 8 (2 * s.ttAddr t + 1)

/-- A bit of STATUS_CML is set. -/
def ttMark (s : State) (t bit : Nat) : State := s.onTt t (fun r => { r with cml := r.cml ||| BitVec.ofNat 8 (2 ^ bit) })

/-- Every command on the port restarts the lease timer of its seat (R355). -/
def ttTouch (s : State) (t : Nat) : State := s.onSeat (s.ttSeat t) (fun r => { r with leaseAt := s.clock.up })

/-- The port does not acknowledge. -/
def ttNack (s : State) (t : Nat) : State := { s with out := s.out ++ [.nack t] }

/-- A command that is refused: bit 7 at its command octet, bit 6 after it (R433). -/
def ttRefuse (s : State) (t bit : Nat) : State := (s.ttMark t bit).ttNack t

/-- A write that is incomplete or whose PEC fails is discarded (R429, R430, R432). -/
def ttDiscard (s : State) (t : Nat) : State :=
  (s.onTt t (fun r => { r with discarded := (r.discarded + 1) % 4294967296 })).ttMark t 5

/-! ### Rights (R355, R433, R434) -/

/-- The class whose rights a standard command has: the seat's, or the lowest of its CLASSES while it is Free. -/
def ttClass (s : State) (t : Nat) : Option Nat :=
  let k := s.ttSeat t
  if (s.seat k).phase == .free then (List.range 3).find? (fun c => bitAt (vget s.cfg.bindings k 0) c) else some (s.seat k).cls

/-- The read right in the area of an index; a command without an object needs none. -/
def ttMay (s : State) (t : Nat) (index : Option Nat) : Bool :=
  match index, s.ttClass t with
  | none, _ => true
  | some i, some c => s.hasRight c i false
  | some _, none => false

/-- The octets of a read command leave, with their PEC where the host acknowledges the last data octet (R431, R434). -/
def ttAnswer (s : State) (t : Nat) (code : Byte) (ack : Bool) (data : List Byte) : State :=
  { s with out := s.out ++ [.target t (data ++ if ack then [crc8 ([s.ttW t, code, s.ttR t] ++ data)] else [])] }

/-- The value and the octets of an object as the port's seat reads them. -/
def ttValue (s : State) (t index sub : Nat) : Int :=
  match object? index sub with | some x => s.value (s.ttSeat t) true x | none => 0
def ttOctets (s : State) (t index sub : Nat) : List Byte :=
  match object? index sub with | some x => s.octets (s.ttSeat t) true x | none => []

/-- A word of a reading in LINEAR11. -/
def ttWord11 (s : State) (t index sub den : Nat) : Option Nat × List Byte :=
  (some index, leBytes 2 (toLinear11 (s.ttValue t index sub) den))

/-! ### The entries of Table 15-3 -/

/-- The feed of the present page, none on page 0. -/
def pageFeed (s : State) (t : Nat) : Option Nat := if (s.tt t).page = 0 then none else some ((s.tt t).page - 1)

/-- The index of the live readings of a feed, of a zone and of a soak model. -/
def feedIndex (z : Nat) : Nat := Family.feed.index z 3
def zoneIndex (z : Nat) : Nat := Family.zone.index z 0
def modelIndex (m : Nat) : Nat := Family.soakModel.index m 5
/-- The input that BUS_SN names, and the index of the lint bits. -/
def busIndex (s : State) : Nat := Family.sense.index s.cfg.bus.busSn 0
def lintIndex : Nat := 0x8000

def vinEntry (s : State) (t : Nat) : Option (Option Nat × List Byte) :=
  (s.pageFeed t).map (fun z => s.ttWord11 t (feedIndex z) 1 1000)

def voutEntry (s : State) (t : Nat) : Option (Option Nat × List Byte) :=
  match s.pageFeed t with
  | none => some (some s.busIndex, leBytes 2 (linear16 (s.ttValue t s.busIndex 3)))
  | some z => some (some (feedIndex z), leBytes 2 (linear16 (s.ttValue t (feedIndex z) 2)))

def ioutEntry (s : State) (t : Nat) : Option (Option Nat × List Byte) :=
  (s.pageFeed t).map (fun z => s.ttWord11 t (feedIndex z) 4 1000)

def temperatureEntry (s : State) (t : Nat) : Option (Option Nat × List Byte) :=
  match s.pageFeed t with
  | none => some (s.ttWord11 t (modelIndex 64) 1 100)
  | some z => if (s.feedB z).model < 65 then some (s.ttWord11 t (modelIndex (s.feedB z).model) 1 100) else none

def poutEntry (s : State) (t : Nat) : Option (Option Nat × List Byte) :=
  match s.pageFeed t with
  | none => some (s.ttWord11 t 0x2000 7 1)
  | some z => some (s.ttWord11 t (zoneIndex z) 5 1)

def pinEntry (s : State) (t : Nat) : Option (Option Nat × List Byte) :=
  if (s.pageFeed t).isNone then some (s.ttWord11 t 0x2000 8 1) else none

/-- A block of octets with its count. -/
def ttBlock (s : State) (t sub : Nat) : Option (Option Nat × List Byte) :=
  let bs := s.ttOctets t 0x1000 sub
  some (some 0x1000, BitVec.ofNat 8 bs.length :: bs)

/-! ### STATUS_WORD (R435, Table 15-4) -/

/-- A soak model is in throttle or shut-down. -/
def modelHot (s : State) (m : Nat) : Bool := (s.model m).throttle || (s.model m).shut

/-- STATUS_WORD for the present page. -/
def statusWord (s : State) (t : Nat) : Nat :=
  let c := s.cfg.bus
  let y := (s.sense c.busSn).y
  let high := decide (c.winHi < y)
  let out := high || decide (y < c.winLo)
  let both := flagBit s.lint.episode.opn 12 + flagBit ((s.tt t).cml != 0) 1 + flagBit (s.lint.causes.toList.any (· != 0)) 0
  match s.pageFeed t with
  | none =>
    let lost := s.shelf.loss.declared
    both + flagBit out 15 + flagBit lost 13 + flagBit out 11 + flagBit s.lint.safe 6 + flagBit high 5 + flagBit lost 3 +
      flagBit (allModels.any s.modelHot) 2
  | some z =>
    let r := s.feed z
    let off := r.phase != .on
    both + flagBit (s.thrReasons z != 0) 14 + flagBit off 11 + flagBit off 6 +
      flagBit ((r.phase == .retryWait || r.phase == .latched) && (r.cause == 2 || r.cause == 3)) 4 +
      flagBit (decide ((s.feedB z).model < 65) && s.modelHot (s.feedB z).model) 2

/-! ### Table 15-3 -/

/-- An entry of a read command: the index that it needs a right for, and its octets. -/
abbrev TtEntry := Option Nat × List Byte

/-- The read commands of Table 15-3 by their code: the entry of the present page, and the indices that the command needs
on other pages. -/
def ttTable (s : State) (t code : Nat) : Option (Option TtEntry × List Nat) :=
  match code with
  | 0x00 => some (some (none, [BitVec.ofNat 8 (s.tt t).page]), [])
  | 0x19 => some (some (none, [0xC0]), [])
  | 0x20 => some (some (none, [0x17]), [])
  | 0x78 => some (some (some lintIndex, leBytes 1 (s.statusWord t)), [])
  | 0x79 => some (some (some lintIndex, leBytes 2 (s.statusWord t)), [])
  | 0x7E => some (some (some lintIndex, [(s.tt t).cml]), [])
  | 0x88 => some (s.vinEntry t, [feedIndex 0])
  | 0x8B => some (s.voutEntry t, [])
  | 0x8C => some (s.ioutEntry t, [feedIndex 0])
  | 0x8D => some (s.temperatureEntry t, [modelIndex 64])
  | 0x96 => some (s.poutEntry t, [])
  | 0x97 => some (s.pinEntry t, [0x2000])
  | 0x98 => some (some (none, [0x33]), [])
  | 0x99 => some (s.ttBlock t 1, [])
  | 0x9A => some (s.ttBlock t 2, [])
  | 0x9B => some (s.ttBlock t 6, [])
  | 0x9E => some (s.ttBlock t 5, [])
  | _ => none

/-- The port's seat may use a read command on some page. -/
def ttMayUse (s : State) (t : Nat) (e : Option TtEntry × List Nat) : Bool :=
  (match e.1 with | some (need, _) => s.ttMay t need | none => false) || e.2.any (fun i => s.ttMay t (some i))

/-- A standard read command (R433, R434). -/
def ttRead (s : State) (t : Nat) (code : Byte) (ack : Bool) : State :=
  if !(s.ttServes t) then s.ttNack t
  else
    let s := s.ttTouch t
    match s.ttTable t code.toNat with
    | none => s.ttRefuse t 7
    | some (some (need, data), _) => if s.ttMay t need then s.ttAnswer t code ack data else s.ttRefuse t 7
    | some e => s.ttRefuse t (if s.ttMayUse t e then 6 else 7)

/-! ### OAP over the port (R355, R429) -/

/-- OAP_READ sends the octets of a block; the next Host Notify is due 100 ms later, or when the queue is non-empty again. -/
def ttSend (s : State) (t : Nat) (ack : Bool) (octets : List Byte) : State :=
  let s := s.ttAnswer t 0xD1 ack (BitVec.ofNat 8 octets.length :: octets)
  s.onTt t (fun r => { r with notified := if s.ttEmpty t then none else some s.clock.up, retry := r.retry && !(s.ttEmpty t) })

/-- The oldest response leaves the queue, and the write that waited for it takes effect (R363, R379). -/
def ttSendReply (s : State) (t : Nat) (ack : Bool) (q : Queued) : State :=
  ((s.onTt t (fun x => { x with responses := x.responses.drop 1 })).ttSend t ack q.reply.octets).takeEffect q.effect

/-- The oldest notification of the port's seat leaves the queue. -/
def ttSendNotice (s : State) (t : Nat) (ack : Bool) : State :=
  let k := s.ttSeat t
  match s.popNotice k with
  | (s, some (flags, n)) => s.ttSend t ack (noticeOctets k flags (s.seat k).session n)
  | (s, none) => s.ttSend t ack []

/-- OAP_READ: the oldest queued response or notification, or a block of length 0 (R355). -/
def oapRead (s : State) (t : Nat) (ack : Bool) : State :=
  if !(s.ttServes t) then s.ttNack t
  else
    let s := s.ttTouch t
    match (s.tt t).responses, s.ttNotices t with
    | q :: _, n :: _ => if n.stamp < q.at' then s.ttSendNotice t ack else s.ttSendReply t ack q
    | q :: _, [] => s.ttSendReply t ack q
    | [], _ :: _ => s.ttSendNotice t ack
    | [], [] => s.ttSend t ack []

/-- SMBus Host Notify: the address octet and the data word (R437). -/
def notifyOctets (s : State) (t : Nat) : List Byte :=
  s.ttW t :: leBytes 2 (flagBit (!(s.tt t).responses.isEmpty) 0 + flagBit (!(s.ttNotices t).isEmpty) 1 +
    flagBit (s.seat (s.ttSeat t)).overrun 2)

/-- A Host Notify is sent; one that loses arbitration is stopped at once and tried again after the next STOP (R437, R438). -/
def notifyHost (s : State) (t : Nat) (lost : Bool) : State :=
  if lost then s.onTt t (fun r => { r with retry := true })
  else { s.onTt t (fun r => { r with notified := some s.clock.up, retry := false }) with
         out := s.out ++ [.hostNotify t (s.notifyOctets t)] }

/-- The queue has become non-empty, or a Host Notify has lost arbitration before this STOP, and the bus has been idle for 50 µs
(R437, R438). -/
def hostNotify (s : State) (t : Nat) (lost : Bool) : State :=
  if s.ttServes t && !(s.ttEmpty t) && ((s.tt t).notified.isNone || (s.tt t).retry) then s.notifyHost t lost else s

/-- 100 ms have passed since the last Host Notify or OAP_READ and the queue is not empty (R437). -/
def hostNotifyRepeat (s : State) (t : Nat) (lost : Bool) : State :=
  match (s.tt t).notified with
  | some at' => if s.ttServes t && !(s.ttEmpty t) && 100000 ≤ elapsedAo s at' then s.notifyHost t lost else s
  | none => s

/-! ### Writes of the standard commands (R355, R429, R433) -/

/-- The port's seat may write: it is not Free (R355). -/
def ttWritable (s : State) (t : Nat) : Bool := (s.seat (s.ttSeat t)).phase != .free

/-- PAGE written with 0 to 16 (R434); without its data octet the write is incomplete (R429), and a further octet is
refused. -/
def pageWrite (s : State) (t : Nat) (octets : List Byte) (pec : Option Byte) : State :=
  if !(s.ttServes t) then s.ttNack t
  else
    let s := s.ttTouch t
    match octets with
    | [] => s.ttDiscard t
    | v :: rest =>
      if !(pecOk ([s.ttW t, 0x00] ++ octets) pec) then s.ttDiscard t
      else if !(s.ttWritable t) || decide (16 < v.toNat) || !rest.isEmpty then s.ttRefuse t 6
      else s.onTt t (fun r => { r with page := v.toNat })

/-- PAGE, read or written. -/
def page (s : State) (t : Nat) (x : PageIn) : State :=
  match x with
  | .read ack => s.ttRead t 0x00 ack
  | .write octets pec => s.pageWrite t octets pec

/-- CLEAR_FAULTS (R433). -/
def clearFaults (s : State) (t : Nat) (pec : Option Byte) : State :=
  if !(s.ttServes t) then s.ttNack t
  else
    let s := s.ttTouch t
    if !(s.ttWritable t) then s.ttRefuse t 7
    else if !(pecOk [s.ttW t, 0x03] pec) then s.ttDiscard t
    else s.onTt t (fun r => { r with cml := 0 })

/-- OAP_WRITE: one whole OAP message with its PEC, for the seat that the port serves (R355, R429). -/
def oapMessage (s : State) (t : Nat) (busy : Bool) (x : BlockIn) (pec : Option Byte) : State :=
  let m := x.octets
  if m.length != x.count.toNat || pec != some (crc8 ([s.ttW t, 0xD0, x.count] ++ m)) then s.ttDiscard t
  else if m.length < 12 ∨ fieldLe m 2 1 % 8 ≠ s.ttSeat t then s.ttRefuse t 6
  else
    let (h, op, r) := parseMessage { code := 3, port := t } 0 false busy true m
    s.process h op r

/-- A write to the port by its command octet. A code that Table 15-3 does not list, or that the seat may use in neither
direction, is not acknowledged; a write to a read command is refused after it (R433). -/
def oapWrite (s : State) (t : Nat) (busy : Bool) (x : BlockIn) (pec : Option Byte) : State :=
  if !(s.ttServes t) then s.ttNack t
  else
    let r := s.ttTouch t
    if x.code = 0xD0 then r.oapMessage t busy x pec
    else if x.code = 0x00 then s.pageWrite t x.octets pec
    else if x.code = 0x03 then s.clearFaults t pec
    else if x.code = 0xD1 then r.ttRefuse t 6
    else match r.ttTable t x.code.toNat with
      | none => r.ttRefuse t 7
      | some e => r.ttRefuse t (if r.ttMayUse t e then 6 else 7)

/-- A repeated START where the acknowledge was due: the pending write is discarded (R430). -/
def targetAbort (s : State) (t : Nat) : State := if s.ttServes t then s.ttDiscard t else s

/-- SCL low for 25 ms: the interface resets; a pending write is discarded (R432). -/
def targetTimeout (s : State) (t : Nat) (writing : Bool) : State := if s.ttServes t && writing then s.ttDiscard t else s

end State
end Sys2Proof.Machine
end

