-- ==== Sys2Proof/Machine/Rows.lean ====
section
/-!
DEFINITION. What the meanings of the commands share: the start of a step, blocks in reset, requests that a host or a
block raises, and the rows that a timer or an event applies on its own.
-/
namespace Sys2Proof.Machine
set_option Elab.async false

namespace State

/-- The transports hold nothing from an earlier step. -/
def fresh (s : State) : State := { s with out := [] }

end State

/-- A command that acts in every condition of the part. -/
def always (s : State) (f : State → State) : Host.Outcome State Fault Refusal := .next (f s.fresh)

/-- A command of a block of the logic die: without effect while the die is in reset (R448). -/
def inService (s : State) (f : State → State) : Host.Outcome State Fault Refusal := .next (s.fresh.running f)

/-- A command that only the management firmware performs (Table 01-7). -/
def byFirmware (s : State) (f : State → State) : Host.Outcome State Fault Refusal :=
  .next (s.fresh.running (fun s => s.withFirmware f))

namespace State

/-! ### Requests of a host or a block -/

/-- A host's WRITE of a number to a sub-entry of a unit, where the part has that unit. -/
def hostPut (s : State) (h : Hdr) (e : Expect) (f : Family) (unit off sub : Nat) (v : Int) : State :=
  if locate (f.index unit off) == some (f, unit, off) then s.writeRequest h e (f.index unit off) sub v else s

/-- A host's WRITE of a request to a command object, or what a block does for the same request. -/
def ask (s : State) (o : Source) (f : Family) (unit off sub : Nat) (v : Int) (block : State → State) : State :=
  match o with
  | .host h e => s.hostPut h e f unit off sub v
  | .block => block s

/-- What a block's request does where no check turns it away. -/
def ifDone (s : State) (r : Except Refused State) : State := match r with | .ok t => t | .error _ => s

/-! ### Requests to groups, feeds, orders, irons, strings and captures -/

/-- A start request to a group, taken at its next boundary (R62). -/
def startGroup (s : State) (o : Source) (g : Nat) : State := s.ask o .loopGroup g 4 1 1 (fun s => s.requestGroup g)

/-- A stop request to a group, taken at its next boundary (R62, R63). -/
def stopGroup (s : State) (o : Source) (g : Nat) : State :=
  s.ask o .loopGroup g 4 1 2 (fun s => s.onGroup g (fun r => { r with stopReq := s.raised r.stopReq, thermalMark := false }))

/-- A clear of a group, taken at its next boundary (R62). -/
def clearGroup (s : State) (o : Source) (g : Nat) : State :=
  s.ask o .loopGroup g 4 1 3 (fun s => s.onGroup g (fun r => { r with clearReq := s.raised r.clearReq, thermalMark := false }))

/-- A start request to a feed, taken at its next tick (R246). -/
def startFeed (s : State) (o : Source) (z : Nat) : State := s.ask o .feed z 2 1 1 (fun s => s.requestFeed z)

/-- A stop request to a feed, taken at its next tick (R246). -/
def stopFeedNow (s : State) (o : Source) (z : Nat) : State :=
  s.ask o .feed z 2 1 2 (fun s => s.onFeed z (fun r => { r with
    stopReq := some (r.stopReq.getD (11, s.clock.slots)), thermalMark := false }))

/-- A clear of a feed, taken at its next tick (R246). -/
def clearFeed (s : State) (o : Source) (z : Nat) : State :=
  s.ask o .feed z 2 1 3 (fun s => s.onFeed z (fun r => { r with clearReq := s.raised r.clearReq, thermalMark := false }))

/-- The captures of a feed are cleared at its next tick (R261, R369). -/
def clearCaptures (s : State) (o : Source) (z : Nat) : State :=
  s.ask o .feed z 2 1 4 (fun s => s.onFeed z (fun r => { r with capsReq := s.raised r.capsReq }))

/-- An up request to an order, taken at its next tick (Table 09-2). -/
def upOrder (s : State) (o : Source) (k : Nat) : State := s.ask o .order k 0 1 1 (fun s => s.requestUp k)

/-- A down request to an order, taken at its next tick (Table 09-2). -/
def downOrder (s : State) (o : Source) (k : Nat) : State :=
  s.ask o .order k 0 1 2 (fun s => s.onOrder k (fun r => { r with downReq := s.raised r.downReq }))

/-- Order command 3, taken at the order's next tick (R282, R369). -/
def clearOrder (s : State) (o : Source) (k : Nat) : State :=
  s.ask o .order k 0 1 3 (fun s => s.onOrder k (fun r => { r with clearReq := s.raised r.clearReq }))

/-- Iron command 1 or 2 (R133). -/
def commandIron (s : State) (o : Source) (i : Nat) (v : Int) : State :=
  s.ask o .iron i 2 1 v (fun s => s.ifDone (s.askIron i v))

/-- String command 1 or 2 (R240). -/
def commandString (s : State) (o : Source) (k : Nat) (v : Int) : State :=
  s.ask o .batString k 5 1 v (fun s => s.ifDone (s.askString k v))

/-- Capture command 2, or the trigger that the capture is set to; a TRIG_KIND of 0 is the host command alone (R323). -/
def triggerCapture (s : State) (o : Source) (c : Nat) : State :=
  s.ask o .capture c 0 5 2 (fun s =>
    if (s.captureC c).trigKind = 0 then s else s.captureTrigger c (s.captureC c).trigKind (s.captureC c).trigSrc)

/-! ### Rows that a timer or an event applies on its own -/

/-- What a group does at one of its sample boundaries (R62). -/
def groupDue (s : State) (g : Nat) (f : State → State) : State := if s.onGrid (s.groupB g).k then f s else s

/-- The soft-start timeout rows at a boundary, with the fault record (R62, R325). -/
def softStartRow (s : State) (g : Nat) : State := s.groupDue g (fun s => (s.softStartTimeout g).writeLastFault g)

/-- The retry row at a boundary (R62). -/
def retryRow (s : State) (g : Nat) : State := s.groupDue g (fun s => s.retryTimer g)

/-- What a feed does at one of its ticks (R244). -/
def feedDue (s : State) (f : State → State) : State := if s.onGrid 2 then f s else s

/-- The main-gate fault at a tick (R253). -/
def mainGateRow (s : State) (z : Nat) : State := s.feedDue (fun s => if s.mainGateFault z then s.feedRows z else s)

/-- The rows of Table 08-2 in one state, applied at a tick when a timer of that state has run out. -/
def feedRowsIn (s : State) (z : Nat) (ph : FeedPhase) : State :=
  s.feedDue (fun s => if (s.feed z).phase == ph then s.feedRows z else s)

/-- The rows of Table 03-1 in one state. -/
def timebaseIn (s : State) (ph : TimebasePhase) : State := if s.tb.phase == ph then s.timebaseRows else s

/-- SYNCIN is lost: the rows of Acquiring and of Locked (R84, R86). -/
def syncinGone (s : State) : State := if s.tb.phase == .acquiring then s.timebaseIn .acquiring else s.timebaseIn .locked

/-- The support mode of a group ends, and of every member of its share pool (R225). -/
def supportExit (s : State) (g : Nat) : State :=
  match s.stringCtrl g with
  | some k => if s.supportOver g k then s.leaveSupport g else s
  | none => s

/-- The test vectors of the spare lane, evaluated while it carries no work: a failure retires it (R72). -/
def spareTest (s : State) (pass : Bool) : State :=
  if pass || s.engine.carried != 255 || bitAt s.engine.retired 16 then s
  else (s.retireLane 16).detect (srcLane 16) 1

/-- A trim has stayed at a limit of its share channel for 10 ms (R187). -/
def shareLimit (s : State) (p : Nat) : State := s.detectIf (s.shareAtLimit p) (srcGroupLock (s.portB p).group) 1

/-- i_k of a phase has stayed at a limit for 10 ms (R105). -/
def lockLimitRow (s : State) (p k : Nat) : State := s.detectIf (s.lockLimit p k) (srcGroupLock (s.portB p).group) 0

/-- The suspension of a group's lock ends once LOCK_RESUME samples have passed without an event (R104). -/
def lockResumeRow (s : State) (g : Nat) : State :=
  if (s.groupB g).modul.lockResume ≤ (s.group g).lock.quiet then
    s.onGroup g (fun r => { r with lock := { r.lock with suspended := false } }) else s

/-- A candidate for the period of an iron with PSRC 1, with its correlation peak in 1/1,000: accepted when the peak is at
least 0.8 and it lies within 0.5 % of the two candidates before it (R131). -/
def periodCandidate (s : State) (i candidate peak : Nat) : State :=
  let b := s.ironB i
  let near (x : Nat) : Bool := decide (200 * (if x ≤ candidate then candidate - x else x - candidate) ≤ x)
  if b.psrc != 1 || candidate < b.estMin || b.estMax < candidate then s
  else s.onIron i (fun r =>
    let ok := decide (800 ≤ peak) && r.cands.length == 2 && r.cands.all near
    { r with estimate := if ok then candidate else r.estimate, cands := (candidate :: r.cands).take 2 })

/-- A feed tick: every feed, then the currents that the bus-bar models take (R244 to R246, R284). G off the 1 µs grid is no tick
(R22). -/
def feedTickAll (s : State) (x : Vector FeedIn 16) : State :=
  if !(s.onGrid 2) then s else (allFeeds.foldl (fun s z => match x[z]? with | some y => s.feedTick z y | none => s) s).busbarCurrents

/-- A string tick: every string; the counters alone run while the logic die is in reset, when G stands still, and at any other time
G off the 1 ms grid is no tick (R22, R217, R226). -/
def stringTickAll (s : State) (x : Vector StringIn 8) : State :=
  if s.boot.phase != .held && !(s.onGrid 2000) then s else (List.range 8).foldl (fun s k =>
    match x[k]? with
    | some y => if s.boot.phase == .held then s.onStr k (fun r => r.count (s.strB k) y) else s.stringTick k y
    | none => s) s

/-- A conversion of a sense input; the reading of BUS_SN is the voltage of the bus-bar models (R108, R284). -/
def convert (s : State) (n : Nat) (code : Int) : State :=
  let s := s.senseConversion n code
  if n = s.cfg.bus.busSn then s.busbarVoltage (s.sense n).y else s

/-- Symbol lock of an uplink; a port begins its bring-up once the links run (R177). -/
def lockSymbols (s : State) (p : Nat) : State :=
  if s.linksRun then s.symbolLock p else s.onPort p (fun r => { r with symLock := true })

/-- A boundary of the collector: what was detected before it is registered; a cause that a block reports at it is detected now
and registers at a later boundary (R302, R479). -/
def lintBoundary (s : State) (extra : Option (Nat × Nat)) : State :=
  let s := s.registerAll
  match extra with
  | some (src, cause) => s.detectIf (decide (cause < causeCount src)) src cause
  | none => s

/-- THR_HOLD of a feed's FDn_THR has passed: the pin follows its reasons again (R213). -/
def thrHold (s : State) (z : Nat) : State := s.thrUpdate z

/-- A WRITE of octets to a DOMAIN object. -/
def hostLoad (s : State) (h : Hdr) (e : Expect) (index sub offset : Nat) (bs : List Byte) : State :=
  s.request h (.write index sub e offset bs)

end State
end Sys2Proof.Machine
end

