-- ==== Sys2Proof/Machine/CommitRows.lean ====
section
/-!
DEFINITION. Meanings: banks, commits, settings and the safe set (chapters 1 and 3).
-/
namespace Sys2Proof.Machine
set_option Elab.async false

/-- Mark writes take effect at a 100 µs mark (R89). -/
def execMarkWriteTakesEffect (s : State) : Host.Outcome State Fault Refusal :=
  inService s (fun s => s.marksTake)

/-- Tap writes take effect at a tap boundary of the leader (R141). -/
def execTapWriteTakesEffect (s : State) : Host.Outcome State Fault Refusal :=
  inService s (fun s => s.tapsTake)

/-- Immediate writes reach the active bank (R23). -/
def execImmediateWriteApply (s : State) : Host.Outcome State Fault Refusal :=
  inService s (fun s => s.immediatesTake)

/-- Held writes are recorded when CHG_HOLDOFF has passed (R321). -/
def execChangeHoldoffExpire (s : State) : Host.Outcome State Fault Refusal :=
  byFirmware s (fun s => s.flushHolds)

/-- A commit list is written (R24, R30). -/
def execCommitList (h : Hdr) (expect : Expect) (octets : List Byte) (s : State) : Host.Outcome State Fault Refusal :=
  inService s (fun s => s.hostLoad h expect 0x20F0 1 0 octets)

/-- The next commit list is validated, and refused or armed (R25, R481). -/
def execCommitProcess (s : State) : Host.Outcome State Fault Refusal :=
  inService s (fun s => State.commitProcess s)

/-- The armed commit swaps at its boundary (R25 to R29). -/
def execCommitSwap (s : State) : Host.Outcome State Fault Refusal :=
  inService s (fun s => State.commitSwap s)

/-- The safe-set capture is written (R40). -/
def execSafeSetCapture (h : Hdr) (expect : Expect) (value : Nat) (s : State) : Host.Outcome State Fault Refusal :=
  inService s (fun s => s.hostPut h expect .safeSet 0 0 2 value)

/-- The CRC of a safe-set capture is written (R40). -/
def execSafeSetCaptureDone (s : State) : Host.Outcome State Fault Refusal :=
  inService s (fun s => s.safeDone)

end Sys2Proof.Machine
end

