-- ==== Sys2Proof/Machine/FeedRows.lean ====
section
/-!
DEFINITION. Meanings: feeds (chapter 8).
-/
namespace Sys2Proof.Machine
set_option Elab.async false

/-- A start of a feed (R246, R257). -/
def execFeedStart (o : Source) (z : Nat) (s : State) : Host.Outcome State Fault Refusal :=
  inService s (fun s => s.startFeed o z)

/-- A stop of a feed (R246). -/
def execFeedStop (o : Source) (z : Nat) (s : State) : Host.Outcome State Fault Refusal :=
  inService s (fun s => s.stopFeedNow o z)

/-- A clear of a latched feed (R246). -/
def execFeedClear (o : Source) (z : Nat) (s : State) : Host.Outcome State Fault Refusal :=
  inService s (fun s => s.clearFeed o z)

/-- The captures of a feed are cleared (R261). -/
def execFeedClearCaptures (o : Source) (z : Nat) (s : State) : Host.Outcome State Fault Refusal :=
  inService s (fun s => s.clearCaptures o z)

/-- One 1 µs tick of every feed (R244 to R246). -/
def execFeedTick (x : Vector FeedIn 16) (s : State) : Host.Outcome State Fault Refusal :=
  inService s (fun s => s.feedTickAll x)

/-- The comparator of a feed trips; it stays active in a warm reset (R251, R259). -/
def execOvercurrentTrip (z : Nat) (s : State) : Host.Outcome State Fault Refusal :=
  always s (fun s => s.comparatorTrip z)

/-- A connector has stayed seated for SEAT_DEB (R246). -/
def execSeatDebounceDone (z : Nat) (s : State) : Host.Outcome State Fault Refusal :=
  inService s (fun s => s.feedRowsIn z .seating)

/-- The pre-charge timer reaches PRE_T_MAX (R246, R249). -/
def execPreChargeTimeout (z : Nat) (s : State) : Host.Outcome State Fault Refusal :=
  inService s (fun s => s.feedRowsIn z .preCharge)

/-- The overlap of the two gates ends (R250). -/
def execOverlapEnd (z : Nat) (s : State) : Host.Outcome State Fault Refusal :=
  inService s (fun s => s.feedDue (fun s => s.overlapEnd z))

/-- The drop across the main FET has stayed above DROP_MAX (R253). -/
def execMainGateFault (z : Nat) (s : State) : Host.Outcome State Fault Refusal :=
  inService s (fun s => s.mainGateRow z)

/-- The retry timer reaches RETRY_INT (R246). -/
def execFeedRetryTimer (z : Nat) (s : State) : Host.Outcome State Fault Refusal :=
  inService s (fun s => s.feedRowsIn z .retryWait)

/-- A feed has been on for 10 s (R246). -/
def execFeedOnTimer (z : Nat) (s : State) : Host.Outcome State Fault Refusal :=
  inService s (fun s => s.feedRowsIn z .on)

/-- One pin alone has been seated for 1 s (R248). -/
def execSeatingFault (z : Nat) (s : State) : Host.Outcome State Fault Refusal :=
  inService s (fun s => s.feedDue (fun s => s.seatingFault z))

end Sys2Proof.Machine
end

