-- ==== Sys2Proof/Machine/GroupRows.lean ====
section
/-!
DEFINITION. Meanings: loop groups, lanes, irons and input loss (chapters 2 to 4 and 6).
-/
namespace Sys2Proof.Machine
set_option Elab.async false

/-- A start of a group (R62). -/
def execGroupStart (o : Source) (g : Nat) (s : State) : Host.Outcome State Fault Refusal :=
  inService s (fun s => s.startGroup o g)

/-- A stop of a group (R62, R63). -/
def execGroupStop (o : Source) (g : Nat) (s : State) : Host.Outcome State Fault Refusal :=
  inService s (fun s => s.stopGroup o g)

/-- A clear of a latched group (R62). -/
def execGroupClear (o : Source) (g : Nat) (s : State) : Host.Outcome State Fault Refusal :=
  inService s (fun s => s.clearGroup o g)

/-- One sample of a group (R45). -/
def execGroupSample (g : Nat) (x : SampleIn) (s : State) : Host.Outcome State Fault Refusal :=
  inService s (fun s => s.sampleBoundary g (s.startHeld g) x)

/-- The soft-start timer reaches SS_TIMEOUT (R62). -/
def execSoftStartTimeout (g : Nat) (s : State) : Host.Outcome State Fault Refusal :=
  inService s (fun s => State.softStartRow s g)

/-- The retry timer reaches RETRY_INTERVAL (R62). -/
def execGroupRetryTimer (g : Nat) (s : State) : Host.Outcome State Fault Refusal :=
  inService s (fun s => s.retryRow g)

/-- The test vectors of the spare lane (R72). -/
def execSpareLaneTest (pass : Bool) (s : State) : Host.Outcome State Fault Refusal :=
  inService s (fun s => s.spareTest pass)

/-- A share trim has stayed at a limit for 10 ms (R187). -/
def execShareTrimAtLimit (p : Nat) (s : State) : Host.Outcome State Fault Refusal :=
  inService s (fun s => s.shareLimit p)

/-- A derate channel has lost for 10 ms (R296). -/
def execDerateRelease (g : Nat) (s : State) : Host.Outcome State Fault Refusal :=
  inService s (fun s => State.derateRelease s g)

/-- The suspension of a lock ends (R104). -/
def execLockResume (g : Nat) (s : State) : Host.Outcome State Fault Refusal :=
  inService s (fun s => s.lockResumeRow g)

/-- A lock integrator has stayed at its limit for 10 ms (R105). -/
def execLockAtLimit (p : Nat) (k : Nat) (s : State) : Host.Outcome State Fault Refusal :=
  inService s (fun s => s.lockLimitRow p k)

/-- A period candidate of an iron (R131). -/
def execIronPeriodEstimate (k : Nat) (candidate : Nat) (peak : Nat) (s : State) : Host.Outcome State Fault Refusal :=
  byFirmware s (fun s => s.periodCandidate k candidate peak)

/-- Iron command 1 (R133). -/
def execIronClearMemory (o : Source) (k : Nat) (s : State) : Host.Outcome State Fault Refusal :=
  inService s (fun s => s.commandIron o k 1)

/-- Iron command 2 (R133). -/
def execIronRelease (o : Source) (k : Nat) (s : State) : Host.Outcome State Fault Refusal :=
  inService s (fun s => s.commandIron o k 2)

/-- Input loss clears (R193, R196). -/
def execInputLossClear (s : State) : Host.Outcome State Fault Refusal :=
  inService s (fun s => s.lossClear)

/-- Support mode ends (R225). -/
def execSupportModeExit (g : Nat) (s : State) : Host.Outcome State Fault Refusal :=
  inService s (fun s => s.supportExit g)

end Sys2Proof.Machine
end

