-- ==== Sys2Proof/Machine/HostRows.lean ====
section
/-!
DEFINITION. Meanings: the commands of the Object Access Protocol and the seats (chapters 12 and 13).
-/
namespace Sys2Proof.Machine
set_option Elab.async false

/-- IDENTIFY (R336). -/
def execIdentify (h : Hdr) (s : State) : Host.Outcome State Fault Refusal :=
  inService s (fun s => s.request h .identify)

/-- OPEN (R329, R330). -/
def execOpenSeat (h : Hdr) (cls : Nat) (lease : Nat) (s : State) : Host.Outcome State Fault Refusal :=
  inService s (fun s => s.request h (.openSeat cls lease))

/-- CLOSE (R331). -/
def execCloseSeat (h : Hdr) (s : State) : Host.Outcome State Fault Refusal :=
  inService s (fun s => s.request h .closeSeat)

/-- KEEPALIVE (R336). -/
def execKeepalive (h : Hdr) (s : State) : Host.Outcome State Fault Refusal :=
  inService s (fun s => s.request h .keepalive)

/-- READ (R341). -/
def execRead (h : Hdr) (index : Nat) (sub : Nat) (active : Bool) (offset : Nat) (maxLen : Nat) (s : State) : Host.Outcome State Fault Refusal :=
  inService s (fun s => s.request h (.read index sub active offset maxLen))

/-- WRITE (R342). -/
def execWrite (h : Hdr) (index : Nat) (sub : Nat) (expect : Expect) (offset : Nat) (value : List Byte) (s : State) : Host.Outcome State Fault Refusal :=
  inService s (fun s => s.request h (.write index sub expect offset value))

/-- READ_MULTI (R370). -/
def execReadMulti (h : Hdr) (entries : List (Nat × Nat × Bool)) (s : State) : Host.Outcome State Fault Refusal :=
  inService s (fun s => s.request h (.readMulti entries))

/-- STEWARD, action acquire (R344). -/
def execStewardAcquire (h : Hdr) (index : Nat) (sub : Nat) (s : State) : Host.Outcome State Fault Refusal :=
  inService s (fun s => s.request h (.steward index sub 1))

/-- STEWARD, action release (R344). -/
def execStewardRelease (h : Hdr) (index : Nat) (sub : Nat) (s : State) : Host.Outcome State Fault Refusal :=
  inService s (fun s => s.request h (.steward index sub 2))

/-- STEWARD, action query (R344). -/
def execStewardQuery (h : Hdr) (index : Nat) (sub : Nat) (s : State) : Host.Outcome State Fault Refusal :=
  inService s (fun s => s.request h (.steward index sub 3))

/-- STEWARD, action take over (R344, R358). -/
def execStewardTakeOver (h : Hdr) (index : Nat) (sub : Nat) (s : State) : Host.Outcome State Fault Refusal :=
  inService s (fun s => s.request h (.steward index sub 4))

/-- SUBSCRIBE (R347). -/
def execSubscribe (h : Hdr) (index : Nat) (sub : Nat) (periodic : Bool) (interval : Nat) (s : State) : Host.Outcome State Fault Refusal :=
  inService s (fun s => s.request h (.subscribe index sub periodic interval))

/-- UNSUBSCRIBE (R336). -/
def execUnsubscribe (h : Hdr) (num : Nat) (s : State) : Host.Outcome State Fault Refusal :=
  inService s (fun s => s.request h (.unsubscribe num))

/-- The interval of a periodic subscription passes (R347); `drain` queued notifications leave. -/
def execNotifyPeriodic (seat : Nat) (num : Nat) (drain : Nat) (s : State) : Host.Outcome State Fault Refusal :=
  inService s (fun s => State.notifyPeriodic s seat num drain)

/-- The comparison of an on-change subscription (R347); `drain` queued notifications leave. -/
def execNotifyOnChange (seat : Nat) (num : Nat) (drain : Nat) (s : State) : Host.Outcome State Fault Refusal :=
  inService s (fun s => State.notifyChange s seat num drain)

/-- The lease of an open seat expires (Table 12-2). -/
def execSeatLeaseExpire (seat : Nat) (s : State) : Host.Outcome State Fault Refusal :=
  always s (fun s => s.seatExpire seat)

/-- The lease of an orphaned seat expires (Table 12-2). -/
def execOrphanLeaseExpire (seat : Nat) (s : State) : Host.Outcome State Fault Refusal :=
  always s (fun s => s.orphanExpire seat)

/-- Seat command 1 (Table 12-2). -/
def execSeatForceClose (h : Hdr) (seat : Nat) (s : State) : Host.Outcome State Fault Refusal :=
  inService s (fun s => s.hostPut h none .seat seat 0 12 1)

/-- A rights word is written (R334). -/
def execRightsWordWrite (h : Hdr) (area : Nat) (value : Byte) (s : State) : Host.Outcome State Fault Refusal :=
  inService s (fun s => s.hostPut h none .rights 0 0 area value.toNat)

/-- A sub-entry of a combined object is written (R345). -/
def execCombinedSubentryWrite (h : Hdr) (index : Nat) (sub : Nat) (value : Int) (s : State) : Host.Outcome State Fault Refusal :=
  inService s (fun s => if index == 0x2100 || (decide (0x2110 ≤ index) && decide (index < 0x2120)) then s.writeRequest h none index sub value else s)

/-- A T1S, CAN FD or target port word or UDP_PORT is written (R363). -/
def execTransportConfigWrite (h : Hdr) (index : Nat) (sub : Nat) (expect : Expect) (value : Nat) (s : State) : Host.Outcome State Fault Refusal :=
  inService s (fun s => if decide (0x1200 ≤ index) && decide (index < 0x1230) then s.writeRequest h expect index sub value else s)

/-- The PTP configuration word is written (R363). -/
def execPtpConfigWrite (h : Hdr) (expect : Expect) (value : Word) (s : State) : Host.Outcome State Fault Refusal :=
  inService s (fun s => s.hostPut h expect .time 0 0 2 value.toNat)

/-- The record window is read (R326). -/
def execRecordWindowRead (h : Hdr) (offset : Nat) (maxLen : Nat) (s : State) : Host.Outcome State Fault Refusal :=
  inService s (fun s => s.request h (.read 0x8802 1 false offset maxLen))

end Sys2Proof.Machine
end

