-- ==== Sys2Proof/Machine/LinkRows.lean ====
section
/-!
DEFINITION. Meanings: Elvane links (chapter 5).
-/
namespace Sys2Proof.Machine
set_option Elab.async false

/-- An uplink frame arrives (R153). -/
def execUplinkFrame (p : Nat) (x : UplinkIn) (s : State) : Host.Outcome State Fault Refusal :=
  inService s (fun s => State.uplinkFrame s p x)

/-- The arrival deadline of a sample (R178). -/
def execArrivalDeadline (g : Nat) (x : DeadlineIn) (s : State) : Host.Outcome State Fault Refusal :=
  inService s (fun s => State.arrivalDeadline s g x.lone x.idles)

/-- `n` grid slots pass, each with its downlink frames (R81, R157). -/
def execDownlinkSlot (n : Nat) (s : State) : Host.Outcome State Fault Refusal :=
  always s (fun s => Nat.repeat State.passSlot n s)

/-- An uplink gains symbol lock (R177). -/
def execUplinkSymbolLock (p : Nat) (s : State) : Host.Outcome State Fault Refusal :=
  inService s (fun s => s.lockSymbols p)

/-- No hello frame within 100 µs of an Assign (R177). -/
def execAssignTimeout (p : Nat) (s : State) : Host.Outcome State Fault Refusal :=
  inService s (fun s => State.assignTimeout s p)

/-- Three rounds without a matching digest (R177). -/
def execConfiguringFail (p : Nat) (s : State) : Host.Outcome State Fault Refusal :=
  inService s (fun s => State.configuringFail s p)

/-- 1 ms in Lost (R177). -/
def execLostRetrain (p : Nat) (s : State) : Host.Outcome State Fault Refusal :=
  inService s (fun s => State.lostRetrain s p)

/-- A 100 µs mark to which parameter changes are tagged (R93, R162). -/
def execTaggedMark (s : State) : Host.Outcome State Fault Refusal :=
  inService s (fun s => allGroups.foldl State.markInc (allPorts.foldl State.markParams s))

end Sys2Proof.Machine
end

