-- ==== Sys2Proof/Machine/LintRows.lean ====
section
/-!
DEFINITION. Meanings: lint, episodes, the scorebook and captures (chapter 11).
-/
namespace Sys2Proof.Machine
set_option Elab.async false

/-- Detected causes are registered at the 2 MHz boundary (R302, R306 to R308). -/
def execLintOccurrence (extra : Option (Nat × Nat)) (s : State) : Host.Outcome State Fault Refusal :=
  inService s (fun s => s.lintBoundary extra)

/-- The quiet timer of the episode has run out (R310, Table 11-4). -/
def execEpisodeQuietClose (s : State) : Host.Outcome State Fault Refusal :=
  inService s (fun s => s.episodeRows)

/-- The age timer of the episode has run out (R310, Table 11-4). -/
def execEpisodeMaxClose (s : State) : Host.Outcome State Fault Refusal :=
  inService s (fun s => s.episodeRows)

/-- A latched snapshot is written (R319). -/
def execSnapshotWrite (closing : Bool) (s : State) : Host.Outcome State Fault Refusal :=
  byFirmware s (fun s => s.writeSnapshot closing)

/-- A clear word is written (R303). -/
def execLintClear (h : Hdr) (w : Nat) (mask : Word) (s : State) : Host.Outcome State Fault Refusal :=
  inService s (fun s => s.hostPut h none .lintClear 0 0 (w + 1) mask.toNat)

/-- Safe state ends (R308). -/
def execSafeStateEnd (h : Hdr) (expect : Expect) (s : State) : Host.Outcome State Fault Refusal :=
  inService s (fun s => s.hostPut h expect .episode 0 0 9 1)

/-- Capture command 1 (R323). -/
def execCaptureArm (h : Hdr) (expect : Expect) (c : Nat) (s : State) : Host.Outcome State Fault Refusal :=
  inService s (fun s => s.hostPut h expect .capture c 0 5 1)

/-- An armed capture triggers (R323). -/
def execCaptureTrigger (o : Source) (c : Nat) (s : State) : Host.Outcome State Fault Refusal :=
  inService s (fun s => s.triggerCapture o c)

/-- Capture command 3 (R323). -/
def execCaptureDisarm (h : Hdr) (expect : Expect) (c : Nat) (s : State) : Host.Outcome State Fault Refusal :=
  inService s (fun s => s.hostPut h expect .capture c 0 5 3)

/-- A capture takes one sample (R322). -/
def execCaptureSample (c : Nat) (s : State) : Host.Outcome State Fault Refusal :=
  inService s (fun s => State.captureSample s c)

/-- The window of a capture is full (R323). -/
def execCaptureWindowFull (c : Nat) (s : State) : Host.Outcome State Fault Refusal :=
  inService s (fun s => s.captureFull c)

/-- A window has been copied (R323). -/
def execCaptureSaved (c : Nat) (s : State) : Host.Outcome State Fault Refusal :=
  inService s (fun s => State.captureSaved s c)

end Sys2Proof.Machine
end

