-- ==== Sys2Proof/Machine/LoadRows.lean ====
section
/-!
DEFINITION. Meanings: patches, images, fuses, presence and the seal (chapters 12 and 14).
-/
namespace Sys2Proof.Machine
set_option Elab.async false

/-- A piece of a patch is written (R371, R400). -/
def execPatchPiece (h : Hdr) (expect : Expect) (offset : Nat) (octets : List Byte) (s : State) : Host.Outcome State Fault Refusal :=
  inService s (fun s => s.hostLoad h expect 0x9001 1 offset octets)

/-- Patch command 1 (R400). -/
def execPatchVerify (h : Hdr) (expect : Expect) (s : State) : Host.Outcome State Fault Refusal :=
  inService s (fun s => s.hostPut h expect .patch 0 0 2 1)

/-- Patch command 2 (R402 to R404). -/
def execPatchApply (h : Hdr) (expect : Expect) (s : State) : Host.Outcome State Fault Refusal :=
  inService s (fun s => s.hostPut h expect .patch 0 0 2 2)

/-- The patched slot is written (R402). -/
def execPatchApplyDone (s : State) : Host.Outcome State Fault Refusal :=
  inService s (fun s => s.patchApplied)

/-- Patch command 3 (R405). -/
def execPatchDiscard (h : Hdr) (expect : Expect) (s : State) : Host.Outcome State Fault Refusal :=
  inService s (fun s => s.hostPut h expect .patch 0 0 2 3)

/-- A piece of an image is written (R371, R401). -/
def execImagePiece (h : Hdr) (expect : Expect) (offset : Nat) (octets : List Byte) (s : State) : Host.Outcome State Fault Refusal :=
  inService s (fun s => s.hostLoad h expect 0x9002 1 offset octets)

/-- Image command 1 (R401, R404). -/
def execImageWrite (h : Hdr) (expect : Expect) (s : State) : Host.Outcome State Fault Refusal :=
  inService s (fun s => s.hostPut h expect .image 0 0 2 1)

/-- The image slot is written (R405). -/
def execImageWriteDone (s : State) : Host.Outcome State Fault Refusal :=
  inService s (fun s => s.imageWritten)

/-- Image command 3 (R405). -/
def execImageDiscard (h : Hdr) (expect : Expect) (s : State) : Host.Outcome State Fault Refusal :=
  inService s (fun s => s.hostPut h expect .image 0 0 2 3)

/-- A condition of Table 14-7 stops a slot write (R404). -/
def execSlotWriteConditionStop (s : State) : Host.Outcome State Fault Refusal :=
  inService s (fun s => s.writeStop)

/-- Fuse read command 1 (R410). -/
def execFuseRead (h : Hdr) (expect : Expect) (s : State) : Host.Outcome State Fault Refusal :=
  inService s (fun s => s.hostPut h expect .fuse 0 0 2 1)

/-- Fuse read command 2 (R410). -/
def execFuseMarginRead (h : Hdr) (expect : Expect) (s : State) : Host.Outcome State Fault Refusal :=
  inService s (fun s => s.hostPut h expect .fuse 0 0 2 2)

/-- A read of the fuses ends (R410). -/
def execFuseReadDone (missN : Word) (missT : Word) (s : State) : Host.Outcome State Fault Refusal :=
  inService s (fun s => s.fuseDone missN missT)

/-- The margin sweep of all words (R411). -/
def execFuseMarginSweep (weak : List (Nat × Word × Word)) (s : State) : Host.Outcome State Fault Refusal :=
  byFirmware s (fun s => s.marginSweep weak)

/-- Fuse command 1, baste (R413). -/
def execBaste (h : Hdr) (expect : Expect) (s : State) : Host.Outcome State Fault Refusal :=
  inService s (fun s => s.hostPut h expect .fuse 0 0 7 1)

/-- Fuse command 2, stitch (R414). -/
def execStitch (h : Hdr) (expect : Expect) (s : State) : Host.Outcome State Fault Refusal :=
  inService s (fun s => s.hostPut h expect .fuse 0 0 7 2)

/-- A stitch ends (R414). -/
def execStitchDone (missN : Word) (missT : Word) (s : State) : Host.Outcome State Fault Refusal :=
  inService s (fun s => State.stitchDone s missN missT)

/-- Owner command 1 (R416). -/
def execOwnerLockSet (h : Hdr) (expect : Expect) (s : State) : Host.Outcome State Fault Refusal :=
  inService s (fun s => s.hostPut h expect .owner 0 0 2 1)

/-- Owner command 2 (R416). -/
def execOwnerLockRelease (h : Hdr) (expect : Expect) (s : State) : Host.Outcome State Fault Refusal :=
  inService s (fun s => s.hostPut h expect .owner 0 0 2 2)

/-- The button has been held for 2 s (R357). -/
def execPresenceWindowOpen (s : State) : Host.Outcome State Fault Refusal :=
  always s (fun s => s.withAo (fun s => s.windowOpen))

/-- A presence window expires (R357). -/
def execPresenceWindowExpire (s : State) : Host.Outcome State Fault Refusal :=
  always s (fun s => s.withAo (fun s => s.windowExpire))

/-- The presence command (R357). -/
def execPresenceEnd (h : Hdr) (expect : Expect) (s : State) : Host.Outcome State Fault Refusal :=
  inService s (fun s => s.hostPut h expect .presence 0 0 5 1)

/-- The service jumper is fitted (R357). -/
def execJumperFitted (s : State) : Host.Outcome State Fault Refusal :=
  always s (fun s => s.withAo (fun s => s.jumperFit))

/-- The service jumper is removed (R357). -/
def execJumperRemoved (s : State) : Host.Outcome State Fault Refusal :=
  always s (fun s => s.withAo (fun s => s.jumperOut))

/-- The seal command (R359). -/
def execSealArm (h : Hdr) (expect : Expect) (s : State) : Host.Outcome State Fault Refusal :=
  inService s (fun s => s.hostPut h expect .seal 0 0 2 1)

/-- A check of the seal loop (R359). -/
def execSealCheck (equal : Bool) (s : State) : Host.Outcome State Fault Refusal :=
  always s (fun s => s.withAo (fun s => State.sealCheck s equal))

end Sys2Proof.Machine
end

