-- ==== Sys2Proof/Machine/OrderRows.lean ====
section
/-!
DEFINITION. Meanings: batting orders and rails (chapter 9).
-/
namespace Sys2Proof.Machine
set_option Elab.async false

/-- An up request (R276). -/
def execOrderUp (o : Source) (k : Nat) (s : State) : Host.Outcome State Fault Refusal :=
  inService s (fun s => s.upOrder o k)

/-- A down request (R276). -/
def execOrderDown (o : Source) (k : Nat) (s : State) : Host.Outcome State Fault Refusal :=
  inService s (fun s => s.downOrder o k)

/-- Order command 3 (R282). -/
def execOrderClear (o : Source) (k : Nat) (s : State) : Host.Outcome State Fault Refusal :=
  inService s (fun s => s.clearOrder o k)

/-- One 10 µs tick of the sequencer (R269). -/
def execSequencerTick (pgin : Word) (s : State) : Host.Outcome State Fault Refusal :=
  inService s (fun s => State.sequencerTick s pgin)

/-- The delay of a rail has passed (R270). -/
def execRailDelayExpire (r : Nat) (s : State) : Host.Outcome State Fault Refusal :=
  inService s (fun s => s.railDue r .delay)

/-- An enabling rail has read good for PG_DEG (R270, R271). -/
def execRailGood (r : Nat) (s : State) : Host.Outcome State Fault Refusal :=
  inService s (fun s => State.railUp s r)

/-- The power-good timer of an enabling rail reaches PG_TIMEOUT (R270, R272). -/
def execRailPgTimeout (r : Nat) (s : State) : Host.Outcome State Fault Refusal :=
  inService s (fun s => s.railDue r .enabling)

/-- A running rail fails (R273, R274). -/
def execRunningRailFault (r : Nat) (s : State) : Host.Outcome State Fault Refusal :=
  inService s (fun s => s.railFault r)

/-- The reset stretch of a rail ends (R271). -/
def execResetStretchEnd (r : Nat) (s : State) : Host.Outcome State Fault Refusal :=
  inService s (fun s => s.railDue r .good)

/-- A discharging rail has read not good for DIS_WAIT (R270). -/
def execRailDischarged (r : Nat) (s : State) : Host.Outcome State Fault Refusal :=
  inService s (fun s => State.railDown s r)

/-- The discharge of a rail has timed out (R270). -/
def execRailDischargeTimeout (r : Nat) (s : State) : Host.Outcome State Fault Refusal :=
  inService s (fun s => s.railDue r .discharging)

end Sys2Proof.Machine
end

