-- ==== Sys2Proof/Machine/PressRows.lean ====
section
/-!
DEFINITION. Meanings: modulation, press, timebase and bus window (chapters 3 and 6).
-/
namespace Sys2Proof.Machine
set_option Elab.async false

/-- A conversion of a sense input (R108). -/
def execSenseConversion (n : Nat) (code : Int) (s : State) : Host.Outcome State Fault Refusal :=
  inService s (fun s => s.convert n code)

/-- An excursion episode closes (R199). -/
def execExcursionEpisodeClose (s : State) : Host.Outcome State Fault Refusal :=
  inService s (fun s => s.excursionClose)

/-- The excursion record is cleared (R199). -/
def execExcursionClear (h : Hdr) (expect : Expect) (s : State) : Host.Outcome State Fault Refusal :=
  inService s (fun s => s.hostPut h expect .bus 0 0 9 1)

/-- A press detector fires (R111, R115). -/
def execPressDetectorTrip (n : Nat) (s : State) : Host.Outcome State Fault Refusal :=
  inService s (fun s => s.detectorTrip n)

/-- A detector re-arms (R111). -/
def execDetectorRearm (n : Nat) (s : State) : Host.Outcome State Fault Refusal :=
  inService s (fun s => State.detectorRearm s n)

/-- A burst closes (R117). -/
def execPressBurstClose (k : Nat) (s : State) : Host.Outcome State Fault Refusal :=
  inService s (fun s => s.burstClose k)

/-- An edge of SYNCIN (R84, R85). -/
def execSyncinEdge (falling : Bool) (ps : Nat) (s : State) : Host.Outcome State Fault Refusal :=
  inService s (fun s => State.syncinEdge s falling ps)

/-- SYNCIN is lost (R84, R86). -/
def execSyncinLost (s : State) : Host.Outcome State Fault Refusal :=
  inService s (fun s => s.syncinGone)

/-- The hold timer reaches SYNC_HOLD (R86). -/
def execSyncHoldExpire (s : State) : Host.Outcome State Fault Refusal :=
  inService s (fun s => s.timebaseIn .holdover)

/-- ρ has reached 0 (R86). -/
def execTimebaseGlideDone (s : State) : Host.Outcome State Fault Refusal :=
  inService s (fun s => s.timebaseIn .gliding)

/-- An edge of SYNCOUT (R88). -/
def execSyncoutEdge (rise : Bool) (s : State) : Host.Outcome State Fault Refusal :=
  inService s (fun s => State.syncoutEdge s rise)

end Sys2Proof.Machine
end

