-- ==== Sys2Proof/Machine/ResetRows.lean ====
section
/-!
DEFINITION. Meanings: boot, clocks and resets (chapters 14 and 16).
-/
namespace Sys2Proof.Machine
set_option Elab.async false

/-- Power-on reset (R445). -/
def execPowerOnReset (s : State) : Host.Outcome State Fault Refusal :=
  always s (fun s => State.powerOnReset s)

/-- VDD_AO is lost (R217, R445, R459). -/
def execVddAoLoss (s : State) : Host.Outcome State Fault Refusal :=
  always s (fun s => State.vddAoLoss s)

/-- RESET_N is low (R445). -/
def execResetNAssert (s : State) : Host.Outcome State Fault Refusal :=
  always s (fun s => s.resetPin)

/-- The watchdog runs out (R446). -/
def execWatchdogExpire (s : State) : Host.Outcome State Fault Refusal :=
  inService s (fun s => State.watchdogExpire s)

/-- The reset command (R379, R445). -/
def execResetCommand (h : Hdr) (expect : Expect) (s : State) : Host.Outcome State Fault Refusal :=
  inService s (fun s => s.hostPut h expect .resets 0 0 3 1)

/-- The firmware requests a reset (R396). -/
def execFirmwareResetRequest (migration : Bool) (s : State) : Host.Outcome State Fault Refusal :=
  inService s (fun s => s.firmwareReset migration)

/-- The start timer runs out (R392). -/
def execStartTimerExpire (s : State) : Host.Outcome State Fault Refusal :=
  inService s (fun s => s.startTimer)

/-- The PLL loses lock (R442). -/
def execPllLossOfLock (s : State) : Host.Outcome State Fault Refusal :=
  inService s (fun s => s.warmReset 0x15)

/-- A warm reset with a cause of Table 16-2 (R448). -/
def execWarmReset (cause : Nat) (s : State) : Host.Outcome State Fault Refusal :=
  always s (fun s => State.warmReset s cause)

/-- The logic die leaves a warm reset (R259, R278). -/
def execWarmResetEnd (x : HoldIn) (s : State) : Host.Outcome State Fault Refusal :=
  always s (fun s => State.warmResetEnd s x)

/-- The PLL locks, or its 10 ms pass (R442); the boot ROM starts (R384). -/
def execPllLock (locked : Bool) (refin : Nat) (weak : List (Nat × Word)) (s : State) : Host.Outcome State Fault Refusal :=
  always s (fun s => State.pllLock s locked refin weak)

/-- The boot ROM has verified a slot (R388, R391). -/
def execSlotVerified (s : State) : Host.Outcome State Fault Refusal :=
  inService s (fun s => State.slotVerified s)

/-- The firmware reaches its started checkpoint (R385). -/
def execStartedCheckpoint (s : State) : Host.Outcome State Fault Refusal :=
  inService s (fun s => State.startedCheckpoint s)

/-- Bench mode is left by the button (R398). -/
def execBenchExitButton (s : State) : Host.Outcome State Fault Refusal :=
  inService s (fun s => s.benchButton)

/-- Bench mode is left to the slot written in it (R398). -/
def execBenchExitTrial (s : State) : Host.Outcome State Fault Refusal :=
  inService s (fun s => s.benchTrial)

/-- The power-fail warning (R451). -/
def execPowerFailWarning (cut : Option Nat) (s : State) : Host.Outcome State Fault Refusal :=
  always s (fun s => s.withAo (fun s => State.powerFailWarning s cut))

/-- The always-on oscillator is measured (R442). -/
def execAoOscMeasure (hz : Nat) (s : State) : Host.Outcome State Fault Refusal :=
  inService s (fun s => s.oscMeasure hz)

/-- The firmware services its watchdog (R446). -/
def execWatchdogService (s : State) : Host.Outcome State Fault Refusal :=
  inService s (fun s => State.watchdogService s)

/-- A slot at which ALIVE toggles (R453). -/
def execAliveToggle (s : State) : Host.Outcome State Fault Refusal :=
  inService s (fun s => State.aliveToggle s)

end Sys2Proof.Machine
end

