-- ==== Sys2Proof/Machine/ShelfRows.lean ====
section
/-!
DEFINITION. Meanings: hang time, shedding, caps and grants (chapter 6).
-/
namespace Sys2Proof.Machine
set_option Elab.async false

/-- The hang time is published (R201, R202). -/
def execHangTimePublish (s : State) : Host.Outcome State Fault Refusal :=
  inService s (fun s => State.hangPublish s)

/-- One tick of the shed sequencer (R203, R204). -/
def execShedSequencerTick (s : State) : Host.Outcome State Fault Refusal :=
  inService s (fun s => s.shedRow)

/-- The dwell timer reaches SHED_DWELL (R204). -/
def execShedDwellExpire (s : State) : Host.Outcome State Fault Refusal :=
  inService s (fun s => s.shedRowIn .dwell s.cfg.shed.shedDwell)

/-- The warn timer reaches SHED_WARN (R205). -/
def execShedWarnExpire (s : State) : Host.Outcome State Fault Refusal :=
  inService s (fun s => s.shedRowIn .warn s.cfg.shed.shedWarn)

/-- The gap timer reaches SHED_GAP (R204). -/
def execShedGapExpire (s : State) : Host.Outcome State Fault Refusal :=
  inService s (fun s => s.shedRowIn .gap s.cfg.shed.shedGap)

/-- The restore timer reaches RESTORE_GAP (R206). -/
def execRestoreGapExpire (s : State) : Host.Outcome State Fault Refusal :=
  inService s (fun s => s.shedRowIn .restoring s.cfg.shed.restoreGap)

/-- The 1 ms cap tick (R208, R209). -/
def execCapTick (s : State) : Host.Outcome State Fault Refusal :=
  inService s (fun s => State.capTick s)

/-- The zone grants (R211, R212). -/
def execZoneGrant (s : State) : Host.Outcome State Fault Refusal :=
  inService s (fun s => State.zoneGrant s)

/-- THR_HOLD of an FDn_THR has passed (R213). -/
def execThrHoldExpire (z : Nat) (s : State) : Host.Outcome State Fault Refusal :=
  inService s (fun s => s.thrHold z)

end Sys2Proof.Machine
end

