-- ==== Sys2Proof/Machine/StringRows.lean ====
section
/-!
DEFINITION. Meanings: battery strings and soak models (chapters 7 and 10).
-/
namespace Sys2Proof.Machine
set_option Elab.async false

/-- The 1 ms string tick (R216, R221). -/
def execStringTick (x : Vector StringIn 8) (s : State) : Host.Outcome State Fault Refusal :=
  always s (fun s => s.withAo (fun s => s.stringTickAll x))

/-- The termination condition has lasted TERM_T (R222, R227). -/
def execTermination (k : Nat) (s : State) : Host.Outcome State Fault Refusal :=
  inService s (fun s => State.termination s k)

/-- The recharge condition has lasted 10 s (R222). -/
def execRechargeTimer (k : Nat) (s : State) : Host.Outcome State Fault Refusal :=
  inService s (fun s => s.recharge k)

/-- The empty condition has lasted EMPTY_T (R228). -/
def execEmptyAnchor (k : Nat) (s : State) : Host.Outcome State Fault Refusal :=
  inService s (fun s => s.emptyAnchorDue k)

/-- The periodic count checkpoint (R231). -/
def execCountCheckpoint (s : State) : Host.Outcome State Fault Refusal :=
  byFirmware s (fun s => if s.score.stopped then s else s.checkpointAll)

/-- String command 1 (R240). -/
def execStringClearFlags (o : Source) (k : Nat) (s : State) : Host.Outcome State Fault Refusal :=
  inService s (fun s => s.commandString o k 1)

/-- String command 2 (R240). -/
def execStringRestoreCNom (o : Source) (k : Nat) (s : State) : Host.Outcome State Fault Refusal :=
  inService s (fun s => s.commandString o k 2)

/-- The 1 ms step of the soak models (R283). -/
def execModelStep (x : ChipIn) (s : State) : Host.Outcome State Fault Refusal :=
  inService s (fun s => State.modelStep s x)

/-- The inputs of a model have been invalid for the time of R294. -/
def execModelInputsInvalid (m : Nat) (s : State) : Host.Outcome State Fault Refusal :=
  inService s (fun s => s.modelInvalid m)

/-- The inlet of a model becomes unavailable (R288). -/
def execInletUnavailable (m : Nat) (s : State) : Host.Outcome State Fault Refusal :=
  inService s (fun s => s.inletStep m)

end Sys2Proof.Machine
end

