-- ==== Sys2Proof/Machine/TransportRows.lean ====
section
/-!
DEFINITION. Meanings: messages over the transports and shelf time (chapter 12).
-/
namespace Sys2Proof.Machine
set_option Elab.async false

/-- A UDP datagram arrives (R350, R351). -/
def execUdpDatagram (x : Datagram) (s : State) : Host.Outcome State Fault Refusal :=
  inService s (fun s => State.udpDatagram s x)

/-- A CAN FD frame arrives (R352, R353). -/
def execCanSegment (x : CanFrame) (s : State) : Host.Outcome State Fault Refusal :=
  inService s (fun s => State.canSegment s x)

/-- 50 ms without the next segment (R353). -/
def execCanSegmentTimeout (c : Nat) (seat : Nat) (mark : Nat) (s : State) : Host.Outcome State Fault Refusal :=
  inService s (fun s => s.segmentTimeout c seat mark)

/-- A controller recovers from bus-off (R354). -/
def execCanBusOffRecovery (c : Nat) (s : State) : Host.Outcome State Fault Refusal :=
  inService s (fun s => s.busOffRecovery c)

/-- The reply to a multicast IDENTIFY leaves (R351). -/
def execIdentifyDelayedReply (port : Nat) (s : State) : Host.Outcome State Fault Refusal :=
  inService s (fun s => s.delayedReply port)

/-- A PTP message arrives (R364). -/
def execPtpMessage (x : PtpIn) (s : State) : Host.Outcome State Fault Refusal :=
  inService s (fun s => State.ptpMessage s x)

/-- The announce receipt timeout (R364). -/
def execPtpAnnounceTimeout (s : State) : Host.Outcome State Fault Refusal :=
  inService s (fun s => s.announceTimeout)

/-- An offset above 1 ms has lasted 10 s in Locked (R364). -/
def execPtpOffsetStep (s : State) : Host.Outcome State Fault Refusal :=
  inService s (fun s => s.offsetStep)

end Sys2Proof.Machine
end

