-- ==== Sys2Proof/Machine/WireRows.lean ====
section
/-!
DEFINITION. Meanings: two-wire ports (chapter 15).
-/
namespace Sys2Proof.Machine
set_option Elab.async false

/-- Port command 1 (R421). -/
def execTwBusRecovery (h : Hdr) (expect : Expect) (t : Nat) (s : State) : Host.Outcome State Fault Refusal :=
  inService s (fun s => s.hostPut h expect .twPort t 0 6 1)

/-- A sensor poll falls due (R421, R427). -/
def execSensorPoll (n : Nat) (scl : Bool) (sda : Bool) (s : State) : Host.Outcome State Fault Refusal :=
  inService s (fun s => State.sensorPoll s n scl sda)

/-- A sensor transaction ends (R424 to R427). -/
def execTwTransactionComplete (t : Nat) (x : TwResult) (s : State) : Host.Outcome State Fault Refusal :=
  inService s (fun s => s.twComplete t x)

/-- SCL has stayed low for 25 ms (R423, R424). -/
def execTwSclTimeout (t : Nat) (s : State) : Host.Outcome State Fault Refusal :=
  inService s (fun s => State.twSclTimeout s t)

/-- One second in Stuck (R421). -/
def execTwStuckRetry (t : Nat) (s : State) : Host.Outcome State Fault Refusal :=
  inService s (fun s => State.twStuckRetry s t)

/-- A recovery ends (R422). -/
def execTwRecoveryEnd (t : Nat) (sda : List Bool) (s : State) : Host.Outcome State Fault Refusal :=
  inService s (fun s => State.twRecoveryEnd s t sda)

/-- OAP_WRITE, or a write with a command code that has no row of its own (R355, R433). -/
def execOapWrite (t : Nat) (busy : Bool) (x : BlockIn) (pec : Option Byte) (s : State) : Host.Outcome State Fault Refusal :=
  always s (fun s => State.oapWrite s t busy x pec)

/-- OAP_READ (R355). -/
def execOapRead (x : ReadIn) (s : State) : Host.Outcome State Fault Refusal :=
  always s (fun s => State.oapRead s x.port x.ack)

/-- PAGE (R434). -/
def execPage (t : Nat) (x : PageIn) (s : State) : Host.Outcome State Fault Refusal :=
  always s (fun s => State.page s t x)

/-- CLEAR_FAULTS (R433). -/
def execClearFaults (t : Nat) (pec : Option Byte) (s : State) : Host.Outcome State Fault Refusal :=
  always s (fun s => State.clearFaults s t pec)

/-- CAPABILITY (Table 15-3). -/
def execCapability (x : ReadIn) (s : State) : Host.Outcome State Fault Refusal :=
  always s (fun s => s.ttRead x.port 0x19 x.ack)

/-- VOUT_MODE (Table 15-3). -/
def execVoutMode (x : ReadIn) (s : State) : Host.Outcome State Fault Refusal :=
  always s (fun s => s.ttRead x.port 0x20 x.ack)

/-- STATUS_BYTE (R435). -/
def execStatusByte (x : ReadIn) (s : State) : Host.Outcome State Fault Refusal :=
  always s (fun s => s.ttRead x.port 0x78 x.ack)

/-- STATUS_WORD (R435). -/
def execStatusWord (x : ReadIn) (s : State) : Host.Outcome State Fault Refusal :=
  always s (fun s => s.ttRead x.port 0x79 x.ack)

/-- STATUS_CML (R433, R435). -/
def execStatusCml (x : ReadIn) (s : State) : Host.Outcome State Fault Refusal :=
  always s (fun s => s.ttRead x.port 0x7E x.ack)

/-- READ_VIN (Table 15-3). -/
def execReadVin (x : ReadIn) (s : State) : Host.Outcome State Fault Refusal :=
  always s (fun s => s.ttRead x.port 0x88 x.ack)

/-- READ_VOUT (Table 15-3, R436). -/
def execReadVout (x : ReadIn) (s : State) : Host.Outcome State Fault Refusal :=
  always s (fun s => s.ttRead x.port 0x8B x.ack)

/-- READ_IOUT (Table 15-3). -/
def execReadIout (x : ReadIn) (s : State) : Host.Outcome State Fault Refusal :=
  always s (fun s => s.ttRead x.port 0x8C x.ack)

/-- READ_TEMPERATURE_1 (Table 15-3). -/
def execReadTemperature1 (x : ReadIn) (s : State) : Host.Outcome State Fault Refusal :=
  always s (fun s => s.ttRead x.port 0x8D x.ack)

/-- READ_POUT (Table 15-3). -/
def execReadPout (x : ReadIn) (s : State) : Host.Outcome State Fault Refusal :=
  always s (fun s => s.ttRead x.port 0x96 x.ack)

/-- READ_PIN (Table 15-3). -/
def execReadPin (x : ReadIn) (s : State) : Host.Outcome State Fault Refusal :=
  always s (fun s => s.ttRead x.port 0x97 x.ack)

/-- PMBUS_REVISION (Table 15-3). -/
def execPmbusRevision (x : ReadIn) (s : State) : Host.Outcome State Fault Refusal :=
  always s (fun s => s.ttRead x.port 0x98 x.ack)

/-- MFR_ID (Table 15-3). -/
def execMfrId (x : ReadIn) (s : State) : Host.Outcome State Fault Refusal :=
  always s (fun s => s.ttRead x.port 0x99 x.ack)

/-- MFR_MODEL (Table 15-3). -/
def execMfrModel (x : ReadIn) (s : State) : Host.Outcome State Fault Refusal :=
  always s (fun s => s.ttRead x.port 0x9A x.ack)

/-- MFR_REVISION (Table 15-3). -/
def execMfrRevision (x : ReadIn) (s : State) : Host.Outcome State Fault Refusal :=
  always s (fun s => s.ttRead x.port 0x9B x.ack)

/-- MFR_SERIAL (Table 15-3). -/
def execMfrSerial (x : ReadIn) (s : State) : Host.Outcome State Fault Refusal :=
  always s (fun s => s.ttRead x.port 0x9E x.ack)

/-- A repeated START where the acknowledge was due (R430). -/
def execTargetWriteAbort (t : Nat) (s : State) : Host.Outcome State Fault Refusal :=
  always s (fun s => s.targetAbort t)

/-- SCL has stayed low for 25 ms in a transaction (R432). -/
def execTargetSclTimeout (t : Nat) (writing : Bool) (s : State) : Host.Outcome State Fault Refusal :=
  always s (fun s => s.targetTimeout t writing)

/-- Host Notify of a queue that has become non-empty, or again after a lost arbitration (R437, R438). -/
def execHostNotify (x : NotifyIn) (s : State) : Host.Outcome State Fault Refusal :=
  always s (fun s => State.hostNotify s x.port x.lost)

/-- Host Notify again after 100 ms (R437, R438). -/
def execHostNotifyRepeat (x : NotifyIn) (s : State) : Host.Outcome State Fault Refusal :=
  always s (fun s => State.hostNotifyRepeat s x.port x.lost)

end Sys2Proof.Machine
end

