-- ==== Sys2Proof/Machine/Dispatch.lean ====
section
/-!
DEFINITION. One arm per command.
-/
namespace Sys2Proof.Machine

/-- The effect of a command on everything but the queue. -/
def exec (i : Instr) (s : State) : Host.Outcome State Fault Refusal :=
  match i with
  | .identify h => Sys2Proof.Machine.execIdentify h s
  | .openSeat h cls lease => Sys2Proof.Machine.execOpenSeat h cls lease s
  | .closeSeat h => Sys2Proof.Machine.execCloseSeat h s
  | .keepalive h => Sys2Proof.Machine.execKeepalive h s
  | .read h index sub active offset maxLen => Sys2Proof.Machine.execRead h index sub active offset maxLen s
  | .write h index sub expect offset value => Sys2Proof.Machine.execWrite h index sub expect offset value s
  | .readMulti h entries => Sys2Proof.Machine.execReadMulti h entries s
  | .stewardAcquire h index sub => Sys2Proof.Machine.execStewardAcquire h index sub s
  | .stewardRelease h index sub => Sys2Proof.Machine.execStewardRelease h index sub s
  | .stewardQuery h index sub => Sys2Proof.Machine.execStewardQuery h index sub s
  | .stewardTakeOver h index sub => Sys2Proof.Machine.execStewardTakeOver h index sub s
  | .subscribe h index sub periodic interval => Sys2Proof.Machine.execSubscribe h index sub periodic interval s
  | .unsubscribe h num => Sys2Proof.Machine.execUnsubscribe h num s
  | .notifyPeriodic seat num drain => Sys2Proof.Machine.execNotifyPeriodic seat num drain s
  | .notifyOnChange seat num drain => Sys2Proof.Machine.execNotifyOnChange seat num drain s
  | .udpDatagram x => Sys2Proof.Machine.execUdpDatagram x s
  | .canSegment x => Sys2Proof.Machine.execCanSegment x s
  | .canSegmentTimeout c seat mark => Sys2Proof.Machine.execCanSegmentTimeout c seat mark s
  | .canBusOffRecovery c => Sys2Proof.Machine.execCanBusOffRecovery c s
  | .ptpMessage x => Sys2Proof.Machine.execPtpMessage x s
  | .ptpAnnounceTimeout => Sys2Proof.Machine.execPtpAnnounceTimeout s
  | .ptpOffsetStep => Sys2Proof.Machine.execPtpOffsetStep s
  | .seatLeaseExpire seat => Sys2Proof.Machine.execSeatLeaseExpire seat s
  | .orphanLeaseExpire seat => Sys2Proof.Machine.execOrphanLeaseExpire seat s
  | .seatForceClose h seat => Sys2Proof.Machine.execSeatForceClose h seat s
  | .rightsWordWrite h area value => Sys2Proof.Machine.execRightsWordWrite h area value s
  | .combinedSubentryWrite h index sub value => Sys2Proof.Machine.execCombinedSubentryWrite h index sub value s
  | .transportConfigWrite h index sub expect value => Sys2Proof.Machine.execTransportConfigWrite h index sub expect value s
  | .ptpConfigWrite h expect value => Sys2Proof.Machine.execPtpConfigWrite h expect value s
  | .markWriteTakesEffect => Sys2Proof.Machine.execMarkWriteTakesEffect s
  | .tapWriteTakesEffect => Sys2Proof.Machine.execTapWriteTakesEffect s
  | .immediateWriteApply => Sys2Proof.Machine.execImmediateWriteApply s
  | .changeHoldoffExpire => Sys2Proof.Machine.execChangeHoldoffExpire s
  | .commitList h expect octets => Sys2Proof.Machine.execCommitList h expect octets s
  | .commitProcess => Sys2Proof.Machine.execCommitProcess s
  | .commitSwap => Sys2Proof.Machine.execCommitSwap s
  | .safeSetCapture h expect value => Sys2Proof.Machine.execSafeSetCapture h expect value s
  | .safeSetCaptureDone => Sys2Proof.Machine.execSafeSetCaptureDone s
  | .groupStart o g => Sys2Proof.Machine.execGroupStart o g s
  | .groupStop o g => Sys2Proof.Machine.execGroupStop o g s
  | .groupClear o g => Sys2Proof.Machine.execGroupClear o g s
  | .groupSample g x => Sys2Proof.Machine.execGroupSample g x s
  | .softStartTimeout g => Sys2Proof.Machine.execSoftStartTimeout g s
  | .groupRetryTimer g => Sys2Proof.Machine.execGroupRetryTimer g s
  | .spareLaneTest pass => Sys2Proof.Machine.execSpareLaneTest pass s
  | .shareTrimAtLimit p => Sys2Proof.Machine.execShareTrimAtLimit p s
  | .derateRelease g => Sys2Proof.Machine.execDerateRelease g s
  | .lockResume g => Sys2Proof.Machine.execLockResume g s
  | .lockAtLimit p k => Sys2Proof.Machine.execLockAtLimit p k s
  | .ironPeriodEstimate k candidate peak => Sys2Proof.Machine.execIronPeriodEstimate k candidate peak s
  | .ironClearMemory o k => Sys2Proof.Machine.execIronClearMemory o k s
  | .ironRelease o k => Sys2Proof.Machine.execIronRelease o k s
  | .inputLossClear => Sys2Proof.Machine.execInputLossClear s
  | .supportModeExit g => Sys2Proof.Machine.execSupportModeExit g s
  | .uplinkFrame p x => Sys2Proof.Machine.execUplinkFrame p x s
  | .arrivalDeadline g x => Sys2Proof.Machine.execArrivalDeadline g x s
  | .downlinkSlot n => Sys2Proof.Machine.execDownlinkSlot n s
  | .uplinkSymbolLock p => Sys2Proof.Machine.execUplinkSymbolLock p s
  | .assignTimeout p => Sys2Proof.Machine.execAssignTimeout p s
  | .configuringFail p => Sys2Proof.Machine.execConfiguringFail p s
  | .lostRetrain p => Sys2Proof.Machine.execLostRetrain p s
  | .senseConversion n code => Sys2Proof.Machine.execSenseConversion n code s
  | .excursionEpisodeClose => Sys2Proof.Machine.execExcursionEpisodeClose s
  | .excursionClear h expect => Sys2Proof.Machine.execExcursionClear h expect s
  | .pressDetectorTrip n => Sys2Proof.Machine.execPressDetectorTrip n s
  | .detectorRearm n => Sys2Proof.Machine.execDetectorRearm n s
  | .pressBurstClose k => Sys2Proof.Machine.execPressBurstClose k s
  | .syncinEdge falling ps => Sys2Proof.Machine.execSyncinEdge falling ps s
  | .syncinLost => Sys2Proof.Machine.execSyncinLost s
  | .syncHoldExpire => Sys2Proof.Machine.execSyncHoldExpire s
  | .timebaseGlideDone => Sys2Proof.Machine.execTimebaseGlideDone s
  | .hangTimePublish => Sys2Proof.Machine.execHangTimePublish s
  | .shedSequencerTick => Sys2Proof.Machine.execShedSequencerTick s
  | .shedDwellExpire => Sys2Proof.Machine.execShedDwellExpire s
  | .shedWarnExpire => Sys2Proof.Machine.execShedWarnExpire s
  | .shedGapExpire => Sys2Proof.Machine.execShedGapExpire s
  | .restoreGapExpire => Sys2Proof.Machine.execRestoreGapExpire s
  | .capTick => Sys2Proof.Machine.execCapTick s
  | .zoneGrant => Sys2Proof.Machine.execZoneGrant s
  | .thrHoldExpire z => Sys2Proof.Machine.execThrHoldExpire z s
  | .feedStart o z => Sys2Proof.Machine.execFeedStart o z s
  | .feedStop o z => Sys2Proof.Machine.execFeedStop o z s
  | .feedClear o z => Sys2Proof.Machine.execFeedClear o z s
  | .feedClearCaptures o z => Sys2Proof.Machine.execFeedClearCaptures o z s
  | .feedTick x => Sys2Proof.Machine.execFeedTick x s
  | .overcurrentTrip z => Sys2Proof.Machine.execOvercurrentTrip z s
  | .seatDebounceDone z => Sys2Proof.Machine.execSeatDebounceDone z s
  | .preChargeTimeout z => Sys2Proof.Machine.execPreChargeTimeout z s
  | .overlapEnd z => Sys2Proof.Machine.execOverlapEnd z s
  | .mainGateFault z => Sys2Proof.Machine.execMainGateFault z s
  | .feedRetryTimer z => Sys2Proof.Machine.execFeedRetryTimer z s
  | .feedOnTimer z => Sys2Proof.Machine.execFeedOnTimer z s
  | .seatingFault z => Sys2Proof.Machine.execSeatingFault z s
  | .stringTick x => Sys2Proof.Machine.execStringTick x s
  | .termination k => Sys2Proof.Machine.execTermination k s
  | .rechargeTimer k => Sys2Proof.Machine.execRechargeTimer k s
  | .emptyAnchor k => Sys2Proof.Machine.execEmptyAnchor k s
  | .countCheckpoint => Sys2Proof.Machine.execCountCheckpoint s
  | .stringClearFlags o k => Sys2Proof.Machine.execStringClearFlags o k s
  | .stringRestoreCNom o k => Sys2Proof.Machine.execStringRestoreCNom o k s
  | .modelStep x => Sys2Proof.Machine.execModelStep x s
  | .modelInputsInvalid m => Sys2Proof.Machine.execModelInputsInvalid m s
  | .inletUnavailable m => Sys2Proof.Machine.execInletUnavailable m s
  | .orderUp o k => Sys2Proof.Machine.execOrderUp o k s
  | .orderDown o k => Sys2Proof.Machine.execOrderDown o k s
  | .orderClear o k => Sys2Proof.Machine.execOrderClear o k s
  | .sequencerTick pgin => Sys2Proof.Machine.execSequencerTick pgin s
  | .railDelayExpire r => Sys2Proof.Machine.execRailDelayExpire r s
  | .railGood r => Sys2Proof.Machine.execRailGood r s
  | .railPgTimeout r => Sys2Proof.Machine.execRailPgTimeout r s
  | .runningRailFault r => Sys2Proof.Machine.execRunningRailFault r s
  | .resetStretchEnd r => Sys2Proof.Machine.execResetStretchEnd r s
  | .railDischarged r => Sys2Proof.Machine.execRailDischarged r s
  | .railDischargeTimeout r => Sys2Proof.Machine.execRailDischargeTimeout r s
  | .lintOccurrence extra => Sys2Proof.Machine.execLintOccurrence extra s
  | .episodeQuietClose => Sys2Proof.Machine.execEpisodeQuietClose s
  | .episodeMaxClose => Sys2Proof.Machine.execEpisodeMaxClose s
  | .snapshotWrite closing => Sys2Proof.Machine.execSnapshotWrite closing s
  | .lintClear h w mask => Sys2Proof.Machine.execLintClear h w mask s
  | .safeStateEnd h expect => Sys2Proof.Machine.execSafeStateEnd h expect s
  | .recordWindowRead h offset maxLen => Sys2Proof.Machine.execRecordWindowRead h offset maxLen s
  | .captureArm h expect c => Sys2Proof.Machine.execCaptureArm h expect c s
  | .captureTrigger o c => Sys2Proof.Machine.execCaptureTrigger o c s
  | .captureDisarm h expect c => Sys2Proof.Machine.execCaptureDisarm h expect c s
  | .captureSample c => Sys2Proof.Machine.execCaptureSample c s
  | .captureWindowFull c => Sys2Proof.Machine.execCaptureWindowFull c s
  | .captureSaved c => Sys2Proof.Machine.execCaptureSaved c s
  | .patchPiece h expect offset octets => Sys2Proof.Machine.execPatchPiece h expect offset octets s
  | .patchVerify h expect => Sys2Proof.Machine.execPatchVerify h expect s
  | .patchApply h expect => Sys2Proof.Machine.execPatchApply h expect s
  | .patchApplyDone => Sys2Proof.Machine.execPatchApplyDone s
  | .patchDiscard h expect => Sys2Proof.Machine.execPatchDiscard h expect s
  | .imagePiece h expect offset octets => Sys2Proof.Machine.execImagePiece h expect offset octets s
  | .imageWrite h expect => Sys2Proof.Machine.execImageWrite h expect s
  | .imageWriteDone => Sys2Proof.Machine.execImageWriteDone s
  | .imageDiscard h expect => Sys2Proof.Machine.execImageDiscard h expect s
  | .slotWriteConditionStop => Sys2Proof.Machine.execSlotWriteConditionStop s
  | .fuseRead h expect => Sys2Proof.Machine.execFuseRead h expect s
  | .fuseMarginRead h expect => Sys2Proof.Machine.execFuseMarginRead h expect s
  | .fuseReadDone missN missT => Sys2Proof.Machine.execFuseReadDone missN missT s
  | .fuseMarginSweep weak => Sys2Proof.Machine.execFuseMarginSweep weak s
  | .baste h expect => Sys2Proof.Machine.execBaste h expect s
  | .stitch h expect => Sys2Proof.Machine.execStitch h expect s
  | .stitchDone missN missT => Sys2Proof.Machine.execStitchDone missN missT s
  | .ownerLockSet h expect => Sys2Proof.Machine.execOwnerLockSet h expect s
  | .ownerLockRelease h expect => Sys2Proof.Machine.execOwnerLockRelease h expect s
  | .presenceWindowOpen => Sys2Proof.Machine.execPresenceWindowOpen s
  | .presenceWindowExpire => Sys2Proof.Machine.execPresenceWindowExpire s
  | .presenceEnd h expect => Sys2Proof.Machine.execPresenceEnd h expect s
  | .jumperFitted => Sys2Proof.Machine.execJumperFitted s
  | .jumperRemoved => Sys2Proof.Machine.execJumperRemoved s
  | .sealArm h expect => Sys2Proof.Machine.execSealArm h expect s
  | .sealCheck equal => Sys2Proof.Machine.execSealCheck equal s
  | .twBusRecovery h expect t => Sys2Proof.Machine.execTwBusRecovery h expect t s
  | .sensorPoll n scl sda => Sys2Proof.Machine.execSensorPoll n scl sda s
  | .twTransactionComplete t x => Sys2Proof.Machine.execTwTransactionComplete t x s
  | .twSclTimeout t => Sys2Proof.Machine.execTwSclTimeout t s
  | .twStuckRetry t => Sys2Proof.Machine.execTwStuckRetry t s
  | .oapWrite t busy x pec => Sys2Proof.Machine.execOapWrite t busy x pec s
  | .oapRead x => Sys2Proof.Machine.execOapRead x s
  | .page t x => Sys2Proof.Machine.execPage t x s
  | .clearFaults t pec => Sys2Proof.Machine.execClearFaults t pec s
  | .capability x => Sys2Proof.Machine.execCapability x s
  | .voutMode x => Sys2Proof.Machine.execVoutMode x s
  | .statusByte x => Sys2Proof.Machine.execStatusByte x s
  | .statusWord x => Sys2Proof.Machine.execStatusWord x s
  | .statusCml x => Sys2Proof.Machine.execStatusCml x s
  | .readVin x => Sys2Proof.Machine.execReadVin x s
  | .readVout x => Sys2Proof.Machine.execReadVout x s
  | .readIout x => Sys2Proof.Machine.execReadIout x s
  | .readTemperature1 x => Sys2Proof.Machine.execReadTemperature1 x s
  | .readPout x => Sys2Proof.Machine.execReadPout x s
  | .readPin x => Sys2Proof.Machine.execReadPin x s
  | .pmbusRevision x => Sys2Proof.Machine.execPmbusRevision x s
  | .mfrId x => Sys2Proof.Machine.execMfrId x s
  | .mfrModel x => Sys2Proof.Machine.execMfrModel x s
  | .mfrRevision x => Sys2Proof.Machine.execMfrRevision x s
  | .mfrSerial x => Sys2Proof.Machine.execMfrSerial x s
  | .targetWriteAbort t => Sys2Proof.Machine.execTargetWriteAbort t s
  | .targetSclTimeout t writing => Sys2Proof.Machine.execTargetSclTimeout t writing s
  | .hostNotify x => Sys2Proof.Machine.execHostNotify x s
  | .hostNotifyRepeat x => Sys2Proof.Machine.execHostNotifyRepeat x s
  | .powerOnReset => Sys2Proof.Machine.execPowerOnReset s
  | .vddAoLoss => Sys2Proof.Machine.execVddAoLoss s
  | .resetNAssert => Sys2Proof.Machine.execResetNAssert s
  | .watchdogExpire => Sys2Proof.Machine.execWatchdogExpire s
  | .resetCommand h expect => Sys2Proof.Machine.execResetCommand h expect s
  | .firmwareResetRequest migration => Sys2Proof.Machine.execFirmwareResetRequest migration s
  | .startTimerExpire => Sys2Proof.Machine.execStartTimerExpire s
  | .pllLossOfLock => Sys2Proof.Machine.execPllLossOfLock s
  | .warmReset cause => Sys2Proof.Machine.execWarmReset cause s
  | .warmResetEnd x => Sys2Proof.Machine.execWarmResetEnd x s
  | .pllLock locked refin weak => Sys2Proof.Machine.execPllLock locked refin weak s
  | .slotVerified => Sys2Proof.Machine.execSlotVerified s
  | .startedCheckpoint => Sys2Proof.Machine.execStartedCheckpoint s
  | .benchExitButton => Sys2Proof.Machine.execBenchExitButton s
  | .benchExitTrial => Sys2Proof.Machine.execBenchExitTrial s
  | .powerFailWarning cut => Sys2Proof.Machine.execPowerFailWarning cut s
  | .aoOscMeasure hz => Sys2Proof.Machine.execAoOscMeasure hz s
  | .taggedMark => Sys2Proof.Machine.execTaggedMark s
  | .twRecoveryEnd t sda => Sys2Proof.Machine.execTwRecoveryEnd t sda s
  | .watchdogService => Sys2Proof.Machine.execWatchdogService s
  | .aliveToggle => Sys2Proof.Machine.execAliveToggle s
  | .syncoutEdge rise => Sys2Proof.Machine.execSyncoutEdge rise s
  | .identifyDelayedReply port => Sys2Proof.Machine.execIdentifyDelayedReply port s

end Sys2Proof.Machine
end

