-- ==== Sys2Proof/Safety.lean ====
section
/-!
DEFINITION. What counts as safe running, in the terms the statements use: the parts of the state, the footprint of a
step, and the invariant of the seats, the target ports and the scorebook.
-/
namespace Sys2Proof.Machine
set_option Elab.async false

/-! ### Footprints -/

/-- The parts of the state, one for each field. -/
inductive Part where
  | pending | sent | clock | tb | active | staged | cfg | chans | groups | ports
  | irons | flat | engine | senses | dets | presses | shelf | strings | feeds | models
  | rails | orders | seq | fuses | tws | sensors | lint | score | boot | bootRec
  | slots | patch | image | safeSet | working | presence | tamper | seats | t1s | cans
  | tts | ptp | ptpAdj | commits | hardwareRun | alive | draws
  deriving DecidableEq, Repr

/-- Two states agree in a part. -/
def Part.same : Part → State → State → Prop
  | .pending, a, b => b.pending = a.pending
  | .sent, a, b => b.out = a.out
  | .clock, a, b => b.clock = a.clock
  | .tb, a, b => b.tb = a.tb
  | .active, a, b => b.active = a.active
  | .staged, a, b => b.staged = a.staged
  | .cfg, a, b => b.cfg = a.cfg
  | .chans, a, b => b.chans = a.chans
  | .groups, a, b => b.groups = a.groups
  | .ports, a, b => b.ports = a.ports
  | .irons, a, b => b.irons = a.irons
  | .flat, a, b => b.flat = a.flat
  | .engine, a, b => b.engine = a.engine
  | .senses, a, b => b.senses = a.senses
  | .dets, a, b => b.dets = a.dets
  | .presses, a, b => b.presses = a.presses
  | .shelf, a, b => b.shelf = a.shelf
  | .strings, a, b => b.strings = a.strings
  | .feeds, a, b => b.feeds = a.feeds
  | .models, a, b => b.models = a.models
  | .rails, a, b => b.rails = a.rails
  | .orders, a, b => b.orders = a.orders
  | .seq, a, b => b.seq = a.seq
  | .fuses, a, b => b.fuses = a.fuses
  | .tws, a, b => b.tws = a.tws
  | .sensors, a, b => b.sensors = a.sensors
  | .lint, a, b => b.lint = a.lint
  | .score, a, b => b.score = a.score
  | .boot, a, b => b.boot = a.boot
  | .bootRec, a, b => b.bootRec = a.bootRec
  | .slots, a, b => b.slots = a.slots
  | .patch, a, b => b.patch = a.patch
  | .image, a, b => b.image = a.image
  | .safeSet, a, b => b.safeSet = a.safeSet
  | .working, a, b => b.working = a.working
  | .presence, a, b => b.presence = a.presence
  | .tamper, a, b => b.tamper = a.tamper
  | .seats, a, b => b.seats = a.seats
  | .t1s, a, b => b.t1s = a.t1s
  | .cans, a, b => b.cans = a.cans
  | .tts, a, b => b.tts = a.tts
  | .ptp, a, b => b.ptp = a.ptp
  | .ptpAdj, a, b => b.ptpAdj = a.ptpAdj
  | .commits, a, b => b.commits = a.commits
  | .hardwareRun, a, b => b.hardwareRun = a.hardwareRun
  | .alive, a, b => b.alive = a.alive
  | .draws, a, b => b.draws = a.draws

/-- From `a` to `b` nothing changes but the parts listed. -/
def OnlyChanges (ps : List Part) (a b : State) : Prop := ∀ p, p ∉ ps → p.same a b

/-! ### The footprint of every command -/

/-- What every host request may touch: the transports, the seats, the target ports. -/
def deskParts : List Part := [.sent, .seats, .t1s, .tts]

/-- What a warm reset may touch. -/
def resetParts : List Part :=
  [.tb, .chans, .groups, .ports, .irons, .flat, .senses, .dets, .presses, .shelf, .strings, .feeds, .models,
   .fuses, .tws, .sensors, .lint, .score, .boot, .bootRec, .safeSet, .working, .seats, .t1s, .cans, .tts, .ptp, .ptpAdj,
   .commits, .hardwareRun]

/-- What a write of each kind of Table 13-1 may touch beside its change record. -/
def kindParts : EffectKind → List Part
  | .plain => []
  | .staged => [.staged, .commits]
  | .immediate => [.staged, .commits, .models]
  | .mark | .tap => [.commits]
  | .reply => [.cfg, .seats, .tts, .commits, .ptp]
  | .nextOpening | .capture => [.sent, .cfg, .seats]

/-- What the requests of a family's command objects may touch beside their change record. -/
def commandParts : Family → List Part
  | .loopGroup => [.groups]
  | .iron => [.irons]
  | .bus => [.shelf]
  | .batString => [.strings]
  | .feed => [.feeds]
  | .order => [.orders, .lint]
  | .lintClear | .episode => [.lint]
  | .capture | .commitList => [.seats, .commits]
  | .seat => [.cfg, .seats, .tts, .commits]
  | .rights => [.sent, .cfg, .seats]
  | .safeSet => [.safeSet]
  | .patch => [.lint, .boot, .bootRec, .slots, .patch]
  | .image => [.lint, .boot, .bootRec, .slots, .image]
  | .fuse => [.fuses]
  | .owner => [.bootRec]
  | .presence => [.presence]
  | .seal => [.fuses, .tamper]
  | .twPort => [.tws]
  | .resets => resetParts
  | _ => []

/-- What a WRITE to an object may touch: the object decides it. -/
def writeFoot (index sub : Nat) : List Part :=
  match anyObject? index sub with
  | none => []
  | some x => .score :: (kindParts x.row.kind ++ commandParts x.fam)

/-- What any host's WRITE may touch: never the queue, the clock, an active bank, the rails or the sequencer. -/
def writeParts : List Part :=
  [.sent, .tb, .staged, .cfg, .chans, .groups, .ports, .irons, .flat, .senses, .dets, .presses, .shelf,
   .strings, .feeds, .models, .orders, .fuses, .tws, .sensors, .lint, .score, .boot, .bootRec, .slots, .patch, .image,
   .safeSet, .working, .presence, .tamper, .seats, .t1s, .cans, .tts, .ptp, .ptpAdj, .commits, .hardwareRun, .draws]

/-- The parts that a command may change, as the manual gives its effect; no other part changes, whatever the state. -/
def footprint : Instr → List Part
  | .identify _ | .keepalive _ | .subscribe _ _ _ _ _ | .unsubscribe _ _ =>
    deskParts
  | .openSeat _ _ _ =>
    deskParts ++ [.cfg, .score, .commits, .draws]
  | .closeSeat _ =>
    deskParts ++ [.cfg, .score, .commits]
  | .read _ _ _ _ _ _ | .readMulti _ _ | .stewardAcquire _ _ _ | .stewardRelease _ _ _ | .stewardQuery _ _ _ |
    .stewardTakeOver _ _ _ | .recordWindowRead _ _ _ =>
    deskParts ++ [.score]
  | .write _ index sub _ _ _ | .combinedSubentryWrite _ index sub _ | .transportConfigWrite _ index sub _ _ =>
    deskParts ++ writeFoot index sub
  | .notifyPeriodic _ _ _ | .notifyOnChange _ _ _ =>
    [.sent, .seats]
  | .udpDatagram _ | .canSegment _ | .oapWrite _ _ _ _ =>
    writeParts
  | .canSegmentTimeout _ _ _ | .canBusOffRecovery _ =>
    [.sent, .cans]
  | .ptpMessage _ =>
    [.sent, .clock, .score, .ptp, .ptpAdj, .draws]
  | .ptpAnnounceTimeout =>
    [.sent, .ptp]
  | .ptpOffsetStep =>
    [.sent, .clock, .score, .ptp]
  | .seatLeaseExpire _ | .orphanLeaseExpire _ =>
    [.sent, .cfg, .score, .seats, .tts, .commits]
  | .seatForceClose _ seat =>
    deskParts ++ writeFoot (Family.index .seat seat 0) 12
  | .rightsWordWrite _ area _ =>
    deskParts ++ writeFoot (Family.index .rights 0 0) area
  | .ptpConfigWrite _ _ _ =>
    deskParts ++ writeFoot (Family.index .time 0 0) 2
  | .markWriteTakesEffect =>
    [.sent, .tb, .active, .staged, .cfg, .chans, .ports, .dets, .shelf, .tws, .sensors, .lint, .commits]
  | .tapWriteTakesEffect =>
    [.sent, .tb, .active, .staged, .cfg, .dets, .tws, .sensors, .lint, .commits]
  | .immediateWriteApply =>
    [.sent, .active, .models, .commits]
  | .changeHoldoffExpire | .captureSample _ | .captureWindowFull _ | .captureSaved _ =>
    [.sent, .score]
  | .commitList _ _ _ =>
    deskParts ++ writeFoot 0x20F0 1
  | .commitProcess =>
    [.sent, .score, .seats, .commits]
  | .commitSwap =>
    [.sent, .active, .staged, .chans, .groups, .ports, .irons, .flat, .shelf, .feeds, .score, .boot, .working, .seats,
     .commits, .draws]
  | .safeSetCapture _ _ _ =>
    deskParts ++ writeFoot (Family.index .safeSet 0 0) 2
  | .safeSetCaptureDone =>
    [.sent, .safeSet]
  | .groupStart _ _ | .groupStop _ _ | .groupClear _ _ =>
    [.sent, .seats, .t1s, .tts, .score, .groups]
  | .groupSample _ _ =>
    [.sent, .chans, .groups, .ports, .irons, .flat, .engine, .shelf, .strings, .lint, .draws]
  | .softStartTimeout _ =>
    [.sent, .groups, .ports, .lint]
  | .groupRetryTimer _ =>
    [.sent, .chans, .groups, .ports, .shelf]
  | .spareLaneTest _ =>
    [.sent, .groups, .engine, .lint]
  | .shareTrimAtLimit _ | .lockAtLimit _ _ =>
    [.sent, .lint]
  | .derateRelease _ =>
    [.sent, .chans]
  | .lockResume _ =>
    [.sent, .groups]
  | .ironPeriodEstimate _ _ _ =>
    [.sent, .irons]
  | .ironClearMemory _ _ | .ironRelease _ _ =>
    [.sent, .seats, .t1s, .tts, .score, .irons]
  | .inputLossClear =>
    [.sent, .chans, .groups, .shelf]
  | .supportModeExit _ =>
    [.sent, .chans, .groups]
  | .uplinkFrame _ _ =>
    [.sent, .chans, .groups, .ports, .shelf, .models, .lint]
  | .arrivalDeadline _ _ =>
    [.sent, .staged, .chans, .groups, .ports, .shelf, .models, .lint, .commits]
  | .downlinkSlot _ =>
    [.sent, .clock, .tb, .chans, .groups, .ports, .shelf, .strings, .score, .bootRec]
  | .uplinkSymbolLock _ | .lostRetrain _ =>
    [.sent, .chans, .ports, .shelf]
  | .assignTimeout _ | .configuringFail _ =>
    [.sent, .ports, .lint]
  | .senseConversion _ _ =>
    [.sent, .senses, .dets, .shelf, .models, .lint]
  | .excursionEpisodeClose | .hangTimePublish =>
    [.sent, .shelf]
  | .excursionClear _ _ =>
    deskParts ++ writeFoot (Family.index .bus 0 0) 9
  | .pressDetectorTrip _ =>
    [.sent, .groups, .ports, .dets, .presses, .lint, .score]
  | .detectorRearm _ =>
    [.sent, .dets]
  | .pressBurstClose _ =>
    [.sent, .presses]
  | .syncinEdge _ _ =>
    [.sent, .tb, .lint, .draws]
  | .syncinLost | .syncHoldExpire | .timebaseGlideDone =>
    [.sent, .tb, .lint]
  | .shedSequencerTick | .shedDwellExpire | .shedWarnExpire | .shedGapExpire | .restoreGapExpire =>
    [.sent, .shelf, .feeds, .score]
  | .capTick =>
    [.sent, .staged, .shelf, .commits]
  | .zoneGrant =>
    [.sent, .shelf, .feeds]
  | .thrHoldExpire _ | .overlapEnd _ =>
    [.sent, .feeds]
  | .feedStart _ _ | .feedStop _ _ | .feedClear _ _ | .feedClearCaptures _ _ =>
    [.sent, .seats, .t1s, .tts, .score, .feeds]
  | .feedTick _ =>
    [.sent, .feeds, .models, .lint, .score]
  | .overcurrentTrip _ =>
    [.sent, .feeds]
  | .seatDebounceDone _ | .preChargeTimeout _ | .mainGateFault _ | .feedRetryTimer _ |
    .feedOnTimer _ =>
    [.sent, .feeds, .lint, .score]
  | .seatingFault _ =>
    [.sent, .feeds, .lint]
  | .stringTick _ =>
    [.sent, .staged, .strings, .lint, .score, .commits]
  | .termination _ | .rechargeTimer _ =>
    [.sent, .staged, .strings, .commits]
  | .emptyAnchor _ =>
    [.sent, .staged, .strings, .score, .commits]
  | .countCheckpoint =>
    [.sent, .strings]
  | .stringClearFlags _ _ | .stringRestoreCNom _ _ =>
    [.sent, .seats, .t1s, .tts, .score, .strings]
  | .modelStep _ =>
    [.sent, .staged, .groups, .feeds, .models, .lint, .commits]
  | .modelInputsInvalid _ =>
    [.sent, .groups, .feeds, .models, .lint]
  | .inletUnavailable _ =>
    [.sent, .models, .lint]
  | .orderUp _ _ | .orderDown _ _ | .orderClear _ _ =>
    [.sent, .seats, .t1s, .tts, .score, .orders, .lint]
  | .sequencerTick _ =>
    [.sent, .rails, .orders, .seq, .lint]
  | .railDelayExpire _ | .railGood _ | .railPgTimeout _ | .runningRailFault _ | .resetStretchEnd _ | .railDischarged _
    | .railDischargeTimeout _ =>
    [.sent, .rails, .orders, .seq, .lint]
  | .lintOccurrence _ =>
    [.sent, .groups, .feeds, .orders, .lint, .score]
  | .episodeQuietClose | .episodeMaxClose =>
    [.sent, .groups, .feeds, .orders, .lint, .score]
  | .snapshotWrite _ =>
    [.sent, .lint, .score]
  | .lintClear _ w _ =>
    deskParts ++ writeFoot (Family.index .lintClear 0 0) (w + 1)
  | .safeStateEnd _ _ =>
    deskParts ++ writeFoot (Family.index .episode 0 0) 9
  | .captureArm _ _ c | .captureDisarm _ _ c =>
    deskParts ++ writeFoot (Family.index .capture c 0) 5
  | .captureTrigger _ _ =>
    [.sent, .seats, .t1s, .tts, .score, .commits]
  | .patchPiece _ _ _ _ =>
    deskParts ++ writeFoot 0x9001 1
  | .patchVerify _ _ | .patchApply _ _ | .patchDiscard _ _ =>
    deskParts ++ writeFoot (Family.index .patch 0 0) 2
  | .patchApplyDone =>
    [.sent, .lint, .score, .bootRec, .slots, .patch]
  | .imagePiece _ _ _ _ =>
    deskParts ++ writeFoot 0x9002 1
  | .imageWrite _ _ | .imageDiscard _ _ =>
    deskParts ++ writeFoot (Family.index .image 0 0) 2
  | .imageWriteDone =>
    [.sent, .score, .slots, .image]
  | .slotWriteConditionStop =>
    [.sent, .score, .boot, .bootRec, .slots, .patch, .image]
  | .fuseRead _ _ | .fuseMarginRead _ _ =>
    deskParts ++ writeFoot (Family.index .fuse 0 0) 2
  | .fuseReadDone _ _ | .fuseMarginSweep _ | .stitchDone _ _ =>
    [.sent, .fuses, .lint, .score]
  | .baste _ _ | .stitch _ _ =>
    deskParts ++ writeFoot (Family.index .fuse 0 0) 7
  | .ownerLockSet _ _ | .ownerLockRelease _ _ =>
    deskParts ++ writeFoot (Family.index .owner 0 0) 2
  | .presenceWindowOpen | .presenceWindowExpire | .jumperFitted | .jumperRemoved =>
    [.sent, .score, .presence]
  | .presenceEnd _ _ =>
    deskParts ++ writeFoot (Family.index .presence 0 0) 5
  | .sealArm _ _ =>
    deskParts ++ writeFoot (Family.index .seal 0 0) 2
  | .sealCheck _ =>
    [.sent, .fuses, .lint, .score, .tamper]
  | .twBusRecovery _ _ t =>
    deskParts ++ writeFoot (Family.index .twPort t 0) 6
  | .sensorPoll _ _ _ =>
    [.sent, .tws, .sensors]
  | .twStuckRetry _ =>
    [.sent, .tws]
  | .twTransactionComplete _ _ | .twSclTimeout _ =>
    [.sent, .tws, .sensors, .lint]
  | .oapRead _ =>
    deskParts ++ kindParts .reply ++ resetParts
  | .page _ _ | .clearFaults _ _ | .capability _ | .voutMode _ | .statusByte _ | .statusWord _ |
    .statusCml _ | .readVin _ | .readVout _ | .readIout _ | .readTemperature1 _ | .readPout _ | .readPin _ |
    .pmbusRevision _ | .mfrId _ | .mfrModel _ | .mfrRevision _ | .mfrSerial _ =>
    [.sent, .seats, .tts]
  | .targetWriteAbort _ | .targetSclTimeout _ _ | .hostNotify _ | .hostNotifyRepeat _ =>
    [.sent, .tts]
  | .powerOnReset | .vddAoLoss =>
    [.sent, .clock, .tb, .active, .staged, .cfg, .chans, .groups, .ports, .irons, .flat, .engine, .senses, .dets,
     .presses, .shelf, .strings, .feeds, .models, .rails, .orders, .seq, .fuses, .tws, .sensors, .lint, .score, .boot,
     .bootRec, .safeSet, .working, .presence, .tamper, .seats, .t1s, .cans, .tts, .ptp, .ptpAdj, .commits, .hardwareRun, .alive, .draws]
  | .resetNAssert | .watchdogExpire | .firmwareResetRequest _ | .startTimerExpire | .pllLossOfLock | .warmReset _ =>
    [.sent, .tb, .chans, .groups, .ports, .irons, .flat, .senses, .dets, .presses, .shelf, .strings, .feeds,
     .models, .fuses, .tws, .sensors, .lint, .score, .boot, .bootRec, .safeSet, .working, .seats, .t1s, .cans, .tts, .ptp,
     .ptpAdj, .commits, .hardwareRun]
  | .resetCommand _ _ =>
    deskParts ++ writeFoot (Family.index .resets 0 0) 3
  | .warmResetEnd _ =>
    [.sent, .groups, .strings, .feeds, .rails, .orders, .lint, .score, .boot]
  | .pllLock _ _ _ =>
    [.sent, .clock, .tb, .active, .staged, .cfg, .chans, .groups, .ports, .dets, .shelf, .strings, .feeds, .orders,
     .seq, .fuses, .lint, .score, .boot, .bootRec, .working, .tamper, .commits, .hardwareRun, .draws]
  | .slotVerified =>
    [.sent, .tb, .active, .staged, .cfg, .chans, .groups, .ports, .dets, .shelf, .feeds, .orders, .seq, .lint, .score,
     .boot, .bootRec, .slots, .patch, .image, .commits, .hardwareRun, .draws]
  | .startedCheckpoint =>
    [.sent, .tb, .active, .staged, .cfg, .chans, .groups, .ports, .irons, .flat, .dets, .shelf, .strings, .feeds, .orders,
     .seq, .fuses, .tws, .lint, .score, .boot, .bootRec, .working, .tamper, .seats, .tts, .ptp, .commits,
     .hardwareRun, .draws]
  | .benchExitButton | .benchExitTrial =>
    [.sent, .tb, .chans, .groups, .ports, .irons, .flat, .senses, .dets, .presses, .shelf, .strings, .feeds,
     .models, .fuses, .tws, .sensors, .lint, .score, .boot, .bootRec, .safeSet, .working, .seats, .t1s, .cans, .tts,
     .ptp, .ptpAdj, .commits, .hardwareRun]
  | .powerFailWarning _ =>
    [.sent, .groups, .strings, .lint, .score, .boot, .bootRec]
  | .aoOscMeasure _ =>
    [.sent, .lint, .boot]
  | .taggedMark =>
    [.sent, .groups, .ports]
  | .twRecoveryEnd _ _ =>
    [.sent, .tws, .lint]
  | .watchdogService =>
    [.sent, .boot]
  | .aliveToggle =>
    [.sent, .alive]
  | .syncoutEdge _ =>
    [.sent, .tb]
  | .identifyDelayedReply _ =>
    [.sent, .t1s]

/-! ### The logic die in reset -/

/-- Commands of the blocks and functions of the logic die, which its reset stops (R448, Table 16-3). The others are those
of the always-on section, of the companions, comparators and counters that run through a reset, of a target port, which
does not answer then, and of the reset itself. -/
def onLogicDie : Instr → Bool
  | .seatLeaseExpire _ | .orphanLeaseExpire _ | .downlinkSlot _ | .stringTick _ | .presenceWindowOpen |
    .presenceWindowExpire | .overcurrentTrip _ | .jumperFitted | .jumperRemoved | .sealCheck _ | .oapWrite _ _ _ _ | .oapRead _ |
    .page _ _ | .clearFaults _ _ | .capability _ | .voutMode _ | .statusByte _ | .statusWord _ |
    .statusCml _ | .readVin _ | .readVout _ | .readIout _ | .readTemperature1 _ | .readPout _ | .readPin _ |
    .pmbusRevision _ | .mfrId _ | .mfrModel _ | .mfrRevision _ | .mfrSerial _ | .targetWriteAbort _ |
    .targetSclTimeout _ _ | .hostNotify _ | .hostNotifyRepeat _ | .powerOnReset | .vddAoLoss |
    .resetNAssert | .warmReset _ | .warmResetEnd _ | .pllLock _ _ _ | .powerFailWarning _ => false
  | _ => true

/-! ### Invariant -/

/-- A seat as R328 to R348 bound it: 32 subscriptions with numbers of their own, 64 notifications, 16 kept responses and
64 stewardships at most; a Free seat holds nothing, an open one has a session that is not 0. -/
structure SeatRun.Ok (r : SeatRun) : Prop where
  subs : r.subs.length ≤ 32
  numbers : (r.subs.map Subscription.num).Nodup ∧ ∀ x ∈ r.subs, x.num < 32
  notices : r.notices.length ≤ 64
  replay : r.replay.length ≤ 16
  stews : r.stews.length ≤ 64
  free : r.phase = .free → r.session = 0 ∧ r.subs = [] ∧ r.notices = [] ∧ r.replay = [] ∧ r.stews = []
  opened : r.phase = .opened → r.session ≠ 0

/-- The invariant of the host side: every seat is as R328 to R348 bound it, a stewardship has one holder (R344), and a
target port queues 8 responses at most, refusals of further requests apart (R339, R355). -/
structure State.Inv (s : State) : Prop where
  seats : ∀ k, k < 8 → (s.seat k).Ok
  holders : ∀ j k p, j < 8 → k < 8 → p ∈ (s.seat j).stews → p ∈ (s.seat k).stews → j = k
  targets : ∀ t, t < 2 → ((s.tt t).responses.filter Queued.counts).length ≤ 8

/-! ### Requests that are taken, and their responses -/

/-- The state in which the operation of a request of an open seat runs: the lease restarts, the request is the seat's
latest and is counted (R330, Table 12-9, 0x1100+s.07). -/
def State.arrived (s : State) (h : Hdr) : State :=
  s.fresh.onSeat h.seat (fun r => { r with leaseAt := s.clock.up, latest := (h.host, h.mark)
                                           processed := (r.processed + 1) % 4294967296 })

/-- No check of R337 turns a request of an open seat away before its operation: the part serves, the session is the
seat's own, the tag is none of the 16 kept (R340), fewer than 8 requests wait (R339). The host is on UDP or CAN FD. -/
structure Taken (s : State) (h : Hdr) : Prop where
  serving : s.boot.phase = .serving
  seat : h.seat < 8
  session : s.sessionOk h.seat h.session = true
  transport : h.host.code = 1 ∨ h.host.code = 2
  single : h.toAll = false
  room : h.busy = false ∧ s.unanswered h.seat < 8
  tag : ∀ x ∈ (s.seat h.seat).replay, x.tag ≠ h.tag

/-- A WRITE that passes the checks of R337 up to its value: the object exists and may be written, the class has the
right, presence, stewardship, sub-entry and expected epoch are as the object asks. -/
structure Admitted (s : State) (h : Hdr) (e : Expect) (index sub : Nat) (bs : List Byte) : Prop where
  taken : Taken s h
  port : ∀ p x, e = some (p, x) → p < 48
  checks : ∃ x, s.writeCheck h.seat index sub e bs = .ok x

/-- The octets that spell a number for an object. -/
def putOctets (index sub : Nat) (v : Int) : List Byte :=
  match anyObject? index sub with | some x => x.row.ty.encode v | none => []

/-- A WRITE of a number that passes the checks of R337 up to its value. -/
def AdmittedPut (s : State) (h : Hdr) (e : Expect) (index sub : Nat) (v : Int) : Prop :=
  Admitted s h e index sub (putOctets index sub v)

/-- A response to a request has left: to the host that sent it, with its seat, tag and session, and a status. -/
def Answered (t : State) (h : Hdr) (op status : Nat) : Prop :=
  ∃ r, .reply r ∈ t.out ∧ r.host = h.host ∧ r.mark = h.mark ∧ r.op = op + 0x80 ∧ r.seat = h.seat ∧
    r.session = h.session ∧ r.tag = h.tag ∧ r.status = status

/-- A request was answered with status 0 and a body. -/
def AnsweredWith (t : State) (h : Hdr) (op : Nat) (body : List Byte) : Prop :=
  .reply { host := h.host, mark := h.mark, op := op + 0x80, seat := h.seat, session := h.session, tag := h.tag
           status := 0, reason := 0, body := body } ∈ t.out

/-- The body of a READ response: the object, its type, its whole length, and octets of it (Table 12-6). -/
def readBody (s : State) (x : Obj) (index sub total : Nat) (bs : List Byte) : List Byte :=
  leBytes 2 index ++ [BitVec.ofNat 8 sub, BitVec.ofNat 8 (s.typeCode x)] ++ leBytes 4 total ++ leBytes 2 bs.length ++ bs

/-- One entry of a READ_MULTI response (R370). -/
def multiEntry (s : State) (seat : Nat) (e : Nat × Nat × Bool) : List Byte :=
  match s.readCheck seat e.1 e.2.1 with
  | .error status => [BitVec.ofNat 8 status, 0xFF, 0, 0]
  | .ok x => [0, BitVec.ofNat 8 (s.typeCode x)] ++ leBytes 2 (s.octets seat e.2.2 x).length ++ s.octets seat e.2.2 x

/-- The WRITE was accepted: its response has status 0. -/
def Accepted (t : State) (h : Hdr) : Prop := Answered t h 0x11 0

/-- A seat has closed with a cause (R331): it is Free and holds nothing, and its sub-entry of every combined object has
the neutral value. -/
def ClosedSeat (t : State) (k cause : Nat) : Prop :=
  (t.seat k).phase = .free ∧ (t.seat k).lastClose = cause ∧ (t.seat k).stews = [] ∧ (t.seat k).subs = [] ∧
  (t.seat k).notices = [] ∧ (t.seat k).replay = [] ∧
  ∀ x ∈ State.subEntries k, t.cfg.get? x.fam x.unit x.off x.sub = some x.row.max

end Sys2Proof.Machine
end

