-- ==== Sys2Proof/Certificates/Slice0/Obligations.lean ====
section
/-!
DEFINITION. The statements for the provers.
-/
section
open Sys2Proof Sys2Proof.Machine

/-! ### The queue, reset, and what a command may touch -/

/-- A step is `exec` of the command at the front of the queue, with the queue's rest. With no command waiting the part
idles: the queue is the model's own, so idling is the model's choice (assumption 1). -/
def Obligations.StepRunsTheFrontCommand : Prop :=
  (∀ (c : Instr) (q : List Instr) (s : State),
    Machine.step { s with pending := c :: q } = Machine.exec c { s with pending := q }) ∧
  ∀ s : State, s.pending = [] → Machine.step s = .next s

/-- Power-on reset leaves no command waiting, the logic die held in reset, every seat Free, the timebase in Free, every
detector Disabled, every group stopped, every feed and batting order off, ALIVE low, and nothing on the transports.
Rests on choices of the model: assumption 7. -/
def Obligations.ResetLeavesThePartHeld : Prop :=
  State.reset.pending = [] ∧ State.reset.out = [] ∧ State.reset.boot.phase = .held ∧ State.reset.tb.phase = .free ∧
  State.reset.alive = false ∧ (∀ k, k < 8 → (State.reset.seat k).phase = .free) ∧
  (∀ n, n < 8 → (State.reset.det n).phase = .disabled) ∧ (∀ g, g < 32 → (State.reset.group g).phase = .stopped) ∧
  (∀ z, z < 16 → (State.reset.feed z).phase = .off) ∧ (∀ o, o < 4 → (State.reset.order o).phase = .off)

/-- The invariant of the host side holds at power-on reset. -/
def Obligations.InvHoldsAtReset : Prop := State.reset.Inv

/-- Every step keeps the invariant of the host side, from every state that has it. -/
def Obligations.EveryStepKeepsInv : Prop :=
  ∀ s t : State, s.Inv → Machine.step s = .next t → t.Inv

/-- Every command answers a next state, whatever the state and its operands, and changes only the parts of the state that
its footprint names; the queue is in none. -/
def Obligations.EveryCommandStaysInItsFootprint : Prop :=
  ∀ (c : Instr) (s : State),
    ∃ t, Machine.exec c s = .next t ∧ OnlyChanges (footprint c) s t ∧ t.pending = s.pending

/-- While the logic die is held in reset, its blocks and the dictionary do nothing: a command other than those of the
always-on section, of the comparators and of the reset itself changes nothing but clears the transports. -/
def Obligations.NothingRunsInReset : Prop :=
  ∀ (c : Instr) (s : State), onLogicDie c = true → s.boot.phase = .held → Machine.exec c s = .next { s with out := [] }

/-- No command ever clears a burned fuse bit. -/
def Obligations.FusesOnlyBurn : Prop :=
  ∀ (s t : State) (w : Nat), Machine.step s = .next t →
    vget s.fuses.burned w 0 &&& ~~~(vget t.fuses.burned w 0) = 0

/-- Every object of the dictionary lies at the index that its unit and offset give, and that index locates it. -/
def Obligations.LocateInvertsIndex : Prop :=
  ∀ (f : Family) (base step n top unit off : Nat), (f, base, step, n, top) ∈ dictionaryMap → unit < n → off ≤ top →
    f.index unit off = base + step * unit + off ∧ locate (f.index unit off) = some (f, unit, off)

/-! ### Seats and requests (chapters 12 and 13) -/

/-- IDENTIFY is answered with the serial number, the firmware version, the operating mode and the free seats, and changes
nothing else; OPEN of a Free seat draws a session that is not 0, starts the lease and answers with that session; CLOSE
and KEEPALIVE act and are answered.
Rests on choices of the model: assumptions 80 and 90. -/
def Obligations.SeatRequestsComplete : Prop :=
  (∀ (s : State) (h : Hdr), s.boot.phase = .serving → h.session = 0 → h.toAll = false → h.host.code = 1 ∨ h.host.code = 2 →
    Machine.exec (.identify h) s =
      .next { s with out := (s.replySent
        { host := h.host, mark := h.mark, op := 0x81, seat := h.seat, session := 0, tag := h.tag, status := 0, reason := 0
          body := leBytes 8 s.serial ++ leBytes 4 (slotVersion s.activeContent) ++
            [BitVec.ofNat 8 s.modeCode, BitVec.ofNat 8 s.freeSeats] }) }) ∧
  (∀ (s : State) (h : Hdr) (cls lease : Nat), s.boot.phase = .serving → h.session = 0 → h.toAll = false →
    h.host.code = 1 ∨ h.host.code = 2 → h.seat < 8 → (s.seat h.seat).phase = .free →
    s.openOk h.seat cls h.host = true → 10 ≤ lease → lease ≤ 2550 →
    ∃ t, Machine.exec (.openSeat h cls lease) s = .next t ∧ (t.seat h.seat).phase = .opened ∧ (t.seat h.seat).cls = cls ∧
      (t.seat h.seat).host = h.host ∧ (t.seat h.seat).session ≠ 0 ∧ (t.seat h.seat).leaseAt = s.clock.up ∧
      (t.seat h.seat).lease = min lease (10 * bitsOf (vget s.cfg.bindings h.seat 0) 31 24) ∧
      (t.seat h.seat).replay = [] ∧ (t.seat h.seat).subs = [] ∧
      Answered t { h with session := (t.seat h.seat).session } 0x02 0) ∧
  (∀ (s : State) (h : Hdr), Taken s h →
    ∃ t, Machine.exec (.closeSeat h) s = .next t ∧ Answered t h 0x03 0 ∧ (t.seat h.seat).phase = .free ∧
      (t.seat h.seat).lastClose = 0 ∧ (t.seat h.seat).stews = [] ∧ (t.seat h.seat).subs = [] ∧
      (t.seat h.seat).notices = [] ∧ (t.seat h.seat).replay = []) ∧
  (∀ (s : State) (h : Hdr), Taken s h →
    ∃ t, Machine.exec (.keepalive h) s = .next t ∧ Answered t h 0x04 0 ∧ (t.seat h.seat).leaseAt = s.clock.up ∧
      (t.seat h.seat).phase = .opened ∧ OnlyChanges [.sent, .seats] s t)

/-- A READ that passes its checks is answered with the octets of the object as it stands: whole for a sized type, from
the offset and within the limit for a DOMAIN or STR (R341); a READ_MULTI with the entry of every object (R370). -/
def Sys2Proof.PlainReadsComplete : Prop :=
  (∀ (s : State) (h : Hdr) (index sub : Nat) (active : Bool) (maxLen : Nat) (x : Obj), Taken s h →
    s.readCheck h.seat index sub = .ok x → x.row.ty.size.isSome = true →
    ∃ t, Machine.exec (.read h index sub active 0 maxLen) s = .next t ∧ OnlyChanges [.sent, .seats] s t ∧
      AnsweredWith t h 0x10 (readBody (s.arrived h) x index sub ((s.arrived h).octets h.seat active x).length
        ((s.arrived h).octets h.seat active x))) ∧
  (∀ (s : State) (h : Hdr) (index sub : Nat) (active : Bool) (offset maxLen : Nat) (x : Obj), Taken s h →
    s.readCheck h.seat index sub = .ok x → x.row.ty.size = none → x.fam ≠ .window →
    offset ≤ ((s.arrived h).octets h.seat active x).length →
    ∃ t, Machine.exec (.read h index sub active offset maxLen) s = .next t ∧ OnlyChanges [.sent, .seats] s t ∧
      AnsweredWith t h 0x10 (readBody (s.arrived h) x index sub ((s.arrived h).octets h.seat active x).length
        ((((s.arrived h).octets h.seat active x).drop offset).take (min maxLen (limitOf h.host - 22))))) ∧
  (∀ (s : State) (h : Hdr) (es : List (Nat × Nat × Bool)), Taken s h → 1 ≤ es.length → es.length ≤ 16 →
    (∀ e ∈ es, e.1 ≠ 0x8802) → 12 + (es.flatMap (multiEntry (s.arrived h) h.seat)).length ≤ limitOf h.host →
    ∃ t, Machine.exec (.readMulti h es) s = .next t ∧ OnlyChanges [.sent, .seats] s t ∧
      AnsweredWith t h 0x12 (es.flatMap (multiEntry (s.arrived h) h.seat)))

/-- A read of the record window gives the seat's records from its cursor and moves the cursor past the last record that
it returns whole (R326). -/
def Sys2Proof.RecordWindowReadMovesTheCursor : Prop :=
  ∀ (s : State) (h : Hdr) (offset maxLen : Nat) (x : Obj), Taken s h → s.readCheck h.seat 0x8802 1 = .ok x →
    offset ≤ ((s.window h.seat).flatMap Record.octets).length →
    ∃ t, Machine.exec (.recordWindowRead h offset maxLen) s = .next t ∧ OnlyChanges [.sent, .seats, .score] s t ∧
      t.score.recs = s.score.recs ∧
      AnsweredWith t h 0x10 (readBody s x 0x8802 1 ((s.window h.seat).flatMap Record.octets).length
        ((((s.window h.seat).flatMap Record.octets).drop offset).take (min maxLen (limitOf h.host - 22)))) ∧
      ∀ n r, ((((s.window h.seat).flatMap Record.octets).drop offset).take (min maxLen (limitOf h.host - 22))).length = n →
        64 ≤ offset + n → (s.window h.seat)[(offset + n) / 64 - 1]? = some r →
        vget t.score.cursors h.seat none = some ((r.seq + 1) % 4294967296)

/-- A READ that passes its checks is answered with the object's octets, a READ_MULTI with every entry; a read of the
record window also moves the seat's cursor past the last record that it returns whole (R326, R341, R370).
Rests on choices of the model: assumption 78. -/
def Obligations.ReadsComplete : Prop := PlainReadsComplete ∧ RecordWindowReadMovesTheCursor


/-- STEWARD: acquire and take over give every sub-entry that the request covers to the seat, release takes the seat's own
away, a query changes nothing; each is answered with the holder of the first sub-entry, 0xFF where it has none (R344).
Rests on choices of the model: assumption 85. -/
def Obligations.StewardshipsComplete : Prop :=
  ∀ (s : State) (h : Hdr) (index sub : Nat), Taken s h → (locate index).isSome = true →
    (sub = 255 ∨ (anyObject? index sub).isSome = true) → State.stewardSubs index sub ≠ [] →
    (s.hasRight (s.seat h.seat).cls index true = true → s.acquireOk h.seat index (State.stewardSubs index sub) = true →
      s.grantFits h.seat index (State.stewardSubs index sub) = true →
      ∃ t, Machine.exec (.stewardAcquire h index sub) s = .next t ∧ AnsweredWith t h 0x13 [BitVec.ofNat 8 h.seat] ∧
        OnlyChanges [.sent, .seats] s t ∧ ∀ b ∈ State.stewardSubs index sub, t.steward index b = h.seat) ∧
    (s.releaseOk h.seat index (State.stewardSubs index sub) = true →
      ∃ t, Machine.exec (.stewardRelease h index sub) s = .next t ∧
        AnsweredWith t h 0x13 [BitVec.ofNat 8 (t.steward index ((State.stewardSubs index sub).headD 0))] ∧
        OnlyChanges [.sent, .seats] s t ∧ ∀ b ∈ State.stewardSubs index sub, t.steward index b ≠ h.seat) ∧
    (∃ t, Machine.exec (.stewardQuery h index sub) s = .next t ∧ OnlyChanges [.sent, .seats] s t ∧
      AnsweredWith t h 0x13 [BitVec.ofNat 8 (s.steward index ((State.stewardSubs index sub).headD 0))] ∧
      ∀ i b, t.steward i b = s.steward i b) ∧
    (s.hasRight (s.seat h.seat).cls index true = true → (s.seat h.seat).cls = 2 → s.present = true →
      s.grantFits h.seat index (State.stewardSubs index sub) = true →
      ∃ t, Machine.exec (.stewardTakeOver h index sub) s = .next t ∧ AnsweredWith t h 0x13 [BitVec.ofNat 8 h.seat] ∧
        OnlyChanges [.sent, .seats, .score] s t ∧ ∀ b ∈ State.stewardSubs index sub, t.steward index b = h.seat)

/-- SUBSCRIBE of a sub-entry, or with sub 0xFF of a whole index, makes a subscription with the lowest free number and sends its
first notification; UNSUBSCRIBE ends one or all; a periodic subscription notifies when its interval has passed, an on-change
one when its value differs as well, and a notification takes the seat's next NSEQ (R347, R348).
Rests on choices of the model: assumptions 83 and 84. -/
def Obligations.SubscriptionsComplete : Prop :=
  (∀ (s : State) (h : Hdr) (index sub interval n : Nat) (periodic : Bool) (xs : List Obj), s.Inv → Taken s h →
    s.busOff h.host = false → (locate index).isSome = true →
    xs = (if sub = 255 then objectsOf index else (anyObject? index sub).toList) → xs ≠ [] →
    (∀ x ∈ xs, x.row.ty ≠ .domain ∧ (sub ≠ 255 → x.row.acc ≠ .wo)) → s.mayReadAll h.seat index sub = true →
    (if periodic then 10000 else 1000) ≤ interval → interval ≤ 60000000 →
    (List.range 32).find? (fun n => (s.subscription? h.seat n).isNone) = some n →
    ∃ t y, Machine.exec (.subscribe h index sub periodic interval) s = .next t ∧ AnsweredWith t h 0x20 [BitVec.ofNat 8 n] ∧
      OnlyChanges [.sent, .seats] s t ∧ t.subscription? h.seat n = some y ∧ y.index = index ∧ y.sub = sub ∧
      y.periodic = periodic ∧ y.interval = interval ∧ y.sentAt = s.clock.up ∧
      ∃ mark flags notice, .notice h.seat h.host mark flags notice ∈ t.out ∧ notice.num = n ∧ notice.index = index ∧
        notice.sub = sub ∧ notice.data = y.last) ∧
  (∀ (s : State) (h : Hdr) (num : Nat), Taken s h → num < 32 ∨ num = 255 →
    ∃ t, Machine.exec (.unsubscribe h num) s = .next t ∧ Answered t h 0x21 0 ∧ OnlyChanges [.sent, .seats] s t ∧
      (t.seat h.seat).subs = (s.seat h.seat).subs.filter (fun x => num != 255 && x.num != num)) ∧
  (∀ (s : State) (k num drain : Nat) (x : Subscription), k < 8 → s.boot.phase ≠ .held → s.subscription? k num = some x →
    ((∃ t, Machine.exec (.notifyPeriodic k num drain) s = .next t ∧ OnlyChanges [.sent, .seats] s t ∧
      if x.periodic = true ∧ x.interval ≤ elapsedAo s x.sentAt then
        t.subscription? k num = some { x with sentAt := s.clock.up, last := s.subscribed k x.index x.sub } ∧
          (t.seat k).nseq = ((s.seat k).nseq + 1) % 65536
      else (t.seat k).subs = (s.seat k).subs ∧ (t.seat k).nseq = (s.seat k).nseq) ∧
    (∃ t, Machine.exec (.notifyOnChange k num drain) s = .next t ∧ OnlyChanges [.sent, .seats] s t ∧
      if x.periodic = false ∧ x.interval ≤ elapsedAo s x.sentAt ∧ s.subscribed k x.index x.sub ≠ x.last then
        t.subscription? k num = some { x with sentAt := s.clock.up, last := s.subscribed k x.index x.sub } ∧
          (t.seat k).nseq = ((s.seat k).nseq + 1) % 65536
      else (t.seat k).subs = (s.seat k).subs ∧ (t.seat k).nseq = (s.seat k).nseq)))

/-- A lease that has run out closes its seat: an open one with cause 1, an orphaned one with cause 5; a force close ends a
seat that is not Free with cause 3 (Table 12-2). A seat that closes holds no stewardship, subscription, notification or kept
response any more, and its combined sub-entries are neutral (R331).
Rests on choices of the model: assumption 86. -/
def Obligations.SeatsClose : Prop :=
  (∀ (s : State) (k : Nat), k < 8 → (s.seat k).phase = .opened → s.leaseOver k = true →
    ∃ t, Machine.exec (.seatLeaseExpire k) s = .next t ∧ ClosedSeat t k 1) ∧
  (∀ (s : State) (k : Nat), k < 8 → (s.seat k).phase = .orphaned → s.leaseOver k = true →
    ∃ t, Machine.exec (.orphanLeaseExpire k) s = .next t ∧ ClosedSeat t k 5) ∧
  (∀ (s : State) (h : Hdr) (k : Nat), k < 8 → AdmittedPut s h none (Family.seat.index k 0) 12 1 → (s.seat k).phase ≠ .free →
    ∃ t, Machine.exec (.seatForceClose h k) s = .next t ∧ ClosedSeat t k 3 ∧ (k ≠ h.seat → Accepted t h))

/-- Settings of the host side: a rights word is in force at once, while no owner lock is set (R334); a word of a transport
port or of PTP is in force once its response is sent, which closes the seats open over that port (R363). -/
def Obligations.HostSettingsTakeEffect : Prop :=
  (∀ (s : State) (h : Hdr) (area : Nat) (v : Byte) (x : Obj), AdmittedPut s h none 0x1120 area v.toNat → anyObject? 0x1120 area = some x →
    (s.arrived h).settingRefused x v.toNat = none → s.bootRec.ownerLock = false →
    ∃ t, Machine.exec (.rightsWordWrite h area v) s = .next t ∧ Accepted t h ∧ (vget t.cfg.rights (area - 1) 0).toNat = v.toNat) ∧
  (∀ (s : State) (h : Hdr) (e : Expect) (index sub v : Nat) (x : Obj), 0x1200 ≤ index → index < 0x1230 →
    AdmittedPut s h e index sub v → anyObject? index sub = some x → v < 2 ^ (8 * x.row.ty.size.getD 0) →
    (s.arrived h).settingRefused x v = none → s.cfg.get? x.fam x.unit x.off x.sub ≠ some (v : Int) →
    ∃ t, Machine.exec (.transportConfigWrite h index sub e v) s = .next t ∧ Accepted t h ∧
      t.cfg.get? x.fam x.unit x.off x.sub = some (v : Int) ∧
      ∀ k, k < 8 → (t.seat k).phase = .opened → ¬ ((t.seat k).host.port = x.unit ∧
        (t.seat k).host.code = (match x.fam with | .t1s => 1 | .can => 2 | _ => 3))) ∧
  (∀ (s : State) (h : Hdr) (e : Expect) (v : Word) (x : Obj), AdmittedPut s h e 0x1300 2 v.toNat → anyObject? 0x1300 2 = some x →
    (s.arrived h).settingRefused x v.toNat = none → s.cfg.ptpWord ≠ v →
    ∃ t, Machine.exec (.ptpConfigWrite h e v) s = .next t ∧ Accepted t h ∧ t.cfg.ptpWord = v ∧ t.ptp.steps = s.ptp.steps ∧
      t.ptp.phase = if bitAt v 0 then .listening else .disabled)

/-- What an accepted WRITE does by the kind of its object: a staged field reaches the pending bank only (R19), and one of a
bank that an armed commit has frozen is accepted and held (R29); an immediate field reaches the pending bank and waits for its
boundary (R23); a setting of kind Mark or Tap waits for its mark or tap (R89, R141), a sub-entry of a combined object among
them (R345). -/
def Obligations.WritesAct : Prop :=
  ∀ (s : State) (h : Hdr) (e : Expect) (index sub n : Nat) (v : Int) (x : Obj), AdmittedPut s h e index sub v →
    anyObject? index sub = some x → x.row.ty.size = some n → (x.row.ty.encode v).length = n →
    x.row.ty.decode (x.row.ty.encode v) = v →
    (x.row.kind = .staged → s.frozen ((x.fam.block? x.unit).getD 0) = false → lockedMask x.fam x.off x.sub = 0 →
      ∃ t, Machine.exec (.write h index sub e 0 (x.row.ty.encode v)) s = .next t ∧ Accepted t h ∧
        t.staged = s.staged.put x.fam x.unit x.off x.sub v ∧ t.active = s.active ∧ OnlyChanges [.sent, .seats, .staged, .score] s t) ∧
    (x.row.kind = .staged → s.frozen ((x.fam.block? x.unit).getD 0) = true → lockedMask x.fam x.off x.sub = 0 →
      ∃ t w, Machine.exec (.write h index sub e 0 (x.row.ty.encode v)) s = .next t ∧ Accepted t h ∧
        t.staged = s.staged ∧ t.active = s.active ∧ t.commits = { s.commits with held := s.commits.held ++ [w] } ∧
        w.index = x.fam.index x.unit x.off ∧ w.sub = x.sub ∧ w.value = v ∧ OnlyChanges [.sent, .seats, .commits] s t) ∧
    (x.row.kind = .immediate → rowOk x v = true → x.fam ≠ .channel →
      ∃ t w, Machine.exec (.write h index sub e 0 (x.row.ty.encode v)) s = .next t ∧ Accepted t h ∧
        t.staged = s.staged.put x.fam x.unit x.off x.sub v ∧ t.active = s.active ∧ t.commits.imm = s.commits.imm ++ [w] ∧
        w.index = x.fam.index x.unit x.off ∧ w.sub = x.sub ∧ w.value = v) ∧
    (x.row.kind = .mark → x.fam ≠ .rail → x.fam ≠ .capture → (s.arrived h).settingRefused x v = none →
      ∃ t w, Machine.exec (.write h index sub e 0 (x.row.ty.encode v)) s = .next t ∧ Accepted t h ∧
        t.commits.marks = s.commits.marks ++ [w] ∧ w.index = x.fam.index x.unit x.off ∧ w.sub = x.sub ∧ w.value = v ∧
        OnlyChanges [.sent, .seats, .commits, .score] s t) ∧
    (x.row.kind = .tap → (s.arrived h).settingRefused x v = none →
      ∃ t w, Machine.exec (.write h index sub e 0 (x.row.ty.encode v)) s = .next t ∧ Accepted t h ∧
        t.commits.taps = s.commits.taps ++ [w] ∧ w.index = x.fam.index x.unit x.off ∧ w.sub = x.sub ∧ w.value = v ∧
        OnlyChanges [.sent, .seats, .commits, .score] s t) ∧
    (index = 0x2100 ∨ (0x2110 ≤ index ∧ index < 0x2120) → 0 ≤ v → v < 2147483648 →
      ∃ t w, Machine.exec (.combinedSubentryWrite h index sub v) s = .next t ∧ Accepted t h ∧ sub = h.seat + 1 ∧
        t.commits.marks = s.commits.marks ++ [w] ∧ w.index = index ∧ w.sub = sub ∧ w.value = v)

/-- A WRITE with an expected epoch that differs from the port's role epoch is refused with "role changed" and changes
nothing but its own response; a WRITE without one is not checked against any port. -/
def Obligations.ExpectedEpochIsCompared : Prop :=
  (∀ (s : State) (h : Hdr) (index sub p : Nat) (epoch : Half) (bs : List Byte), Admitted s h none index sub bs → p < 48 →
    24 + bs.length ≤ limitOf h.host → (s.port p).epoch ≠ epoch →
    ∃ t, Machine.exec (.write h index sub (some (p, epoch)) 0 bs) s = .next t ∧ Answered t h 0x11 0x0B ∧
      OnlyChanges [.sent, .seats] s t) ∧
  (∀ (s : State) (k index sub : Nat) (bs : List Byte) (ports : Vector PortRun 48),
    ({ s with ports := ports }).writeCheck k index sub none bs = s.writeCheck k index sub none bs)

/-! ### Transports and shelf time (chapter 12) -/

/-- A UDP datagram is counted; a fragment, one to a port that is neither the port of OAP nor one of PTP, and one without a
whole header are discarded and counted as such; a KEEPALIVE in a datagram is answered (R350, R351). A reply to a
multicast IDENTIFY leaves when its delay has passed.
Rests on choices of the model: assumptions 91 and 92. -/
def Obligations.DatagramsArrive : Prop :=
  (∀ (s : State) (x : Datagram), s.boot.phase = .serving → x.port < 2 → bitAt (s.t1sWord x.port) 0 = true →
    (x.fragment = true ∨ (x.dstPort ≠ s.udpPort x.port ∧ x.dstPort ≠ 319 ∧ x.dstPort ≠ 320) ∨
      (x.dstPort = s.udpPort x.port ∧ x.octets.length < 12)) →
    ∃ t, Machine.exec (.udpDatagram x) s = .next t ∧ OnlyChanges [.sent, .t1s] s t ∧ t.out = [] ∧
      (vget t.t1s x.port {}).received = ((vget s.t1s x.port {}).received + 1) % 4294967296 ∧
      (vget t.t1s x.port {}).discarded = ((vget s.t1s x.port {}).discarded + 1) % 4294967296) ∧
  (∀ (s : State) (x : Datagram) (h : Hdr), x.port < 2 → bitAt (s.t1sWord x.port) 0 = true → x.fragment = false →
    x.dstPort = s.udpPort x.port → h.host = { code := 1, port := x.port, addr := x.source } → h.mark = x.srcPort →
    h.tag < 65536 → x.busy = false → Taken s h →
    x.octets = [0x01, 0x04, BitVec.ofNat 8 h.seat, 0, 0, 0] ++ leBytes 2 h.session.toNat ++ leBytes 2 h.tag ++ [0, 0] →
    ∃ t, Machine.exec (.udpDatagram x) s = .next t ∧ Answered t h 0x04 0 ∧ (t.seat h.seat).leaseAt = s.clock.up ∧
      (vget t.t1s x.port {}).received = ((vget s.t1s x.port {}).received + 1) % 4294967296) ∧
  (∀ (s : State) (port : Nat) (r : Reply) (rest : List Reply), s.boot.phase ≠ .held → port < 2 →
    (vget s.t1s port {}).delayed = r :: rest →
    ∃ t, Machine.exec (.identifyDelayedReply port) s = .next t ∧ t.out = [.reply r] ∧
      (vget t.t1s port {}).delayed = rest ∧ OnlyChanges [.sent, .t1s] s t)

/-- A message leaves over CAN FD as frames of 64 octets in order, the last one padded with zeros to a length that a frame can
have; each identifier carries the function, NODE, SEAT, MSGNO, LAST on the last frame alone, and the segment number (Table
12-10, R353). -/
def Sys2Proof.MessagesLeaveInFrames : Prop :=
  ∀ (ctrl func node seat mark k : Nat) (m : List Byte), func < 16 → node < 32 → seat < 8 → mark < 256 →
    m.length ≤ 1280 → 64 * k < m.length →
    let n := (m.length + 63) / 64
    let x := (m.drop (64 * k)).take 64
    (canFrames ctrl func node seat mark m).length = n ∧
    ∃ id d, (canFrames ctrl func node seat mark m)[k]? = some (.can ctrl id d) ∧
      d.take x.length = x ∧ (∀ b ∈ d.drop x.length, b = 0) ∧ x.length ≤ d.length ∧
      (d.length ≤ 8 ∨ d.length ∈ [12, 16, 20, 24, 32, 48, 64]) ∧
      bitsOf id 28 25 = func ∧ bitsOf id 24 20 = node ∧ bitsOf id 19 17 = seat ∧ bitsOf id 15 8 = mark ∧
      bitAt id 7 = (k + 1 == n) ∧ bitsOf id 6 0 = k

/-- A CAN FD frame that starts a message of several segments waits for the rest; a frame that is a whole message is
processed; a message whose next segment is late is discarded (R352, R353); the response to a message leaves in frames of FUNC
0x2. Errors that take a controller to bus-off are counted, and end its service until it recovers: it is error-active again
then (R354). -/
def Sys2Proof.FramesArrive : Prop :=
  (∀ (s : State) (x : CanFrame), s.boot.phase = .serving → x.ctrl < 2 → bitAt (s.canWord x.ctrl) 0 = true → x.fd = true →
    bitsOf x.ident 28 25 = 4 → bitsOf x.ident 24 20 = bitsOf (s.canWord x.ctrl) 28 24 → bitsOf x.ident 6 0 = 0 →
    s.partial? x.ctrl (bitsOf x.ident 19 17) (bitsOf x.ident 15 8) = none → x.errors < 2 →
    (vget s.cans x.ctrl {}).errorState ≠ 2 →
    (bitAt x.ident 7 = false → x.octets.length = 64 →
      ∃ t p, Machine.exec (.canSegment x) s = .next t ∧ OnlyChanges [.sent, .cans] s t ∧
        t.partial? x.ctrl (bitsOf x.ident 19 17) (bitsOf x.ident 15 8) = some p ∧ p.segs = 1 ∧ p.octets = x.octets ∧
        p.at' = s.clock.up ∧ (vget t.cans x.ctrl {}).received = ((vget s.cans x.ctrl {}).received + 1) % 4294967296 ∧
        (vget t.cans x.ctrl {}).errorState = x.errors) ∧
    (∀ h : Hdr, bitAt x.ident 7 = true → h.host = { code := 2, port := x.ctrl } → h.mark = bitsOf x.ident 15 8 →
      h.seat = bitsOf x.ident 19 17 → h.tag < 65536 → x.busy = false → Taken s h →
      x.octets = [0x01, 0x04, BitVec.ofNat 8 h.seat, 0, 0, 0] ++ leBytes 2 h.session.toNat ++ leBytes 2 h.tag ++ [0, 0] →
      ∃ t r, Machine.exec (.canSegment x) s = .next t ∧ Answered t h 0x04 0 ∧ (t.seat h.seat).leaseAt = s.clock.up ∧
        t.out = .reply r :: canFrames x.ctrl 2 (bitsOf (s.canWord x.ctrl) 28 24) h.seat h.mark r.octets)) ∧
  (∀ (s : State) (c seat mark : Nat) (p : CanPartial), s.boot.phase ≠ .held → c < 2 → s.partial? c seat mark = some p →
    400 * 50000 < s.clock.up - p.at' →
    ∃ t, Machine.exec (.canSegmentTimeout c seat mark) s = .next t ∧ OnlyChanges [.sent, .cans] s t ∧
      t.partial? c seat mark = none ∧
      (vget t.cans c {}).discarded = ((vget s.cans c {}).discarded + 1) % 4294967296) ∧
  (∀ (s : State) (x : CanFrame), s.boot.phase = .serving → x.ctrl < 2 → bitAt (s.canWord x.ctrl) 0 = true →
    ((vget s.cans x.ctrl {}).errorState = 2 → Machine.exec (.canSegment x) s = .next { s with out := [] }) ∧
    ((vget s.cans x.ctrl {}).errorState ≠ 2 → 2 ≤ x.errors →
      ∃ t, Machine.exec (.canSegment x) s = .next t ∧ OnlyChanges [.sent, .cans] s t ∧ t.out = [] ∧
        vget t.cans x.ctrl {} = { vget s.cans x.ctrl {} with
          errorState := 2, busOffs := ((vget s.cans x.ctrl {}).busOffs + 1) % 4294967296 })) ∧
  (∀ (s : State) (c : Nat), s.boot.phase ≠ .held → c < 2 → (vget s.cans c {}).errorState = 2 →
    ∃ t, Machine.exec (.canBusOffRecovery c) s = .next t ∧ OnlyChanges [.sent, .cans] s t ∧
      vget t.cans c {} = { vget s.cans c {} with errorState := 0 })

/-- Messages over CAN FD: frames that arrive, and the frames in which a message leaves (R352, R353, R354).
Rests on choices of the model: assumptions 93, 115 and 168. -/
def Obligations.CanFramesArrive : Prop := FramesArrive ∧ MessagesLeaveInFrames

/-- The messages that the ordinary clock hears: the second Announce of another clock within four of its intervals starts a new
synchronisation, where none is under way or its dataset is the better one; a Sync, or its Follow_Up, gives the offset, which
adjusts the rate by ±200 ppm at most, or steps shelf time where it exceeds 1 ms before lock, and a Delay_Req follows it; the
Delay_Resp to it gives the delay. Three announce intervals without an Announce lead to Holdover; in Locked a step needs 10 s
(R364).
Rests on choices of the model: assumptions 94, 95, 96 and 169. -/
def Obligations.ClockFollowsItsTimeTransmitter : Prop :=
  (∀ (s : State) (x : PtpIn), s.ptpHears x = true → ∃ t, Machine.exec (.ptpMessage x) s = .next t ∧
    (∀ source rank interval, x.body = .announce source rank interval →
      let idle := s.ptp.phase = .listening ∨ s.ptp.phase = .holdover
      let again := ∃ f ∈ s.ptp.foreign, f.1 = source ∧ elapsedAo s f.2 ≤ 4 * interval
      (¬ idle → source = s.ptp.source →
        t.ptp = { s.ptp with rank := rank, announcedAt := s.clock.up, interval := interval }) ∧
      (idle ∨ source ≠ s.ptp.source → (source, s.clock.up) ∈ t.ptp.foreign ∧
        (again → idle ∨ State.better rank s.ptp.rank = true →
          t.ptp.phase = .uncalibrated ∧ t.ptp.source = source ∧ t.ptp.rank = rank ∧ t.ptp.announcedAt = s.clock.up ∧
            t.ptp.interval = interval) ∧
        (¬ again ∨ (¬ idle ∧ State.better rank s.ptp.rank = false) →
          t.ptp.phase = s.ptp.phase ∧ t.ptp.source = s.ptp.source ∧ t.ptp.rank = s.ptp.rank))) ∧
    (s.ptp.phase = .uncalibrated ∨ s.ptp.phase = .locked →
      (∀ seq t1 t2, x.body = .sync s.ptp.source seq true t1 t2 → t.ptp = { s.ptp with sync := some (seq, t2) }) ∧
      (∀ seq t1 t2, (x.body = .sync s.ptp.source seq false t1 t2 ∨
          (x.body = .followUp s.ptp.source seq t1 ∧ s.ptp.sync = some (seq, t2))) →
        t.ptp.toSlave = t2 - t1 ∧ t.ptp.offset = t2 - t1 - s.ptp.delay ∧
        t.out = [.delayReq (bitsOf s.cfg.ptpWord 1 1) s.ptp.nextReq] ∧ t.ptp.request = some s.ptp.nextReq ∧
        (-1000000 ≤ t2 - t1 - s.ptp.delay → t2 - t1 - s.ptp.delay ≤ 1000000 →
          -200000 ≤ t.ptpAdj ∧ t.ptpAdj ≤ 200000 ∧ t.clock = s.clock) ∧
        (t2 - t1 - s.ptp.delay < -1000000 ∨ 1000000 < t2 - t1 - s.ptp.delay → s.ptp.phase = .uncalibrated →
          t.ptp.steps = (s.ptp.steps + 1) % 4294967296 ∧ t.ptpAdj = s.ptpAdj ∧
          t.clock.shelf = (roundDiv (2 * ((s.shelfNs : Int) - (t2 - t1 - s.ptp.delay)).toNat) 5).toNat)) ∧
      (∀ seq t3 t4, x.body = .delayResp s.ptp.source seq t3 t4 →
        (s.ptp.request = some seq →
          t.ptp = { s.ptp with delay := ((s.ptp.toSlave + (t4 - t3)) / 2).toNat, request := none }) ∧
        (s.ptp.request ≠ some seq → t.ptp = s.ptp)))) ∧
  (∀ s : State, s.boot.phase ≠ .held → s.ptp.phase = .uncalibrated ∨ s.ptp.phase = .locked →
    (3 * s.ptp.interval ≤ elapsedAo s s.ptp.announcedAt →
      ∃ t, Machine.exec .ptpAnnounceTimeout s = .next t ∧ t.ptp.phase = .holdover ∧ t.ptpAdj = s.ptpAdj ∧
        OnlyChanges [.sent, .ptp] s t) ∧
    (elapsedAo s s.ptp.announcedAt < 3 * s.ptp.interval →
      Machine.exec .ptpAnnounceTimeout s = .next { s with out := [] })) ∧
  (∀ (s : State) (since : Nat), s.boot.phase ≠ .held → s.ptp.phase = .locked → s.ptp.farFrom = some since →
    10000000 ≤ elapsedAo s since →
    ∃ t, Machine.exec .ptpOffsetStep s = .next t ∧ t.ptp.offset = s.ptp.offset ∧ t.ptp.phase = .locked ∧
      t.ptp.steps = (s.ptp.steps + 1) % 4294967296 ∧
      t.clock.shelf = (roundDiv (2 * ((s.shelfNs : Int) - s.ptp.offset).toNat) 5).toNat)

/-! ### Commits and writes that wait (chapter 1) -/

/-- A commit list is received with the seat's next ticket; the list at the head of the queue is refused with the first
reason that applies, or armed with its swap instant; a swap exchanges the listed banks and reports result 3 (R24, R25,
R30, R31). Until its instant, and between two common boundaries, an armed commit stays as it is (R20). -/
def Sys2Proof.CommitListsAreHandled : Prop :=
  (∀ (s : State) (h : Hdr) (e : Expect) (bs : List Byte), Admitted s h e 0x20F0 1 bs → 24 + bs.length ≤ limitOf h.host →
    ∃ t, Machine.exec (.commitList h e bs) s = .next t ∧ Accepted t h ∧
      t.commits.queue = s.commits.queue ++ [⟨h.seat, ((s.seat h.seat).ticket + 1) % 65536, bs⟩] ∧
      (t.seat h.seat).ticket = ((s.seat h.seat).ticket + 1) % 65536 ∧ (t.seat h.seat).result = 0) ∧
  (∀ (s : State) (l : CommitList) (rest : List CommitList), s.boot.phase ≠ .held → s.commits.armed = none →
    s.commits.queue = l :: rest → l.seat < 8 → (s.seat l.seat).ticket = l.ticket →
    ∃ t, Machine.exec .commitProcess s = .next t ∧ t.commits.queue = rest ∧ t.active = s.active ∧ t.staged = s.staged ∧
      (parseList l.octets = none → t.commits.armed = none ∧ (t.seat l.seat).result = 4 ∧ (t.seat l.seat).reason = 0x07) ∧
      (∀ ids reason b, parseList l.octets = some ids → s.validate (s.expandIds ids) = some (reason, b) →
        t.commits.armed = none ∧ (t.seat l.seat).result = 4 ∧ (t.seat l.seat).reason = reason ∧ (t.seat l.seat).failed = b) ∧
      (∀ ids, parseList l.octets = some ids → s.validate (s.expandIds ids) = none →
        t.commits.armed = some ⟨l, s.expandIds ids, s.swapInstant (s.expandIds ids), s.commonPeriod (s.expandIds ids)⟩ ∧ (t.seat l.seat).result = 2)) ∧
  (∀ (s : State) (a : ArmedCommit), s.boot.phase ≠ .held → s.commits.armed = some a → a.list.seat < 8 →
    (s.seat a.list.seat).ticket = a.list.ticket →
    (s.clock.grid < a.swapAt ∨ (s.clock.grid - a.swapAt) % a.period ≠ 0 →
      Machine.exec .commitSwap s = .next { s with out := [] }) ∧
    (a.swapAt ≤ s.clock.grid → (s.clock.grid - a.swapAt) % a.period = 0 →
      ∃ t, Machine.exec .commitSwap s = .next t ∧ t.commits.armed = none ∧ t.commits.held = [] ∧
        (t.seat a.list.seat).result = 3 ∧ t.active = s.merged a.blocks))

/-- A safe-set capture copies its content over the older copy, which is invalid until the capture is done and its CRC is
there (R39, R40). -/
def Sys2Proof.SafeSetIsCaptured : Prop :=
  (∀ (s : State) (h : Hdr) (e : Expect), AdmittedPut s h e (Family.safeSet.index 0 0) 2 1 → s.commits.armed = none →
    (∀ w, w < 16 → s.shadowOf (96 + w) = vget s.fuses.burned (96 + w) 0) →
    ∃ t c, Machine.exec (.safeSetCapture h e 1) s = .next t ∧ Accepted t h ∧ t.safeSet.writing = some s.safeSet.overA ∧
      t.safeSet.status = 1 ∧ c.banks = s.active ∧ c.cfg = s.cfg ∧ c.valid = false ∧
      (if s.safeSet.overA then t.safeSet.copyA = some c ∧ t.safeSet.copyB = s.safeSet.copyB
        else t.safeSet.copyB = some c ∧ t.safeSet.copyA = s.safeSet.copyA)) ∧
  (∀ (s : State) (toA : Bool) (c : SafeCopy), s.boot.phase ≠ .held → s.safeSet.writing = some toA →
    (if toA then s.safeSet.copyA else s.safeSet.copyB) = some c →
    ∃ t d, Machine.exec .safeSetCaptureDone s = .next t ∧ OnlyChanges [.sent, .safeSet] s t ∧ t.safeSet.writing = none ∧
      t.safeSet.status = 2 ∧ d.valid = true ∧ d.seq = c.seq ∧ d.banks = c.banks ∧ d.cfg = c.cfg ∧
      (if toA then t.safeSet.copyA = some d ∧ t.safeSet.copyB = s.safeSet.copyB
        else t.safeSet.copyB = some d ∧ t.safeSet.copyA = s.safeSet.copyA))

/-- Commit lists and the safe set: how a list is received, processed and swapped, and how a capture of the safe set is
taken and written.
Rests on choices of the model: assumptions 47, 48, 52, 55 and 130. -/
def Obligations.CommitsAndCaptures : Prop := CommitListsAreHandled ∧ SafeSetIsCaptured


/-- A due write of kind Mark is in force after its mark: a setting, a zone word in both banks of its feed, the signal list
of a capture; it waits no longer (R89, R213, R322). -/
def Sys2Proof.MarkWritesTakeEffect : Prop :=
  (∀ s : State, s.boot.phase ≠ .held →
    (∀ w ∈ s.commits.marks, ∃ x, object? w.index w.sub = some x ∧ x.fam ≠ .zone ∧ (x.fam = .capture → x.sub ≠ 2)) →
    ∃ t, Machine.exec .markWriteTakesEffect s = .next t ∧ t.active = s.active ∧ t.staged = s.staged ∧
      t.commits = { s.commits with marks := s.commits.marks.filter (fun w => !s.markPassed w.at') } ∧
      t.cfg = (s.commits.marks.filter (fun w => s.markPassed w.at')).foldl (fun c w =>
        match object? w.index w.sub with | some x => c.put x.fam x.unit x.sub w.value | none => c) s.cfg) ∧
  (∀ (s : State) (w : Waiting) (x : Obj), s.boot.phase ≠ .held →
    s.commits.marks.filter (fun w => s.markPassed w.at') = [w] → object? w.index w.sub = some x →
    ∃ t, Machine.exec .markWriteTakesEffect s = .next t ∧ w ∉ t.commits.marks ∧
      (x.fam = .zone → t.cfg = s.cfg ∧ t.active = s.active.put .zone x.unit 0 x.sub w.value ∧
        t.staged = s.staged.put .zone x.unit 0 x.sub w.value) ∧
      (x.fam = .capture → x.sub = 2 → x.unit < 8 → ∀ i, i < 32 →
        vget (vget t.cfg.captures x.unit {}).signals i 0 = w.list.getD i 0) ∧
      (x.fam ≠ .zone → (x.fam = .capture → x.sub ≠ 2) → t.cfg = s.cfg.put x.fam x.unit x.sub w.value))

/-- A due write of kind Tap is in force after the leader's next tap boundary (R141). -/
def Sys2Proof.TapWritesTakeEffect : Prop :=
  (∀ s : State, s.boot.phase ≠ .held →
    (∀ w ∈ s.commits.taps, ∃ x, object? w.index w.sub = some x ∧ x.fam = .flat) →
    ∃ t, Machine.exec .tapWriteTakesEffect s = .next t ∧ t.active = s.active ∧ t.staged = s.staged ∧
      t.commits = { s.commits with taps := s.commits.taps.filter (fun w => !decide (w.at' < s.flat.taps)) } ∧
      t.cfg = (s.commits.taps.filter (fun w => decide (w.at' < s.flat.taps))).foldl (fun c w =>
        match object? w.index w.sub with | some x => c.put x.fam x.unit x.sub w.value | none => c) s.cfg) ∧
  (∀ (s : State) (w : Waiting) (x : Obj), s.boot.phase ≠ .held →
    s.commits.taps.filter (fun w => decide (w.at' < s.flat.taps)) = [w] → object? w.index w.sub = some x → x.fam = .flat →
    ∃ t, Machine.exec .tapWriteTakesEffect s = .next t ∧ w ∉ t.commits.taps ∧
      t.cfg = s.cfg.put .flat x.unit x.sub w.value)

/-- A due immediate write is in force after its block's boundary; an inlet of a soak model is the model's from then on
(R23, R288). -/
def Sys2Proof.ImmediateWritesTakeEffect : Prop :=
  (∀ s : State, s.boot.phase ≠ .held →
    ∃ t, Machine.exec .immediateWriteApply s = .next t ∧ OnlyChanges [.sent, .active, .models, .commits] s t ∧
      t.commits = { s.commits with imm := s.commits.imm.filter (fun w => !s.boundaryPassed w) } ∧
      t.active = (s.commits.imm.filter s.boundaryPassed).foldl (fun b w =>
        match object? w.index w.sub with | some x => b.put x.fam x.unit x.off x.sub w.value | none => b) s.active) ∧
  (∀ (s : State) (w : Waiting) (x : Obj), s.boot.phase ≠ .held → s.commits.imm.filter s.boundaryPassed = [w] →
    object? w.index w.sub = some x →
    ∃ t, Machine.exec .immediateWriteApply s = .next t ∧ w ∉ t.commits.imm ∧
      t.active = s.active.put x.fam x.unit x.off x.sub w.value ∧ (x.fam ≠ .soakModel → t.models = s.models) ∧
      (x.fam = .soakModel → x.unit < 65 → ∀ at', (s.model x.unit).hostNew = some at' → (t.model x.unit).hostAt = some at'))

/-- Change records held by the hold-off: one whose hold-off has passed is written, with the time of its last write (R321). -/
def Sys2Proof.HeldChangesAreWritten : Prop :=
  (∀ s : State, s.boot.phase ≠ .held → s.fw = true →
    ∃ t, Machine.exec .changeHoldoffExpire s = .next t ∧ OnlyChanges [.sent, .score] s t ∧
      t.score.holds = s.score.holds.filter (fun h => !s.holdDue h) ++
        ((s.score.holds.filter s.holdDue).filter (fun h => h.count != 0)).map (fun h =>
          { h with count := 0, lastAt := s.clock.slots })) ∧
  (∀ (s : State) (h : ChangeHold), s.boot.phase ≠ .held → s.fw = true → s.score.stopped = false →
    s.score.holds.filter s.holdDue = [h] → h.count ≠ 0 →
    ∃ t r, Machine.exec .changeHoldoffExpire s = .next t ∧ t.score.recs = (r :: s.score.recs).take 65536 ∧
      r.kind = 4 ∧ r.seq = s.score.seq ∧ r.time = h.time ∧ r.episode = h.episode ∧
      r.payload.take 3 = leBytes 2 h.index ++ [BitVec.ofNat 8 h.sub])

/-- Writes that wait take effect in order of acceptance: settings of kind Mark at the first 100 µs mark after acceptance,
of kind Tap at the leader's next tap boundary, immediate fields at their block's next boundary (R23, R89, R141). Change
records held by the hold-off are written when it has passed (R321).
Rests on choices of the model: assumption 52. -/
def Obligations.WaitingWritesTakeEffect : Prop :=
  MarkWritesTakeEffect ∧ TapWritesTakeEffect ∧ ImmediateWritesTakeEffect ∧ HeldChangesAreWritten

/-! ### Loop groups, the engine and the irons (chapters 2 and 4) -/

/-- A request that a block raises, or that a host writes as the value `v` to the command object and that is admitted there. -/
def Sys2Proof.Raised (s : State) (o : Source) (f : Family) (unit off : Nat) (v : Int) : Prop :=
  match o with
  | .host h e => AdmittedPut s h e (f.index unit off) 1 v
  | .block => s.boot.phase ≠ .held

/-- The host that raised a request has its response; a block gets none. -/
def Sys2Proof.Reported (t : State) (o : Source) : Prop :=
  match o with
  | .host h _ => Accepted t h
  | .block => t.out = []

/-- Requests of a group are raised and wait for its next boundary, each with the slot in which it first arose (R62, R479). -/
def Sys2Proof.GroupRequestsComplete : Prop :=
  ∀ (s : State) (o : Source) (g : Nat), g < 32 →
    let only (t : State) : Prop := OnlyChanges [.sent, .seats, .t1s, .tts, .score, .groups] s t ∧
      (t.group g).phase = (s.group g).phase ∧ ∀ j, j ≠ g → t.group j = s.group j
    (Raised s o .loopGroup g 4 1 → s.lint.safe = false → s.groupHeld g = false → (s.group g).phase ≠ .latched →
      ((s.group g).phase = .fallback → s.fitsLanes = true) →
      ∃ t, Machine.exec (.groupStart o g) s = .next t ∧ Reported t o ∧ only t ∧
        (t.group g).startReq = some ((s.group g).startReq.getD s.clock.slots)) ∧
    (Raised s o .loopGroup g 4 2 →
      ∃ t, Machine.exec (.groupStop o g) s = .next t ∧ Reported t o ∧ only t ∧ (t.group g).thermalMark = false ∧
        (t.group g).stopReq = some ((s.group g).stopReq.getD s.clock.slots)) ∧
    (Raised s o .loopGroup g 4 3 →
      ∃ t, Machine.exec (.groupClear o g) s = .next t ∧ Reported t o ∧ only t ∧ (t.group g).thermalMark = false ∧
        (t.group g).clearReq = some ((s.group g).clearReq.getD s.clock.slots))

/-- A sample boundary takes the requests that arose before it (Table 02-3): a stop first, which leaves the group stopped with
a stop symbol due on every port and drops a start that waits with it; a start of a stopped group enters soft start with the
retry count at 0, and the boundary is its first sample, which may complete it; a clear takes a latched group to Stopped. G off
the group's rate is no boundary of it (R22). -/
def Sys2Proof.BoundariesTakeRequests : Prop :=
  ∀ (s : State) (g : Nat) (x : SampleIn), g < 32 → s.boot.phase ≠ .held →
    (s.onGrid (s.groupB g).k = false → Machine.exec (.groupSample g x) s = .next { s with out := [] }) ∧
    (s.onGrid (s.groupB g).k = true → s.due (s.group g).fallReq = false →
      (s.due (s.group g).stopReq = true →
        (s.group g).phase = .softStart ∨ (s.group g).phase = .run ∨ (s.group g).phase = .fallback →
        ∃ t, Machine.exec (.groupSample g x) s = .next t ∧ (t.group g).phase = .stopped ∧ (t.group g).winner = 255 ∧
          (t.group g).stopReq = none ∧ (s.due (s.group g).startReq = true → (t.group g).startReq = none) ∧
          (∀ p ∈ s.portsOf g, p < 48 → (t.port p).stopDue = true ∧ (t.port p).cmd = none) ∧
          ∀ j, j ≠ g → (t.group j).phase = (s.group j).phase) ∧
      (s.due (s.group g).stopReq = false → s.due (s.group g).startReq = true → (s.group g).phase = .stopped →
        s.lint.safe = false → s.groupHeld g = false → s.startHeld g = false → x.residues = [] → x.selector = false →
        (s.chan (s.poolPrimary g)).pool.at? ≠ some s.clock.grid → 0 < (s.groupB g).core.ssTimeout →
        ∃ t, Machine.exec (.groupSample g x) s = .next t ∧ ((t.group g).phase = .softStart ∨ (t.group g).phase = .run) ∧
          ((∀ p ∈ s.portsOf g, (s.port p).link ≠ .trained ∧ (s.port p).link ≠ .lost) → (t.group g).phase = .softStart) ∧
          (t.group g).ssFrom = s.clock.slots ∧ (t.group g).retry = 0 ∧ (t.group g).startReq = none) ∧
      (s.due (s.group g).stopReq = false → s.due (s.group g).startReq = false → s.due (s.group g).clearReq = true →
        (s.group g).phase = .latched →
        ∃ t, Machine.exec (.groupSample g x) s = .next t ∧ (t.group g).phase = .stopped ∧ (t.group g).retry = 0 ∧
          (t.group g).clearReq = none))

/-- A cause waits for its registration at the next lint boundary (R302). -/
def Sys2Proof.Registers (t : State) (src cause : Nat) : Prop :=
  ∃ d ∈ t.lint.detected, d.src = src ∧ d.cause = cause ∧ d.at' = t.clock.slots

/-- Soft start that has not reached 90 % of its target at SS_TIMEOUT ends: in Retry wait while retries are left, latched
otherwise; the retry interval starts it again (Table 02-3). -/
def Sys2Proof.SoftStartTimesOut : Prop :=
  (∀ (s : State) (g : Nat), g < 32 → s.boot.phase ≠ .held → s.onGrid (s.groupB g).k = true →
    (s.group g).phase = .softStart → (s.groupB g).core.ssTimeout ≤ elapsedUs s (s.group g).ssFrom → s.softStartOk g = false →
    ∃ t, Machine.exec (.softStartTimeout g) s = .next t ∧ OnlyChanges [.sent, .groups, .ports, .lint] s t ∧
      (∀ p ∈ s.portsOf g, p < 48 → (t.port p).stopDue = true ∧ (t.port p).cmd = none) ∧
      if (s.group g).retry < (s.groupB g).core.retryMax then
        (t.group g).phase = .retryWait ∧ (t.group g).retry = (s.group g).retry + 1 ∧
          (t.group g).retryFrom = s.clock.slots ∧ Registers t (srcGroupStart g) 0
      else (t.group g).phase = .latched ∧ Registers t (srcGroupStart g) 1) ∧
  (∀ (s : State) (g : Nat), g < 32 → s.boot.phase ≠ .held → s.onGrid (s.groupB g).k = true →
    (s.group g).phase = .retryWait → (s.groupB g).core.retryInterval ≤ elapsedUs s (s.group g).retryFrom →
    ∃ t, Machine.exec (.groupRetryTimer g) s = .next t ∧ (t.group g).phase = .softStart ∧
      (t.group g).ssFrom = s.clock.slots ∧ (t.group g).retry = (s.group g).retry)

/-- Table 02-3: start, stop and clear of a group are raised at once and act at its next boundary; soft start ends at its
timeout in Retry wait or latched, and the retry timer starts it again. Rests on choices of the model: assumptions 4, 5 and
118. -/
def Obligations.GroupsStartAndStop : Prop := GroupRequestsComplete ∧ BoundariesTakeRequests ∧ SoftStartTimesOut


/-- One sample, at its boundary, of a running group whose engine shows no error and no other member of whose pool has been
sampled at this instant: with a live port, every port that is not out of the group
gets its command words for the next slot; without one, the group has no winner. A group in neither soft start nor run
gives its ports no command (R45, R62, R178). -/
def Sys2Proof.SamplesCommandTheirPorts : Prop :=
  ∀ (s : State) (g : Nat) (x : SampleIn), g < 32 → s.boot.phase ≠ .held → x.residues = [] → x.selector = false →
    x.irons.residues = [] → x.irons.taps = [] → s.onGrid (s.groupB g).k = true → s.due (s.group g).startReq = false →
    s.due (s.group g).stopReq = false → s.due (s.group g).clearReq = false → s.due (s.group g).fallReq = false →
    ((s.group g).phase = .run → s.livePorts g ≠ [] →
      (s.chan (s.poolPrimary g)).pool.at? ≠ some s.clock.grid →
      ∃ t, Machine.exec (.groupSample g x) s = .next t ∧ (t.group g).phase = .run ∧ (t.group g).sampled = true ∧
        (t.group g).strikes = 0 ∧
        ∀ p ∈ s.portsOf g, p < 48 → (s.port p).out = false → ∃ ws, (t.port p).cmd = some (s.clock.grid + 1, ws) ∧ ws.length = 4) ∧
    ((s.group g).phase = .run → s.livePorts g = [] →
      ∃ t, Machine.exec (.groupSample g x) s = .next t ∧ (t.group g).phase = .run ∧ (t.group g).winner = 255 ∧
        ∀ p, (t.port p).cmd = (s.port p).cmd ∧ (t.port p).stopDue = (s.port p).stopDue) ∧
    ((s.group g).phase = .stopped ∨ (s.group g).phase = .fallback ∨ (s.group g).phase = .latched →
      ∃ t, Machine.exec (.groupSample g x) s = .next t ∧ (t.group g).phase = (s.group g).phase ∧
        ∀ p, (t.port p).cmd = (s.port p).cmd ∧ (t.port p).stopDue = (s.port p).stopDue)

/-- A channel that a sample of a group evaluates: a competing channel, or the enabled primary of a group that shares no pool
(R45, R54, R188). -/
def Sys2Proof.Evaluates (s : State) (g c : Nat) : Prop :=
  (c ∈ s.competitors g ∧ c ≠ s.poolPrimary g) ∨ (c = s.poolPrimary g ∧ s.poolOf g = [g] ∧ (s.chanB c).en = true)

/-- The values of a sample of a running group without irons and strings, whose engine shows no error and which no takeover, cap
restart or change of the primary meets: the ramp of every channel that it evaluates moves by its slew toward its target; the
error, the difference equation and the clamp give its proposal; the lowest proposal is the selected output; each channel
stores its error and its tracked output; and the code of every port is the selected output plus its trim and the feed-forward
term, rounded and clamped (R48 to R52, R54, R55, R58, R60). -/
def Sys2Proof.ChannelsFollowTheirEquation : Prop :=
  ∀ (s : State) (g : Nat) (x : SampleIn), g < 32 → s.boot.phase ≠ .held → x.residues = [] → x.selector = false →
    s.onGrid (s.groupB g).k = true → s.due (s.group g).startReq = false → s.due (s.group g).stopReq = false →
    s.due (s.group g).clearReq = false → s.due (s.group g).fallReq = false → (s.group g).phase = .run →
    s.livePorts g ≠ [] → (s.chan (s.poolPrimary g)).pool.at? ≠ some s.clock.grid →
    (∀ i, i < 16 → s.ironGroup i ≠ g ∧ (s.ironB i).target ≠ s.poolPrimary g) → s.stringOf g = none →
    (∀ m ∈ s.poolOf g, (s.group m).takeoverDue = false) → (s.group g).downCount = 0 →
    (s.group g).served = 255 ∨ (s.group g).served = s.poolPrimary g →
    ∃ t, Machine.exec (.groupSample g x) s = .next t ∧
      (∀ c, Evaluates s g c → c < 128 → (s.chan c).fresh = false → (s.chanB c).kind = 0 →
        (srcKind (s.chanB c).src = 3 → srcNum (s.chanB c).src < 32) →
        let b := s.chanB c
        let old := s.chan c
        let new := t.chan c
        let u := clampOut b (rawOutput b old.pre new.e 0)
        new.y = s.measure c (s.groupB g).k (if c = s.poolPrimary g then [g] else []) x.natives ∧
        new.ramp = rampMove old.ramp (65536 * old.goal b) b.slew (s.groupB g).k ∧
        new.e = errQ23 new.ramp new.y b.inFs b.inv ∧
        new.h = old.h.shift new.e (trackOut b u (t.group g).s (s.groupB g).core.trackMargin) ∧ new.pre = preTerms b new.h ∧
        new.strikes = 0 ∧ new.held = false ∧
        (t.group g).s ≤ u ∧ ((t.group g).winner = c → (t.group g).s = u)) ∧
      ∀ p ∈ s.portsOf g, p < 48 → (s.port p).out = false →
        (t.port p).code = commandCode ((t.group g).s + (if (s.shareChan g).isSome then t.trimOf g p else 0) + (t.group g).f)
          (s.groupB g).core.cmdLo (s.groupB g).core.cmdHi ∧
        (t.port p).cmd = some (s.clock.grid + 1, t.commandWords g p (t.port p).code)

/-- A sample of a group gives its ports their command words (R45, R62, R178), from the values that the compensators, the ramps
and the selection give (R48 to R52, R58 to R60). -/
def Obligations.GroupSampleCommandsItsPorts : Prop := SamplesCommandTheirPorts ∧ ChannelsFollowTheirEquation

/-- The selected output of a sample is the lowest proposal, and its winner the lowest-numbered channel that makes it. -/
def Sys2Proof.LowestProposalWins : Prop :=
  ∀ us : List (Nat × Int), us ≠ [] →
    ∃ c u, State.lowBall us = some (c, u) ∧ (c, u) ∈ us ∧ ∀ d v, (d, v) ∈ us → u ≤ v ∧ (u = v → c ≤ d)

/-- After selection every enabled competing channel stores max(U_MIN, min(u, s + TRACK_MARGIN)): the winner stores s, and
a loser no more than TRACK_MARGIN above s where its U_MIN allows it (R55). -/
def Sys2Proof.LosersTrackTheWinner : Prop :=
  ∀ (b : ChannelBank) (u s margin : Int), b.uMin ≤ u → s ≤ u → 0 ≤ margin →
    (trackOut b s s margin = s ∨ s < b.uMin) ∧ (b.uMin ≤ s + margin → trackOut b u s margin ≤ s + margin) ∧
    b.uMin ≤ trackOut b u s margin ∧ trackOut b u s margin ≤ u

/-- The selected output is the lowest proposal of the lowest-numbered channel that makes it, and after selection no
loser is left more than TRACK_MARGIN above it (R54, R55). -/
def Obligations.SelectionAndTracking : Prop := LowestProposalWins ∧ LosersTrackTheWinner


/-- Slow supervision of the engine: a failed test vector retires a spare lane that carries no work, and moves none
(R72); a trim or a lock state at a limit for 10 ms is reported (R187, R105); a lock resumes after LOCK_RESUME quiet
samples (R104); a derate channel that has lost for 10 ms lets its ports count again (R296).
Rests on choices of the model: assumption 43. -/
def Obligations.EngineSupervision : Prop :=
  (∀ s : State, s.boot.phase ≠ .held → s.engine.carried = 255 → bitAt s.engine.retired 16 = false →
    (∃ t, Machine.exec (.spareLaneTest false) s = .next t ∧ bitAt t.engine.retired 16 = true ∧ t.engine.carried = 255 ∧
      Registers t (srcLane 16) 1 ∧ OnlyChanges [.sent, .engine, .lint] s t) ∧
    Machine.exec (.spareLaneTest true) s = .next { s with out := [] }) ∧
  (∀ (s : State) (p since : Nat), s.boot.phase ≠ .held → (s.port p).share.limFrom = some since →
    (10000 ≤ elapsedUs s since → s.counts (s.portB p).group p = true →
      ∃ t, Machine.exec (.shareTrimAtLimit p) s = .next t ∧ OnlyChanges [.sent, .lint] s t ∧
        Registers t (srcGroupLock (s.portB p).group) 1) ∧
    (elapsedUs s since < 10000 → Machine.exec (.shareTrimAtLimit p) s = .next { s with out := [] })) ∧
  (∀ (s : State) (p k since : Nat), s.boot.phase ≠ .held → k < 4 → (vget (s.port p).locks k {}).limFrom = some since →
    (10000 ≤ elapsedUs s since →
      ∃ t, Machine.exec (.lockAtLimit p k) s = .next t ∧ OnlyChanges [.sent, .lint] s t ∧
        Registers t (srcGroupLock (s.portB p).group) 0) ∧
    (elapsedUs s since < 10000 → Machine.exec (.lockAtLimit p k) s = .next { s with out := [] })) ∧
  (∀ (s : State) (g : Nat), g < 32 → s.boot.phase ≠ .held →
    ((s.groupB g).modul.lockResume ≤ (s.group g).lock.quiet →
      ∃ t, Machine.exec (.lockResume g) s = .next t ∧ OnlyChanges [.sent, .groups] s t ∧
        t.group g = { s.group g with lock := { (s.group g).lock with suspended := false } } ∧
        ∀ j, j ≠ g → t.group j = s.group j) ∧
    ((s.group g).lock.quiet < (s.groupB g).modul.lockResume →
      Machine.exec (.lockResume g) s = .next { s with out := [] })) ∧
  (∀ (s : State) (g c since : Nat), s.boot.phase ≠ .held → c ∈ s.chansOf g → (s.chan c).lostFrom = some since →
    (s.chan c).derating = true →
    ∃ t, Machine.exec (.derateRelease g) s = .next t ∧ OnlyChanges [.sent, .chans] s t ∧
      (10000 ≤ elapsedUs s since → t.chan c = { s.chan c with derating := false, lostFrom := none }) ∧
      (elapsedUs s since < 10000 → t.chan c = s.chan c) ∧ ∀ j, j ∉ s.chansOf g → t.chan j = s.chan j)

/-- Iron commands wait for the next sample boundary of the iron's group: there the memory is cleared (1), and a frozen iron is
released with its memory cleared (2); an iron whose target is in no group takes its command at once. A period candidate with
a peak of at least 0.8 that lies within 0.5 % of the two before it is taken over, any other joins the candidates (Table 04-1,
R131, R133, R369, R479).
Rests on choices of the model: assumptions 24 and 57. -/
def Obligations.IronCommandsComplete : Prop :=
  (∀ (s : State) (o : Source) (i : Nat), i < 16 →
    (Raised s o .iron i 2 1 →
      ∃ t, Machine.exec (.ironClearMemory o i) s = .next t ∧ Reported t o ∧ (∀ j, j ≠ i → t.iron j = s.iron j) ∧
        if s.ironGroup i < 32 then t.iron i = { s.iron i with clearReq := some ((s.iron i).clearReq.getD s.clock.slots) }
        else t.iron i = { s.iron i with mem := [], snap := [], sum := 0, count := 0 }) ∧
    (Raised s o .iron i 2 2 →
      ∃ t, Machine.exec (.ironRelease o i) s = .next t ∧ Reported t o ∧ (∀ j, j ≠ i → t.iron j = s.iron j) ∧
        if s.ironGroup i < 32 then t.iron i = { s.iron i with releaseReq := some ((s.iron i).releaseReq.getD s.clock.slots) }
        else (s.iron i).phase = .frozen → (t.iron i).phase = .idle ∧ (t.iron i).w = 0 ∧ (t.iron i).mem = [])) ∧
  (∀ (s : State) (x : SampleIn) (i : Nat), i < 16 → s.ironGroup i < 32 → s.boot.phase ≠ .held → x.irons.taps = [] →
    s.onGrid (s.groupB (s.ironGroup i)).k = true →
    (s.due (s.iron i).clearReq = true →
      ∃ t, Machine.exec (.groupSample (s.ironGroup i) x) s = .next t ∧ (t.iron i).clearReq = none ∧ (t.iron i).mem = [] ∧
        (t.iron i).snap = []) ∧
    (s.due (s.iron i).releaseReq = true → (s.iron i).phase = .frozen →
      ∃ t, Machine.exec (.groupSample (s.ironGroup i) x) s = .next t ∧ (t.iron i).releaseReq = none ∧ (t.iron i).mem = [] ∧
        (x.irons.residues = [] → (s.ironB i).function ≠ 2 → (t.iron i).phase ≠ .frozen))) ∧
  (∀ (s : State) (i candidate peak a b : Nat), i < 16 → s.boot.phase ≠ .held → s.fw = true → (s.ironB i).psrc = 1 →
    (s.ironB i).estMin ≤ candidate → candidate ≤ (s.ironB i).estMax → (s.iron i).cands = [a, b] →
    ∃ t, Machine.exec (.ironPeriodEstimate i candidate peak) s = .next t ∧ OnlyChanges [.sent, .irons] s t ∧
      (t.iron i).cands = [candidate, a] ∧
      (t.iron i).estimate =
        if 800 ≤ peak ∧ 200 * (max a candidate - min a candidate) ≤ a ∧ 200 * (max b candidate - min b candidate) ≤ b
        then candidate else (s.iron i).estimate)

/-! ### Input loss and the shelf (chapters 5 and 6) -/

/-- Input loss is cleared when the down fraction has been 0 for INPUT_QUAL, and support mode ends when its exit condition
has lasted SUPPORT_EXIT: the charge channel then starts from the group's output, and
every running member of the share pool leaves support mode with it (R193, R225). -/
def Obligations.InputLossEnds : Prop :=
  (∀ (s : State) (since : Nat), s.boot.phase ≠ .held → s.shelf.loss.declared = true → s.shelf.loss.zeroFrom = some since →
    s.cfg.loss.inputQual ≤ elapsedUs s since →
    ∃ t, Machine.exec .inputLossClear s = .next t ∧ OnlyChanges [.sent, .chans, .groups, .shelf] s t ∧
      t.shelf.loss.declared = false ∧ t.shelf.loss.count = s.shelf.loss.count ∧
      ∀ g ∈ s.batteryGroups, (t.group g).takeoverDue = false ∧
        ∀ c ∈ s.chansOf g, (s.chan c).excluded = true → (t.chan c).excluded = false ∧ (t.chan c).fresh = true) ∧
  (∀ (s : State) (g k : Nat), g < 32 → s.boot.phase ≠ .held → s.stringCtrl g = some k → s.supportOver g k = true →
    (s.strB k).chargeCh < 128 → g ∈ s.poolOf g →
    (∀ m ∈ s.poolOf g, m ≠ g → ∀ j, s.stringCtrl m = some j → (s.strB j).chargeCh ≠ (s.strB k).chargeCh) →
    ∃ t, Machine.exec (.supportModeExit g) s = .next t ∧ OnlyChanges [.sent, .chans, .groups] s t ∧
      (t.group g).support = false ∧ (t.group g).exitFrom = none ∧
      (∀ m ∈ s.poolOf g, s.evaluated m = true → (t.group m).support = false) ∧
      (t.chan (s.strB k).chargeCh).fresh = true ∧ (t.chan (s.strB k).chargeCh).fill = some (s.group g).s)

/-- The rows of the shed sequencer (Table 06-3): at its tick, and when the wait of its state has passed. The shed step is asked
of the feeds of its rank, which take it at their next tick (R205, R256, R479). -/
def Obligations.ShedSequencerFollowsItsTable : Prop :=
  ∀ s : State, s.boot.phase ≠ .held →
    (s.shelf.shed.phase = .idle → s.shelf.loss.declared = true →
      ∃ t, Machine.exec .shedSequencerTick s = .next t ∧ t.shelf.shed = { s.shelf.shed with phase := .watch, since := s.clock.slots }) ∧
    (s.shelf.shed.phase = .watch → s.lossHigh = true → s.busLow = true → s.nextRank.isSome = true →
      ∃ t, Machine.exec .shedSequencerTick s = .next t ∧ t.shelf.shed = { s.shelf.shed with phase := .dwell, since := s.clock.slots }) ∧
    (s.lossHigh = false → s.shelf.shed.phase = .watch ∨ s.shelf.shed.phase = .dwell ∨ s.shelf.shed.phase = .warn ∨ s.shelf.shed.phase = .gap →
      ∃ t, Machine.exec .shedSequencerTick s = .next t ∧ t.shelf.shed = { s.shelf.shed with phase := .paused, since := s.clock.slots }) ∧
    (∀ c r, c = Instr.shedSequencerTick ∨ c = .shedDwellExpire → s.shelf.shed.phase = .dwell → s.lossHigh = true →
      s.busLow = true → s.shedWaited s.cfg.shed.shedDwell = true → s.nextRank = some r →
      ∃ t, Machine.exec c s = .next t ∧ t.shelf.shed = { phase := .warn, since := s.clock.slots, rank := r } ∧
        ∀ z, z < 16 → s.shedRank z = r → s.shedOn z = true → (s.feed z).shed = false →
          (t.feed z).thr.warned = true ∧ (t.feed z).thr.active = true) ∧
    (∀ c, c = Instr.shedSequencerTick ∨ c = .shedWarnExpire → s.shelf.shed.phase = .warn → s.lossHigh = true →
      s.shedWaited s.cfg.shed.shedWarn = true →
      ∃ t, Machine.exec c s = .next t ∧ t.shelf.shed = { s.shelf.shed with phase := .gap, since := s.clock.slots } ∧
        ∀ z, z < 16 → (t.feed z).thr.warned = false ∧
          (t.feed z).phase = (s.feed z).phase ∧ (s.shedRank z = s.shelf.shed.rank → s.shedOn z = true →
            (t.feed z).shedReq = some ((s.feed z).shedReq.getD s.clock.slots))) ∧
    (∀ c, c = Instr.shedSequencerTick ∨ c = .shedGapExpire → s.shelf.shed.phase = .gap → s.lossHigh = true →
      s.shedWaited s.cfg.shed.shedGap = true →
      ∃ t, Machine.exec c s = .next t ∧ t.shelf.shed = { s.shelf.shed with phase := .watch, since := s.clock.slots } ∧ t.feeds = s.feeds) ∧
    (∀ c r, (c = Instr.shedSequencerTick ∧ s.shelf.shed.phase = .paused ∧ s.shelf.loss.declared = false) ∨
        ((c = .shedSequencerTick ∨ c = .restoreGapExpire) ∧ s.shelf.shed.phase = .restoring ∧
          s.shedWaited s.cfg.shed.restoreGap = true) →
      s.lossHigh = false → s.topShed = some r →
      ∃ t, Machine.exec c s = .next t ∧ t.shelf.shed = { s.shelf.shed with phase := .restoring, since := s.clock.slots } ∧
        ∀ z, z < 16 → s.shedRank z = r → (s.feed z).shed = true →
          (t.feed z).shed = false ∧ (t.feed z).startReq =
            (if s.feedHeld z || s.lint.safe then none else some ((s.feed z).startReq.getD s.clock.slots)))

/-- The 1 ms cap tick computes the effective cap as the least of the fused ceiling, the seats' requests and the thermal
caps; every 10 ms the zones get their grants; the hang time is published; FDn_THR is released when nothing holds it and
10 ms have passed (R201, R208, R212, R213). A feed that is on gets the share of the zone budget that its weight has among the
feeds that are on, up to its zone's cap.
Rests on choices of the model: assumptions 4, 37, 70 and 71. -/
def Obligations.CapsAndGrantsAreComputed : Prop :=
  ∀ s : State, s.boot.phase ≠ .held →
    (s.fw = true → s.onGrid 2000 = true →
      ∃ t, Machine.exec .capTick s = .next t ∧ OnlyChanges [.sent, .staged, .shelf, .commits] s t ∧
      t.shelf.caps.cEff = min (s.capCeiling : Int) (min (State.minInt s.cfg.capShelf.toList)
        (State.minInt (allModels.map (fun m => (s.model m).cap)))) ∧ t.shelf.caps.cEff ≤ s.capCeiling) ∧
    (s.fw = false → s.onGrid 2000 = true →
      ∃ t, Machine.exec .capTick s = .next t ∧ t.shelf.caps = s.shelf.caps ∧
        t.shelf.power.head? = some { bus := s.busLoad, inp := s.shelfInput, rect := s.rectOut
                                     zone := sumInt (allFeeds.map (fun z => (s.feed z).rd.meanP)), cap := s.shelf.caps.cEff }) ∧
    (s.onGrid 2000 = false → Machine.exec .capTick s = .next { s with out := [] }) ∧
    (s.fw = true → ∃ t, Machine.exec .zoneGrant s = .next t ∧ OnlyChanges [.sent, .shelf, .feeds] s t ∧
      t.shelf.caps.budget = s.zoneBudget ∧ ∀ z, z < 16 →
        (t.feed z).phase = (s.feed z).phase ∧
        ((s.feedB z).zone.grantWeight = 0 → (t.feed z).grant = s.zoneCap z) ∧
        ((s.feedB z).zone.grantWeight ≠ 0 → (s.feed z).phase ≠ .on → (t.feed z).grant = 0) ∧
        ((s.feedB z).zone.grantWeight ≠ 0 → (s.feed z).phase = .on → (t.feed z).grant =
          min (s.zoneCap z) (roundDiv (s.zoneBudget * ((s.feedB z).zone.grantWeight : Int))
            ((((allFeeds.filter (fun j => (s.feed j).phase == .on)).map (fun j => (s.feedB j).zone.grantWeight)).sum : Nat) : Int)))) ∧
    (s.fw = false → ∃ t, Machine.exec .hangTimePublish s = .next t ∧ OnlyChanges [.sent, .shelf] s t ∧
      t.shelf.hang = { s.shelf.hang with hang := 0 }) ∧
    (s.fw = true →
      let p := s.meanOver s.hangWindow (·.bus)
      let rated := sumInt ((s.batteryGroups.filter s.hotStandby).map (fun g => (s.groupB g).share.ratedP))
      ∃ t, Machine.exec .hangTimePublish s = .next t ∧ OnlyChanges [.sent, .shelf] s t ∧
        t.shelf.hang.window = s.hangWindow ∧ t.shelf.hang.pAvg = p ∧
        t.shelf.hang.energy = roundDiv s.hangSum 10000000000 ∧
        (p ≤ 0 → t.shelf.hang.hang = 0xFFFFFFFF ∧ t.shelf.hang.short = false) ∧
        (0 < p → rated < p → t.shelf.hang.hang = 0 ∧ t.shelf.hang.short = true) ∧
        (0 < p → p ≤ rated → t.shelf.hang.short = false ∧ t.shelf.hang.hang =
          min 0xFFFFFFFE (roundDiv (s.cfg.hang.htEff * s.hangSum * 1000) (4194304 * 10000000000 * p)).toNat)) ∧
    (∀ z, z < 16 → s.overGrant z = false → (s.feed z).thr.warned = false →
      (s.feed z).phase ≠ .retryWait → (s.feed z).phase ≠ .latched →
      s.feedThrottled z = false → (s.feedB z).zone.thrForce = false →
      ∃ t, Machine.exec (.thrHoldExpire z) s = .next t ∧ OnlyChanges [.sent, .feeds] s t ∧ (t.feed z).thr.reasons = 0 ∧
        (10000 ≤ elapsedUs s (s.feed z).thr.since → (t.feed z).thr.active = false) ∧
        (elapsedUs s (s.feed z).thr.since < 10000 → (t.feed z).thr.active = (s.feed z).thr.active) ∧
        ∀ j, j ≠ z → t.feed j = s.feed j)

/-! ### Sense inputs, detectors and the timebase (chapters 3 and 6) -/

/-- A conversion of SNn scales its code to the reading y = round(code × 2,500 / 32,768 × DIV / 1,000) + OFFSET, in mV;
channels of kind 1 read this value; the sense input objects are at index 0x5040 + n. -/
def Obligations.ConversionScalesItsCode : Prop :=
  ∀ (s : State) (n : Nat) (code : Int), n < 32 → s.boot.phase ≠ .held →
    ∃ t, Machine.exec (.senseConversion n code) s = .next t ∧ OnlyChanges [.sent, .senses, .dets, .shelf, .models, .lint] s t ∧
      (t.sense n).code = code ∧
      (t.sense n).y = roundDiv (code * 2500 * (s.senseC n).div) (32768 * 1000) + (s.senseC n).offset ∧
      (∀ src k natives held, srcKind src = 1 → srcNum src = n → sourceValue t src k natives held = (t.sense n).y) ∧
      Family.sense.index n 0 = 0x5040 + n ∧
      (∀ j, j ≠ n → t.sense j = s.sense j) ∧ ∀ j, j ≠ n → t.det j = s.det j

/-- The excursion record (R199) and the press detectors (R111, R115 to R118): an episode closes after 10 ms inside the
window, and a host's clear starts the record anew; an armed detector whose qualifier is true fires and asks its set for a
launch, which is suppressed and counted within the hold-off after the last one or beyond the limit of an open burst, and
otherwise puts the press symbol on every trained port of the set whose group is in run, suspends their locks and sets the lint
bit; a fired one arms again; a burst closes 10 ms after its last launch.
Rests on choices of the model: assumptions 4 and 148. -/
def Obligations.PressDetectorsAct : Prop :=
  (∀ s : State, s.boot.phase ≠ .held → s.shelf.exc.opn = true → 10000 ≤ elapsedUs s s.shelf.exc.lastAt →
    ∃ t, Machine.exec .excursionEpisodeClose s = .next t ∧ OnlyChanges [.sent, .shelf] s t ∧
      t.shelf.exc = { s.shelf.exc with opn := false }) ∧
  (∀ (s : State) (h : Hdr) (e : Expect), AdmittedPut s h e (Family.bus.index 0 0) 9 1 →
    ∃ t, Machine.exec (.excursionClear h e) s = .next t ∧ Accepted t h ∧ t.shelf.exc.largest = 0 ∧ t.shelf.exc.episodes = 0 ∧
      t.shelf.exc.opn = s.shelf.exc.opn) ∧
  (∀ (s : State) (n : Nat), n < 8 → s.boot.phase ≠ .held → (s.det n).phase = .armed → (s.detC n).en = true →
    (s.det n).qualifier = true → (s.detC n).set < 4 →
    let k := (s.detC n).set
    let c := s.psetC k
    let r := s.press k
    let near := ∃ last, r.lastAt = some last ∧ elapsedUs s last < c.holdoff
    let full := r.burstOpen = true ∧ c.burstMax ≤ r.burst
    let count := if r.burstOpen then r.burst + 1 else 1
    ∃ t, Machine.exec (.pressDetectorTrip n) s = .next t ∧ (t.det n).phase = .fired ∧
      (t.det n).triggers = (s.det n).triggers + 1 ∧ (∀ j, j ≠ n → t.det j = s.det j) ∧ (∀ j, j ≠ k → t.press j = s.press j) ∧
      (near ∨ full → t.press k = { r with suppressed := r.suppressed + 1 } ∧ OnlyChanges [.sent, .dets, .presses] s t) ∧
      (¬ near → ¬ full → t.press k = { r with launches := r.launches + 1, burst := count, burstOpen := true
                                              lastAt := some s.clock.slots, lastShelf := s.shelfNs } ∧
        (∀ p, p < 48 → (p ∈ s.pressPorts k → (t.port p).txPress = ((s.port p).tx != .stop) ∧
            (t.group (s.portB p).group).lock.suspended = true) ∧
          (p ∉ s.pressPorts k → (t.port p).txPress = (s.port p).txPress)) ∧
        Registers t (srcPress k) 0 ∧ (count = c.burstMax → Registers t (srcPress k) 1))) ∧
  (∀ (s : State) (n since : Nat), n < 8 → s.boot.phase ≠ .held → (s.det n).phase = .fired → (s.detC n).en = true →
    (s.det n).aboveFrom = some since → 2 ≤ s.clock.slots - since →
    ∃ t, Machine.exec (.detectorRearm n) s = .next t ∧ OnlyChanges [.sent, .dets] s t ∧ (t.det n).phase = .armed) ∧
  (∀ (s : State) (k last : Nat), k < 4 → s.boot.phase ≠ .held → (s.press k).burstOpen = true →
    (s.press k).lastAt = some last → 10000 ≤ elapsedUs s last →
    ∃ t, Machine.exec (.pressBurstClose k) s = .next t ∧ OnlyChanges [.sent, .presses] s t ∧
      (t.press k).burstOpen = false ∧ (t.press k).burst = 0)

/-- The timebase (Table 03-1, R83 to R88): a valid edge of SYNCIN starts Acquiring, 64 close ones lock it, four slips undo the
lock; loss of SYNCIN leads to Holdover, SYNC_HOLD to Gliding, a rate of 0 to Free; and no edge moves the rate by more than 50
ppm per millisecond since the last, or beyond ±100 ppm. An edge of the other polarity only gives its own stamp. SYNC_MODE 0
leads to Gliding, at the next row or when the setting takes effect, and a change of SYNCIN_DIV, SYNCIN_POL or SYNC_OFFSET
takes a locked timebase back to Acquiring. SYNCOUT rises at its offset after a multiple of SYNCOUT_DIV, falls half a period
later, and is low without SYNCOUT_EN and while the links do not run (Table 16-4). Rests on choices of the model: assumption
36. -/
def Obligations.TimebaseFollowsItsTable : Prop :=
  (∀ (s : State) (falling : Bool) (sub : Nat), s.boot.phase ≠ .held →
    ∃ t, Machine.exec (.syncinEdge falling sub) s = .next t ∧ OnlyChanges [.sent, .tb, .lint, .draws] s t ∧
      (falling ≠ s.cfg.timebase.syncinPol →
        t.tb = if falling then { s.tb with lastFall := some (s.clock.up * 2500 + sub) }
               else { s.tb with lastRise := some (s.clock.up * 2500 + sub) }) ∧
      (if falling then t.tb.lastFall = some (s.clock.up * 2500 + sub) ∧ t.tb.lastRise = s.tb.lastRise
       else t.tb.lastRise = some (s.clock.up * 2500 + sub) ∧ t.tb.lastFall = s.tb.lastFall) ∧
      (-100000 ≤ s.tb.rho → s.tb.rho ≤ 100000 → -100000 ≤ t.tb.rho ∧ t.tb.rho ≤ 100000) ∧
      t.tb.rho - s.tb.rho ≤ ((s.clock.up - s.tb.steeredAt : Nat) : Int) * 50000 / 400000 ∧
      s.tb.rho - t.tb.rho ≤ ((s.clock.up - s.tb.steeredAt : Nat) : Int) * 50000 / 400000 ∧
      (∀ last, falling = s.cfg.timebase.syncinPol → (if falling then s.tb.lastFall else s.tb.lastRise) = some last →
        (s.edgeValid (s.clock.up * 2500 + sub - last) = false → t.tb.phase = s.tb.phase ∧ t.tb.validRun = 0 ∧ t.tb.rho = s.tb.rho) ∧
        (s.edgeValid (s.clock.up * 2500 + sub - last) = true → s.cfg.timebase.syncMode = true →
          (s.tb.phase = .free → t.tb.phase = .acquiring) ∧
          (s.tb.phase = .acquiring → 63 ≤ s.tb.closeRun → (s.phaseError sub).natAbs ≤ 20000 → t.tb.phase = .locked) ∧
          (s.tb.phase = .locked → 3 ≤ s.tb.slipRun → 200000 < (s.phaseError sub).natAbs →
            t.tb.phase = .acquiring ∧ Registers t srcTimebase 1) ∧
          (s.tb.phase = .holdover ∨ s.tb.phase = .gliding → 15 ≤ s.tb.validRun → t.tb.phase = .acquiring)))) ∧
  (∀ (s : State) (last : Nat), s.boot.phase ≠ .held → s.tb.phase = .acquiring ∨ s.tb.phase = .locked →
    s.cfg.timebase.syncMode = true → s.tb.lastValid = some last → 4 * s.syncPeriod ≤ s.clock.up * 2500 - last →
    ∃ t, Machine.exec .syncinLost s = .next t ∧ t.tb.phase = .holdover ∧ t.tb.rho = s.tb.rho ∧ t.tb.holdFrom = s.clock.up ∧
      t.tb.lostCount = s.tb.lostCount + 1 ∧ Registers t srcTimebase 0) ∧
  (∀ s : State, s.boot.phase ≠ .held → s.tb.phase = .holdover → s.cfg.timebase.syncHold ≤ elapsedAo s s.tb.holdFrom →
    ∃ t, Machine.exec .syncHoldExpire s = .next t ∧ t.tb.phase = .gliding ∧ t.tb.rho = s.tb.rho) ∧
  (∀ s : State, s.boot.phase ≠ .held → s.tb.phase = .gliding → s.tb.rho = 0 →
    ∃ t, Machine.exec .timebaseGlideDone s = .next t ∧ t.tb = { s.tb with phase := .free }) ∧
  (∀ (s : State) (c : Instr), s.boot.phase ≠ .held → s.cfg.timebase.syncMode = false →
    (c = .syncinLost ∧ (s.tb.phase = .acquiring ∨ s.tb.phase = .locked)) ∨ (c = .syncHoldExpire ∧ s.tb.phase = .holdover) →
    ∃ t, Machine.exec c s = .next t ∧ OnlyChanges [.sent, .tb] s t ∧ t.tb.phase = .gliding ∧ t.tb.rho = s.tb.rho) ∧
  (∀ (s : State) (w : Waiting) (x : Obj), s.boot.phase ≠ .held →
    s.commits.marks.filter (fun w => s.markPassed w.at') = [w] → object? w.index w.sub = some x → x.fam = .timebase →
    let old := s.cfg.timebase
    let new := (s.cfg.put x.fam x.unit x.sub w.value).timebase
    ∃ t, Machine.exec .markWriteTakesEffect s = .next t ∧ t.tb.rho = s.tb.rho ∧ t.cfg.timebase = new ∧
      (new.syncMode = false → old.syncMode = true → s.tb.phase = .acquiring ∨ s.tb.phase = .locked ∨ s.tb.phase = .holdover →
        t.tb.phase = .gliding) ∧
      (new.syncMode = old.syncMode → s.tb.phase = .locked →
        new.syncinDiv ≠ old.syncinDiv ∨ new.syncinPol ≠ old.syncinPol ∨ new.syncOffset ≠ old.syncOffset →
        t.tb.phase = .acquiring ∧ t.tb.closeRun = 0)) ∧
  (∀ (s : State) (rise : Bool), s.boot.phase ≠ .held →
    ∃ t, Machine.exec (.syncoutEdge rise) s = .next t ∧ OnlyChanges [.sent, .tb] s t ∧
      (s.cfg.timebase.syncoutEn = false ∨ s.linksRun = false → t.tb.syncout = false) ∧
      ∀ rate off : Nat, rate = (1000000000 + s.tb.rho).toNat →
        off = s.cfg.timebase.syncoutOffset * rate + (if rise then 0 else s.cfg.timebase.syncoutDiv * 250000000000) →
        s.cfg.timebase.syncoutEn = true → s.linksRun = true → 1 ≤ s.cfg.timebase.syncoutDiv → 0 < rate →
        if s.clock.grid % s.cfg.timebase.syncoutDiv = off / 500000000000 % s.cfg.timebase.syncoutDiv then
          t.tb.syncout = rise ∧ 4 * (off % 500000000000) ≤ 5 * rate * (2 * t.tb.syncoutAt + 1) ∧
            10 * rate * t.tb.syncoutAt ≤ 4 * (off % 500000000000) + 5 * rate
        else t.tb = s.tb)

/-! ### Stage links (chapter 5) -/

/-- Time and downlink: each slot advances G by one and gives every link its content: the stop symbol that is due, the
command frame of a group's command slot, idle on a link that is Down or Lost; in reset only always-on time passes, and while VDD_AO
is absent not even that. A Down port with symbol lock trains once 10 ms have passed since its last failure.
Rests on choices of the model: assumptions 3 and 110. -/
def Obligations.SlotsCarryCommands : Prop :=
  (∀ (s : State) (n : Nat),
    ∃ t, Machine.exec (.downlinkSlot n) s = .next t ∧
      OnlyChanges [.sent, .clock, .tb, .chans, .groups, .ports, .shelf, .strings, .score, .bootRec] s t ∧
      t.bootRec.toBootRecord = s.bootRec.toBootRecord ∧ t.score.recs = s.score.recs ∧
      (s.boot.aoLost = true → t = { s with out := [] }) ∧
      (s.boot.aoLost = false → s.boot.phase = .held →
        t.clock = { s.clock with up := s.clock.up + 200 * n, shelf := s.clock.shelf + 200 * n }) ∧
      (s.boot.aoLost = false → s.boot.phase ≠ .held →
        t.clock.grid = s.clock.grid + n ∧ t.clock.slots = s.clock.slots + n ∧ (1 ≤ n → t.score.writing = 0))) ∧
  (∀ (s : State) (p : Nat), p < 48 → s.boot.aoLost = false → s.boot.phase ≠ .held →
    ∃ t, Machine.exec (.downlinkSlot 1) s = .next t ∧ (t.port p).txPress = false ∧
      ((s.port p).stopDue = true → (t.port p).tx = .stop ∧ (t.port p).stopDue = false ∧ (t.port p).cmd = none) ∧
      ((s.port p).stopDue = false → (s.port p).link = .down ∨ (s.port p).link = .lost → (t.port p).tx = .idle) ∧
      ((s.port p).stopDue = false → (s.port p).link = .down → (s.port p).symLock = true → s.linksRun = true →
        (∀ f, (s.port p).failedAt = some f → 20000 ≤ s.clock.slots - f) →
        (t.port p).link = .training ∧ (t.port p).assignDue = true ∧ (t.port p).assigns = 0) ∧
      ((s.port p).stopDue = false → (s.port p).link = .training → (s.port p).assignDue = true →
        ∃ f, (t.port p).tx = .frame f ∧ f.length = 19 ∧ (t.port p).assignDue = false ∧ (t.port p).assigns = (s.port p).assigns + 1) ∧
      (∀ ws, (s.port p).stopDue = false → (s.port p).link = .trained → (s.portB p).group < 32 →
        State.commandSlot (s.clock.grid + 1) (s.portK p) = true → s.evaluated (s.portB p).group = true →
        (s.port p).out = false → (s.port p).cmd = some (s.clock.grid + 1, ws) → ws.length = 4 → (s.port p).piece < 4 →
        ∃ f, (t.port p).tx = .frame f ∧ f.length = 19 ∧ (f.drop 3).take 12 = ws.flatMap (fun w => beBytes 3 w.toNat) ∧
          (t.port p).cmd = none))

/-- Bring-up (Table 05-15, R177): symbol lock starts training; an Assign without a hello is resent and fails after the
eighth; three rounds without a matching digest fail; a Lost port trains again after 1 ms.
Rests on choices of the model: assumptions 29 and 31. -/
def Obligations.LinksTrain : Prop :=
  ∀ (s : State) (p : Nat), p < 48 → s.boot.phase = .serving →
    ((s.port p).link = .down → (∀ f, (s.port p).failedAt = some f → 10000 ≤ elapsedUs s f) →
      ∃ t, Machine.exec (.uplinkSymbolLock p) s = .next t ∧ (t.port p).symLock = true ∧ (t.port p).link = .training ∧
        (t.port p).assignDue = true ∧ (t.port p).assigns = 0) ∧
    ((s.port p).link = .training → (s.port p).assignDue = false → 100 ≤ elapsedUs s (s.port p).since →
      ∃ t, Machine.exec (.assignTimeout p) s = .next t ∧
        if (s.port p).assigns < 8 then t.port p = { s.port p with assignDue := true }
        else (t.port p).link = .down ∧ (t.port p).failedAt = some s.clock.slots ∧ Registers t (srcLink p) 1) ∧
    ((s.port p).link = .configuring → 3 ≤ (s.port p).rounds → (s.port p).recs = [] → (s.port p).aux = none → s.roundOver p = true →
      ∃ t, Machine.exec (.configuringFail p) s = .next t ∧ (t.port p).link = .down ∧
        (t.port p).failedAt = some s.clock.slots ∧ Registers t (srcLink p) 1) ∧
    ((s.port p).link = .lost → 1000 ≤ elapsedUs s (s.port p).since →
      ∃ t, Machine.exec (.lostRetrain p) s = .next t ∧ (t.port p).link = .training ∧ (t.port p).assignDue = true ∧
        (t.port p).epoch = (s.port p).epoch)

/-- An uplink frame that arrives: a bad one is counted; a hello in Training, the digest in Configuring, and the readings
of a trained port take effect; a frame outside its window gives nothing, while a FALLBACK frame is taken whenever it comes;
STALE is reported in every state of the link; eight code errors lose symbol lock (R146, R153, R165, R167, R171, R177).
Rests on choices of the model: assumptions 32 and 115. -/
def Obligations.UplinkFramesAreRead : Prop :=
  ∀ (s : State) (p : Nat) (x : UplinkIn), p < 48 → s.boot.phase ≠ .held →
    ∃ t, Machine.exec (.uplinkFrame p x) s = .next t ∧ (∀ j, j ≠ p → t.port j = s.port j) ∧
      (t.port p).symLock = ((s.port p).symLock && decide (x.errors < 8)) ∧
      (s.uplinkBad p x = true →
        t.port p = { s.port p with
          seen := true, symLock := (s.port p).symLock && decide (x.errors < 8), bad := (s.port p).bad + 1, spoilt := true
          got := (s.port p).got || (!x.broken && bitAt x.status 7 && decide ((s.portB p).group < 32) &&
            (s.group (s.portB p).group).phase == .fallback) }) ∧
      (x.broken = false → bitAt x.status 7 = true → x.epoch = (s.port p).epoch.toNat % 16 → s.uplinkBad p x = false) ∧
      (s.uplinkBad p x = false →
        ((s.port p).link = .training → x.kind = 5 →
          (10 < roundDiv (x.arrival - 50000) 2500 → (t.port p).link = .down ∧ Registers t (srcLink p) 2) ∧
          (roundDiv (x.arrival - 50000) 2500 ≤ 10 → (t.port p).link = .configuring ∧ (t.port p).hello = x.identity ∧
            (t.port p).dp = (roundDiv (x.arrival - 50000) 2500).toNat)) ∧
        ((s.port p).link = .configuring → x.kind = 4 → x.item = 2 → x.u16 20 = (s.port p).table.digest.toNat →
          State.capsLack ((s.port p).hello.setWidth 8) (s.groupB (s.portB p).group).mode (s.portB p).phases
            ((s.portB p).group < 32) = false →
          (t.port p).link = .trained ∧ (t.port p).identity = (s.port p).hello) ∧
        ((s.port p).link = .trained → (s.inWindow p x || bitAt x.status 7) = true →
          x.kind = 5 ∨ x.item ≠ 2 ∨ (s.port p).digests = none →
          (t.port p).got = true ∧ (t.port p).up.vout = 2 * x.u16 12 ∧ (t.port p).up.vin = 10 * x.u16 14 ∧
            (t.port p).up.status = x.status ∧ (t.port p).link = .trained) ∧
        ((s.port p).link = .trained → (s.inWindow p x || bitAt x.status 7) = false → 
          t.port p = { s.port p with seen := true, symLock := (s.port p).symLock && decide (x.errors < 8) } ∧
            OnlyChanges [.sent, .ports] s t) ∧
        ((s.port p).link = .lost ∨ (s.port p).link = .down → (t.port p).link = (s.port p).link ∧
          (t.port p).up = (s.port p).up ∧ (t.port p).reported = x.status) ∧
        (((s.port p).link = .trained → (s.inWindow p x || bitAt x.status 7) = true) → bitAt x.status 6 = true →
          Registers t (srcLink p) 5) ∧
        (((s.port p).link = .trained → (s.inWindow p x || bitAt x.status 7) = true) → (s.portB p).group < 32 →
          s.evaluated (s.portB p).group = true ∨ (s.group (s.portB p).group).phase = .fallback →
          (bitAt x.status 3 = true → bitAt (s.port p).flagged 3 = false → Registers t (srcCompanion p) 0) ∧
          (bitAt x.status 2 = true → bitAt (s.port p).flagged 2 = false → Registers t (srcCompanion p) 1) ∧
          (bitAt x.status 1 = true → bitAt (s.port p).flagged 1 = false → Registers t (srcCompanion p) 2) ∧
          (bitAt x.status 7 = true → bitAt (s.port p).flagged 7 = false → Registers t (srcFallback p) 0)))

/-- At the arrival deadline of a sample a trained port whose frame has come starts a new count; the third miss in a row
loses the port (R178); a receiver that has seen no K28.5 at four deadlines, or eight code errors between two, has lost
symbol lock (R146); and input loss is declared whenever the down fraction has reached LOSS_FRAC (R193). -/
def Sys2Proof.DeadlinesCountMisses : Prop :=
  ∀ (s : State) (g : Nat) (idles : List (Nat × Nat)), g < 32 → s.boot.phase ≠ .held →
    ∃ t, Machine.exec (.arrivalDeadline g ⟨none, idles⟩) s = .next t ∧
      (∀ p ∈ s.portsOf g,
        ((s.port p).seen = false → idles.lookup p = none → 3 ≤ (s.port p).silent → (t.port p).symLock = false) ∧
        (∀ n, idles.lookup p = some n → 8 ≤ n → (t.port p).symLock = false)) ∧
      (∀ p ∈ s.portsOf g, (s.port p).link = .trained →
        ((s.port p).got = true → (t.port p).link = .trained ∧ (t.port p).miss = 0 ∧ (t.port p).got = false) ∧
        ((s.port p).got = false → (s.port p).miss < 2 → (t.port p).link = .trained ∧ (t.port p).miss = (s.port p).miss + 1) ∧
        ((s.port p).got = false → 2 ≤ (s.port p).miss →
          (t.port p).link = .lost ∧ (t.port p).losses = (s.port p).losses + 1 ∧ Registers t (srcLink p) 0)) ∧
      (t.lossHigh = true → t.shelf.loss.declared = true) ∧
      (s.shelf.loss.declared = false → t.shelf.loss.declared = true → t.shelf.loss.count = s.shelf.loss.count + 1) ∧
      (s.shelf.loss.declared = true → t.shelf.loss.declared = true)

/-- At its tagged mark a change of a port's parameters is in force, and with it the INC of its group; one that follows waits
for its own mark (R93, R162). -/
def Sys2Proof.TaggedMarksTakeEffect : Prop :=
  ∀ s : State, s.boot.phase ≠ .held →
    ∃ t, Machine.exec .taggedMark s = .next t ∧ OnlyChanges [.sent, .groups, .ports] s t ∧
      (∀ p table mark early late, p < 48 → (s.port p).nexts = early ++ (table, mark) :: late →
        (∀ n ∈ early, n.2 ≤ s.clock.grid) → mark ≤ s.clock.grid → (∀ n ∈ late, s.clock.grid < n.2) →
        (t.port p).table = table ∧ (t.port p).nexts = late ∧ (t.port p).digests = some 0) ∧
      (∀ p, p < 48 → (∀ n ∈ (s.port p).nexts, s.clock.grid < n.2) → t.port p = s.port p) ∧
      (∀ g inc mark early late, g < 32 → (s.group g).incNexts = early ++ (inc, mark) :: late →
        (∀ n ∈ early, n.2 ≤ s.clock.grid) → mark ≤ s.clock.grid → (∀ n ∈ late, s.clock.grid < n.2) →
        (t.group g).inc = inc ∧ (t.group g).incNexts = late) ∧
      (∀ g, g < 32 → (∀ n ∈ (s.group g).incNexts, s.clock.grid < n.2) → t.group g = s.group g)

/-- Frames that miss their deadline are counted and lead to the states of the link; a tagged mark takes effect.
Rests on choices of the model: assumptions 17, 33, 35 and 131. -/
def Obligations.DeadlinesAndMarks : Prop := DeadlinesCountMisses ∧ TaggedMarksTakeEffect

/-! ### Feeds (chapter 8) -/

/-- Requests of a feed are raised and wait for its next tick, each with the slot in which it first arose, a stop with the cause
of its sender; a host's start of a feed that is marked shed clears the mark; command 4 asks for a clear of the captures since
clear (R246, R257, R261, R479). -/
def Sys2Proof.FeedRequestsAreRaised : Prop :=
  ∀ (s : State) (o : Source) (z : Nat), z < 16 →
    let only (t : State) : Prop := OnlyChanges [.sent, .seats, .t1s, .tts, .score, .feeds] s t ∧
      (t.feed z).phase = (s.feed z).phase ∧ (t.feed z).pcg = (s.feed z).pcg ∧ (t.feed z).mng = (s.feed z).mng ∧
      ∀ j, j ≠ z → t.feed j = s.feed j
    (Raised s o .feed z 2 1 → s.lint.safe = false → s.feedHeld z = false →
      (match o with
        | .host _ _ => (s.feed z).phase ≠ .latched ∧ ((s.feed z).shed = true → s.shelf.loss.declared = false)
        | .block => (s.feed z).shed = false) →
      ∃ t, Machine.exec (.feedStart o z) s = .next t ∧ Reported t o ∧ only t ∧ (t.feed z).shed = false ∧
        (t.feed z).startReq = some ((s.feed z).startReq.getD s.clock.slots)) ∧
    (Raised s o .feed z 2 2 →
      ∃ t, Machine.exec (.feedStop o z) s = .next t ∧ Reported t o ∧ only t ∧ (t.feed z).thermalMark = false ∧
        (t.feed z).stopReq = some ((s.feed z).stopReq.getD ((match o with | .host _ _ => 1 | .block => 11), s.clock.slots))) ∧
    (Raised s o .feed z 2 3 →
      ∃ t, Machine.exec (.feedClear o z) s = .next t ∧ Reported t o ∧ only t ∧ (t.feed z).thermalMark = false ∧
        (t.feed z).clearReq = some ((s.feed z).clearReq.getD s.clock.slots)) ∧
    (Raised s o .feed z 2 4 →
      ∃ t, Machine.exec (.feedClearCaptures o z) s = .next t ∧ Reported t o ∧ only t ∧
        t.feed z = { s.feed z with capsReq := some ((s.feed z).capsReq.getD s.clock.slots) })

/-- A feed that is on for the sequencer and whose attempt no trip, abort or main gate fault ends at a tick with the readings
`y` (R255). -/
def Sys2Proof.AttemptGoesOn (s : State) (z : Nat) (y : FeedIn) : Prop :=
  match (s.feed z).phase with
  | .off | .latched => False
  | .seating | .retryWait => True
  | .preCharge => s.due (s.feed z).ocTrip = false ∧ elapsedUs s (s.feed z).since < (s.feedB z).core.preTimeout ∧
      (s.feed z).energy + (roundDiv ((y.vbus - y.vout) * (y.vbus - y.vout)) (s.feedB z).core.rpre).toNat <
        (s.feedB z).core.preEMax * 1000000
  | .on => s.due (s.feed z).ocTrip = false ∧ (s.feed z).dropFrom = none ∧
      max 0 ((s.feed z).x + (feedCurrent (s.feedB z) y.shunt * feedCurrent (s.feedB z) y.shunt -
        (s.feedB z).core.iCont * (s.feedB z).core.iCont)) < ((s.feedB z).core.i2tLim : Int) * 1000000000000

/-- A feed tick takes the requests that arose before it (Table 08-2): a start of a feed in Off leads to Seating with the retry
count at 0; a stop takes Seating, Retry wait, and Pre-charge and On where nothing ends the attempt first, to Off with both
gates off and the cause of the request, and drops a start that waits with it; a clear takes a latched feed to Off; a shed step
takes a feed that no trip or stop ends at this tick to Off, marked shed (R256). -/
def Sys2Proof.FeedTicksTakeRequests : Prop :=
  ∀ (s : State) (x : Vector FeedIn 16) (z : Nat) (y : FeedIn), s.boot.phase ≠ .held → s.onGrid 2 = true → x[z]? = some y →
    (s.stopDue z = none → s.due (s.feed z).startReq = true → (s.feed z).phase = .off →
      s.due (s.feed z).shedReq = false → s.lint.safe = false →
      s.feedHeld z = false → (s.feed z).shed = false →
      ∃ t, Machine.exec (.feedTick x) s = .next t ∧ (t.feed z).phase = .seating ∧ (t.feed z).retry = 0 ∧
        (t.feed z).since = s.clock.slots ∧ (t.feed z).pcg = false ∧ (t.feed z).mng = false ∧ (t.feed z).startReq = none) ∧
    (∀ c, s.stopDue z = some c →
      AttemptGoesOn s z y →
      ∃ t, Machine.exec (.feedTick x) s = .next t ∧ (t.feed z).phase = .off ∧ (t.feed z).cause = c ∧
        (t.feed z).pcg = false ∧ (t.feed z).mng = false ∧ (t.feed z).stopReq = none ∧
        (s.due (s.feed z).startReq = true → (t.feed z).startReq = none)) ∧
    (s.stopDue z = none → s.due (s.feed z).shedReq = true → AttemptGoesOn s z y →
      (s.feed z).phase ≠ .on ∨ (s.feedB z).reinsert = true ∨ (s.feedB z).seatEn = false ∨ (y.seatL = true ∧ y.seatS = true) →
      ∃ t, Machine.exec (.feedTick x) s = .next t ∧ (t.feed z).phase = .off ∧ (t.feed z).cause = 8 ∧ (t.feed z).shed = true ∧
        (t.feed z).pcg = false ∧ (t.feed z).mng = false ∧ (t.feed z).shedReq = none) ∧
    (s.due (s.feed z).clearReq = true → (s.feed z).phase = .latched →
      ∃ t, Machine.exec (.feedTick x) s = .next t ∧ (t.feed z).phase = .off ∧ (t.feed z).retry = 0 ∧ (t.feed z).clearReq = none)

/-- Requests of a feed wait for its next tick, which takes them.
Rests on choices of the model: assumption 5. -/
def Obligations.FeedRequestsComplete : Prop := FeedRequestsAreRaised ∧ FeedTicksTakeRequests

/-- The end of an attempt with a cause: both gates are off; the feed waits for a retry while retries are left, and is
latched otherwise (Table 08-2, R255). -/
def Sys2Proof.FeedEnded (s t : State) (z cause lint : Nat) : Prop :=
  (t.feed z).pcg = false ∧ (t.feed z).mng = false ∧ (t.feed z).cause = cause ∧ Registers t (srcFeed z) lint ∧
  if (s.feed z).retry < (s.feedB z).retryMax then (t.feed z).phase = .retryWait ∧ (t.feed z).retry = (s.feed z).retry + 1
  else (t.feed z).phase = .latched ∧ Registers t (srcFeed z) 5

/-- The rows of Table 08-2 that a timer or the comparator brings about, at a tick, and the seating fault of R248. The
comparator pulls both gates down at once, in every state and in a warm reset too (R247, R251), and its trip registers at the
next tick, where it ends an attempt; a reading above OC_LIM has tripped it as well. No other feed changes. Rests on choices of
the model: assumptions 4, 63 and 146. -/
def Obligations.FeedEventsFollowTheirTable : Prop :=
  (∀ (s : State) (z : Nat), z < 16 → s.boot.phase ≠ .held ∨ s.boot.powerOn = false →
    ∃ t, Machine.exec (.overcurrentTrip z) s = .next t ∧ OnlyChanges [.sent, .feeds] s t ∧
      t.feed z = { s.feed z with
        pcg := false, mng := false, ocTrip := some ((s.feed z).ocTrip.getD s.clock.slots) } ∧ ∀ j, j ≠ z → t.feed j = s.feed j) ∧
  (∀ (s : State) (x : Vector FeedIn 16) (z : Nat) (y : FeedIn), s.boot.phase ≠ .held → s.onGrid 2 = true → x[z]? = some y →
    (s.due (s.feed z).ocTrip = true →
      ∃ t, Machine.exec (.feedTick x) s = .next t ∧ Registers t (srcFeed z) 0 ∧
        ((s.feed z).phase = .preCharge ∨ (s.feed z).phase = .on → s.due (s.feed z).shedReq = false → FeedEnded s t z 2 0)) ∧
    ((s.feedB z).core.ocLim * (s.feedB z).core.rsh < 1000 * y.shunt →
      ∃ t, Machine.exec (.feedTick x) s = .next t ∧ (t.feed z).ocTrip.isSome = true ∧ (t.feed z).pcg = false ∧
        (t.feed z).mng = false)) ∧
  ∀ (s : State) (z : Nat), z < 16 → s.boot.phase ≠ .held → s.onGrid 2 = true →
    ((s.feed z).phase = .seating → s.stopDue z = none → s.seatDebounced z = true → s.due (s.feed z).ocTrip = false →
      s.due (s.feed z).shedReq = false →
      ∃ t, Machine.exec (.seatDebounceDone z) s = .next t ∧ OnlyChanges [.sent, .feeds] s t ∧ (t.feed z).phase = .preCharge ∧
        (t.feed z).pcg = true ∧ (t.feed z).mng = false ∧ (t.feed z).energy = 0 ∧ (t.feed z).since = s.clock.slots ∧
        ∀ j, j ≠ z → t.feed j = s.feed j) ∧
    ((s.feed z).phase = .preCharge → s.feedEnds z = [4] → s.due (s.feed z).shedReq = false →
      ∃ t, Machine.exec (.preChargeTimeout z) s = .next t ∧ FeedEnded s t z 4 2 ∧ ∀ j, j ≠ z → t.feed j = s.feed j) ∧
    ((s.feed z).phase = .on → (s.feed z).pcg = true → (s.feedB z).core.overlap ≤ elapsedUs s (s.feed z).since →
      ∃ t, Machine.exec (.overlapEnd z) s = .next t ∧ OnlyChanges [.sent, .feeds] s t ∧
        t.feed z = { s.feed z with pcg := false } ∧ ∀ j, j ≠ z → t.feed j = s.feed j) ∧
    (s.mainGateFault z = true → s.feedEnds z = [] →
      ∃ t, Machine.exec (.mainGateFault z) s = .next t ∧ (t.feed z).phase = .latched ∧ (t.feed z).cause = 6 ∧
        (t.feed z).pcg = false ∧ (t.feed z).mng = false ∧ Registers t (srcFeed z) 4 ∧ Registers t (srcFeed z) 5 ∧
        ∀ j, j ≠ z → t.feed j = s.feed j) ∧
    ((s.feed z).phase = .retryWait → s.stopDue z = none → (s.feedB z).core.retryInt ≤ elapsedUs s (s.feed z).since →
      s.due (s.feed z).ocTrip = false → s.due (s.feed z).shedReq = false →
      ∃ t, Machine.exec (.feedRetryTimer z) s = .next t ∧ OnlyChanges [.sent, .feeds] s t ∧ (t.feed z).retry = (s.feed z).retry ∧
        ((t.feed z).phase = .preCharge ↔ ∃ from', (s.feed z).seatedFrom = some from' ∧ from' ≤ (s.feed z).since) ∧
        ((t.feed z).phase = .preCharge ∨ (t.feed z).phase = .seating) ∧ ∀ j, j ≠ z → t.feed j = s.feed j) ∧
    ((s.feed z).phase = .on → s.feedEnds z = [] → s.mainGateFault z = false → s.stopDue z = none →
      (s.feed z).seated (s.feedB z) = true → 10000000 ≤ elapsedUs s (s.feed z).since → s.due (s.feed z).shedReq = false →
      ∃ t, Machine.exec (.feedOnTimer z) s = .next t ∧ OnlyChanges [.sent, .feeds] s t ∧ (t.feed z).phase = .on ∧
        (t.feed z).retry = 0 ∧ (t.feed z).mng = (s.feed z).mng ∧ ∀ j, j ≠ z → t.feed j = s.feed j) ∧
    (∀ from', (s.feedB z).seatEn = true → (s.feed z).rd.seatS = true → (s.feed z).rd.seatL = false →
      (s.feed z).seatFrom = some from' → 10000 ≤ elapsedUs s from' →
      ∃ t, Machine.exec (.seatingFault z) s = .next t ∧ OnlyChanges [.sent, .feeds, .lint] s t ∧
        t.feed z = { s.feed z with seatFault := true } ∧ ((s.feed z).seatFault = false → Registers t (srcSeating z) 0))

/-- A 1 µs feed tick: the readings of every feed, its current from the shunt, and the peak; over a tick that a feed
passes in Pre-charge its energy estimate grows by (V_bus − V_out)² / RPRE, and over one in On its integrator by
I² − I_CONT² with 0 as its least value (R245, R249, R252, R261); a clear of the captures that arose before the tick is taken
first (R261, R369). G off the 1 µs grid is no tick (R22).
Rests on choices of the model: assumptions 4, 57, 61 and 62. -/
def Obligations.FeedTickMeasures : Prop :=
  (∀ (s : State) (x : Vector FeedIn 16), s.onGrid 2 = false → Machine.exec (.feedTick x) s = .next { s with out := [] }) ∧
  ∀ (s : State) (x : Vector FeedIn 16), s.boot.phase ≠ .held → s.onGrid 2 = true →
    ∃ t, Machine.exec (.feedTick x) s = .next t ∧ OnlyChanges [.sent, .feeds, .models, .lint, .score] s t ∧
      ∀ (z : Nat) (y : FeedIn), x[z]? = some y →
        let i := feedCurrent (s.feedB z) y.shunt
        (t.feed z).rd.vbus = y.vbus ∧ (t.feed z).rd.vout = y.vout ∧ (t.feed z).rd.current = i ∧
        (t.feed z).rd.seatL = y.seatL ∧ (t.feed z).rd.seatS = y.seatS ∧
        (t.feed z).caps.peak = max (if s.due (s.feed z).capsReq then 0 else (s.feed z).caps.peak) i ∧
        (s.due (s.feed z).capsReq = true → (t.feed z).capsReq = none) ∧
        ((s.feed z).phase = .preCharge → (t.feed z).phase = .preCharge →
          (t.feed z).energy = (s.feed z).energy + (roundDiv ((y.vbus - y.vout) * (y.vbus - y.vout)) (s.feedB z).core.rpre).toNat) ∧
        ((s.feed z).phase = .on → (t.feed z).phase = .on →
          (t.feed z).x = max 0 ((s.feed z).x + (i * i - (s.feedB z).core.iCont * (s.feedB z).core.iCont)))

/-! ### Battery strings (chapter 7) -/

/-- A string tick counts exactly: A with its remainder grows by the charge of the tick as R215 computes it, and the
remainder stays below 1 mC; while the logic die is in reset nothing but the strings changes, and at any other time G off the
1 ms grid is no tick (R22, R215 to R217). Without VDD_AO there is no tick at all (R459).
Rests on choices of the model: assumptions 4 and 64. -/
def Obligations.StringTickCountsExactly : Prop :=
  (∀ (s : State) (x : Vector StringIn 8), s.boot.phase ≠ .held → s.onGrid 2000 = false →
    Machine.exec (.stringTick x) s = .next { s with out := [] }) ∧
  (∀ (s : State) (x : Vector StringIn 8), s.boot.aoLost = true → Machine.exec (.stringTick x) s = .next { s with out := [] }) ∧
  ∀ (s : State) (x : Vector StringIn 8), s.boot.aoLost = false → s.boot.phase = .held ∨ s.onGrid 2000 = true →
    ∃ t, Machine.exec (.stringTick x) s = .next t ∧ (s.boot.phase = .held → OnlyChanges [.sent, .strings] s t) ∧
      ∀ (k : Nat) (y : StringIn), x[k]? = some y → 0 < (s.str k).remDen → 0 < (s.strB k).shuntR →
        let r := s.str k
        let q := chargeOf (s.strB k) y.native
        let t := t.str k
        (t.a * t.remDen + t.remNum) * (r.remDen * q.2) = ((r.a * r.remDen + r.remNum) * q.2 + q.1 * r.remDen) * t.remDen ∧
          0 ≤ t.remNum ∧ t.remNum < t.remDen ∧ 0 < t.remDen ∧ t.current = roundDiv (q.1 * 1000) q.2 ∧ t.bsv = y.bsv

/-- A string whose termination, recharge or empty condition has lasted its time, at a tick (Table 07-2, R222, R227, R228,
R233): Bulk ends in Float, where the firmware takes the charge as the capacity in force; Float ends in Settle above the target
and in Bulk otherwise; the empty anchor sets the counted charge to 0, after a qualified cycle has been learned or, outside the
band, rejected. -/
def Sys2Proof.StringEventsAct : Prop :=
  ∀ (s : State) (k : Nat), k < 8 → s.boot.phase ≠ .held → s.onGrid 2000 = true →
    (s.terminated k = true →
      ∃ t, Machine.exec (.termination k) s = .next t ∧ OnlyChanges [.sent, .strings, .staged, .commits] s t ∧
        (t.str k).phase = .float ∧ (t.str k).termFrom = none ∧ (t.str k).cap = (s.str k).cap ∧ (t.str k).a = (s.str k).a ∧
        (s.fw = true → (t.str k).qc = (t.str k).cap ∧ (t.str k).lastFull = s.shelfNs ∧ (t.str k).uncertain = false ∧
          (t.str k).early = false ∧ (t.str k).cycle.isSome = true) ∧ ∀ j, j ≠ k → t.str j = s.str j) ∧
    (s.rechargeDue k = true →
      ∃ t, Machine.exec (.rechargeTimer k) s = .next t ∧ (t.str k).a = (s.str k).a ∧
        (t.str k).phase = (if (s.strB k).chgTarget < 10000 ∧ s.fw = true ∧
          0 < (s.str k).socOver ((s.strB k).chgTarget + (s.strB k).targetHyst) then .settle else .bulk) ∧
        OnlyChanges [.sent, .strings, .staged, .commits] s t ∧ ∀ j, j ≠ k → t.str j = s.str j) ∧
    (s.fw = true → s.emptyDue k = true →
      ∃ t, Machine.exec (.emptyAnchor k) s = .next t ∧ (t.str k).qc = 0 ∧ (t.str k).a = (s.str k).a ∧
        (t.str k).lastEmpty = s.shelfNs ∧ (t.str k).uncertain = false ∧ (t.str k).cycle = none ∧
        (∀ c, (s.str k).cycle = some c → c.good = true →
          if 10000 * (c.a0 - (s.str k).a - (s.str k).cap).natAbs ≤ (s.strB k).learnBand * (s.str k).cap.natAbs then
            (t.str k).cap = c.a0 - (s.str k).a ∧ (t.str k).learns = (s.str k).learns + 1 ∧
              (s.score.stopped = false → (t.str k).writing.isSome = true)
          else (t.str k).cap = (s.str k).cap ∧ (t.str k).learns = (s.str k).learns ∧ (t.str k).rejected = true) ∧
        ((s.str k).cycle = none → (t.str k).cap = (s.str k).cap ∧ (t.str k).rejected = (s.str k).rejected) ∧
        ∀ j, j ≠ k → t.str j = s.str j)

/-- The count checkpoint begins a valid slot with C, A_ref and A over the older of every string's pair, with STATE 1 first; a
slot write that has lasted 50 µs is complete (R231, R238); the string's next tick takes its commands, command 1 clearing the
learn flags and command 2 making C_NOM the capacity, with a commit of it while commits begin (R240, R369). -/
def Sys2Proof.StringCommandsComplete : Prop :=
  (∀ s : State, s.boot.phase ≠ .held → s.fw = true → s.score.stopped = false →
    ∃ t, Machine.exec .countCheckpoint s = .next t ∧ OnlyChanges [.sent, .strings] s t ∧
      ∀ k, k < 8 → (t.str k).a = (s.str k).a ∧ ∃ w, (t.str k).checking = some w ∧ w.from' = s.clock.slots ∧ w.index < 2 ∧
        w.index ≠ newest (s.str k).checkDone.checks ∧ (vget (t.str k).checks w.index {}).state = 1 ∧
        w.slot.valid = true ∧ w.slot.w1 = BitVec.ofInt 64 (s.str k).cap ∧
        w.slot.w2 = BitVec.ofInt 64 (s.str k).aRef ∧ w.slot.w3 = BitVec.ofInt 64 (s.str k).a) ∧
  (∀ (s : State) (k : Nat) (w : SlotWrite), k < 8 → s.boot.aoLost = false → s.boot.phase ≠ .held →
    (s.str k).checking = some w → w.index < 2 →
    100 ≤ s.clock.slots + 1 - w.from' →
    ∃ t, Machine.exec (.downlinkSlot 1) s = .next t ∧ vget (t.str k).checks w.index {} = w.slot ∧ (t.str k).checking = none) ∧
  (∀ (s : State) (k : Nat) (w : SlotWrite), k < 8 → s.boot.aoLost = false → s.boot.phase ≠ .held →
    (s.str k).writing = some w → w.index < 2 →
    100 ≤ s.clock.slots + 1 - w.from' →
    ∃ t, Machine.exec (.downlinkSlot 1) s = .next t ∧ vget (t.str k).slots w.index {} = w.slot ∧
      (t.str k).inForce = w.index ∧ (t.str k).writing = none) ∧
  (∀ (s : State) (o : Source) (k : Nat), k < 8 →
    (Raised s o .batString k 5 1 →
      ∃ t, Machine.exec (.stringClearFlags o k) s = .next t ∧ Reported t o ∧
      t.str k = { s.str k with clearReq := some ((s.str k).clearReq.getD s.clock.slots) } ∧ ∀ j, j ≠ k → t.str j = s.str j) ∧
    (Raised s o .batString k 5 2 → s.present = true →
      ∃ t, Machine.exec (.stringRestoreCNom o k) s = .next t ∧ Reported t o ∧
        t.str k = { s.str k with restoreReq := some ((s.str k).restoreReq.getD s.clock.slots) } ∧
        ∀ j, j ≠ k → t.str j = s.str j)) ∧
  (∀ (s : State) (x : Vector StringIn 8) (k : Nat) (y : StringIn), s.boot.aoLost = false → s.boot.phase ≠ .held →
    s.onGrid 2000 = true → x[k]? = some y →
    ∃ t, Machine.exec (.stringTick x) s = .next t ∧
      (s.due (s.str k).clearReq = true → (t.str k).clearReq = none ∧ (t.str k).learnLost = false ∧
        (s.fw = false ∨ (s.strB k).emptyV < y.bsv → (t.str k).rejected = false)) ∧
      (s.due (s.str k).restoreReq = true → (t.str k).restoreReq = none ∧
        (s.score.stopped = false → (t.str k).writing.isSome = true) ∧
        (s.fw = false ∨ (s.strB k).emptyV < y.bsv → (t.str k).cap = (s.strB k).cNom)) ∧
      (s.due (s.str k).clearReq = false → (t.str k).clearReq = (s.str k).clearReq) ∧
      (s.due (s.str k).restoreReq = false → (t.str k).restoreReq = (s.str k).restoreReq))

/-- Battery strings: termination, recharge, the empty anchor and learning, the count checkpoint and the commands of a
string (Table 07-2, R222, R227 to R240).
Rests on choices of the model: assumptions 57, 69 and 123. -/
def Obligations.StringsFollowTheirTable : Prop := StringEventsAct ∧ StringCommandsComplete

/-! ### Soak models (chapter 10) -/

/-- A model step: the temperature of an enabled model is that of its first node (R285), of the die model the higher of it
and the hottest sensor (R289); the flags follow their thresholds with hysteresis (Table 10-1); a running model that is in
shut-down leaves Running, a latched one stays latched (Table 10-3); a disabled one has no loss, flag or cap request
(Table 10-4); derate channels are held at the set-point 0, by an immediate write where they have another (R295). G off the
1 ms grid is no step (R22). -/
def Sys2Proof.ModelStepFollowsItsTables : Prop :=
  (∀ (s : State) (x : ChipIn), s.onGrid 2000 = false → Machine.exec (.modelStep x) s = .next { s with out := [] }) ∧
  ∀ (s : State) (x : ChipIn), s.boot.phase ≠ .held → s.onGrid 2000 = true →
    ∃ t, Machine.exec (.modelStep x) s = .next t ∧
      OnlyChanges [.sent, .staged, .groups, .feeds, .models, .lint, .commits] s t ∧
      ∀ m, m < 65 →
        let b := s.modelB m
        let old := s.model m
        let r := t.model m
        (b.en = false → r.loss = 0 ∧ r.flags = 0 ∧ r.cap = 2147483647 ∧
          r.phase = old.phase) ∧
        (b.en = true → r.set = true ∧ r.temp = (if m = 64 then max (nodeTemp r.t1) x.die else nodeTemp r.t1) ∧
          r.warning = flagStep old.warning r.temp b.warnT b.warnHyst ∧
          r.throttle = flagStep old.throttle r.temp b.thrT b.thrHyst ∧
          r.shut = flagStep old.shut r.temp b.sdT b.sdHyst ∧
          (r.warning = true → old.warning = false → Registers t (srcModel m) 0) ∧
          (old.phase = .running → r.shut = true → r.phase ≠ .running) ∧ (old.phase = .latched → r.phase = .latched)) ∧
        (b.derateCh < 128 → (vget t.staged.chans b.derateCh {}).setpoint = 0 ∧
          ((s.chanB b.derateCh).setpoint = 0 ∨
            ∃ w ∈ t.commits.imm, w.index = 0x4003 + 0x10 * b.derateCh ∧ w.sub = 1 ∧ w.value = 0))

/-- A model whose inputs stay invalid latches, with its targets stopped (R292, R294); one whose inlet becomes unavailable
takes 55 °C, with a lint bit (R288). -/
def Sys2Proof.ModelInputsAreWatched : Prop :=
  ∀ (s : State) (m : Nat), m < 65 → s.boot.phase ≠ .held →
    (s.onGrid 2000 = true → (s.modelB m).en = true → s.invalidLong m = true → (s.model m).phase = .running →
      ∃ t, Machine.exec (.modelInputsInvalid m) s = .next t ∧ (t.model m).phase = .latched ∧
        Registers t (srcModel m) 4 ∧ Registers t (srcModel m) 3 ∧
        (∀ g ∈ s.modelGroups m, (t.group g).phase = (s.group g).phase ∧
          (t.group g).stopReq = some ((s.group g).stopReq.getD s.clock.slots) ∧
          ((s.group g).phase ≠ .stopped → (s.group g).phase ≠ .latched → (t.group g).thermalMark = true)) ∧
        (∀ z ∈ s.modelFeeds m, (t.feed z).phase = (s.feed z).phase ∧
          (t.feed z).stopReq = some ((s.feed z).stopReq.getD (9, s.clock.slots)) ∧
          ((s.feed z).phase ≠ .off → (s.feed z).phase ≠ .latched → (t.feed z).thermalMark = true)) ∧
        ∀ j, j ≠ m → t.model j = s.model j) ∧
    ((s.modelB m).en = true → s.inletOf m = none →
      ∃ t, Machine.exec (.inletUnavailable m) s = .next t ∧ OnlyChanges [.sent, .models, .lint] s t ∧
        t.model m = { s.model m with inlet := 5500, inletLost := true } ∧
        ((s.model m).inletLost = false → Registers t (srcModel m) 5) ∧ ∀ j, j ≠ m → t.model j = s.model j) ∧
    ((s.modelB m).en = false → Machine.exec (.inletUnavailable m) s = .next { s with out := [] })

/-- Soak models: the step of every model (R285, R289, R295, Tables 10-1, 10-3 and 10-4), inputs that stay invalid
(R294) and an inlet that becomes unavailable (R288).
Rests on choices of the model: assumptions 4, 37, 40 and 72. -/
def Obligations.ModelsFollowTheirTables : Prop := ModelStepFollowsItsTables ∧ ModelInputsAreWatched


/-! ### Batting orders (chapter 9) -/

/-- Requests of an order and its command 3 are raised and wait for its next tick; a host's up request of an order in Off that
fails its validation is refused with a lint bit (R268, R276, R282, R369). -/
def Sys2Proof.OrderRequestsAreRaised : Prop :=
  ∀ (s : State) (o : Source) (k : Nat), k < 4 →
    (Raised s o .order k 0 1 → s.lint.safe = false ∨ bitAt s.cfg.episode.safeKeep k = true →
      (s.order k).phase ≠ .off ∨ s.validOrder k = true →
      ∃ t, Machine.exec (.orderUp o k) s = .next t ∧ Reported t o ∧ OnlyChanges [.sent, .seats, .t1s, .tts, .score, .orders] s t ∧
        t.order k = { s.order k with upReq := some ((s.order k).upReq.getD s.clock.slots) } ∧
        ∀ j, j ≠ k → t.order j = s.order j) ∧
    (∀ h e, o = .host h e → Raised s o .order k 0 1 → s.lint.safe = false ∨ bitAt s.cfg.episode.safeKeep k = true →
      (s.order k).phase = .off → s.validOrder k = false →
      ∃ t, Machine.exec (.orderUp o k) s = .next t ∧ Answered t h 0x11 0x07 ∧ t.orders = s.orders ∧ Registers t (srcOrder k) 0) ∧
    (Raised s o .order k 0 2 →
      ∃ t, Machine.exec (.orderDown o k) s = .next t ∧ Reported t o ∧
        OnlyChanges [.sent, .seats, .t1s, .tts, .score, .orders] s t ∧
        t.order k = { s.order k with downReq := some ((s.order k).downReq.getD s.clock.slots) } ∧
        ∀ j, j ≠ k → t.order j = s.order j) ∧
    (Raised s o .order k 0 3 →
      ∃ t, Machine.exec (.orderClear o k) s = .next t ∧ Reported t o ∧
        OnlyChanges [.sent, .seats, .t1s, .tts, .score, .orders] s t ∧
        t.order k = { s.order k with clearReq := some ((s.order k).clearReq.getD s.clock.slots) } ∧
        ∀ j, j ≠ k → t.order j = s.order j)

/-- A sequencer tick takes the requests that arose before it (Table 09-2): an up request in Off lets a valid order rise with
its members' flags cleared, and is refused with a lint bit otherwise; a down request lets a rising order or one that is up
fall, and where an up request falls on the same tick the up request is discarded (R268, R276). Command 3 clears the degraded flag
and the fault record before the rows of the tick, which may set them anew (R282). -/
def Sys2Proof.SequencerTicksTakeRequests : Prop :=
  (∀ (s : State) (pgin : Word) (k : Nat), k < 4 → s.boot.phase ≠ .held → s.onGrid 20 = true →
    ∃ t, Machine.exec (.sequencerTick pgin) s = .next t ∧
      (s.due (s.order k).clearReq = false → (t.order k).clearReq = (s.order k).clearReq) ∧
      (s.due (s.order k).clearReq = true → (t.order k).clearReq = none ∧
        ((s.order k).phase ≠ .rising → (t.order k).degraded = false) ∧
        ((∀ r ∈ s.membersOf k, (s.rail r).phase ≠ .good ∧ (s.rail r).phase ≠ .enabling) →
          (t.order k).droppedFlag = false ∧ (t.order k).faultRail = 255 ∧ (t.order k).faultCause = 0 ∧
            (t.order k).faultTime = 0 ∧ (t.order k).faultPg = 0 ∧ (t.order k).faultEn = 0))) ∧
  ∀ (s : State) (pgin : Word) (k : Nat), k < 4 → s.boot.phase ≠ .held → s.onGrid 20 = true →
    (∀ r ∈ s.membersOf k, (s.rail r).phase = .good → bitAt pgin r ≠ (s.railC r).pgPol) →
    (s.due (s.order k).downReq = false → s.due (s.order k).upReq = true → (s.order k).phase = .off →
      s.lint.safe = false ∨ bitAt s.cfg.episode.safeKeep k = true →
      ∃ t, Machine.exec (.sequencerTick pgin) s = .next t ∧ (t.order k).upReq = none ∧
        if s.validOrder k = true then (t.order k).phase = .rising ∧
          ∀ r ∈ s.membersOf k, (s.rail r).phase = .off →
            (t.rail r).failed = false ∧ (t.rail r).blocked = false ∧ (t.rail r).timeout = false
        else (t.order k).phase = .off ∧ Registers t (srcOrder k) 0) ∧
    (s.due (s.order k).downReq = true → (s.order k).phase = .rising ∨ (s.order k).phase = .up →
      ∃ t, Machine.exec (.sequencerTick pgin) s = .next t ∧ (t.order k).phase = .falling ∧ (t.order k).downReq = none ∧
        (s.due (s.order k).upReq = true → (t.order k).upReq = none ∧ (t.order k).queued = (s.order k).queued))

/-- Requests of an order wait for its next tick, which takes them.
Rests on choices of the model: assumptions 5, 57 and 73. -/
def Obligations.OrderRequestsComplete : Prop := OrderRequestsAreRaised ∧ SequencerTicksTakeRequests

/-- A sequencer tick: the tick count and the power-good levels; a rail of no order keeps its state; a rail in Off begins
its delay when its order rises, it is not flagged, no rail it depends on is flagged and every predecessor is Good, and
stays in Off while its order does not rise (Table 09-1, R269, R270); the levels and the states of the orders are taken at the
end of the tick, to be read until the next (R282). G off the 10 µs grid is no tick (R22).
Rests on choices of the model: assumption 4. -/
def Obligations.SequencerTickAdvancesRails : Prop :=
  (∀ (s : State) (pgin : Word), s.onGrid 20 = false → Machine.exec (.sequencerTick pgin) s = .next { s with out := [] }) ∧
  ∀ (s : State) (pgin : Word), s.boot.phase ≠ .held → s.onGrid 20 = true →
    ∃ t, Machine.exec (.sequencerTick pgin) s = .next t ∧ OnlyChanges [.sent, .rails, .orders, .seq, .lint] s t ∧
      t.seq = { s.seq with tick := s.seq.tick + 1, pgin := pgin, seenEn := t.enLevels, seenRsto := t.rstoLevels } ∧
      (∀ k, k < 4 → (t.order k).seen.phase = (t.order k).phase ∧ (t.order k).seen.queued = (t.order k).queued ∧
        (t.order k).seen.degraded = (t.order k).degraded ∧ (t.order k).seen.droppedFlag = (t.order k).droppedFlag) ∧
      ∀ r, r < 32 →
        (4 ≤ (s.railC r).order → (t.rail r).phase = (s.rail r).phase) ∧
        ((s.railC r).order < 4 → (s.rail r).phase = .off → (s.order (s.railC r).order).phase = .rising →
          (s.rail r).flagged = false → s.predFlagged r = false →
          (s.railC r).predList.all (fun q => (s.rail q).phase == .good) = true →
          (t.rail r).phase = .delay ∧ (t.rail r).since = s.seq.tick + 1) ∧
        ((s.railC r).order < 4 → (s.rail r).phase = .off → (s.order (s.railC r).order).phase ≠ .rising →
          (t.rail r).phase = .off)

/-- An order with all but the readings that the host last took of it (R282). -/
def Sys2Proof.SameOrder (s t : State) (k : Nat) : Prop := { t.order k with seen := (s.order k).seen } = s.order k

/-- A row on its own at a tick moves no order, and no part of the sequencer but what the host reads of it (R282). -/
def Sys2Proof.OnlyRailsMove (s t : State) : Prop :=
  OnlyChanges [.sent, .rails, .orders, .seq, .lint] s t ∧ (∀ k, SameOrder s t k) ∧
    t.seq = { s.seq with seenEn := t.enLevels, seenRsto := t.rstoLevels }

/-- The rows of Table 09-1 that a timer or a power-good level brings about at a tick, in an order that neither falls nor is dropped
(Delay, Enabling, Good) and in Discharging: delay passed, good, timeout of power good, reset stretch passed, discharged,
timeout of the discharge. No other rail changes. -/
def Sys2Proof.RailTimersAct : Prop :=
  ∀ (s : State) (r : Nat), r < 32 → s.boot.phase ≠ .held → s.onGrid 20 = true → (s.railC r).order < 4 →
    let c := s.railC r
    let x := s.rail r
    let steady := (s.order c.order).phase ≠ .dropped ∧ (s.order c.order).phase ≠ .falling
    (x.phase = .delay → steady → s.predFlagged r = false → c.onDelay ≤ s.seqUs x.since →
      ∃ t, Machine.exec (.railDelayExpire r) s = .next t ∧ OnlyRailsMove s t ∧ t.lint = s.lint ∧
        t.rail r = { x with phase := .enabling, since := s.seq.tick, asserted := true } ∧ ∀ j, j ≠ r → t.rail j = s.rail j) ∧
    (x.phase = .enabling → steady → s.pgGood r = true → s.ranUs x.goodFrom c.pgDeg = true →
      ∃ t, Machine.exec (.railGood r) s = .next t ∧ OnlyRailsMove s t ∧ t.lint = s.lint ∧
        t.rail r = { x with phase := .good, since := s.seq.tick, asserted := true, goodTime := s.shelfNs } ∧
        ∀ j, j ≠ r → t.rail j = s.rail j) ∧
    (x.phase = .enabling → steady → s.ranUs x.goodFrom c.pgDeg = false → c.pgTimeout ≤ s.seqUs x.since →
      ∃ t, Machine.exec (.railPgTimeout r) s = .next t ∧ OnlyChanges [.sent, .rails, .orders, .seq, .lint] s t ∧
        t.seq = { s.seq with seenEn := t.enLevels, seenRsto := t.rstoLevels } ∧ (∀ k, k ≠ c.order → SameOrder s t k) ∧
        (t.rail r).phase = .discharging ∧ (t.rail r).failed = true ∧ (t.rail r).asserted = true ∧ Registers t (srcRail r) 0 ∧
        ((s.membersOf c.order).any s.runningFault = false →
          (t.order c.order).faultRail = r ∧ (t.order c.order).faultCause = 1 ∧ (t.order c.order).faultTime = s.shelfNs ∧
            (t.order c.order).faultPg = s.seq.pgin ∧ (t.order c.order).faultEn = s.enLevels) ∧
        ∀ j, j ≠ r → t.rail j = s.rail j) ∧
    (x.phase = .good → steady → s.runningFault r = false → x.asserted = true → c.rstStretch ≤ s.seqUs x.since →
      ∃ t, Machine.exec (.resetStretchEnd r) s = .next t ∧ OnlyRailsMove s t ∧ t.lint = s.lint ∧
        t.rail r = { x with asserted := false } ∧ ∀ j, j ≠ r → t.rail j = s.rail j) ∧
    (x.phase = .discharging → s.pgGood r = false → c.disWait ≤ s.seqUs (max x.since x.lastGood) →
      ∃ t, Machine.exec (.railDischarged r) s = .next t ∧ OnlyRailsMove s t ∧ t.lint = s.lint ∧
        t.rail r = { x with phase := .off, since := s.seq.tick, asserted := true } ∧ ∀ j, j ≠ r → t.rail j = s.rail j) ∧
    (x.phase = .discharging → s.pgGood r = true ∨ s.seqUs (max x.since x.lastGood) < c.disWait →
      c.disTimeout ≤ s.seqUs x.since →
      ∃ t, Machine.exec (.railDischargeTimeout r) s = .next t ∧ OnlyRailsMove s t ∧
        t.rail r = { x with phase := .off, since := s.seq.tick, asserted := true, timeout := true } ∧ Registers t (srcRail r) 2 ∧
        ∀ j, j ≠ r → t.rail j = s.rail j)

/-- A running-rail fault drops the order and discharges the rail, with its lint bit and the fault record of the order
(R273 to R275). -/
def Sys2Proof.RunningRailFaultDropsTheOrder : Prop :=
  ∀ (s : State) (r : Nat), r < 32 → s.boot.phase ≠ .held → s.onGrid 20 = true → s.runningFault r = true →
    ∃ t, Machine.exec (.runningRailFault r) s = .next t ∧ OnlyChanges [.sent, .rails, .orders, .seq, .lint] s t ∧
      t.seq = { s.seq with seenEn := t.enLevels, seenRsto := t.rstoLevels } ∧
      (t.rail r).phase = .discharging ∧ (t.rail r).asserted = true ∧ Registers t (srcRail r) 1 ∧
      (∀ j, j ≠ r → t.rail j = s.rail j) ∧
      let o := t.order (s.railC r).order
      o.phase = .dropped ∧ o.droppedFlag = true ∧ o.drops = (s.order (s.railC r).order).drops + 1 ∧ o.faultCause = 2 ∧
        o.faultTime = s.shelfNs ∧ o.faultPg = s.seq.pgin ∧ o.faultEn = s.enLevels ∧
        ∀ k, k ≠ (s.railC r).order → SameOrder s t k

/-- Rails: the rows of Table 09-1, and the running-rail fault that drops its order (R270 to R275). -/
def Obligations.RailsFollowTheirTable : Prop := RailTimersAct ∧ RunningRailFaultDropsTheOrder

/-! ### Lint, episodes, the scorebook and captures (chapter 11) -/

/-- At a boundary every cause detected before it sets its bit and is counted once for each occurrence, up to 65,535; one
detected at the boundary itself, that which a block reports there included, waits for the next (R302, R479). A source with a
stop reaction or SAFE opens or joins an episode (R310), and one with SAFE brings safe state, with a stop request to every group
and feed and a down request to every order outside SAFE_KEEP (R308). No bit is cleared.
Rests on choices of the model: assumption 139. -/
def Obligations.LintBoundaryRegistersCauses : Prop :=
  ∀ (s : State) (extra : Option (Nat × Nat)), s.boot.phase ≠ .held →
    let ds := s.lint.detected.filter (fun d => decide (d.at' < s.clock.slots))
    ∃ t, Machine.exec (.lintOccurrence extra) s = .next t ∧
      OnlyChanges [.sent, .groups, .feeds, .orders, .lint, .score] s t ∧
      (∀ n j, n < 512 → j < 16 → bitAt (vget t.lint.causes n 0) j =
        (bitAt (vget s.lint.causes n 0) j || ds.any (fun d => d.src == n && d.cause == j))) ∧
      (∀ n, n < 512 → vget s.lint.counts n 0 ≤ 65535 →
        vget t.lint.counts n 0 = min 65535 (vget s.lint.counts n 0 + (ds.filter (fun d => d.src == n)).length)) ∧
      (∀ d ∈ s.lint.detected, s.clock.slots ≤ d.at' → d ∈ t.lint.detected) ∧
      (∀ src cause, extra = some (src, cause) → cause < causeCount src → Registers t src cause) ∧
      (∀ d ∈ ds, (s.reactC d.src).stops = true → t.lint.episode.opn = true) ∧
      (∀ d ∈ ds, (s.reactC d.src).safe = true → t.lint.safe = true ∧
        (∀ g, g < 32 → (t.group g).stopReq = some ((s.group g).stopReq.getD s.clock.slots)) ∧
        (∀ z, z < 16 → (t.feed z).stopReq.isSome = true) ∧
        ∀ k, k < 4 → bitAt s.cfg.episode.safeKeep k = false →
          (t.order k).downReq = some ((s.order k).downReq.getD s.clock.slots))

/-- An open episode that no event joins closes after EP_MAX with cause 1, else after EP_QUIET with its stops complete with
cause 0 (R310); with the firmware running and the buffer free the closing snapshot shows the state of that instant (R319); a
latched snapshot is written as 41 records with the time and the episode of its latch, and leaves its buffer (R314). -/
def Sys2Proof.EpisodesCloseAndSnapshotsAreWritten : Prop :=
  (∀ (s : State) (c : Instr), c = .episodeQuietClose ∨ c = .episodeMaxClose → s.boot.phase ≠ .held →
    s.lint.episode.opn = true → s.lint.episode.quietFrom ≠ s.clock.slots →
    (∀ d ∈ s.lint.detected, s.clock.slots ≤ d.at') →
    let old := s.cfg.episode.epMax ≤ elapsedUs s s.lint.episode.ageFrom
    (old ∨ (s.cfg.episode.epQuiet ≤ elapsedUs s s.lint.episode.quietFrom ∧ s.stopsComplete = true) →
      ∃ t, Machine.exec c s = .next t ∧ OnlyChanges [.sent, .lint, .score] s t ∧ t.lint.episode.opn = false ∧
        t.lint.episode.number = s.lint.episode.number ∧ t.lint.causes = s.lint.causes ∧
        (s.fw = true → s.lint.snapClose = none → t.lint.snapClose =
          some { time := s.shelfNs, episode := s.lint.episode.number, octets := s.snapshotOctets }) ∧
        (s.score.firmware = true → s.score.stopped = false →
          t.score.recs.head?.map (fun r => (r.kind, r.time, r.episode, r.payload.getD 1 0)) =
            some (2, s.shelfNs, s.lint.episode.number, if old then 1 else 0))) ∧
    (¬ old → elapsedUs s s.lint.episode.quietFrom < s.cfg.episode.epQuiet ∨ s.stopsComplete = false →
      ∃ t, Machine.exec c s = .next t ∧ OnlyChanges [.sent] s t)) ∧
  (∀ (s : State) (closing : Bool) (o : Snapshot), s.boot.phase ≠ .held → s.fw = true →
    (if closing then s.lint.snapClose else s.lint.snapOpen) = some o →
    ∃ t, Machine.exec (.snapshotWrite closing) s = .next t ∧ OnlyChanges [.sent, .lint, .score] s t ∧
      (if closing then t.lint.snapClose = none ∧ t.lint.snapOpen = s.lint.snapOpen
        else t.lint.snapOpen = none ∧ t.lint.snapClose = s.lint.snapClose) ∧ t.lint.causes = s.lint.causes ∧
      (s.score.stopped = false → ∀ k, k < 41 → ∃ r, t.score.recs[40 - k]? = some r ∧ r.kind = 3 ∧ r.time = o.time ∧
        r.episode = o.episode ∧
        r.payload = [if closing then 1 else 0, 0] ++ leBytes 2 k ++ (o.octets.drop (40 * k)).take 40))

/-- A write to a clear word: the sources of the mask keep the causes whose condition still holds, and lose their count
where none is left; no other source changes (R303). Command 1 of the episode object ends safe state (R308). -/
def Sys2Proof.LintClearsComplete : Prop :=
  (∀ (s : State) (h : Hdr) (w : Nat) (mask : Word), w < 16 → AdmittedPut s h none (Family.lintClear.index 0 0) (w + 1) mask.toNat →
    ∃ t, Machine.exec (.lintClear h w mask) s = .next t ∧ Accepted t h ∧
      (∀ b, b < 32 → bitAt mask b = true → vget t.lint.causes (32 * w + b) 0 = s.stillHolds (32 * w + b) ∧
        (s.stillHolds (32 * w + b) = 0 → vget t.lint.counts (32 * w + b) 0 = 0)) ∧
      ∀ n, ¬ (n / 32 = w ∧ bitAt mask (n % 32) = true) →
        vget t.lint.causes n 0 = vget s.lint.causes n 0 ∧ vget t.lint.counts n 0 = vget s.lint.counts n 0) ∧
  (∀ (s : State) (h : Hdr) (e : Expect), AdmittedPut s h e (Family.episode.index 0 0) 9 1 →
    ∃ t, Machine.exec (.safeStateEnd h e) s = .next t ∧ Accepted t h ∧ t.lint.safe = false ∧ t.groups = s.groups ∧
      t.feeds = s.feeds ∧ t.orders = s.orders)

/-- Episodes close and snapshots are written (R310, R319); clear words clear what no longer holds, and command 1 ends
safe state (R303, R308).
Rests on choices of the model: assumptions 75, 77 and 138. -/
def Obligations.EpisodesAndClearsAct : Prop := EpisodesCloseAndSnapshotsAreWritten ∧ LintClearsComplete


/-- The rows of Table 11-11: arm, trigger by a host or an event, disarm, a full window, the end of the copy; and a sample
of an active capture at an instant of its rate, the newest 4,096 kept (R322 to R324). A host's command is admitted as it is
processed and acts at the next grid slot (R369). TRIG_KIND 0 is the host's command alone, and a capture without its window
neither samples nor triggers. No other capture changes.
Rests on choices of the model: assumptions 4 and 57. -/
def Obligations.CapturesFollowTheirTable : Prop :=
  ∀ (s : State) (c : Nat), c < 8 →
    (∀ (h : Hdr) (e : Expect),
      (AdmittedPut s h e (Family.capture.index c 0) 5 1 → s.canArm c = true →
        ∃ t, Machine.exec (.captureArm h e c) s = .next t ∧ Accepted t h ∧
          t.capture c = { s.capture c with reqs := (s.capture c).reqs ++ [(1, s.clock.slots)] } ∧
          ∀ j, j ≠ c → t.capture j = s.capture j) ∧
      (AdmittedPut s h e (Family.capture.index c 0) 5 3 → (s.capture c).phase = .armed →
        ∃ t, Machine.exec (.captureDisarm h e c) s = .next t ∧ Accepted t h ∧
          t.capture c = { s.capture c with reqs := (s.capture c).reqs ++ [(3, s.clock.slots)] } ∧
          ∀ j, j ≠ c → t.capture j = s.capture j) ∧
      (AdmittedPut s h e (Family.capture.index c 0) 5 2 → (s.capture c).phase = .armed → (s.capture c).window.isSome = true →
        ∃ t, Machine.exec (.captureTrigger (.host h e) c) s = .next t ∧ Accepted t h ∧
          t.capture c = { s.capture c with reqs := (s.capture c).reqs ++ [(2, s.clock.slots)] } ∧
          ∀ j, j ≠ c → t.capture j = s.capture j)) ∧
    (∀ v at', (s.capture c).reqs = [(v, at')] → at' ≤ s.clock.slots → s.boot.aoLost = false → s.boot.phase ≠ .held →
      ∃ t, Machine.exec (.downlinkSlot 1) s = .next t ∧ (t.capture c).reqs = [] ∧
        (v = 1 → (s.capture c).phase = .off ∨ (s.capture c).phase = .held ∨ (s.capture c).phase = .invalid →
          s.windowsTaken ≤ 2 →
          (t.capture c).phase = .armed ∧ (t.capture c).window = some []) ∧
        (v = 3 → (s.capture c).phase = .armed → (t.capture c).phase = .off ∧ (t.capture c).window = none) ∧
        (v = 2 → (s.capture c).phase = .armed → (s.capture c).window.isSome = true →
          (t.capture c).phase = .triggered ∧ (t.capture c).trigTime = t.shelfNs ∧ (t.capture c).trigKind = 0)) ∧
    (s.boot.phase ≠ .held →
      ((s.capture c).phase = .armed → (s.capture c).window.isSome = true → (s.captureC c).trigKind ≠ 0 →
        ∃ t, Machine.exec (.captureTrigger .block c) s = .next t ∧ OnlyChanges [.sent, .score] s t ∧
          (t.capture c).phase = .triggered ∧ (t.capture c).trigTime = s.shelfNs ∧
          (t.capture c).trigKind = (s.captureC c).trigKind ∧ ∀ j, j ≠ c → t.capture j = s.capture j) ∧
      ((s.captureC c).trigKind = 0 ∨ (s.capture c).window = none →
        ∃ t, Machine.exec (.captureTrigger .block c) s = .next t ∧ OnlyChanges [.sent] s t) ∧
      (s.onGrid (State.crateSlots (s.captureC c).crate) = false →
        ∃ t, Machine.exec (.captureSample c) s = .next t ∧ OnlyChanges [.sent] s t) ∧
      (∀ xs, s.fw = true → s.onGrid (State.crateSlots (s.captureC c).crate) = true → (s.capture c).window = some xs →
        (s.capture c).phase = .armed ∨ ((s.capture c).phase = .triggered ∧ (s.capture c).after < s.captureAfter c) →
        ∃ t, Machine.exec (.captureSample c) s = .next t ∧ OnlyChanges [.sent, .score] s t ∧
          (t.capture c).phase = (s.capture c).phase ∧
          (t.capture c).window = some (((s.captureC c).signals.toList.map s.signal :: xs).take 4096) ∧
          (t.capture c).after = (s.capture c).after + (if (s.capture c).phase = .triggered then 1 else 0) ∧
          ∀ j, j ≠ c → t.capture j = s.capture j) ∧
      ((s.capture c).phase = .triggered → s.score.stopped = false → s.captureAfter c ≤ (s.capture c).after →
        ∃ t, Machine.exec (.captureWindowFull c) s = .next t ∧ OnlyChanges [.sent, .score] s t ∧
          t.capture c = { s.capture c with phase := .saving, dataValid := false } ∧ ∀ j, j ≠ c → t.capture j = s.capture j) ∧
      (∀ xs, (s.capture c).phase = .saving → s.score.stopped = false → (s.capture c).window = some xs → xs.length ≤ 4096 →
        ∃ t, Machine.exec (.captureSaved c) s = .next t ∧ OnlyChanges [.sent, .score] s t ∧ (t.capture c).dataValid = true ∧
          (t.capture c).data.length = 4096 ∧ (t.capture c).data.drop (4096 - xs.length) = xs.reverse ∧
          (t.capture c).phase = (if (s.captureC c).autoRearm then .armed else .held) ∧
          ∀ j, j ≠ c → t.capture j = s.capture j))

/-! ### Patches and images (chapter 14) -/

/-- Pieces of a load: a first piece at offset 0, and a further one that follows what has arrived, are appended; the load
is Loaded as soon as it has the length that its header gives, and Loading before (R371, Table 14-8). A piece of an image
goes into the inactive slot, which becomes unusable (R401). -/
def Obligations.PiecesArrive : Prop :=
  ∀ (s : State) (h : Hdr) (e : Expect) (offset : Nat) (bs : List Byte), 24 + bs.length ≤ limitOf h.host →
    (Admitted s h e (Family.patch.index 0 0) 1 bs →
      offset = 0 ∨ (0 < offset ∧ offset = s.patch.content.length ∧ offset + bs.length ≤ 1048576 ∧ s.patch.phase = .loading) →
      let c := s.patch.content.take offset ++ bs
      ∃ t, Machine.exec (.patchPiece h e offset bs) s = .next t ∧ Accepted t h ∧ t.patch.content = c ∧
        t.patch.phase = (if patchComplete c then .loaded else .loading) ∧ t.image = s.image ∧ t.slots = s.slots) ∧
    (Admitted s h e (Family.image.index 0 0) 1 bs → s.bootRec.active < 2 →
      (offset = 0 ∧ s.patch.phase ≠ .busy ∧ s.patch.phase ≠ .done ∧ s.image.phase ≠ .busy ∧ s.image.phase ≠ .done) ∨
        (0 < offset ∧ offset = s.image.content.length ∧ offset + bs.length ≤ 3145728 ∧ s.image.phase = .loading) →
      let c := s.image.content.take offset ++ bs
      ∃ t, Machine.exec (.imagePiece h e offset bs) s = .next t ∧ Accepted t h ∧ t.image.content = c ∧
        t.image.phase = (if imageComplete c then .loaded else .loading) ∧ t.patch = s.patch ∧
        (t.slotImg s.inactive).content = c ∧ (t.slotImg s.inactive).unusable = true ∧
        t.slotImg s.bootRec.active = s.slotImg s.bootRec.active)

/-- The commands of a patch (Table 14-8): a verification without a failure leads to Verified, one with a failure to
Failed; an application that no condition of Table 14-7 refuses makes it busy and the inactive slot unusable, and its end
names that slot as the trial where the built slot verifies with the target version; discard empties it (R400 to R405). -/
def Sys2Proof.PatchCommandsComplete : Prop :=
  (∀ (s : State) (h : Hdr) (e : Expect),
    (AdmittedPut s h e (Family.patch.index 0 0) 2 1 → s.patch.phase = .loaded →
      ∃ t, Machine.exec (.patchVerify h e) s = .next t ∧ Accepted t h ∧
        t.patch.phase = (if patchFailure s.patch.content s.activeContent = 0 then .verified else .failed) ∧
        t.patch.failure = patchFailure s.patch.content s.activeContent ∧ t.patch.content = s.patch.content ∧
        t.slots = s.slots ∧ t.bootRec = s.bootRec) ∧
    (AdmittedPut s h e (Family.patch.index 0 0) 2 2 → s.bootRec.active < 2 → s.patchApplyOk = true → s.writeConditions = 0 →
      ∃ t, Machine.exec (.patchApply h e) s = .next t ∧ Accepted t h ∧ t.patch.phase = .busy ∧ t.boot.refusals = 0 ∧
        (t.slotImg s.inactive).unusable = true ∧ t.slotImg s.bootRec.active = s.slotImg s.bootRec.active) ∧
    (AdmittedPut s h e (Family.patch.index 0 0) 2 3 → s.patch.phase ≠ .busy →
      ∃ t, Machine.exec (.patchDiscard h e) s = .next t ∧ Accepted t h ∧ t.patch.phase = .empty ∧ t.patch.content = [] ∧
        (s.patch.phase = .done → s.bootRec.trial = s.inactive → t.bootRec.trial = 255) ∧
        (s.patch.phase ≠ .done → t.bootRec = s.bootRec ∧ t.slots = s.slots))) ∧
  (∀ s : State, s.boot.phase ≠ .held → s.patch.phase = .busy → s.bootRec.active < 2 →
    let b := buildSlot s.patch.content s.activeContent
    ∃ t, Machine.exec .patchApplyDone s = .next t ∧ (t.slotImg s.inactive).content = b ∧
      t.slotImg s.bootRec.active = s.slotImg s.bootRec.active ∧
      if slotVerifies b = true ∧ fwVersion b = targetVersion s.patch.content then
        t.patch.phase = .done ∧ t.bootRec.trial = s.inactive ∧ (t.slotImg s.inactive).unusable = false
      else t.patch.phase = .failed ∧ t.bootRec.trial = s.bootRec.trial ∧ Registers t srcBoot 5)

/-- The commands of an image (Table 14-8), and a condition of Table 14-7 that arises during a slot write: it stops the
write, names its conditions and leaves the slot unusable (R401, R404, R405). -/
def Sys2Proof.ImageCommandsComplete : Prop :=
  (∀ (s : State) (h : Hdr) (e : Expect),
    (AdmittedPut s h e (Family.image.index 0 0) 2 1 → s.imageWriteOk = true → s.writeConditions = 0 →
      ∃ t, Machine.exec (.imageWrite h e) s = .next t ∧ Accepted t h ∧ t.boot.refusals = 0 ∧ t.slots = s.slots ∧
        if slotVerifies s.image.content then t.image.phase = .busy ∧ t.bootRec.trial = s.inactive
        else t.image.phase = .failed ∧ t.bootRec = s.bootRec ∧ Registers t srcBoot 5) ∧
    (AdmittedPut s h e (Family.image.index 0 0) 2 3 → s.image.phase ≠ .busy →
      ∃ t, Machine.exec (.imageDiscard h e) s = .next t ∧ Accepted t h ∧ t.image.phase = .empty ∧ t.image.content = [] ∧
        (s.image.phase = .done → s.bootRec.trial = s.inactive → t.bootRec.trial = 255) ∧
        (s.image.phase ≠ .done → t.bootRec = s.bootRec ∧ t.slots = s.slots))) ∧
  (∀ s : State, s.boot.phase ≠ .held → s.image.phase = .busy → s.bootRec.active < 2 →
    (∃ t, Machine.exec .imageWriteDone s = .next t ∧ t.image.phase = .done ∧ t.image.content = s.image.content ∧
      (t.slotImg s.inactive).unusable = false ∧ t.bootRec = s.bootRec)) ∧
  (∀ s : State, s.boot.phase ≠ .held → s.onGrid 2000 = true → s.bootRec.active < 2 → s.writeConditions &&& 0x3F ≠ 0 →
    (s.patch.phase = .busy → s.image.phase ≠ .busy →
      ∃ t, Machine.exec .slotWriteConditionStop s = .next t ∧ t.patch.phase = .verified ∧
        t.boot.refusals = s.writeConditions &&& 0x3F ∧ (t.slotImg s.inactive).unusable = true ∧ t.bootRec = s.bootRec) ∧
    (s.image.phase = .busy → s.patch.phase ≠ .busy →
      ∃ t, Machine.exec .slotWriteConditionStop s = .next t ∧ t.image.phase = .loaded ∧
        t.boot.refusals = s.writeConditions &&& 0x3F ∧ (t.slotImg s.inactive).unusable = true ∧
        t.bootRec.trial ≠ s.inactive))

/-- The commands of a patch and of an image and the ends of their slot writes (Table 14-8, R400 to R405). -/
def Obligations.LoadCommandsComplete : Prop := PatchCommandsComplete ∧ ImageCommandsComplete


/-! ### Fuses, presence and the seal (chapters 12 and 14) -/

/-- The fuse commands (Table 13-7): a read and a margin read start on the addressed word while the controller is free; a
baste that is not refused and keeps every value within its ceilings replaces the shadow of that word alone and burns
nothing; a stitch starts; the owner lock is set, and released where OWNER_FIX is 0 (R410, R413, R414, R416). -/
def Sys2Proof.FuseCommandsComplete : Prop :=
  ∀ (s : State) (h : Hdr) (e : Expect),
    (s.fuses.busy = none →
      (AdmittedPut s h e (Family.fuse.index 0 0) 2 1 → ∃ t, Machine.exec (.fuseRead h e) s = .next t ∧ Accepted t h ∧
        t.fuses = { s.fuses with busy := some (.read, s.fuses.addr, s.clock.up), status := 1, seat := h.seat }) ∧
      (AdmittedPut s h e (Family.fuse.index 0 0) 2 2 → ∃ t, Machine.exec (.fuseMarginRead h e) s = .next t ∧ Accepted t h ∧
        t.fuses = { s.fuses with busy := some (.margin, s.fuses.addr, s.clock.up), status := 1, seat := h.seat })) ∧
    (AdmittedPut s h e (Family.fuse.index 0 0) 7 1 → s.fuseRefused = false → s.withinCeilings s.basted = true →
      ∃ t, Machine.exec (.baste h e) s = .next t ∧ Accepted t h ∧
        t.fuses = { s.fuses with shadow := vmod s.fuses.shadow s.fuses.addr (fun _ => s.fuses.baste) }) ∧
    (AdmittedPut s h e (Family.fuse.index 0 0) 7 2 → s.stitchRefused = false →
      ∃ t, Machine.exec (.stitch h e) s = .next t ∧ Accepted t h ∧ t.fuses.burned = s.fuses.burned ∧
        t.fuses.shadow = s.fuses.shadow ∧ t.fuses.status = 1 ∧
        t.fuses.busy = some (.stitch, s.fuses.addr, s.clock.up)) ∧
    (AdmittedPut s h e (Family.owner.index 0 0) 2 1 →
      ∃ t, Machine.exec (.ownerLockSet h e) s = .next t ∧ Accepted t h ∧
        t.bootRec.toBootRecord = { s.bootRec.toBootRecord with ownerLock := true } ∧ t.fuses = s.fuses) ∧
    (AdmittedPut s h e (Family.owner.index 0 0) 2 2 → s.ownerFix = false →
      ∃ t, Machine.exec (.ownerLockRelease h e) s = .next t ∧ Accepted t h ∧
        t.bootRec.toBootRecord = { s.bootRec.toBootRecord with ownerLock := false } ∧ t.fuses = s.fuses)

/-- The ends of the fuse operations: a read gives the cells as they read, without changing one; a stitch burns every bit
that is 1 in the shadow and clears none, and its status tells whether both thresholds read the shadow; the margin sweep
burns nothing (R408, R410, R411, R414). -/
def Sys2Proof.FuseOperationsEnd : Prop :=
  ∀ (s : State) (missN missT : Word), s.boot.phase ≠ .held →
    (∀ w at', s.fuses.busy = some (.read, w, at') → 40 ≤ elapsedAo s at' →
      ∃ t, Machine.exec (.fuseReadDone missN missT) s = .next t ∧ OnlyChanges [.sent, .fuses] s t ∧
        t.fuses = { s.fuses with busy := none, status := 2, value := vget s.fuses.burned w 0 &&& ~~~missN }) ∧
    (∀ w at', s.fuses.busy = some (.margin, w, at') → 80 ≤ elapsedAo s at' →
      let n := vget s.fuses.burned w 0 &&& ~~~missN
      let m := vget s.fuses.burned w 0 &&& ~~~missT
      ∃ t, Machine.exec (.fuseReadDone missN missT) s = .next t ∧ t.fuses.burned = s.fuses.burned ∧
        t.fuses.shadow = s.fuses.shadow ∧ t.fuses.busy = none ∧ t.fuses.status = 2 ∧ t.fuses.value = m ∧
        (w ∈ t.fuses.marginal ↔ n ≠ m)) ∧
    (∀ w at', w < 256 → s.fuses.busy = some (.stitch, w, at') →
      let b := vget s.fuses.burned w 0 ||| vget s.fuses.shadow w 0
      ∃ t, Machine.exec (.stitchDone missN missT) s = .next t ∧ vget t.fuses.burned w 0 = b ∧
        (∀ j, j ≠ w → vget t.fuses.burned j 0 = vget s.fuses.burned j 0) ∧ t.fuses.shadow = s.fuses.shadow ∧
        t.fuses.busy = none ∧ t.fuses.status = (if b &&& ~~~missN = vget s.fuses.shadow w 0 ∧
          b &&& ~~~missT = vget s.fuses.shadow w 0 then 2 else 3)) ∧
    (∀ weak, s.fw = true → s.sweepDue = true →
      ∃ t, Machine.exec (.fuseMarginSweep weak) s = .next t ∧ t.fuses.burned = s.fuses.burned ∧
        t.fuses.shadow = s.fuses.shadow ∧ t.fuses.status = s.fuses.status ∧ t.fuses.value = s.fuses.value ∧ t.fuses.sweep = some s.clock.up ∧
        ∀ w, w < 256 → (w ∈ t.fuses.marginal ↔ ∃ x, weak.find? (fun y => y.1 == w) = some x ∧
          vget s.fuses.burned w 0 &&& ~~~x.2.1 ≠ vget s.fuses.burned w 0 &&& ~~~x.2.2))

/-- The fuse and owner commands (Table 13-7) and the ends of the fuse operations (R410 to R416).
Rests on choices of the model: assumption 104. -/
def Obligations.FuseOperationsComplete : Prop := FuseCommandsComplete ∧ FuseOperationsEnd


/-- Presence (R357): the button opens a window or restarts it, the window expires after its length, the presence command
ends it, and the jumper counts while it is fitted. The seal (R359): arming stitches its mark; the fourth check in a row
that differs breaks an armed seal and stitches the break with its time, unless the scorebook is stopped.
Rests on choices of the model: assumptions 105 and 109. -/
def Obligations.PresenceAndSealAct : Prop :=
  (∀ s : State, s.boot.aoLost = false →
    (∃ t, Machine.exec .presenceWindowOpen s = .next t ∧ OnlyChanges [.sent, .presence, .score] s t ∧
      t.presence = { s.presence with window := some s.clock.up }) ∧
    (∀ at', s.presence.window = some at' → s.cfg.presWindow ≤ elapsedAo s at' →
      ∃ t, Machine.exec .presenceWindowExpire s = .next t ∧ OnlyChanges [.sent, .presence, .score] s t ∧
        t.presence = { s.presence with window := none }) ∧
    (∃ t, Machine.exec .jumperFitted s = .next t ∧ OnlyChanges [.sent, .presence, .score] s t ∧
      t.presence = { s.presence with jumper := true }) ∧
    (∃ t, Machine.exec .jumperRemoved s = .next t ∧ OnlyChanges [.sent, .presence, .score] s t ∧
      t.presence = { s.presence with jumper := false })) ∧
  (∀ (s : State) (h : Hdr) (e : Expect),
    (AdmittedPut s h e (Family.presence.index 0 0) 5 1 →
      ∃ t, Machine.exec (.presenceEnd h e) s = .next t ∧ Accepted t h ∧ t.presence = { s.presence with window := none }) ∧
    (AdmittedPut s h e (Family.seal.index 0 0) 2 1 → s.sealReady = true →
      ∃ t, Machine.exec (.sealArm h e) s = .next t ∧ Accepted t h ∧ t.tamper.armed = true ∧ t.tamper.broken = s.tamper.broken ∧
        t.fuses.shadow = s.fuses.shadow ∧ vget t.fuses.burned 112 0 = vget s.fuses.burned 112 0 ||| 1 ∧
        ∀ w, w ≠ 112 → vget t.fuses.burned w 0 = vget s.fuses.burned w 0)) ∧
  (∀ (s : State) (equal : Bool), s.boot.aoLost = false →
    ∃ t, Machine.exec (.sealCheck equal) s = .next t ∧ OnlyChanges [.sent, .tamper, .fuses, .lint, .score] s t ∧
      t.fuses.shadow = s.fuses.shadow ∧
      t.tamper.matched = (if equal then min 100 (s.tamper.matched + 1) else 0) ∧
      t.tamper.differed = (if equal then 0 else s.tamper.differed + 1) ∧
      if s.tamper.armed = true ∧ s.tamper.broken = false ∧ equal = false ∧ s.tamper.differed = 3 then
        t.tamper.broken = true ∧ t.tamper.breakAt = s.shelfNs ∧ Registers t srcSeal 0 ∧
          (s.score.stopped = false → vget t.fuses.burned 113 0 = vget s.fuses.burned 113 0 ||| 1 ∧ t.tamper.stitched = true)
      else t.tamper.broken = s.tamper.broken ∧ t.fuses = s.fuses)

/-! ### Two-wire ports and sensors (chapter 15) -/

/-- The rows of Table 15-1: port command 1 and one second in Stuck start a recovery; a recovery samples SDA before the first
clock and after each clock, ends with a STOP at the first sample that is high, and in Stuck when it is still low after nine
clocks or when SCL stays low; a poll that is due starts, the lowest-numbered first, or a low SDA starts a recovery; a
transaction ends with a reading, without an acknowledge, or with a bus error (R421 to R427). A port that comes to Idle starts the
lowest-numbered poll that waits there; what a port sends is named: START with the octets written and read, STOP, the clocks of
a recovery (R426).
Rests on choices of the model: assumptions 103 and 115. -/
def Obligations.TwoWirePortsFollowTheirTable : Prop :=
  ∀ (s : State) (t : Nat), t < 4 → s.boot.phase ≠ .held →
    let r := s.tw t
    let recovers (u : State) : Prop := (u.tw t).phase = .recovery ∧ (u.tw t).recoveries = r.recoveries + 1 ∧
      (u.tw t).polling = 255 ∧ (u.tw t).since = s.clock.up ∧ ∀ j, j ≠ t → u.tw j = s.tw j
    let fails (u : State) : Prop := recovers u ∧ (u.tw t).errors = r.errors + 1 ∧ Registers u (srcTw t) 1 ∧
      (r.polling < 16 → vget u.sensors r.polling {} = { vget s.sensors r.polling {} with status := 2 }) ∧
      ∀ n, n ≠ r.polling → vget u.sensors n {} = vget s.sensors n {}
    let stops (u : State) : Prop := u.tw t = { r with phase := .stuck, since := s.clock.up, stuck := true } ∧
      Registers u (srcTw t) 0 ∧ ∀ j, j ≠ t → u.tw j = s.tw j
    let polled (n : Nat) : Bool := (s.sensorC n).port == t && (s.sensorC n).stype != 0
    let goesOn (u : State) (clocks : Nat) : Prop := .twStop t clocks ∈ u.out ∧ (∀ j, j ≠ t → u.tw j = s.tw j) ∧
      match r.due.filter polled with
      | [] => (u.tw t).phase = .idle ∧ (u.tw t).polling = 255 ∧ (u.tw t).due = []
      | n :: rest => (u.tw t).phase = .busy ∧ (u.tw t).polling = n ∧ (u.tw t).due = rest ∧ s.twTransaction t n ∈ u.out
    (∀ (h : Hdr) (e : Expect), AdmittedPut s h e (Family.twPort.index t 0) 6 1 → s.twCommandOk t = true →
      ∃ u, Machine.exec (.twBusRecovery h e t) s = .next u ∧ Accepted u h ∧ recovers u) ∧
    (r.phase = .stuck → 1000000 ≤ elapsedAo s r.since →
      ∃ u, Machine.exec (.twStuckRetry t) s = .next u ∧ OnlyChanges [.sent, .tws] s u ∧ recovers u) ∧
    (r.phase = .recovery →
      (∀ sda clocks, (sda.take 10).findIdx? id = some clocks →
        ∃ u, Machine.exec (.twRecoveryEnd t sda) s = .next u ∧ OnlyChanges [.sent, .tws] s u ∧ (u.tw t).stuck = false ∧
          goesOn u clocks) ∧
      (∀ sda, 10 ≤ sda.length → (∀ x ∈ sda.take 10, x = false) →
        ∃ u, Machine.exec (.twRecoveryEnd t sda) s = .next u ∧ OnlyChanges [.sent, .tws, .lint] s u ∧ stops u ∧
          u.out = [.twClocks t 9]) ∧
      ∃ u, Machine.exec (.twSclTimeout t) s = .next u ∧ OnlyChanges [.sent, .tws, .lint] s u ∧ stops u) ∧
    (r.phase = .busy →
      (∃ u, Machine.exec (.twSclTimeout t) s = .next u ∧ OnlyChanges [.sent, .tws, .sensors, .lint] s u ∧ fails u) ∧
      (∃ u, Machine.exec (.twTransactionComplete t .busError) s = .next u ∧ fails u) ∧
      (∀ b0 b1 pec, sensorPecOk (s.sensorC r.polling) b0 b1 pec = false →
        ∃ u, Machine.exec (.twTransactionComplete t (.data b0 b1 pec)) s = .next u ∧ fails u) ∧
      (∀ b0 b1 pec, r.polling < 16 → sensorPecOk (s.sensorC r.polling) b0 b1 pec = true →
        ∃ u, Machine.exec (.twTransactionComplete t (.data b0 b1 pec)) s = .next u ∧ OnlyChanges [.sent, .tws, .sensors] s u ∧
          goesOn u 0 ∧ (vget u.sensors r.polling {}).status = 1 ∧
          (vget u.sensors r.polling {}).reading = sensorReading (s.sensorC r.polling).stype b0 b1 ∧
          (vget u.sensors r.polling {}).time = s.shelfNs ∧ ∀ n, n ≠ r.polling → vget u.sensors n {} = vget s.sensors n {}) ∧
      (r.polling < 16 → ∃ u, Machine.exec (.twTransactionComplete t .noAck) s = .next u ∧ goesOn u 0 ∧
        vget u.sensors r.polling {} = { vget s.sensors r.polling {} with status := 2 })) ∧
    (∀ (n : Nat) (scl : Bool), (s.sensorC n).port = t → (s.sensorC n).stype ≠ 0 → s.fw = true → s.pollDue n = true →
      r.phase = .idle →
      (∃ u, Machine.exec (.sensorPoll n scl false) s = .next u ∧ OnlyChanges [.sent, .tws, .sensors] s u ∧ recovers u) ∧
      (∃ u, Machine.exec (.sensorPoll n false true) s = .next u ∧ OnlyChanges [.sent, .tws, .sensors] s u ∧ (u.tw t).phase = .idle ∧
        n ∈ (u.tw t).due ∧ ∀ j, j ≠ t → u.tw j = s.tw j) ∧
      ∃ u, Machine.exec (.sensorPoll n true true) s = .next u ∧ OnlyChanges [.sent, .tws, .sensors] s u ∧ (u.tw t).phase = .busy ∧
        (u.tw t).polling ∈ n :: r.due ∧ u.out = [s.twTransaction t (u.tw t).polling] ∧
        (r.due.Pairwise (· ≤ ·) → ∀ m ∈ n :: r.due, polled m = true → (u.tw t).polling ≤ m) ∧ ∀ j, j ≠ t → u.tw j = s.tw j)

/-- The read commands of Table 15-3 that do not depend on the page: command, code, the index whose read right they need,
octets. -/
def Sys2Proof.fixedReads (s : State) (t : Nat) (ack : Bool) : List (Instr × Byte × Option Nat × List Byte) :=
  let block (sub : Nat) : List Byte := BitVec.ofNat 8 (s.ttOctets t 0x1000 sub).length :: s.ttOctets t 0x1000 sub
  [(.page t (.read ack), 0x00, none, [BitVec.ofNat 8 (s.tt t).page]), (.capability ⟨t, ack⟩, 0x19, none, [0xC0]),
   (.voutMode ⟨t, ack⟩, 0x20, none, [0x17]), (.pmbusRevision ⟨t, ack⟩, 0x98, none, [0x33]),
   (.statusByte ⟨t, ack⟩, 0x78, some 0x8000, leBytes 1 (s.statusWord t)), (.statusWord ⟨t, ack⟩, 0x79, some 0x8000, leBytes 2 (s.statusWord t)),
   (.statusCml ⟨t, ack⟩, 0x7E, some 0x8000, [(s.tt t).cml]), (.mfrId ⟨t, ack⟩, 0x99, some 0x1000, block 1),
   (.mfrModel ⟨t, ack⟩, 0x9A, some 0x1000, block 2), (.mfrRevision ⟨t, ack⟩, 0x9B, some 0x1000, block 6),
   (.mfrSerial ⟨t, ack⟩, 0x9E, some 0x1000, block 5)]

/-- The readings of Table 15-3 on the present page: page 0 is the shelf, page z + 1 is feed z. -/
def Sys2Proof.pageReads (s : State) (t : Nat) (ack : Bool) : List (Instr × Byte × Option Nat × List Byte) :=
  let l11 (index sub den : Nat) : Option Nat × List Byte := (some index, leBytes 2 (toLinear11 (s.ttValue t index sub) den))
  let l16 (index sub : Nat) : Option Nat × List Byte := (some index, leBytes 2 (linear16 (s.ttValue t index sub)))
  match (s.tt t).page with
  | 0 => [(.readVout ⟨t, ack⟩, 0x8B, l16 (Family.sense.index s.cfg.bus.busSn 0) 3),
      (.readTemperature1 ⟨t, ack⟩, 0x8D, l11 (Family.soakModel.index 64 5) 1 100), (.readPout ⟨t, ack⟩, 0x96, l11 0x2000 7 1),
      (.readPin ⟨t, ack⟩, 0x97, l11 0x2000 8 1)]
  | z + 1 => [(.readVin ⟨t, ack⟩, 0x88, l11 (Family.feed.index z 3) 1 1000), (.readVout ⟨t, ack⟩, 0x8B, l16 (Family.feed.index z 3) 2),
      (.readIout ⟨t, ack⟩, 0x8C, l11 (Family.feed.index z 3) 4 1000), (.readPout ⟨t, ack⟩, 0x96, l11 (Family.zone.index z 0) 5 1)] ++
      if (s.feedB z).model < 65 then [(.readTemperature1 ⟨t, ack⟩, 0x8D, l11 (Family.soakModel.index (s.feedB z).model 5) 1 100)] else []

/-- A read command of Table 15-3 is answered with its octets, and with their PEC over the whole transaction where the host
acknowledges the last of them (R431, R434, R436), where the seat has the read right of the area; without the right it is
refused at its command octet (R433). Each touches the lease of the port's seat (R355). -/
def Sys2Proof.TargetReadsAnswer : Prop :=
  ∀ (s : State) (t : Nat) (ack : Bool) (c : Instr) (code : Byte) (need : Option Nat) (data : List Byte), s.ttServes t = true →
    (c, code, need, data) ∈ fixedReads s t ack ++ pageReads s t ack →
    (s.ttMay t need = true → ∃ u, Machine.exec c s = .next u ∧ OnlyChanges [.sent, .seats] s u ∧
      u.out = [.target t (data ++ if ack then [crc8 ([s.ttW t, code, s.ttR t] ++ data)] else [])] ∧
      (s.ttSeat t < 8 → (u.seat (s.ttSeat t)).leaseAt = s.clock.up)) ∧
    (s.ttMay t need = false → ∃ u, Machine.exec c s = .next u ∧ OnlyChanges [.sent, .seats, .tts] s u ∧ u.out = [.nack t] ∧
      bitAt (u.tt t).cml 7 = true)

/-- STATUS_WORD on page 0 and on the page of a feed, bit by bit (R435, Table 15-4).
Rests on choices of the model: assumption 74. -/
def Obligations.StatusWordShowsItsPage : Prop :=
  ∀ (s : State) (t : Nat),
    let w := s.statusWord t
    let y := (s.sense s.cfg.bus.busSn).y
    w.testBit 12 = s.lint.episode.opn ∧ w.testBit 1 = ((s.tt t).cml != 0) ∧
    w.testBit 0 = s.lint.causes.toList.any (· != 0) ∧
    ((s.tt t).page = 0 →
      w.testBit 15 = (decide (s.cfg.bus.winHi < y) || decide (y < s.cfg.bus.winLo)) ∧ w.testBit 11 = w.testBit 15 ∧
      w.testBit 5 = decide (s.cfg.bus.winHi < y) ∧ w.testBit 13 = s.shelf.loss.declared ∧ w.testBit 3 = w.testBit 13 ∧
      w.testBit 6 = s.lint.safe ∧ w.testBit 2 = allModels.any s.modelHot ∧ w.testBit 14 = false ∧ w.testBit 4 = false) ∧
    (∀ z, (s.tt t).page = z + 1 →
      w.testBit 15 = false ∧ w.testBit 13 = false ∧ w.testBit 14 = (s.thrReasons z != 0) ∧
      w.testBit 6 = ((s.feed z).phase != .on) ∧ w.testBit 11 = w.testBit 6 ∧
      w.testBit 4 = (((s.feed z).phase == .retryWait || (s.feed z).phase == .latched) &&
        ((s.feed z).cause == 2 || (s.feed z).cause == 3)) ∧
      w.testBit 2 = (decide ((s.feedB z).model < 65) && s.modelHot (s.feedB z).model))

/-- Writes over a target port: PAGE takes 0 to 16 and CLEAR_FAULTS clears STATUS_CML while the port's seat is not Free; a
message for the port's seat with a right PEC is processed and its response queued, and refused with status 0x0D while eight wait;
a PEC that fails, a write that is incomplete, an aborted write and a timeout in a write are discarded with bit 5 of STATUS_CML,
and nothing else of the port changes (R339, R355, R429, R430, R432, R434). A code that Table 15-3 does not list is not
acknowledged, with bit 7; a message for another seat or shorter than its header and a write to a read command are refused after
the code, with bit 6 (R433). -/
def Sys2Proof.TargetWritesComplete : Prop :=
  ∀ (s : State) (t : Nat), s.ttServes t = true →
    let discarded (u : State) : Prop := u.tt t = { s.tt t with discarded := ((s.tt t).discarded + 1) % 4294967296
                                                               cml := (s.tt t).cml ||| 32 }
    let refused (u : State) (bit : Nat) : Prop := OnlyChanges [.sent, .seats, .tts] s u ∧ u.out = [.nack t] ∧
      u.tt t = { s.tt t with cml := (s.tt t).cml ||| BitVec.ofNat 8 (2 ^ bit) }
    (∀ (v : Byte) (pec : Option Byte), pecOk [s.ttW t, 0x00, v] pec = true → s.ttWritable t = true → v.toNat ≤ 16 →
      ∃ u, Machine.exec (.page t (.write [v] pec)) s = .next u ∧ OnlyChanges [.sent, .seats, .tts] s u ∧ u.out = [] ∧
        u.tt t = { s.tt t with page := v.toNat }) ∧
    (∀ (octets : List Byte) (pec : Option Byte), octets = [] ∨ pecOk ([s.ttW t, 0x00] ++ octets) pec = false →
      ∃ u, Machine.exec (.page t (.write octets pec)) s = .next u ∧ OnlyChanges [.sent, .seats, .tts] s u ∧ discarded u) ∧
    (∀ pec : Option Byte, pecOk [s.ttW t, 0x03] pec = true → s.ttWritable t = true →
      ∃ u, Machine.exec (.clearFaults t pec) s = .next u ∧ OnlyChanges [.sent, .seats, .tts] s u ∧ u.out = [] ∧
        u.tt t = { s.tt t with cml := 0 }) ∧
    (∀ pec : Option Byte, pecOk [s.ttW t, 0x03] pec = false → s.ttWritable t = true →
      ∃ u, Machine.exec (.clearFaults t pec) s = .next u ∧ OnlyChanges [.sent, .seats, .tts] s u ∧ discarded u) ∧
    (∀ pec : Option Byte, s.ttWritable t = false → ∃ u, Machine.exec (.clearFaults t pec) s = .next u ∧ refused u 7) ∧
    (∀ (m : List Byte) (tag : Nat) (session : Half), s.sessionOk (s.ttSeat t) session = true → s.ttSeat t < 8 → tag < 65536 →
      (∀ x ∈ (s.seat (s.ttSeat t)).replay, x.tag ≠ tag) →
      m = [0x01, 0x04, BitVec.ofNat 8 (s.ttSeat t), 0, 0, 0] ++ leBytes 2 session.toNat ++ leBytes 2 tag ++ [0, 0] →
      ∃ u r, Machine.exec (.oapWrite t false { count := 12, octets := m } (some (crc8 ([s.ttW t, 0xD0, 12] ++ m)))) s = .next u ∧
        OnlyChanges [.sent, .seats, .tts] s u ∧
        (u.tt t).responses = (s.tt t).responses ++ [{ at' := s.clock.up, reply := r }] ∧ r.op = 0x84 ∧ r.tag = tag ∧
        r.session = session ∧ r.seat = s.ttSeat t ∧
        if s.ttFull t = true ∨ 8 ≤ s.unanswered (s.ttSeat t) then r.status = 0x0D ∧ r.body = []
        else r.status = 0 ∧ r.body = leBytes 8 s.shelfNs) ∧
    (∀ (x : BlockIn) (busy : Bool) (pec : Option Byte), x.code = 0xD0 →
      x.octets.length ≠ x.count.toNat ∨ pec ≠ some (crc8 ([s.ttW t, 0xD0, x.count] ++ x.octets)) →
      ∃ u, Machine.exec (.oapWrite t busy x pec) s = .next u ∧ OnlyChanges [.sent, .seats, .tts] s u ∧ discarded u) ∧
    (∀ (x : BlockIn) (busy : Bool) (pec : Option Byte), x.code = 0xD0 → x.octets.length = x.count.toNat →
      pec = some (crc8 ([s.ttW t, 0xD0, x.count] ++ x.octets)) →
      x.octets.length < 12 ∨ (x.octets.getD 2 0).toNat % 8 ≠ s.ttSeat t →
      ∃ u, Machine.exec (.oapWrite t busy x pec) s = .next u ∧ refused u 6) ∧
    (∀ (x : BlockIn) (busy : Bool) (pec : Option Byte), x.code ∉ [0xD0, 0xD1, 0x00, 0x03] → s.ttTable t x.code.toNat = none →
      ∃ u, Machine.exec (.oapWrite t busy x pec) s = .next u ∧ refused u 7) ∧
    (∀ (x : BlockIn) (busy : Bool) (pec : Option Byte) e, x.code ∉ [0xD0, 0xD1, 0x00, 0x03] → s.ttTable t x.code.toNat = some e →
      ∃ u, Machine.exec (.oapWrite t busy x pec) s = .next u ∧ refused u (if s.ttMayUse t e then 6 else 7)) ∧
    (∀ (x : BlockIn) (busy : Bool) (pec : Option Byte), x.code = 0xD1 →
      ∃ u, Machine.exec (.oapWrite t busy x pec) s = .next u ∧ refused u 6) ∧
    (∃ u, Machine.exec (.targetWriteAbort t) s = .next u ∧ OnlyChanges [.sent, .tts] s u ∧ discarded u) ∧
    (∃ u, Machine.exec (.targetSclTimeout t true) s = .next u ∧ OnlyChanges [.sent, .tts] s u ∧ discarded u) ∧
    Machine.exec (.targetSclTimeout t false) s = .next { s with out := [] }

/-- OAP_READ gives the oldest queued response or notification as one block, with its PEC where the host acknowledges the last
octet, and a block of length 0 from an empty queue (R355); the write that waited for a response takes effect once the response is
sent (R363, R379). Host Notify leaves once a queue is not empty, and again 100 ms later; one that loses arbitration
stays due and is tried again (R437, R438). -/
def Sys2Proof.TargetQueueDrains : Prop :=
  ∀ (s : State) (t : Nat) (ack : Bool), s.ttServes t = true →
    let block (m : List Byte) : Sent := .target t ((BitVec.ofNat 8 m.length :: m) ++
      if ack then [crc8 ([s.ttW t, 0xD1, s.ttR t] ++ (BitVec.ofNat 8 m.length :: m))] else [])
    ((s.tt t).responses = [] → s.ttNotices t = [] →
      ∃ u, Machine.exec (.oapRead ⟨t, ack⟩) s = .next u ∧ u.out = [block []] ∧ (u.tt t).responses = []) ∧
    (∀ q rest, (s.tt t).responses = q :: rest → (∀ n ∈ s.ttNotices t, q.at' ≤ n.stamp) →
      (q.effect = none →
        ∃ u, Machine.exec (.oapRead ⟨t, ack⟩) s = .next u ∧ OnlyChanges [.sent, .seats, .tts] s u ∧ u.out = [block q.reply.octets] ∧
          (u.tt t).responses = rest) ∧
      (∀ index sub v x, q.effect = some (index, sub, v) → anyObject? index sub = some x →
        (x.fam = .resets → ∃ u, Machine.exec (.oapRead ⟨t, ack⟩) s = .next u ∧ block q.reply.octets ∈ u.out ∧
          u.boot.phase = .held ∧ u.boot.cause = 0x12) ∧
        (0x1200 ≤ index → index < 0x1230 → x.row.kind = .reply → 0 ≤ v → v < 2 ^ (8 * x.row.ty.size.getD 0) →
          ∃ u, Machine.exec (.oapRead ⟨t, ack⟩) s = .next u ∧ block q.reply.octets ∈ u.out ∧
            u.cfg.get? x.fam x.unit x.off x.sub = some v))) ∧
    (∀ n rest, s.ttSeat t < 8 → s.ttNotices t = n :: rest → (∀ x ∈ (s.tt t).responses, n.stamp < x.at') →
      ∃ u flags, Machine.exec (.oapRead ⟨t, ack⟩) s = .next u ∧ OnlyChanges [.sent, .seats, .tts] s u ∧
        u.out = [block (noticeOctets (s.ttSeat t) flags (s.seat (s.ttSeat t)).session n)] ∧
        (u.seat (s.ttSeat t)).notices = rest ∧ (u.tt t).responses = (s.tt t).responses) ∧
    (∀ (c : Instr) (lost : Bool), s.ttEmpty t = false →
        (c = .hostNotify ⟨t, lost⟩ ∧ ((s.tt t).notified = none ∨ (s.tt t).retry = true)) ∨
        (c = .hostNotifyRepeat ⟨t, lost⟩ ∧ ∃ at', (s.tt t).notified = some at' ∧ 100000 ≤ elapsedAo s at') →
      ∃ u, Machine.exec c s = .next u ∧ OnlyChanges [.sent, .tts] s u ∧
        if lost then u.out = [] ∧ u.tt t = { s.tt t with retry := true }
        else u.out = [.hostNotify t (s.notifyOctets t)] ∧ u.tt t = { s.tt t with notified := some s.clock.up, retry := false })

/-- Writes over a target port, OAP_READ and Host Notify (R355, R429, R430, R432 to R434, R437,
R438).
Rests on choices of the model: assumptions 100 and 101. -/
def Obligations.TargetTransfersComplete : Prop := TargetWritesComplete ∧ TargetQueueDrains


/-- The target port that a command addresses, for the commands that a port acknowledges. -/
def Sys2Proof.targetOf : Instr → Option Nat
  | .oapWrite t _ _ _ | .page t _ | .clearFaults t _ => some t
  | .oapRead x | .capability x | .voutMode x | .statusByte x | .statusWord x | .statusCml x | .readVin x | .readVout x |
    .readIout x | .readTemperature1 x | .readPout x | .readPin x | .pmbusRevision x | .mfrId x | .mfrModel x | .mfrRevision x |
    .mfrSerial x => some x.port
  | _ => none

/-- A target port that is disabled, or whose part does not serve hosts, acknowledges no command, and none has an effect
(R439, Table 12-17). -/
def Sys2Proof.IdleTargetDoesNotAcknowledge : Prop :=
  ∀ (s : State) (c : Instr) (t : Nat), targetOf c = some t → s.ttServes t = false →
    Machine.exec c s = .next { s with out := [.nack t] }

/-- The read commands of Table 15-3 over a target port that serves, with and without the read right; a port that does
not serve acknowledges no command (R431, R433 to R436, R439).
Rests on choices of the model: assumptions 98, 99, 101 and 102. -/
def Obligations.TargetReadsComplete : Prop := TargetReadsAnswer ∧ IdleTargetDoesNotAcknowledge

/-! ### Resets and boot (chapters 14 and 16) -/

/-- What every warm reset leaves (Table 16-3, R448, R450): the part is held with the cause; the banks, settings, fuses and
their shadows, records, rails, orders, images and time stand; feeds keep their gates; open seats are orphaned; groups that
ran are marked for their restart, and none runs. A commit list is gone, and the status words of the seats stand. -/
structure Sys2Proof.WarmReset (s t : State) (cause : Nat) : Prop where
  held : t.boot.phase = .held ∧ t.boot.powerOn = false ∧ t.boot.cause = cause ∧ t.boot.warm = s.boot.warm + 1 ∧ t.boot.locked = false ∧
    t.boot.ended = false ∧ t.boot.heldFrom = s.clock.up
  banks : t.active = s.active ∧ t.staged = s.staged ∧ t.clock = s.clock ∧ t.rails = s.rails ∧ t.orders = s.orders
  fuses : t.fuses.burned = s.fuses.burned ∧ t.fuses.shadow = s.fuses.shadow ∧ t.fuses.locks = s.fuses.locks ∧ t.tamper = s.tamper
  images : t.slots = s.slots ∧ t.patch = s.patch ∧ t.image = s.image ∧ t.presence = s.presence
  epochs : ∀ p, (t.port p).epoch = (s.port p).epoch
  gates : ∀ z, (t.feed z).phase = (s.feed z).phase ∧ (t.feed z).mng = (s.feed z).mng ∧ (t.feed z).pcg = (s.feed z).pcg ∧
    (t.feed z).shed = (s.feed z).shed
  groups : ∀ g, (t.group g).phase = .stopped ∧
    ((s.group g).phase = .softStart ∨ (s.group g).phase = .run ∨ (s.group g).phase = .retryWait ∨ (s.group g).phase = .fallback →
      (t.group g).resumeMark = true)
  seats : ∀ k, k < 8 → (t.seat k).phase = if (s.seat k).phase = .opened then .orphaned else (s.seat k).phase
  counts : ∀ k, (t.str k).a = (s.str k).a ∧ (t.str k).remNum = (s.str k).remNum ∧ (t.str k).remDen = (s.str k).remDen
  kept : t.engine = s.engine ∧ t.tb.lostCount = s.tb.lostCount ∧ t.shelf.loss.count = s.shelf.loss.count
  flags : ∀ k, (t.str k).uncertain = (s.str k).uncertain ∧ (t.str k).rejected = (s.str k).rejected ∧
    (t.str k).learnLost = (s.str k).learnLost ∧ (t.str k).early = (s.str k).early
  lists : t.commits = {} ∧ ∀ k, (t.seat k).ticket = (s.seat k).ticket ∧ (t.seat k).result = (s.seat k).result
  firmware : t.score.firmware = false ∧ t.hardwareRun = false

/-- The sources of a warm reset, each with its cause of Table 16-2: RESET_N as it becomes low, loss of PLL lock, a cause that
another block gives, the watchdog, the start timer, a request of the firmware, which after a migration that failed leaves its
cause in the boot record, the reset command and the two ends of bench mode (R379, R392, R396, R398, R442, R445, R446). RESET_N
that is low already begins no reset, and in a power-on reset it only is low.
Rests on choices of the model: assumptions 54, 108, 141 and 151. -/
def Obligations.WarmResetsHoldThePart : Prop :=
  (∀ s : State, s.boot.resetLow = true ∨ (s.boot.phase = .held ∧ s.boot.powerOn = true) →
    Machine.exec .resetNAssert s = .next { s with out := [], boot := { s.boot with resetLow := true } }) ∧
  (∀ s : State, s.boot.phase ≠ .held ∨ s.boot.powerOn = false →
    (s.boot.resetLow = false →
      ∃ t, Machine.exec .resetNAssert s = .next t ∧ WarmReset s t 0x10 ∧ t.boot.resetLow = true) ∧
    ∀ cause, ∃ t, Machine.exec (.warmReset cause) s = .next t ∧ WarmReset s t cause) ∧
  (∀ s : State, s.boot.phase ≠ .held →
    (∃ t, Machine.exec .pllLossOfLock s = .next t ∧ WarmReset s t 0x15 ∧ t.boot.losses = s.boot.losses + 1) ∧
    (s.boot.phase = .starting ∨ s.boot.phase = .serving →
      (s.cfg.wdtTimeout ≤ elapsedAo s s.boot.served →
        ∃ t, Machine.exec .watchdogExpire s = .next t ∧ WarmReset s t 0x11 ∧ t.boot.watchdogs = s.boot.watchdogs + 1) ∧
      ∀ migration, ∃ t, Machine.exec (.firmwareResetRequest migration) s = .next t ∧ WarmReset s t 0x13 ∧
        (migration = true → s.boot.phase = .starting → s.imageData ≠ s.bootRec.stored →
          Registers t srcBoot 3 ∧ t.bootRec.cause = 2)) ∧
    (s.boot.phase = .starting → 2000000 ≤ elapsedAo s s.boot.released →
      ∃ t, Machine.exec .startTimerExpire s = .next t ∧ WarmReset s t 0x14) ∧
    (s.boot.phase = .bench →
      (∃ t, Machine.exec .benchExitButton s = .next t ∧ WarmReset s t 0x16 ∧ t.bootRec.count = 2 ∧ t.bootRec.trial = 255) ∧
      (s.benchLoaded = true →
        ∃ t, Machine.exec .benchExitTrial s = .next t ∧ WarmReset s t 0x16 ∧ t.bootRec.count = 2 ∧ t.bootRec.trial = s.inactive))) ∧
  (∀ (s : State) (h : Hdr) (e : Expect), AdmittedPut s h e (Family.resets.index 0 0) 3 1 →
    ∃ t, Machine.exec (.resetCommand h e) s = .next t ∧ WarmReset s t 0x12 ∧ Accepted t h)

/-- Power-on reset, with VDD_AO kept or lost (Table 16-3, R217, R445): the part is held with its cause, no bank or setting
stands, every seat is Free; fuses, the records that are written whole, firmware slots, the boot record and the safe-set copies
stand, and with VDD_AO also shelf time and the counts of the strings. VDD_AO lost a second time does nothing, and its return is a
power-on reset with the cause of its loss (R459). A stitch under way is completed after a power-fail warning (R414); a commit
of the boot record is cut where there was none (R389).
Rests on choices of the model: assumptions 54, 141 and 143. -/
def Obligations.PowerOnResetsClearThePart : Prop :=
  (∀ s : State, s.boot.aoLost = true → Machine.exec .vddAoLoss s = .next { s with out := [] }) ∧
  ∀ (s : State) (c : Instr) (lost : Bool),
    (c = .powerOnReset ∧ lost = s.boot.aoLost) ∨ (c = .vddAoLoss ∧ lost = true ∧ s.boot.aoLost = false) →
    ∃ t, Machine.exec c s = .next t ∧ t.pending = s.pending ∧ t.boot.phase = .held ∧ t.boot.powerOn = true ∧
      t.boot.aoLost = decide (c = .vddAoLoss) ∧ t.boot.riseAt = some s.clock.up ∧
      t.boot.cause = (if lost then 1 else 0) ∧ t.active = {} ∧ t.staged = {} ∧ t.cfg = {} ∧ t.commits = {} ∧
      (∀ k, (t.seat k).phase = .free) ∧ t.rails = State.reset.rails ∧ t.orders = State.reset.orders ∧
      t.fuses.burned = (if s.score.stopped then s.fuses.stitched else s.fuses.burned) ∧
      t.score.recs = s.counting ∧ t.slots = s.slots ∧ t.bootRec.toBootRecord = s.bootRec.toBootRecord ∧
      (s.bootRec.writing = none → t.bootRec = s.bootRec) ∧
      (s.bootRec.writing ≠ none → s.score.stopped = false → t.bootRec = { s.bootRec with writing := none }) ∧
      t.safeSet.copyA = s.safeSet.copyA ∧ t.safeSet.copyB = s.safeSet.copyB ∧ t.clock.grid = 0 ∧
      t.clock.shelf = (if lost then 0 else s.clock.shelf) ∧ ∀ k, (t.str k).a = (if lost then 0 else (s.str k).a)

/-- The end of a reset: a feed that tripped meanwhile waits for a retry with cause 10, one whose main gate is on is On, one
in pre-charge seats again, any other is Off (R259). A warm reset ends 10 µs after it began at the earliest, with RESET_N high;
the part is held until then, and a power-on reset until the supplies have been up for 1 ms (R445, R458). PLL lock hands over to the
boot ROM at slot 0 of the grid, after a power-on reset with the shadows latched from the fuses; the boot record is its newest
valid copy; a reference other than the one before is registered (R384, R389, R409, R440, R442, R447). -/
def Sys2Proof.ResetsEnd : Prop :=
  (∀ (s : State) (x : HoldIn), s.boot.phase ≠ .held → Machine.exec (.warmResetEnd x) s = .next { s with out := [] }) ∧
  (∀ (s : State) (x : HoldIn), s.boot.phase = .held →
    s.boot.powerOn = true ∨ s.boot.ended = true ∨ (s.boot.resetLow = true ∧ x.released = false) ∨ elapsedAo s s.boot.heldFrom < 10 →
    Machine.exec (.warmResetEnd x) s =
      .next { s with out := [], boot := { s.boot with resetLow := s.boot.resetLow && !x.released } }) ∧
  (∀ (s : State) (x : HoldIn), s.boot.phase = .held → s.boot.powerOn = false → s.boot.ended = false →
    s.boot.resetLow = false ∨ x.released = true → 10 ≤ elapsedAo s s.boot.heldFrom →
    ∃ t, Machine.exec (.warmResetEnd x) s = .next t ∧ t.boot = { s.boot with ended := true, resetLow := false } ∧
      (s.boot.warned = false → OnlyChanges [.sent, .feeds, .lint, .rails, .orders, .boot] s t) ∧
      (s.boot.warned = true → t.score.stopped = true ∧ Registers t srcSupply 0) ∧
      ∀ z, z < 16 →
        if bitAt x.tripped z = true ∨ (s.feed z).ocTrip.isSome = true then (t.feed z).phase = .retryWait ∧ (t.feed z).retry = 1 ∧ (t.feed z).cause = 10 ∧
          (t.feed z).mng = false ∧ (t.feed z).pcg = false ∧ Registers t (srcFeed z) 0
        else (t.feed z).phase = (if (s.feed z).mng then .on else if (s.feed z).pcg then .seating else .off) ∧
          ((s.feed z).mng = true → (t.feed z).mng = true)) ∧
  (∀ (s : State) (refin : Nat) (weak : List (Nat × Word)), s.boot.phase = .held →
    Machine.exec (.pllLock false refin weak) s = .next { s with out := [] } ∧
    (s.holdOver = false → Machine.exec (.pllLock true refin weak) s = .next { s with out := [] }) ∧
    (s.holdOver = true → ∃ t, Machine.exec (.pllLock true refin weak) s = .next t ∧ t.boot.phase = .rom ∧ t.boot.locked = true ∧
      t.boot.reference = (if 2425 ≤ refin ∧ refin ≤ 2575 then 1 else 0) ∧ t.clock.grid = 0 ∧
      t.clock.slots = s.clock.slots ∧ t.fuses.burned = s.fuses.burned ∧
      (s.boot.refKnown = true → t.boot.reference ≠ s.boot.reference → Registers t srcWatchdog 4) ∧
      t.score.stopped = s.boot.warned ∧
      (s.boot.powerOn = true → weak = [] → t.fuses.shadow = s.fuses.burned) ∧
      (s.boot.powerOn = false → t.fuses.shadow = s.fuses.shadow) ∧
      ∀ c, s.bootRec.newest = some c → c.record.attempt = false → t.bootRec.toBootRecord = c.record))

/-- The boot ROM starts the trial slot, or else the active one, where it verifies (R388, R391), and enters bench mode
after three failed starts (R393); at its checkpoint, which falls on a common boundary of every block, the firmware serves, with
the failed starts at 0 and the data version of its image stored (R20, R385, R395). -/
def Sys2Proof.FirmwareStarts : Prop :=
  (∀ s : State, s.boot.phase = .rom →
    let u := s.loadsStart
    let k := if u.bootRec.trial < 2 then u.bootRec.trial else u.bootRec.active
    (u.bootRec.count = 3 →
      ∃ t, Machine.exec .slotVerified s = .next t ∧ t.boot.phase = .bench ∧ t.bootRec.reason = 0x80 ∧ Registers t srcBoot 4) ∧
    (u.bootRec.count ≠ 3 → u.startable k = true →
      ∃ t, Machine.exec .slotVerified s = .next t ∧ t.boot.phase = .starting ∧ t.boot.slot = k ∧ t.boot.released = s.clock.up ∧
        t.bootRec.attempt = true ∧ t.bootRec.ofTrial = (u.bootRec.trial == k) ∧ t.slots = u.slots)) ∧
  (∀ s : State, s.clock.grid % s.commonPeriod State.allBlocks ≠ 0 →
    Machine.exec .startedCheckpoint s = .next { s with out := [] }) ∧
  (∀ s : State, s.boot.phase = .starting → s.clock.grid % s.commonPeriod State.allBlocks = 0 →
    ∃ t, Machine.exec .startedCheckpoint s = .next t ∧ t.boot.phase = .serving ∧ t.boot.checkpoint = true ∧
      t.score.firmware = true ∧ t.hardwareRun = false ∧ t.bootRec.attempt = false ∧ t.bootRec.count = 0 ∧
      t.bootRec.stored = s.imageData ∧ t.bootRec.migrated = false ∧
      (s.bootRec.ofTrial = true → t.bootRec.active = s.boot.slot ∧ t.bootRec.trial = 255) ∧
      (s.bootRec.ofTrial = false → t.bootRec.active = s.bootRec.active))

/-- The end of a reset, PLL lock, the start of a slot and the started checkpoint (R259, R384, R385, R388, R391, R393,
R409, R442).
Rests on choices of the model: assumptions 142, 143 and 159. -/
def Obligations.BootReachesService : Prop := ResetsEnd ∧ FirmwareStarts


/-- Supervision of supply and clocks: a power-fail warning stops the writes of the scorebook, cuts the records whose write is
under way, is registered and excuses an open start attempt, or waits for the end of a reset (R392, R451, R452); without VDD_AO
nothing of the always-on section acts (R459); the always-on oscillator is bad outside ±2 % (R442); a service restarts the watchdog
(R446); ALIVE toggles in its slots (R453).
Rests on choices of the model: assumption 124. -/
def Obligations.SupplyAndClocksAreWatched : Prop :=
  (∀ (s : State) (cut : Option Nat),
    (s.boot.aoLost = false → s.boot.phase = .held →
      ∃ t, Machine.exec (.powerFailWarning cut) s = .next t ∧ OnlyChanges [.sent, .boot] s t ∧
        t.boot = { s.boot with warned := true }) ∧
    (s.boot.aoLost = false → s.boot.phase ≠ .held →
      ∃ t, Machine.exec (.powerFailWarning cut) s = .next t ∧ t.score.stopped = true ∧ Registers t srcSupply 0 ∧
        OnlyChanges [.sent, .groups, .strings, .lint, .score, .bootRec] s t ∧
        (s.bootRec.attempt = true → t.bootRec.excused = true) ∧ t.score.writing = 0 ∧
        (cut = none ∨ s.score.writing = 0 → t.score.recs = s.score.recs) ∧
        ∀ n, cut = some n → n < 8 → 0 < s.score.writing → t.score.recs = s.score.recs.drop s.score.writing ∧
          (n ≠ 0 → t.score.torn = some n))) ∧
  (∀ (s : State) (c : Instr), s.boot.aoLost = true →
    (c ∈ [.presenceWindowOpen, .presenceWindowExpire, .jumperFitted, .jumperRemoved] ∨ (∃ equal, c = .sealCheck equal) ∨
      (∃ cut, c = .powerFailWarning cut) ∨ (∃ x, c = .stringTick x) ∨ ∃ n, c = .downlinkSlot n) →
    Machine.exec c s = .next { s with out := [] }) ∧
  (∀ (s : State) (hz : Nat), s.boot.phase ≠ .held →
    ∃ t, Machine.exec (.aoOscMeasure hz) s = .next t ∧ OnlyChanges [.sent, .boot, .lint] s t ∧ t.boot.aoHz = hz ∧
      t.boot.aoBad = (decide (hz < 3920000) || decide (4080000 < hz)) ∧
      (t.boot.aoBad = true → s.boot.aoBad = false → Registers t srcWatchdog 5)) ∧
  (∀ s : State, s.boot.phase = .starting ∨ s.boot.phase = .serving →
    ∃ t, Machine.exec .watchdogService s = .next t ∧ OnlyChanges [.sent, .boot] s t ∧ t.boot.served = s.clock.up) ∧
  (∀ s : State, s.boot.phase ≠ .held → s.aliveDue = true →
    ∃ t, Machine.exec .aliveToggle s = .next t ∧ OnlyChanges [.sent, .alive] s t ∧ t.alive = !s.alive)

end
end

