-- ==== Sys2Proof/Laws/Footprint.lean ====
section
/-!
SUPPORT. How footprints compose: the rules by which the footprint of an operation follows from those of its parts.
-/
namespace Sys2Proof.Machine
set_option Elab.async false

/-- Every part of one list is in another. -/
def Part.within (ps qs : List Part) : Bool := ps.all qs.contains

theorem Part.within_mem {ps qs : List Part} (h : Part.within ps qs = true) {p : Part} (hp : p ∈ ps) : p ∈ qs := by
  simpa using List.all_eq_true.mp h p hp

theorem Part.within_trans {ps qs rs : List Part} (h : Part.within ps qs = true) (k : Part.within qs rs = true) :
    Part.within ps rs = true :=
  List.all_eq_true.mpr fun _ hp => by simpa using Part.within_mem k (Part.within_mem h hp)

namespace OnlyChanges

theorem refl (ps : List Part) (s : State) : OnlyChanges ps s s := by
  intro p _; cases p <;> rfl

theorem trans {ps : List Part} {a b c : State} (h : OnlyChanges ps a b) (k : OnlyChanges ps b c) : OnlyChanges ps a c := by
  intro p hp; have h := h p hp; have k := k p hp; cases p <;> exact Eq.trans k h

theorem mono {ps qs : List Part} {a b : State} (h : OnlyChanges ps a b) (w : Part.within ps qs = true) :
    OnlyChanges qs a b := fun p hp => h p (fun m => hp (Part.within_mem w m))

/-- A last operation with a footprint inside the whole one. -/
theorem step {ps qs : List Part} {a b c : State} (k : OnlyChanges ps b c) (w : Part.within ps qs = true)
    (h : OnlyChanges qs a b) : OnlyChanges qs a c := h.trans (k.mono w)

theorem ite {ps : List Part} {a b c : State} {p : Prop} [Decidable p] (h : OnlyChanges ps a b) (k : OnlyChanges ps a c) :
    OnlyChanges ps a (if p then b else c) := by split <;> assumption

theorem foldl {α : Type} {ps : List Part} {a : State} {f : State → α → State} {l : List α} {b : State}
    (hf : ∀ s x, OnlyChanges ps s (f s x)) (h : OnlyChanges ps a b) : OnlyChanges ps a (l.foldl f b) := by
  induction l generalizing b with
  | nil => exact h
  | cons x l ih => exact ih (h.trans (hf b x))

end OnlyChanges

/-! ### Operations that may be refused -/

/-- An operation that changes only the parts listed where it is not refused. -/
def OkOnly (ps : List Part) (s : State) (e : Except Refused State) : Prop := ∀ t, e = .ok t → OnlyChanges ps s t

namespace OkOnly

theorem error {ps : List Part} {s : State} {r : Refused} : OkOnly ps s (.error r) := fun _ h => nomatch h

theorem ok {ps : List Part} {s t : State} (h : OnlyChanges ps s t) : OkOnly ps s (.ok t) := by
  intro u e; cases e; exact h

theorem of {ps : List Part} {s t : State} {e : Except Refused State} (h : OkOnly ps s e) (k : e = .ok t) :
    OnlyChanges ps s t := h t k

theorem map {ps : List Part} {s : State} {e : Except Refused State} {f : State → State}
    (hf : ∀ u, OnlyChanges ps u (f u)) (h : OkOnly ps s e) : OkOnly ps s (e.map f) := by
  cases e with
  | error r => exact error
  | ok t => exact ok ((h t rfl).trans (hf t))

theorem step {ps qs : List Part} {a b : State} {e : Except Refused State} (k : OkOnly ps b e)
    (w : Part.within ps qs = true) (h : OnlyChanges qs a b) : OkOnly qs a e := fun t r => (k t r).step w h

end OkOnly

/-! ### One part at a time -/

namespace OnlyChanges

theorem keeps_pending {ps : List Part} {a b : State} (h : OnlyChanges ps a b) (w : Part.pending ∉ ps) : b.pending = a.pending := h .pending w
theorem keeps_out {ps : List Part} {a b : State} (h : OnlyChanges ps a b) (w : Part.sent ∉ ps) : b.out = a.out := h .sent w
theorem keeps_clock {ps : List Part} {a b : State} (h : OnlyChanges ps a b) (w : Part.clock ∉ ps) : b.clock = a.clock := h .clock w
theorem keeps_tb {ps : List Part} {a b : State} (h : OnlyChanges ps a b) (w : Part.tb ∉ ps) : b.tb = a.tb := h .tb w
theorem keeps_active {ps : List Part} {a b : State} (h : OnlyChanges ps a b) (w : Part.active ∉ ps) : b.active = a.active := h .active w
theorem keeps_staged {ps : List Part} {a b : State} (h : OnlyChanges ps a b) (w : Part.staged ∉ ps) : b.staged = a.staged := h .staged w
theorem keeps_cfg {ps : List Part} {a b : State} (h : OnlyChanges ps a b) (w : Part.cfg ∉ ps) : b.cfg = a.cfg := h .cfg w
theorem keeps_chans {ps : List Part} {a b : State} (h : OnlyChanges ps a b) (w : Part.chans ∉ ps) : b.chans = a.chans := h .chans w
theorem keeps_groups {ps : List Part} {a b : State} (h : OnlyChanges ps a b) (w : Part.groups ∉ ps) : b.groups = a.groups := h .groups w
theorem keeps_ports {ps : List Part} {a b : State} (h : OnlyChanges ps a b) (w : Part.ports ∉ ps) : b.ports = a.ports := h .ports w
theorem keeps_irons {ps : List Part} {a b : State} (h : OnlyChanges ps a b) (w : Part.irons ∉ ps) : b.irons = a.irons := h .irons w
theorem keeps_flat {ps : List Part} {a b : State} (h : OnlyChanges ps a b) (w : Part.flat ∉ ps) : b.flat = a.flat := h .flat w
theorem keeps_engine {ps : List Part} {a b : State} (h : OnlyChanges ps a b) (w : Part.engine ∉ ps) : b.engine = a.engine := h .engine w
theorem keeps_senses {ps : List Part} {a b : State} (h : OnlyChanges ps a b) (w : Part.senses ∉ ps) : b.senses = a.senses := h .senses w
theorem keeps_dets {ps : List Part} {a b : State} (h : OnlyChanges ps a b) (w : Part.dets ∉ ps) : b.dets = a.dets := h .dets w
theorem keeps_presses {ps : List Part} {a b : State} (h : OnlyChanges ps a b) (w : Part.presses ∉ ps) : b.presses = a.presses := h .presses w
theorem keeps_shelf {ps : List Part} {a b : State} (h : OnlyChanges ps a b) (w : Part.shelf ∉ ps) : b.shelf = a.shelf := h .shelf w
theorem keeps_strings {ps : List Part} {a b : State} (h : OnlyChanges ps a b) (w : Part.strings ∉ ps) : b.strings = a.strings := h .strings w
theorem keeps_feeds {ps : List Part} {a b : State} (h : OnlyChanges ps a b) (w : Part.feeds ∉ ps) : b.feeds = a.feeds := h .feeds w
theorem keeps_models {ps : List Part} {a b : State} (h : OnlyChanges ps a b) (w : Part.models ∉ ps) : b.models = a.models := h .models w
theorem keeps_rails {ps : List Part} {a b : State} (h : OnlyChanges ps a b) (w : Part.rails ∉ ps) : b.rails = a.rails := h .rails w
theorem keeps_orders {ps : List Part} {a b : State} (h : OnlyChanges ps a b) (w : Part.orders ∉ ps) : b.orders = a.orders := h .orders w
theorem keeps_seq {ps : List Part} {a b : State} (h : OnlyChanges ps a b) (w : Part.seq ∉ ps) : b.seq = a.seq := h .seq w
theorem keeps_fuses {ps : List Part} {a b : State} (h : OnlyChanges ps a b) (w : Part.fuses ∉ ps) : b.fuses = a.fuses := h .fuses w
theorem keeps_tws {ps : List Part} {a b : State} (h : OnlyChanges ps a b) (w : Part.tws ∉ ps) : b.tws = a.tws := h .tws w
theorem keeps_sensors {ps : List Part} {a b : State} (h : OnlyChanges ps a b) (w : Part.sensors ∉ ps) : b.sensors = a.sensors := h .sensors w
theorem keeps_lint {ps : List Part} {a b : State} (h : OnlyChanges ps a b) (w : Part.lint ∉ ps) : b.lint = a.lint := h .lint w
theorem keeps_score {ps : List Part} {a b : State} (h : OnlyChanges ps a b) (w : Part.score ∉ ps) : b.score = a.score := h .score w
theorem keeps_boot {ps : List Part} {a b : State} (h : OnlyChanges ps a b) (w : Part.boot ∉ ps) : b.boot = a.boot := h .boot w
theorem keeps_bootRec {ps : List Part} {a b : State} (h : OnlyChanges ps a b) (w : Part.bootRec ∉ ps) : b.bootRec = a.bootRec := h .bootRec w
theorem keeps_slots {ps : List Part} {a b : State} (h : OnlyChanges ps a b) (w : Part.slots ∉ ps) : b.slots = a.slots := h .slots w
theorem keeps_patch {ps : List Part} {a b : State} (h : OnlyChanges ps a b) (w : Part.patch ∉ ps) : b.patch = a.patch := h .patch w
theorem keeps_image {ps : List Part} {a b : State} (h : OnlyChanges ps a b) (w : Part.image ∉ ps) : b.image = a.image := h .image w
theorem keeps_safeSet {ps : List Part} {a b : State} (h : OnlyChanges ps a b) (w : Part.safeSet ∉ ps) : b.safeSet = a.safeSet := h .safeSet w
theorem keeps_working {ps : List Part} {a b : State} (h : OnlyChanges ps a b) (w : Part.working ∉ ps) : b.working = a.working := h .working w
theorem keeps_presence {ps : List Part} {a b : State} (h : OnlyChanges ps a b) (w : Part.presence ∉ ps) : b.presence = a.presence := h .presence w
theorem keeps_tamper {ps : List Part} {a b : State} (h : OnlyChanges ps a b) (w : Part.tamper ∉ ps) : b.tamper = a.tamper := h .tamper w
theorem keeps_seats {ps : List Part} {a b : State} (h : OnlyChanges ps a b) (w : Part.seats ∉ ps) : b.seats = a.seats := h .seats w
theorem keeps_t1s {ps : List Part} {a b : State} (h : OnlyChanges ps a b) (w : Part.t1s ∉ ps) : b.t1s = a.t1s := h .t1s w
theorem keeps_cans {ps : List Part} {a b : State} (h : OnlyChanges ps a b) (w : Part.cans ∉ ps) : b.cans = a.cans := h .cans w
theorem keeps_tts {ps : List Part} {a b : State} (h : OnlyChanges ps a b) (w : Part.tts ∉ ps) : b.tts = a.tts := h .tts w
theorem keeps_ptp {ps : List Part} {a b : State} (h : OnlyChanges ps a b) (w : Part.ptp ∉ ps) : b.ptp = a.ptp := h .ptp w
theorem keeps_ptpAdj {ps : List Part} {a b : State} (h : OnlyChanges ps a b) (w : Part.ptpAdj ∉ ps) : b.ptpAdj = a.ptpAdj := h .ptpAdj w
theorem keeps_commits {ps : List Part} {a b : State} (h : OnlyChanges ps a b) (w : Part.commits ∉ ps) : b.commits = a.commits := h .commits w
theorem keeps_hardwareRun {ps : List Part} {a b : State} (h : OnlyChanges ps a b) (w : Part.hardwareRun ∉ ps) : b.hardwareRun = a.hardwareRun := h .hardwareRun w
theorem keeps_alive {ps : List Part} {a b : State} (h : OnlyChanges ps a b) (w : Part.alive ∉ ps) : b.alive = a.alive := h .alive w
theorem keeps_draws {ps : List Part} {a b : State} (h : OnlyChanges ps a b) (w : Part.draws ∉ ps) : b.draws = a.draws := h .draws w

end OnlyChanges

/-! ### Updates of one part -/

theorem set_pending_only (s : State) (v) : OnlyChanges [.pending] s { s with pending := v } := by
  intro p hp; cases p <;> first | rfl | exact absurd (by decide) hp

theorem set_out_only (s : State) (v) : OnlyChanges [.sent] s { s with out := v } := by
  intro p hp; cases p <;> first | rfl | exact absurd (by decide) hp

theorem set_clock_only (s : State) (v) : OnlyChanges [.clock] s { s with clock := v } := by
  intro p hp; cases p <;> first | rfl | exact absurd (by decide) hp

theorem set_tb_only (s : State) (v) : OnlyChanges [.tb] s { s with tb := v } := by
  intro p hp; cases p <;> first | rfl | exact absurd (by decide) hp

theorem set_active_only (s : State) (v) : OnlyChanges [.active] s { s with active := v } := by
  intro p hp; cases p <;> first | rfl | exact absurd (by decide) hp

theorem set_staged_only (s : State) (v) : OnlyChanges [.staged] s { s with staged := v } := by
  intro p hp; cases p <;> first | rfl | exact absurd (by decide) hp

theorem set_cfg_only (s : State) (v) : OnlyChanges [.cfg] s { s with cfg := v } := by
  intro p hp; cases p <;> first | rfl | exact absurd (by decide) hp

theorem set_chans_only (s : State) (v) : OnlyChanges [.chans] s { s with chans := v } := by
  intro p hp; cases p <;> first | rfl | exact absurd (by decide) hp

theorem set_groups_only (s : State) (v) : OnlyChanges [.groups] s { s with groups := v } := by
  intro p hp; cases p <;> first | rfl | exact absurd (by decide) hp

theorem set_ports_only (s : State) (v) : OnlyChanges [.ports] s { s with ports := v } := by
  intro p hp; cases p <;> first | rfl | exact absurd (by decide) hp

theorem set_irons_only (s : State) (v) : OnlyChanges [.irons] s { s with irons := v } := by
  intro p hp; cases p <;> first | rfl | exact absurd (by decide) hp

theorem set_flat_only (s : State) (v) : OnlyChanges [.flat] s { s with flat := v } := by
  intro p hp; cases p <;> first | rfl | exact absurd (by decide) hp

theorem set_engine_only (s : State) (v) : OnlyChanges [.engine] s { s with engine := v } := by
  intro p hp; cases p <;> first | rfl | exact absurd (by decide) hp

theorem set_senses_only (s : State) (v) : OnlyChanges [.senses] s { s with senses := v } := by
  intro p hp; cases p <;> first | rfl | exact absurd (by decide) hp

theorem set_dets_only (s : State) (v) : OnlyChanges [.dets] s { s with dets := v } := by
  intro p hp; cases p <;> first | rfl | exact absurd (by decide) hp

theorem set_presses_only (s : State) (v) : OnlyChanges [.presses] s { s with presses := v } := by
  intro p hp; cases p <;> first | rfl | exact absurd (by decide) hp

theorem set_shelf_only (s : State) (v) : OnlyChanges [.shelf] s { s with shelf := v } := by
  intro p hp; cases p <;> first | rfl | exact absurd (by decide) hp

theorem set_strings_only (s : State) (v) : OnlyChanges [.strings] s { s with strings := v } := by
  intro p hp; cases p <;> first | rfl | exact absurd (by decide) hp

theorem set_feeds_only (s : State) (v) : OnlyChanges [.feeds] s { s with feeds := v } := by
  intro p hp; cases p <;> first | rfl | exact absurd (by decide) hp

theorem set_models_only (s : State) (v) : OnlyChanges [.models] s { s with models := v } := by
  intro p hp; cases p <;> first | rfl | exact absurd (by decide) hp

theorem set_rails_only (s : State) (v) : OnlyChanges [.rails] s { s with rails := v } := by
  intro p hp; cases p <;> first | rfl | exact absurd (by decide) hp

theorem set_orders_only (s : State) (v) : OnlyChanges [.orders] s { s with orders := v } := by
  intro p hp; cases p <;> first | rfl | exact absurd (by decide) hp

theorem set_seq_only (s : State) (v) : OnlyChanges [.seq] s { s with seq := v } := by
  intro p hp; cases p <;> first | rfl | exact absurd (by decide) hp

theorem set_fuses_only (s : State) (v) : OnlyChanges [.fuses] s { s with fuses := v } := by
  intro p hp; cases p <;> first | rfl | exact absurd (by decide) hp

theorem set_tws_only (s : State) (v) : OnlyChanges [.tws] s { s with tws := v } := by
  intro p hp; cases p <;> first | rfl | exact absurd (by decide) hp

theorem set_sensors_only (s : State) (v) : OnlyChanges [.sensors] s { s with sensors := v } := by
  intro p hp; cases p <;> first | rfl | exact absurd (by decide) hp

theorem set_lint_only (s : State) (v) : OnlyChanges [.lint] s { s with lint := v } := by
  intro p hp; cases p <;> first | rfl | exact absurd (by decide) hp

theorem set_score_only (s : State) (v) : OnlyChanges [.score] s { s with score := v } := by
  intro p hp; cases p <;> first | rfl | exact absurd (by decide) hp

theorem set_boot_only (s : State) (v) : OnlyChanges [.boot] s { s with boot := v } := by
  intro p hp; cases p <;> first | rfl | exact absurd (by decide) hp

theorem set_bootRec_only (s : State) (v) : OnlyChanges [.bootRec] s { s with bootRec := v } := by
  intro p hp; cases p <;> first | rfl | exact absurd (by decide) hp

theorem set_slots_only (s : State) (v) : OnlyChanges [.slots] s { s with slots := v } := by
  intro p hp; cases p <;> first | rfl | exact absurd (by decide) hp

theorem set_patch_only (s : State) (v) : OnlyChanges [.patch] s { s with patch := v } := by
  intro p hp; cases p <;> first | rfl | exact absurd (by decide) hp

theorem set_image_only (s : State) (v) : OnlyChanges [.image] s { s with image := v } := by
  intro p hp; cases p <;> first | rfl | exact absurd (by decide) hp

theorem set_safeSet_only (s : State) (v) : OnlyChanges [.safeSet] s { s with safeSet := v } := by
  intro p hp; cases p <;> first | rfl | exact absurd (by decide) hp

theorem set_working_only (s : State) (v) : OnlyChanges [.working] s { s with working := v } := by
  intro p hp; cases p <;> first | rfl | exact absurd (by decide) hp

theorem set_presence_only (s : State) (v) : OnlyChanges [.presence] s { s with presence := v } := by
  intro p hp; cases p <;> first | rfl | exact absurd (by decide) hp

theorem set_tamper_only (s : State) (v) : OnlyChanges [.tamper] s { s with tamper := v } := by
  intro p hp; cases p <;> first | rfl | exact absurd (by decide) hp

theorem set_seats_only (s : State) (v) : OnlyChanges [.seats] s { s with seats := v } := by
  intro p hp; cases p <;> first | rfl | exact absurd (by decide) hp

theorem set_t1s_only (s : State) (v) : OnlyChanges [.t1s] s { s with t1s := v } := by
  intro p hp; cases p <;> first | rfl | exact absurd (by decide) hp

theorem set_cans_only (s : State) (v) : OnlyChanges [.cans] s { s with cans := v } := by
  intro p hp; cases p <;> first | rfl | exact absurd (by decide) hp

theorem set_tts_only (s : State) (v) : OnlyChanges [.tts] s { s with tts := v } := by
  intro p hp; cases p <;> first | rfl | exact absurd (by decide) hp

theorem set_ptp_only (s : State) (v) : OnlyChanges [.ptp] s { s with ptp := v } := by
  intro p hp; cases p <;> first | rfl | exact absurd (by decide) hp

theorem set_ptpAdj_only (s : State) (v) : OnlyChanges [.ptpAdj] s { s with ptpAdj := v } := by
  intro p hp; cases p <;> first | rfl | exact absurd (by decide) hp

theorem set_commits_only (s : State) (v) : OnlyChanges [.commits] s { s with commits := v } := by
  intro p hp; cases p <;> first | rfl | exact absurd (by decide) hp

theorem set_hardwareRun_only (s : State) (v) : OnlyChanges [.hardwareRun] s { s with hardwareRun := v } := by
  intro p hp; cases p <;> first | rfl | exact absurd (by decide) hp

theorem set_alive_only (s : State) (v) : OnlyChanges [.alive] s { s with alive := v } := by
  intro p hp; cases p <;> first | rfl | exact absurd (by decide) hp

theorem set_draws_only (s : State) (v) : OnlyChanges [.draws] s { s with draws := v } := by
  intro p hp; cases p <;> first | rfl | exact absurd (by decide) hp

end Sys2Proof.Machine
end

