-- ==== Sys2Proof/Laws/Answers.lean ====
section
/-!
SUPPORT. Footprints of answers to requests.
-/
namespace Sys2Proof.Machine
set_option Elab.async false

/-- An answer whose state, and what follows its response, change only the parts listed. -/
def AnswerOnly (ps : List Part) (s : State) (a : Answer) : Prop :=
  OnlyChanges ps s a.state ∧ ∀ u, OnlyChanges ps u (a.after u)

theorem AnswerOnly.intro {ps : List Part} {s t : State} {st re : Nat} {b : List Byte} {x : Option Half}
    {e : Option (Nat × Nat × Int)} {f : State → State}
    (h : OnlyChanges ps s t) (k : ∀ u, OnlyChanges ps u (f u)) : AnswerOnly ps s ⟨t, st, re, b, x, e, f⟩ := ⟨h, k⟩

theorem AnswerOnly.step {ps qs : List Part} {a b : State} {e : Answer} (k : AnswerOnly ps b e)
    (w : Part.within ps qs = true) (h : OnlyChanges qs a b) : AnswerOnly qs a e :=
  ⟨k.1.step w h, fun u => (k.2 u).mono w⟩

end Sys2Proof.Machine
end

