-- ==== Sys2Proof/Laws/FramesOps.lean ====
section
/-!
SUPPORT. Footprints of the operations of Machine/Ops.lean.
-/
namespace Sys2Proof.Machine
set_option Elab.async false

theorem set_active_staged_only (s : State) (v0) (v1) : OnlyChanges [.active, .staged] s { s with active := v0, staged := v1 } := by
  intro p hp; cases p <;> first | rfl | exact absurd (by decide) hp

theorem set_active_staged_seq_hardwareRun_only (s : State) (v0) (v1) (v2) (v3) : OnlyChanges [.active, .staged, .seq, .hardwareRun] s { s with active := v0, staged := v1, seq := v2, hardwareRun := v3 } := by
  intro p hp; cases p <;> first | rfl | exact absurd (by decide) hp

theorem set_boot_commits_only (s : State) (v0) (v1) : OnlyChanges [.boot, .commits] s { s with boot := v0, commits := v1 } := by
  intro p hp; cases p <;> first | rfl | exact absurd (by decide) hp

theorem set_cfg_commits_only (s : State) (v0) (v1) : OnlyChanges [.cfg, .commits] s { s with cfg := v0, commits := v1 } := by
  intro p hp; cases p <;> first | rfl | exact absurd (by decide) hp

theorem set_clock_score_only (s : State) (v0) (v1) : OnlyChanges [.clock, .score] s { s with clock := v0, score := v1 } := by
  intro p hp; cases p <;> first | rfl | exact absurd (by decide) hp

theorem set_clock_tb_only (s : State) (v0) (v1) : OnlyChanges [.clock, .tb] s { s with clock := v0, tb := v1 } := by
  intro p hp; cases p <;> first | rfl | exact absurd (by decide) hp

theorem set_clock_tb_active_staged_cfg_chans_groups_ports_irons_flat_engine_senses_dets_presses_shelf_strings_feeds_models_rails_orders_seq_fuses_tws_sensors_lint_score_boot_bootRec_safeSet_presence_tamper_seats_t1s_cans_tts_ptp_ptpAdj_commits_hardwareRun_alive_only (s : State) (v0) (v1) (v2) (v3) (v4) (v5) (v6) (v7) (v8) (v9) (v10) (v11) (v12) (v13) (v14) (v15) (v16) (v17) (v18) (v19) (v20) (v21) (v22) (v23) (v24) (v25) (v26) (v27) (v28) (v29) (v30) (v31) (v32) (v33) (v34) (v35) (v36) (v37) (v38) (v39) : OnlyChanges [.clock, .tb, .active, .staged, .cfg, .chans, .groups, .ports, .irons, .flat, .engine, .senses, .dets, .presses, .shelf, .strings, .feeds, .models, .rails, .orders, .seq, .fuses, .tws, .sensors, .lint, .score, .boot, .bootRec, .safeSet, .presence, .tamper, .seats, .t1s, .cans, .tts, .ptp, .ptpAdj, .commits, .hardwareRun, .alive] s { s with clock := v0, tb := v1, active := v2, staged := v3, cfg := v4, chans := v5, groups := v6, ports := v7, irons := v8, flat := v9, engine := v10, senses := v11, dets := v12, presses := v13, shelf := v14, strings := v15, feeds := v16, models := v17, rails := v18, orders := v19, seq := v20, fuses := v21, tws := v22, sensors := v23, lint := v24, score := v25, boot := v26, bootRec := v27, safeSet := v28, presence := v29, tamper := v30, seats := v31, t1s := v32, cans := v33, tts := v34, ptp := v35, ptpAdj := v36, commits := v37, hardwareRun := v38, alive := v39 } := by
  intro p hp; cases p <;> first | rfl | exact absurd (by decide) hp

theorem set_fuses_tts_ptp_only (s : State) (v0) (v1) (v2) : OnlyChanges [.fuses, .tts, .ptp] s { s with fuses := v0, tts := v1, ptp := v2 } := by
  intro p hp; cases p <;> first | rfl | exact absurd (by decide) hp

theorem set_groups_strings_only (s : State) (v0) (v1) : OnlyChanges [.groups, .strings] s { s with groups := v0, strings := v1 } := by
  intro p hp; cases p <;> first | rfl | exact absurd (by decide) hp

theorem set_pending_out_clock_tb_active_staged_cfg_chans_groups_ports_irons_flat_engine_senses_dets_presses_shelf_strings_feeds_models_rails_orders_seq_fuses_tws_sensors_lint_score_boot_bootRec_slots_patch_image_safeSet_working_presence_tamper_seats_t1s_cans_tts_ptp_ptpAdj_commits_hardwareRun_alive_draws_only (s : State) (v0) (v1) (v2) (v3) (v4) (v5) (v6) (v7) (v8) (v9) (v10) (v11) (v12) (v13) (v14) (v15) (v16) (v17) (v18) (v19) (v20) (v21) (v22) (v23) (v24) (v25) (v26) (v27) (v28) (v29) (v30) (v31) (v32) (v33) (v34) (v35) (v36) (v37) (v38) (v39) (v40) (v41) (v42) (v43) (v44) (v45) (v46) : OnlyChanges [.pending, .sent, .clock, .tb, .active, .staged, .cfg, .chans, .groups, .ports, .irons, .flat, .engine, .senses, .dets, .presses, .shelf, .strings, .feeds, .models, .rails, .orders, .seq, .fuses, .tws, .sensors, .lint, .score, .boot, .bootRec, .slots, .patch, .image, .safeSet, .working, .presence, .tamper, .seats, .t1s, .cans, .tts, .ptp, .ptpAdj, .commits, .hardwareRun, .alive, .draws] s { s with pending := v0, out := v1, clock := v2, tb := v3, active := v4, staged := v5, cfg := v6, chans := v7, groups := v8, ports := v9, irons := v10, flat := v11, engine := v12, senses := v13, dets := v14, presses := v15, shelf := v16, strings := v17, feeds := v18, models := v19, rails := v20, orders := v21, seq := v22, fuses := v23, tws := v24, sensors := v25, lint := v26, score := v27, boot := v28, bootRec := v29, slots := v30, patch := v31, image := v32, safeSet := v33, working := v34, presence := v35, tamper := v36, seats := v37, t1s := v38, cans := v39, tts := v40, ptp := v41, ptpAdj := v42, commits := v43, hardwareRun := v44, alive := v45, draws := v46 } := by
  intro p hp; cases p <;> first | rfl | exact absurd (by decide) hp

theorem set_ptpAdj_draws_only (s : State) (v0) (v1) : OnlyChanges [.ptpAdj, .draws] s { s with ptpAdj := v0, draws := v1 } := by
  intro p hp; cases p <;> first | rfl | exact absurd (by decide) hp

theorem set_seq_score_only (s : State) (v0) (v1) : OnlyChanges [.seq, .score] s { s with seq := v0, score := v1 } := by
  intro p hp; cases p <;> first | rfl | exact absurd (by decide) hp

theorem set_staged_boot_only (s : State) (v0) (v1) : OnlyChanges [.staged, .boot] s { s with staged := v0, boot := v1 } := by
  intro p hp; cases p <;> first | rfl | exact absurd (by decide) hp

theorem set_staged_commits_only (s : State) (v0) (v1) : OnlyChanges [.staged, .commits] s { s with staged := v0, commits := v1 } := by
  intro p hp; cases p <;> first | rfl | exact absurd (by decide) hp

theorem set_tb_chans_groups_ports_irons_flat_senses_dets_presses_shelf_strings_feeds_models_fuses_sensors_lint_score_bootRec_safeSet_t1s_cans_tts_ptp_ptpAdj_commits_hardwareRun_only (s : State) (v0) (v1) (v2) (v3) (v4) (v5) (v6) (v7) (v8) (v9) (v10) (v11) (v12) (v13) (v14) (v15) (v16) (v17) (v18) (v19) (v20) (v21) (v22) (v23) (v24) (v25) : OnlyChanges [.tb, .chans, .groups, .ports, .irons, .flat, .senses, .dets, .presses, .shelf, .strings, .feeds, .models, .fuses, .sensors, .lint, .score, .bootRec, .safeSet, .t1s, .cans, .tts, .ptp, .ptpAdj, .commits, .hardwareRun] s { s with tb := v0, chans := v1, groups := v2, ports := v3, irons := v4, flat := v5, senses := v6, dets := v7, presses := v8, shelf := v9, strings := v10, feeds := v11, models := v12, fuses := v13, sensors := v14, lint := v15, score := v16, bootRec := v17, safeSet := v18, t1s := v19, cans := v20, tts := v21, ptp := v22, ptpAdj := v23, commits := v24, hardwareRun := v25 } := by
  intro p hp; cases p <;> first | rfl | exact absurd (by decide) hp

theorem set_tb_draws_only (s : State) (v0) (v1) : OnlyChanges [.tb, .draws] s { s with tb := v0, draws := v1 } := by
  intro p hp; cases p <;> first | rfl | exact absurd (by decide) hp

theorem State.recordAt_only (s : State) (time : Nat) (episode : Nat) (kind : Nat) (payload : List Byte) :
    OnlyChanges [.score] s (State.recordAt s time episode kind payload) := by
  unfold State.recordAt
  extract_lets _ _
  refine .ite ?_ ?_
  · exact .refl _ _
  · refine .step (set_score_only _ _) rfl ?_
    exact .refl _ _

theorem State.record_only (s : State) (kind : Nat) (payload : List Byte) :
    OnlyChanges [.score] s (State.record s kind payload) := by
  unfold State.record
  refine .step (State.recordAt_only _ _ _ _ _) rfl ?_
  exact .refl _ _

theorem State.onGroup_only (s : State) (g : Nat) (f : GroupRun → GroupRun) :
    OnlyChanges [.groups] s (State.onGroup s g f) := by
  unfold State.onGroup
  refine .step (set_groups_only _ _) rfl ?_
  exact .refl _ _

theorem State.onFeed_only (s : State) (z : Nat) (f : FeedRun → FeedRun) :
    OnlyChanges [.feeds] s (State.onFeed s z f) := by
  unfold State.onFeed
  refine .step (set_feeds_only _ _) rfl ?_
  exact .refl _ _

theorem State.onLint_only (s : State) (f : LintRun → LintRun) :
    OnlyChanges [.lint] s (State.onLint s f) := by
  unfold State.onLint
  refine .step (set_lint_only _ _) rfl ?_
  exact .refl _ _

theorem State.detect_only (s : State) (src : Nat) (cause : Nat) :
    OnlyChanges [.lint] s (State.detect s src cause) := by
  unfold State.detect
  refine .step (State.onLint_only _ _) rfl ?_
  exact .refl _ _

theorem State.onChan_only (s : State) (c : Nat) (f : ChannelRun → ChannelRun) :
    OnlyChanges [.chans] s (State.onChan s c f) := by
  unfold State.onChan
  refine .step (set_chans_only _ _) rfl ?_
  exact .refl _ _

theorem State.onShelf_only (s : State) (f : ShelfRun → ShelfRun) :
    OnlyChanges [.shelf] s (State.onShelf s f) := by
  unfold State.onShelf
  refine .step (set_shelf_only _ _) rfl ?_
  exact .refl _ _

theorem State.lossAgain_only (s : State) :
    OnlyChanges [.chans, .shelf] s (State.lossAgain s) := by
  unfold State.lossAgain
  extract_lets s1
  have hs1 : OnlyChanges [.chans, .shelf] s s1 := by
    unfold s1
    refine .foldl (fun u2 _ => ?_) ?_
    · refine .step (State.onChan_only _ _ _) rfl ?_
      exact .refl _ _
    · exact .refl _ _
  clear_value s1
  refine .step (State.onShelf_only _ _) rfl ?_
  exact hs1

theorem State.lossReturning_only (s : State) :
    OnlyChanges [.chans, .shelf] s (State.lossReturning s) := by
  unfold State.lossReturning
  extract_lets s1
  have hs1 : OnlyChanges [.chans, .shelf] s s1 := by
    unfold s1
    refine .foldl (fun u2 _ => ?_) ?_
    · refine .step (State.onChan_only _ _ _) rfl ?_
      exact .refl _ _
    · exact .refl _ _
  clear_value s1
  refine .step (State.onShelf_only _ _) rfl ?_
  exact hs1

theorem State.lossEdge_only (s : State) :
    OnlyChanges [.chans, .shelf] s (State.lossEdge s) := by
  unfold State.lossEdge
  refine .ite ?_ ?_
  · exact .refl _ _
  · refine .ite ?_ ?_
    · refine .ite ?_ ?_
      · refine .step (State.lossAgain_only _) rfl ?_
        exact .refl _ _
      · exact .refl _ _
    · refine .ite ?_ ?_
      · exact .refl _ _
      · refine .step (State.lossReturning_only _) rfl ?_
        exact .refl _ _

theorem State.recomputeD_only (s : State) :
    OnlyChanges [.chans, .shelf] s (State.recomputeD s) := by
  unfold State.recomputeD
  extract_lets _ _
  refine .step (State.lossEdge_only _) rfl ?_
  refine .step (State.onShelf_only _ _) rfl ?_
  exact .refl _ _

theorem State.onPort_only (s : State) (p : Nat) (f : PortRun → PortRun) :
    OnlyChanges [.ports] s (State.onPort s p f) := by
  unfold State.onPort
  refine .step (set_ports_only _ _) rfl ?_
  exact .refl _ _

theorem State.writeSetpoint_only (s : State) (c : Nat) (v : Int) :
    OnlyChanges [.staged, .commits] s (State.writeSetpoint s c v) := by
  unfold State.writeSetpoint
  extract_lets _ _ _ _
  refine .ite ?_ ?_
  · refine .step (set_staged_commits_only _ _ _) rfl ?_
    exact .refl _ _
  · exact .refl _ _

theorem State.onIron_only (s : State) (i : Nat) (f : IronRun → IronRun) :
    OnlyChanges [.irons] s (State.onIron s i f) := by
  unfold State.onIron
  refine .step (set_irons_only _ _) rfl ?_
  exact .refl _ _

theorem State.detectIf_only (s : State) (b : Bool) (src : Nat) (cause : Nat) :
    OnlyChanges [.lint] s (State.detectIf s b src cause) := by
  unfold State.detectIf
  refine .ite ?_ ?_
  · refine .step (State.detect_only _ _ _) rfl ?_
    exact .refl _ _
  · exact .refl _ _

theorem State.onStr_only (s : State) (k : Nat) (f : StringRun → StringRun) :
    OnlyChanges [.strings] s (State.onStr s k f) := by
  unfold State.onStr
  refine .step (set_strings_only _ _) rfl ?_
  exact .refl _ _

theorem State.onCapture_only (s : State) (c : Nat) (f : CaptureRun → CaptureRun) :
    OnlyChanges [.score] s (State.onCapture s c f) := by
  unfold State.onCapture
  extract_lets _
  refine .step (set_score_only _ _) rfl ?_
  exact .refl _ _

theorem State.blockEvent_only (s : State) (block : Nat) (number : Nat) (cause : Nat) (data : List Byte) :
    OnlyChanges [.score] s (State.blockEvent s block number cause data) := by
  unfold State.blockEvent
  refine .step (State.record_only _ _ _) rfl ?_
  exact .refl _ _

theorem State.captureTrigger_only (s : State) (c : Nat) (kind : Nat) (src : Nat) :
    OnlyChanges [.score] s (State.captureTrigger s c kind src) := by
  unfold State.captureTrigger
  refine .ite ?_ ?_
  · refine .step (State.onCapture_only _ _ _) rfl ?_
    exact .refl _ _
  · exact .refl _ _

theorem State.onModel_only (s : State) (m : Nat) (f : ModelRun → ModelRun) :
    OnlyChanges [.models] s (State.onModel s m f) := by
  unfold State.onModel
  refine .step (set_models_only _ _) rfl ?_
  exact .refl _ _

theorem State.detectOwn_only (s : State) (src : Nat) (cause : Nat) (groups : List Nat) :
    OnlyChanges [.lint] s (State.detectOwn s src cause groups) := by
  unfold State.detectOwn
  refine .step (State.onLint_only _ _) rfl ?_
  exact .refl _ _

theorem State.captureEvent_only (s : State) (kind : Nat) (src : Nat) :
    OnlyChanges [.score] s (State.captureEvent s kind src) := by
  unfold State.captureEvent
  refine .foldl (fun u1 _ => ?_) ?_
  · extract_lets _
    refine .ite ?_ ?_
    · refine .step (State.captureTrigger_only _ _ _ _) rfl ?_
      exact .refl _ _
    · exact .refl _ _
  · exact .refl _ _

end Sys2Proof.Machine
end

