-- ==== Sys2Proof/Laws/FramesIrons.lean ====
section
/-!
SUPPORT. Footprints of the operations of Machine/Irons.lean.
-/
namespace Sys2Proof.Machine
set_option Elab.async false

theorem State.ironRequests_only (s : State) (i : Nat) :
    OnlyChanges [.irons] s (State.ironRequests s i) := by
  unfold State.ironRequests
  extract_lets s1
  have hs1 : OnlyChanges [.irons] s s1 := by
    unfold s1
    refine .ite ?_ ?_
    · refine .step (State.onIron_only _ _ _) rfl ?_
      exact .refl _ _
    · exact .refl _ _
  clear_value s1
  refine .ite ?_ ?_
  · refine .step (State.onIron_only _ _ _) rfl ?_
    exact hs1
  · exact hs1

theorem State.ironState_only (s : State) (i : Nat) (k : Nat) (freeze : Bool) :
    OnlyChanges [.irons, .flat, .lint] s (State.ironState s i k freeze) := by
  unfold State.ironState
  extract_lets _ _ _ _ _ _ _ _ _ _ _ s1 s2 _
  have hs1 : OnlyChanges [.irons, .flat, .lint] s s1 := by
    unfold s1
    refine .step (State.onIron_only _ _ _) rfl ?_
    exact .refl _ _
  clear_value s1
  have hs2 : OnlyChanges [.irons, .flat, .lint] s s2 := by
    unfold s2
    refine .step (State.detectIf_only _ _ _ _) rfl ?_
    exact hs1
  clear_value s2
  refine .ite ?_ ?_
  · refine .step (set_flat_only _ _) rfl ?_
    exact hs2
  · exact hs2

theorem State.ironPhase_only (s : State) (i : Nat) (k : Nat) (freeze : Bool) :
    OnlyChanges [.irons, .flat, .lint] s (State.ironPhase s i k freeze) := by
  unfold State.ironPhase
  extract_lets _ _ _ s1
  have hs1 : OnlyChanges [.irons, .flat, .lint] s s1 := by
    unfold s1
    refine .ite ?_ ?_
    · refine .step (State.onIron_only _ _ _) rfl ?_
      refine .step (State.detectIf_only _ _ _ _) rfl ?_
      exact .refl _ _
    · refine .step (State.ironState_only _ _ _ _) rfl ?_
      exact .refl _ _
  clear_value s1
  refine .step (State.onIron_only _ _ _) rfl ?_
  exact hs1

theorem State.flatMean_only (s : State) (wrapped : Bool) :
    OnlyChanges [.flat] s (State.flatMean s wrapped) := by
  unfold State.flatMean
  extract_lets _ _ _
  refine .step (set_flat_only _ _) rfl ?_
  exact .refl _ _

theorem State.flatStep_only (s : State) (r : IronRun) :
    OnlyChanges [.flat] s (State.flatStep s r) := by
  unfold State.flatStep
  extract_lets _ _ _
  refine .step (set_flat_only _ _) rfl ?_
  exact .refl _ _

theorem State.ironRms_only (s : State) (i : Nat) :
    OnlyChanges [.irons] s (State.ironRms s i) := by
  unfold State.ironRms
  refine .step (State.onIron_only _ _ _) rfl ?_
  exact .refl _ _

theorem State.ironTaps_only (s : State) (i : Nat) (bad : Bool) :
    OnlyChanges [.irons, .flat] s (State.ironTaps s i bad) := by
  unfold State.ironTaps
  extract_lets _ _ _ _ _ _ _ _ _ s1 s2 s3
  have hs1 : OnlyChanges [.irons, .flat] s s1 := by
    unfold s1
    refine .step (State.onIron_only _ _ _) rfl ?_
    exact .refl _ _
  clear_value s1
  have hs2 : OnlyChanges [.irons, .flat] s s2 := by
    unfold s2
    refine .step (State.flatMean_only _ _) rfl ?_
    exact hs1
  clear_value s2
  have hs3 : OnlyChanges [.irons, .flat] s s3 := by
    unfold s3
    refine .ite ?_ ?_
    · refine .ite ?_ ?_
      · refine .step (State.flatStep_only _ _) rfl ?_
        exact hs2
      · exact hs2
    · exact hs1
  clear_value s3
  refine .ite ?_ ?_
  · refine .step (State.ironRms_only _ _) rfl ?_
    exact hs3
  · exact hs3

theorem State.flatReference_only (s : State) (i : Nat) : OnlyChanges [.draws] s (s.flatReference i).1 := by
  unfold State.flatReference
  split
  · exact OnlyChanges.refl _ _
  · simp only [apply_ite Prod.fst]
    refine OnlyChanges.ite (OnlyChanges.refl _ _) (OnlyChanges.ite ?_ (OnlyChanges.refl _ _))
    with_reducible exact set_draws_only ..

theorem State.flatReference_to {s : State} {i : Nat} {t : State} {y} (e : s.flatReference i = (t, y)) : OnlyChanges [.draws] s t := by
  have h := s.flatReference_only i
  rw [e] at h; exact h

theorem State.ironTerm_only (s : State) (i : Nat) :
    OnlyChanges [.irons, .draws] s (State.ironTerm s i) := by
  unfold State.ironTerm
  extract_lets _ _ _
  refine .ite ?_ ?_
  · split
    refine .step (State.onIron_only _ _ _) rfl ?_
    refine .step (State.flatReference_to (by assumption)) rfl ?_
    exact .refl _ _
  · refine .step (State.onIron_only _ _ _) rfl ?_
    exact .refl _ _

theorem State.ironWork_only (s : State) (i : Nat) (k : Nat) (x : IronFaults) :
    OnlyChanges [.irons, .flat, .lint, .draws] s (State.ironWork s i k x) := by
  unfold State.ironWork
  extract_lets _ _ s1 _ _ _ s2 s3 s4 s5 _ s6 s7
  have hs1 : OnlyChanges [.irons, .flat, .lint, .draws] s s1 := by
    unfold s1
    refine .foldl (fun u8 _ => ?_) ?_
    · refine .ite ?_ ?_
      · refine .step (State.detect_only _ _ _) rfl ?_
        refine .step (State.onIron_only _ _ _) rfl ?_
        exact .refl _ _
      · exact .refl _ _
    · exact .refl _ _
  clear_value s1
  have hs2 : OnlyChanges [.irons, .flat, .lint, .draws] s s2 := by
    unfold s2
    refine .step (State.onIron_only _ _ _) rfl ?_
    exact hs1
  clear_value s2
  have hs3 : OnlyChanges [.irons, .flat, .lint, .draws] s s3 := by
    unfold s3
    refine .step (State.detectIf_only _ _ _ _) rfl ?_
    exact hs2
  clear_value s3
  have hs4 : OnlyChanges [.irons, .flat, .lint, .draws] s s4 := by
    unfold s4
    refine .step (State.detectIf_only _ _ _ _) rfl ?_
    exact hs3
  clear_value s4
  have hs5 : OnlyChanges [.irons, .flat, .lint, .draws] s s5 := by
    unfold s5
    refine .step (State.ironPhase_only _ _ _ _) rfl ?_
    exact hs4
  clear_value s5
  have hs6 : OnlyChanges [.irons, .flat, .lint, .draws] s s6 := by
    unfold s6
    refine .ite ?_ ?_
    · refine .step (set_flat_only _ _) rfl ?_
      exact hs5
    · exact hs5
  clear_value s6
  have hs7 : OnlyChanges [.irons, .flat, .lint, .draws] s s7 := by
    unfold s7
    refine .step (State.ironTaps_only _ _ _) rfl ?_
    exact hs5
  clear_value s7
  refine .ite ?_ ?_
  · refine .step (State.onIron_only _ _ _) rfl ?_
    exact hs6
  · refine .ite ?_ ?_
    · exact hs7
    · refine .step (State.ironTerm_only _ _) rfl ?_
      exact hs7

theorem State.ironBefore_only (s : State) (i : Nat) (k : Nat) (x : IronFaults) :
    OnlyChanges [.irons, .flat, .lint, .draws] s (State.ironBefore s i k x) := by
  unfold State.ironBefore
  extract_lets f1 _ s2
  have hs2 : OnlyChanges [.irons, .flat, .lint, .draws] s s2 := by
    unfold s2
    refine .ite ?_ ?_
    · unfold f1
      refine .ite ?_ ?_
      · exact .refl _ _
      · refine .step (State.ironWork_only _ _ _ _) rfl ?_
        exact .refl _ _
    · exact .refl _ _
  clear_value s2
  unfold f1
  refine .ite ?_ ?_
  · exact hs2
  · refine .step (State.ironWork_only _ _ _ _) rfl ?_
    exact hs2

theorem State.ironAfter_only (s : State) (i : Nat) (x : IronFaults) :
    OnlyChanges [.irons] s (State.ironAfter s i x) := by
  unfold State.ironAfter
  extract_lets _ _ _
  refine .ite ?_ ?_
  · refine .step (State.onIron_only _ _ _) rfl ?_
    exact .refl _ _
  · exact .refl _ _

end Sys2Proof.Machine
end

