-- ==== Sys2Proof/Laws/FramesEngine.lean ====
section
/-!
SUPPORT. Footprints of the operations of Machine/Engine.lean.
-/
namespace Sys2Proof.Machine
set_option Elab.async false

theorem State.assignLanes_only (s : State) (cs : List Nat) :
    OnlyChanges [.chans, .draws] s (State.assignLanes s cs) := by
  unfold State.assignLanes
  extract_lets _ s1
  have hs1 : OnlyChanges [.chans, .draws] s s1 := by
    unfold s1
    refine .ite ?_ ?_
    · exact .refl _ _
    · refine .foldl (fun u2 _ => ?_) ?_
      · refine .step (State.onChan_only _ _ _) rfl ?_
        exact .refl _ _
      · exact .refl _ _
  clear_value s1
  refine .foldl (fun u3 _ => ?_) ?_
  · extract_lets _ _ s4
    have hs4 : OnlyChanges [.chans, .draws] u3 s4 := by
      unfold s4
      refine .step (State.onChan_only _ _ _) rfl ?_
      exact .refl _ _
    clear_value s4
    refine .ite ?_ ?_
    · exact .refl _ _
    · refine .step (set_draws_only _ _) rfl ?_
      exact hs4
  · exact hs1

theorem State.lastFaultWrites_only (s : State) :
    OnlyChanges [.groups] s (State.lastFaultWrites s) := by
  unfold State.lastFaultWrites
  refine .foldl (fun u1 _ => ?_) ?_
  · refine .step (State.onGroup_only _ _ _) rfl ?_
    exact .refl _ _
  · exact .refl _ _

theorem State.keepMeans_only (s : State) (g : Nat) :
    OnlyChanges [.groups] s (State.keepMeans s g) := by
  unfold State.keepMeans
  extract_lets _
  refine .step (State.onGroup_only _ _ _) rfl ?_
  exact .refl _ _

theorem State.stopPorts_only (s : State) (g : Nat) :
    OnlyChanges [.ports] s (State.stopPorts s g) := by
  unfold State.stopPorts
  refine .foldl (fun u1 _ => ?_) ?_
  · refine .step (State.onPort_only _ _ _) rfl ?_
    exact .refl _ _
  · exact .refl _ _

theorem State.groupFault_only (s : State) (g : Nat) (c : Nat) :
    OnlyChanges [.groups] s (State.groupFault s g c) := by
  unfold State.groupFault
  refine .step (State.onGroup_only _ _ _) rfl ?_
  exact .refl _ _

theorem State.groupOut_only (s : State) (g : Nat) (ph : GroupPhase) :
    OnlyChanges [.groups] s (State.groupOut s g ph) := by
  unfold State.groupOut
  refine .step (State.onGroup_only _ _ _) rfl ?_
  exact .refl _ _

theorem State.enterFallback_only (s : State) (g : Nat) :
    OnlyChanges [.groups, .ports, .lint] s (State.enterFallback s g) := by
  unfold State.enterFallback
  extract_lets s1
  have hs1 : OnlyChanges [.groups, .ports, .lint] s s1 := by
    unfold s1
    refine .step (State.groupOut_only _ _ _) rfl ?_
    refine .step (State.detect_only _ _ _) rfl ?_
    refine .step (State.groupFault_only _ _ _) rfl ?_
    exact .refl _ _
  clear_value s1
  refine .ite ?_ ?_
  · refine .foldl (fun u2 _ => ?_) ?_
    · refine .step (State.onPort_only _ _ _) rfl ?_
      exact .refl _ _
    · exact hs1
  · exact .refl _ _

theorem State.markFresh_only (s : State) (g : Nat) :
    OnlyChanges [.chans] s (State.markFresh s g) := by
  unfold State.markFresh
  extract_lets _ _ _ s1 s2
  have hs1 : OnlyChanges [.chans] s s1 := by
    unfold s1
    refine .foldl (fun u3 _ => ?_) ?_
    · refine .step (State.onChan_only _ _ _) rfl ?_
      exact .refl _ _
    · exact .refl _ _
  clear_value s1
  have hs2 : OnlyChanges [.chans] s s2 := by
    unfold s2
    refine .ite ?_ ?_
    · exact hs1
    · refine .step (State.onChan_only _ _ _) rfl ?_
      exact hs1
  clear_value s2
  refine .ite ?_ ?_
  · refine .step (State.onChan_only _ _ _) rfl ?_
    exact hs2
  · exact hs2

theorem State.enterSoftStart_only (s : State) (g : Nat) :
    OnlyChanges [.chans, .groups, .ports, .shelf] s (State.enterSoftStart s g) := by
  unfold State.enterSoftStart
  extract_lets s1 _ _ s2
  have hs1 : OnlyChanges [.chans, .groups, .ports, .shelf] s s1 := by
    unfold s1
    refine .step (State.markFresh_only _ _) rfl ?_
    exact .refl _ _
  clear_value s1
  have hs2 : OnlyChanges [.chans, .groups, .ports, .shelf] s s2 := by
    unfold s2
    refine .foldl (fun u3 _ => ?_) ?_
    · refine .step (State.onPort_only _ _ _) rfl ?_
      exact .refl _ _
    · exact hs1
  clear_value s2
  refine .step (State.recomputeD_only _) rfl ?_
  refine .step (State.onGroup_only _ _ _) rfl ?_
  exact hs2

theorem State.takeStop_only (s : State) (g : Nat) :
    OnlyChanges [.groups, .ports] s (State.takeStop s g) := by
  unfold State.takeStop
  extract_lets _ s1 f2 f3
  have hs1 : OnlyChanges [.groups, .ports] s s1 := by
    unfold s1
    refine .step (State.onGroup_only _ _ _) rfl ?_
    exact .refl _ _
  clear_value s1
  split
  · unfold f3
    refine .step (State.onGroup_only _ _ _) rfl ?_
    refine .step (State.stopPorts_only _ _) rfl ?_
    unfold f2
    refine .foldl (fun u4 _ => ?_) ?_
    · refine .step (State.groupFault_only _ _ _) rfl ?_
      exact .refl _ _
    · exact hs1
  · unfold f3
    refine .step (State.onGroup_only _ _ _) rfl ?_
    refine .step (State.stopPorts_only _ _) rfl ?_
    unfold f2
    refine .foldl (fun u5 _ => ?_) ?_
    · refine .step (State.groupFault_only _ _ _) rfl ?_
      exact .refl _ _
    · exact hs1
  · unfold f3
    refine .step (State.onGroup_only _ _ _) rfl ?_
    refine .step (State.stopPorts_only _ _) rfl ?_
    unfold f2
    refine .foldl (fun u6 _ => ?_) ?_
    · refine .step (State.groupFault_only _ _ _) rfl ?_
      exact .refl _ _
    · exact hs1
  · refine .step (State.onGroup_only _ _ _) rfl ?_
    unfold f2
    refine .foldl (fun u7 _ => ?_) ?_
    · refine .step (State.groupFault_only _ _ _) rfl ?_
      exact .refl _ _
    · exact hs1
  · exact hs1

theorem State.takeStart_only (s : State) (g : Nat) (hold : Bool) :
    OnlyChanges [.chans, .groups, .ports, .shelf, .draws] s (State.takeStart s g hold) := by
  unfold State.takeStart
  extract_lets _ s1
  have hs1 : OnlyChanges [.chans, .groups, .ports, .shelf, .draws] s s1 := by
    unfold s1
    refine .step (State.onGroup_only _ _ _) rfl ?_
    exact .refl _ _
  clear_value s1
  refine .ite ?_ ?_
  · exact hs1
  · refine .ite ?_ ?_
    · refine .step (State.onGroup_only _ _ _) rfl ?_
      exact hs1
    · split
      · refine .ite ?_ ?_
        · refine .step (State.onGroup_only _ _ _) rfl ?_
          exact hs1
        · refine .step (State.enterSoftStart_only _ _) rfl ?_
          refine .step (State.onGroup_only _ _ _) rfl ?_
          exact hs1
      · refine .ite ?_ ?_
        · refine .step (State.enterSoftStart_only _ _) rfl ?_
          refine .step (State.assignLanes_only _ _) rfl ?_
          exact hs1
        · exact hs1
      · exact hs1

theorem State.takeClear_only (s : State) (g : Nat) :
    OnlyChanges [.groups] s (State.takeClear s g) := by
  unfold State.takeClear
  extract_lets s1
  have hs1 : OnlyChanges [.groups] s s1 := by
    unfold s1
    refine .step (State.onGroup_only _ _ _) rfl ?_
    exact .refl _ _
  clear_value s1
  refine .ite ?_ ?_
  · refine .step (State.onGroup_only _ _ _) rfl ?_
    exact hs1
  · exact hs1

theorem State.softStartTimeout_only (s : State) (g : Nat) :
    OnlyChanges [.groups, .ports, .lint] s (State.softStartTimeout s g) := by
  unfold State.softStartTimeout
  extract_lets _ _ s1 s2
  have hs1 : OnlyChanges [.groups, .ports, .lint] s s1 := by
    unfold s1
    refine .step (State.stopPorts_only _ _) rfl ?_
    refine .step (State.detect_only _ _ _) rfl ?_
    refine .step (State.groupFault_only _ _ _) rfl ?_
    exact .refl _ _
  clear_value s1
  have hs2 : OnlyChanges [.groups, .ports, .lint] s s2 := by
    unfold s2
    refine .step (State.stopPorts_only _ _) rfl ?_
    refine .step (State.detect_only _ _ _) rfl ?_
    refine .step (State.groupFault_only _ _ _) rfl ?_
    exact .refl _ _
  clear_value s2
  refine .ite ?_ ?_
  · refine .ite ?_ ?_
    · refine .step (State.onGroup_only _ _ _) rfl ?_
      refine .step (State.groupOut_only _ _ _) rfl ?_
      exact hs1
    · refine .step (State.groupOut_only _ _ _) rfl ?_
      exact hs2
  · exact .refl _ _

theorem State.retryTimer_only (s : State) (g : Nat) :
    OnlyChanges [.chans, .groups, .ports, .shelf] s (State.retryTimer s g) := by
  unfold State.retryTimer
  extract_lets _
  refine .ite ?_ ?_
  · refine .step (State.enterSoftStart_only _ _) rfl ?_
    exact .refl _ _
  · exact .refl _ _

theorem State.softStartDone_only (s : State) (g : Nat) :
    OnlyChanges [.groups] s (State.softStartDone s g) := by
  unfold State.softStartDone
  extract_lets _ _
  refine .ite ?_ ?_
  · refine .step (State.onGroup_only _ _ _) rfl ?_
    exact .refl _ _
  · exact .refl _ _

theorem State.retireLane_only (s : State) (l : Nat) :
    OnlyChanges [.groups, .engine, .lint] s (State.retireLane s l) := by
  unfold State.retireLane
  extract_lets _ _ s1 _ _
  have hs1 : OnlyChanges [.groups, .engine, .lint] s s1 := by
    unfold s1
    refine .step (set_engine_only _ _) rfl ?_
    exact .refl _ _
  clear_value s1
  refine .ite ?_ ?_
  · exact .refl _ _
  · refine .ite ?_ ?_
    · exact hs1
    · refine .foldl (fun u2 _ => ?_) ?_
      · refine .ite ?_ ?_
        · refine .step (State.onGroup_only _ _ _) rfl ?_
          exact .refl _ _
        · exact .refl _ _
      · refine .step (State.detectOwn_only _ _ _ _) rfl ?_
        exact hs1

theorem State.moveToSpare_only (s : State) (g : Nat) :
    OnlyChanges [.chans] s (State.moveToSpare s g) := by
  unfold State.moveToSpare
  refine .ite ?_ ?_
  · exact .refl _ _
  · refine .foldl (fun u1 _ => ?_) ?_
    · refine .step (State.onChan_only _ _ _) rfl ?_
      exact .refl _ _
    · exact .refl _ _

theorem State.channelStrike_only (s : State) (c : Nat) (sram : Bool) :
    OnlyChanges [.groups, .engine, .lint] s (State.channelStrike s c sram) := by
  unfold State.channelStrike
  extract_lets _ s1
  have hs1 : OnlyChanges [.groups, .engine, .lint] s s1 := by
    unfold s1
    refine .ite ?_ ?_
    · refine .step (State.detectOwn_only _ _ _ _) rfl ?_
      exact .refl _ _
    · exact .refl _ _
  clear_value s1
  refine .ite ?_ ?_
  · refine .step (State.retireLane_only _ _) rfl ?_
    exact hs1
  · exact hs1

theorem State.takeoverGroup_only (s : State) (g : Nat) :
    OnlyChanges [.chans, .groups] s (State.takeoverGroup s g) := by
  unfold State.takeoverGroup
  extract_lets _ s1
  have hs1 : OnlyChanges [.chans, .groups] s s1 := by
    unfold s1
    refine .foldl (fun u2 _ => ?_) ?_
    · refine .step (State.onChan_only _ _ _) rfl ?_
      exact .refl _ _
    · exact .refl _ _
  clear_value s1
  refine .step (State.onGroup_only _ _ _) rfl ?_
  exact hs1

theorem State.takeover_only (s : State) (g : Nat) :
    OnlyChanges [.chans, .groups] s (State.takeover s g) := by
  unfold State.takeover
  extract_lets _
  split
  · exact .refl _ _
  · extract_lets _ s1
    have hs1 : OnlyChanges [.chans, .groups] s s1 := by
      unfold s1
      refine .foldl (fun u2 _ => ?_) ?_
      · refine .step (State.takeoverGroup_only _ _) rfl ?_
        exact .refl _ _
      · exact .refl _ _
    clear_value s1
    refine .ite ?_ ?_
    · refine .step (State.onChan_only _ _ _) rfl ?_
      exact hs1
    · exact hs1

theorem State.leaveSupport_only (s : State) (g : Nat) :
    OnlyChanges [.chans, .groups] s (State.leaveSupport s g) := by
  unfold State.leaveSupport
  refine .foldl (fun u1 _ => ?_) ?_
  · extract_lets s2
    have hs2 : OnlyChanges [.chans, .groups] u1 s2 := by
      unfold s2
      split
      · refine .step (State.onChan_only _ _ _) rfl ?_
        exact .refl _ _
      · exact .refl _ _
    clear_value s2
    refine .step (State.onGroup_only _ _ _) rfl ?_
    exact hs2
  · exact .refl _ _

theorem State.chooseMode_only (s : State) (g : Nat) (k : Nat) (y : Int) (ramp : Int) (goal : Int) :
    OnlyChanges [.chans, .groups] s (State.chooseMode s g k y ramp goal) := by
  unfold State.chooseMode
  extract_lets _ _ _ _ _
  refine .ite ?_ ?_
  · refine .step (State.onGroup_only _ _ _) rfl ?_
    exact .refl _ _
  · refine .ite ?_ ?_
    · refine .step (State.onGroup_only _ _ _) rfl ?_
      exact .refl _ _
    · refine .ite ?_ ?_
      · refine .ite ?_ ?_
        · refine .step (State.onGroup_only _ _ _) rfl ?_
          refine .ite ?_ ?_
          · refine .step (State.onChan_only _ _ _) rfl ?_
            exact .refl _ _
          · exact .refl _ _
        · exact .refl _ _
      · refine .ite ?_ ?_
        · refine .ite ?_ ?_
          · refine .step (State.leaveSupport_only _ _) rfl ?_
            exact .refl _ _
          · refine .step (State.onGroup_only _ _ _) rfl ?_
            exact .refl _ _
        · refine .step (State.onGroup_only _ _ _) rfl ?_
          exact .refl _ _

theorem State.poolStrikes_only (s : State) (g : Nat) :
    OnlyChanges [.groups, .ports, .lint] s (State.poolStrikes s g) := by
  unfold State.poolStrikes
  refine .ite ?_ ?_
  · exact .refl _ _
  · refine .foldl (fun u1 _ => ?_) ?_
    · refine .step (State.enterFallback_only _ _) rfl ?_
      exact .refl _ _
    · exact .refl _ _

theorem State.poolEval_only (s : State) (g : Nat) (x : SampleIn) :
    OnlyChanges [.chans, .groups, .ports, .engine, .lint] s (State.poolEval s g x) := by
  unfold State.poolEval
  extract_lets _ _ _ _ _ _ _ _ _ s1 _ s2 _ _ _ _
  have hs1 : OnlyChanges [.chans, .groups, .ports, .engine, .lint] s s1 := by
    unfold s1
    split
    · refine .step (State.chooseMode_only _ _ _ _ _ _) rfl ?_
      exact .refl _ _
    · refine .step (State.onGroup_only _ _ _) rfl ?_
      exact .refl _ _
  clear_value s1
  have hs2 : OnlyChanges [.chans, .groups, .ports, .engine, .lint] s s2 := by
    unfold s2
    refine .foldl (fun u3 _ => ?_) ?_
    · refine .ite ?_ ?_
      · refine .step (State.onGroup_only _ _ _) rfl ?_
        exact .refl _ _
      · exact .refl _ _
    · exact hs1
  clear_value s2
  refine .ite ?_ ?_
  · exact .refl _ _
  · refine .ite ?_ ?_
    · refine .step (State.onChan_only _ _ _) rfl ?_
      exact hs2
    · refine .ite ?_ ?_
      · refine .step (State.onChan_only _ _ _) rfl ?_
        exact hs2
      · split
        extract_lets s4
        have hs4 : OnlyChanges [.chans, .groups, .ports, .engine, .lint] s s4 := by
          unfold s4
          refine .step (State.onChan_only _ _ _) rfl ?_
          exact hs2
        clear_value s4
        split
        · refine .step (State.poolStrikes_only _ _) rfl ?_
          refine .step (State.channelStrike_only _ _ _) rfl ?_
          exact hs4
        · exact hs4

theorem State.evalChannels_only (s : State) (g : Nat) (x : SampleIn) :
    OnlyChanges [.chans, .groups, .ports, .engine, .lint] s (s.evalChannels g x).1 := by
  unfold State.evalChannels
  generalize s.competitors g = cs
  suffices H : ∀ (a : State × List (Nat × Int)), OnlyChanges [.chans, .groups, .ports, .engine, .lint] s a.1 →
      OnlyChanges [.chans, .groups, .ports, .engine, .lint] s (cs.foldl _ a).1 from H _ (OnlyChanges.refl _ _)
  induction cs with
  | nil => intro a h; exact h
  | cons c cs ih =>
    intro a h
    refine ih _ ?_
    dsimp only
    split
    · with_reducible exact (OnlyChanges.step (State.channelStrike_only ..) rfl (OnlyChanges.step (State.onChan_only ..) rfl h))
    · with_reducible exact (OnlyChanges.step (State.onChan_only ..) rfl h)

theorem State.evalChannels_to {s : State} {g : Nat} {x : SampleIn} {t : State} {y} (e : s.evalChannels g x = (t, y)) :
    OnlyChanges [.chans, .groups, .ports, .engine, .lint] s t := by
  have h := s.evalChannels_only g x
  rw [e] at h; exact h

theorem State.storeSample_only (s : State) (g : Nat) (us : List (Nat × Int)) (sel : Int) (mismatch : Bool) :
    OnlyChanges [.chans] s (State.storeSample s g us sel mismatch) := by
  unfold State.storeSample
  extract_lets _ _ s1 s2 _
  have hs1 : OnlyChanges [.chans] s s1 := by
    unfold s1
    refine .ite ?_ ?_
    · exact .refl _ _
    · refine .foldl (fun u3 _ => ?_) ?_
      · refine .ite ?_ ?_
        · exact .refl _ _
        · refine .step (State.onChan_only _ _ _) rfl ?_
          exact .refl _ _
      · exact .refl _ _
  clear_value s1
  have hs2 : OnlyChanges [.chans] s s2 := by
    unfold s2
    refine .step (State.onChan_only _ _ _) rfl ?_
    exact hs1
  clear_value s2
  refine .ite ?_ ?_
  · exact hs2
  · refine .step (State.onChan_only _ _ _) rfl ?_
    exact hs2

theorem State.markWinner_only (s : State) (g : Nat) (w : Nat) :
    OnlyChanges [.chans] s (State.markWinner s g w) := by
  unfold State.markWinner
  refine .foldl (fun u1 _ => ?_) ?_
  · refine .step (State.onChan_only _ _ _) rfl ?_
    exact .refl _ _
  · exact .refl _ _

theorem State.derateRelease_only (s : State) (g : Nat) :
    OnlyChanges [.chans] s (State.derateRelease s g) := by
  unfold State.derateRelease
  refine .foldl (fun u1 _ => ?_) ?_
  · extract_lets _
    split
    · refine .ite ?_ ?_
      · refine .step (State.onChan_only _ _ _) rfl ?_
        exact .refl _ _
      · exact .refl _ _
    · exact .refl _ _
  · exact .refl _ _

theorem State.dropTrims_only (s : State) (g : Nat) :
    OnlyChanges [.ports] s (State.dropTrims s g) := by
  unfold State.dropTrims
  refine .foldl (fun u1 _ => ?_) ?_
  · refine .ite ?_ ?_
    · exact .refl _ _
    · refine .step (State.onPort_only _ _ _) rfl ?_
      exact .refl _ _
  · exact .refl _ _

theorem State.shareTurn_only (s : State) (g : Nat) (x : SampleIn) :
    OnlyChanges [.chans, .groups, .ports, .engine, .lint] s (State.shareTurn s g x) := by
  unfold State.shareTurn
  split
  · extract_lets _ _ s1 _ _ _ _ _ _ _ _ s2
    have hs1 : OnlyChanges [.chans, .groups, .ports, .engine, .lint] s s1 := by
      unfold s1
      refine .step (State.onGroup_only _ _ _) rfl ?_
      exact .refl _ _
    clear_value s1
    have hs2 : OnlyChanges [.chans, .groups, .ports, .engine, .lint] s s2 := by
      unfold s2
      refine .step (State.onChan_only _ _ _) rfl ?_
      exact hs1
    clear_value s2
    refine .ite ?_ ?_
    · refine .step (State.onChan_only _ _ _) rfl ?_
      exact hs1
    · split
      · refine .step (State.channelStrike_only _ _ _) rfl ?_
        refine .step (State.onChan_only _ _ _) rfl ?_
        exact hs1
      · refine .step (State.onPort_only _ _ _) rfl ?_
        exact hs2
  · exact .refl _ _

theorem State.commandPort_only (s : State) (g : Nat) (p : Nat) :
    OnlyChanges [.ports] s (State.commandPort s g p) := by
  unfold State.commandPort
  extract_lets _ _ _ _ _
  refine .ite ?_ ?_
  · exact .refl _ _
  · refine .step (State.onPort_only _ _ _) rfl ?_
    exact .refl _ _

theorem State.suspendLock_only (s : State) (g : Nat) :
    OnlyChanges [.groups, .ports] s (State.suspendLock s g) := by
  unfold State.suspendLock
  extract_lets s1
  have hs1 : OnlyChanges [.groups, .ports] s s1 := by
    unfold s1
    refine .step (State.onGroup_only _ _ _) rfl ?_
    exact .refl _ _
  clear_value s1
  refine .foldl (fun u2 _ => ?_) ?_
  · refine .step (State.onPort_only _ _ _) rfl ?_
    exact .refl _ _
  · exact hs1

theorem State.lockSample_only (s : State) (g : Nat) (old : Int) :
    OnlyChanges [.groups, .ports] s (State.lockSample s g old) := by
  unfold State.lockSample
  extract_lets _
  refine .ite ?_ ?_
  · refine .step (State.suspendLock_only _ _) rfl ?_
    exact .refl _ _
  · refine .step (State.onGroup_only _ _ _) rfl ?_
    exact .refl _ _

theorem State.capRestart_only (s : State) (g : Nat) (x : SampleIn) :
    OnlyChanges [.chans, .groups] s (State.capRestart s g x) := by
  unfold State.capRestart
  extract_lets _ _ _ s1
  have hs1 : OnlyChanges [.chans, .groups] s s1 := by
    unfold s1
    refine .step (State.onGroup_only _ _ _) rfl ?_
    exact .refl _ _
  clear_value s1
  refine .ite ?_ ?_
  · refine .step (State.onChan_only _ _ _) rfl ?_
    exact hs1
  · exact hs1

theorem State.primaryChange_only (s : State) (g : Nat) :
    OnlyChanges [.chans, .groups] s (State.primaryChange s g) := by
  unfold State.primaryChange
  extract_lets _ _ _ s1
  have hs1 : OnlyChanges [.chans, .groups] s s1 := by
    unfold s1
    refine .ite ?_ ?_
    · refine .step (State.onChan_only _ _ _) rfl ?_
      exact .refl _ _
    · exact .refl _ _
  clear_value s1
  refine .step (State.onGroup_only _ _ _) rfl ?_
  exact hs1

theorem State.select_only (s : State) (g : Nat) (won : Nat × Int) (mismatch : Bool) :
    OnlyChanges [.chans, .groups] s (State.select s g won mismatch) := by
  unfold State.select
  extract_lets _
  refine .ite ?_ ?_
  · refine .step (State.onGroup_only _ _ _) rfl ?_
    exact .refl _ _
  · refine .step (State.markWinner_only _ _ _) rfl ?_
    refine .step (State.onGroup_only _ _ _) rfl ?_
    exact .refl _ _

theorem State.commandPorts_only (s : State) (g : Nat) (mismatch : Bool) :
    OnlyChanges [.ports] s (State.commandPorts s g mismatch) := by
  unfold State.commandPorts
  refine .foldl (fun u1 _ => ?_) ?_
  · refine .ite ?_ ?_
    · refine .step (State.onPort_only _ _ _) rfl ?_
      exact .refl _ _
    · refine .step (State.commandPort_only _ _ _) rfl ?_
      exact .refl _ _
  · exact .refl _ _

theorem State.sampleRun_only (s : State) (g : Nat) (x : SampleIn) :
    OnlyChanges [.chans, .groups, .ports, .engine, .lint] s (State.sampleRun s g x) := by
  unfold State.sampleRun
  extract_lets _ s1 _
  have hs1 : OnlyChanges [.chans, .groups, .ports, .engine, .lint] s s1 := by
    unfold s1
    refine .step (State.poolEval_only _ _ _) rfl ?_
    refine .step (State.primaryChange_only _ _) rfl ?_
    refine .step (State.capRestart_only _ _ _) rfl ?_
    refine .step (State.takeover_only _ _) rfl ?_
    exact .refl _ _
  clear_value s1
  split
  extract_lets _ _ _ _ s2 s3 s4 s5 s6
  have hs2 : OnlyChanges [.chans, .groups, .ports, .engine, .lint] s s2 := by
    unfold s2
    refine .step (State.derateRelease_only _ _) rfl ?_
    refine .step (State.select_only _ _ _ _) rfl ?_
    refine .step (State.storeSample_only _ _ _ _ _) rfl ?_
    refine .step (State.evalChannels_to (by assumption)) rfl ?_
    exact hs1
  clear_value s2
  have hs3 : OnlyChanges [.chans, .groups, .ports, .engine, .lint] s s3 := by
    unfold s3
    refine .ite ?_ ?_
    · exact hs2
    · refine .step (State.shareTurn_only _ _ _) rfl ?_
      exact hs2
  clear_value s3
  have hs4 : OnlyChanges [.chans, .groups, .ports, .engine, .lint] s s4 := by
    unfold s4
    refine .step (State.onGroup_only _ _ _) rfl ?_
    exact hs3
  clear_value s4
  have hs5 : OnlyChanges [.chans, .groups, .ports, .engine, .lint] s s5 := by
    unfold s5
    refine .step (State.commandPorts_only _ _ _) rfl ?_
    refine .step (State.lockSample_only _ _ _) rfl ?_
    exact hs4
  clear_value s5
  have hs6 : OnlyChanges [.chans, .groups, .ports, .engine, .lint] s s6 := by
    unfold s6
    refine .ite ?_ ?_
    · refine .step (State.enterFallback_only _ _) rfl ?_
      exact hs5
    · exact hs5
  clear_value s6
  refine .step (State.softStartTimeout_only _ _) rfl ?_
  refine .step (State.softStartDone_only _ _) rfl ?_
  exact hs6

theorem State.writeLastFault_only (s : State) (g : Nat) :
    OnlyChanges [.groups] s (State.writeLastFault s g) := by
  unfold State.writeLastFault
  extract_lets _
  refine .ite ?_ ?_
  · exact .refl _ _
  · refine .step (State.onGroup_only _ _ _) rfl ?_
    exact .refl _ _

theorem State.takeExhausted_only (s : State) (g : Nat) :
    OnlyChanges [.groups, .ports, .lint] s (State.takeExhausted s g) := by
  unfold State.takeExhausted
  refine .ite ?_ ?_
  · refine .step (State.enterFallback_only _ _) rfl ?_
    refine .step (State.onGroup_only _ _ _) rfl ?_
    exact .refl _ _
  · exact .refl _ _

theorem State.takeRequests_only (s : State) (g : Nat) (hold : Bool) :
    OnlyChanges [.chans, .groups, .ports, .shelf, .lint, .draws] s (State.takeRequests s g hold) := by
  unfold State.takeRequests
  extract_lets s1 s2
  have hs1 : OnlyChanges [.chans, .groups, .ports, .shelf, .lint, .draws] s s1 := by
    unfold s1
    refine .ite ?_ ?_
    · refine .step (State.takeStop_only _ _) rfl ?_
      exact .refl _ _
    · refine .step (State.takeExhausted_only _ _) rfl ?_
      exact .refl _ _
  clear_value s1
  have hs2 : OnlyChanges [.chans, .groups, .ports, .shelf, .lint, .draws] s s2 := by
    unfold s2
    refine .ite ?_ ?_
    · refine .step (State.takeStart_only _ _ _) rfl ?_
      exact hs1
    · exact hs1
  clear_value s2
  refine .ite ?_ ?_
  · refine .step (State.takeClear_only _ _) rfl ?_
    exact hs2
  · exact hs2

theorem State.sampleBoundary_only (s : State) (g : Nat) (hold : Bool) (x : SampleIn) :
    OnlyChanges [.chans, .groups, .ports, .irons, .flat, .engine, .shelf, .strings, .lint, .draws] s (State.sampleBoundary s g hold x) := by
  unfold State.sampleBoundary
  extract_lets _ s1 s2 s3 _ _ s4 s5 s6 s7 _ s8
  have hs1 : OnlyChanges [.chans, .groups, .ports, .irons, .flat, .engine, .shelf, .strings, .lint, .draws] s s1 := by
    unfold s1
    refine .step (State.dropTrims_only _ _) rfl ?_
    refine .step (State.retryTimer_only _ _) rfl ?_
    refine .step (State.takeRequests_only _ _ _) rfl ?_
    refine .step (State.moveToSpare_only _ _) rfl ?_
    exact .refl _ _
  clear_value s1
  have hs2 : OnlyChanges [.chans, .groups, .ports, .irons, .flat, .engine, .shelf, .strings, .lint, .draws] s s2 := by
    unfold s2
    refine .ite ?_ ?_
    · refine .step (State.keepMeans_only _ _) rfl ?_
      exact hs1
    · exact hs1
  clear_value s2
  have hs3 : OnlyChanges [.chans, .groups, .ports, .irons, .flat, .engine, .shelf, .strings, .lint, .draws] s s3 := by
    unfold s3
    refine .foldl (fun u9 _ => ?_) ?_
    · refine .step (State.ironRequests_only _ _) rfl ?_
      exact .refl _ _
    · exact hs2
  clear_value s3
  have hs4 : OnlyChanges [.chans, .groups, .ports, .irons, .flat, .engine, .shelf, .strings, .lint, .draws] s s4 := by
    unfold s4
    split
    · refine .step (State.onStr_only _ _ _) rfl ?_
      exact hs3
    · exact hs3
  clear_value s4
  have hs5 : OnlyChanges [.chans, .groups, .ports, .irons, .flat, .engine, .shelf, .strings, .lint, .draws] s s5 := by
    unfold s5
    refine .foldl (fun u10 _ => ?_) ?_
    · refine .step (State.ironBefore_only _ _ _ _) rfl ?_
      exact .refl _ _
    · exact hs4
  clear_value s5
  have hs6 : OnlyChanges [.chans, .groups, .ports, .irons, .flat, .engine, .shelf, .strings, .lint, .draws] s s6 := by
    unfold s6
    refine .ite ?_ ?_
    · exact hs5
    · refine .ite ?_ ?_
      · refine .step (State.softStartTimeout_only _ _) rfl ?_
        refine .step (State.onGroup_only _ _ _) rfl ?_
        exact hs5
      · refine .step (State.sampleRun_only _ _ _) rfl ?_
        exact hs5
  clear_value s6
  have hs7 : OnlyChanges [.chans, .groups, .ports, .irons, .flat, .engine, .shelf, .strings, .lint, .draws] s s7 := by
    unfold s7
    refine .ite ?_ ?_
    · exact hs6
    · refine .foldl (fun u11 _ => ?_) ?_
      · refine .step (State.ironAfter_only _ _ _) rfl ?_
        exact .refl _ _
      · exact hs6
  clear_value s7
  have hs8 : OnlyChanges [.chans, .groups, .ports, .irons, .flat, .engine, .shelf, .strings, .lint, .draws] s s8 := by
    unfold s8
    refine .step (set_engine_only _ _) rfl ?_
    exact hs7
  clear_value s8
  refine .ite ?_ ?_
  · exact .refl _ _
  · refine .step (State.writeLastFault_only _ _) rfl ?_
    exact hs8

end Sys2Proof.Machine
end

