-- ==== Sys2Proof/Laws/FramesTimebase.lean ====
section
/-!
SUPPORT. Footprints of the operations of Machine/Timebase.lean.
-/
namespace Sys2Proof.Machine
set_option Elab.async false

theorem State.timebaseRows_only (s : State) :
    OnlyChanges [.tb, .lint] s (State.timebaseRows s) := by
  unfold State.timebaseRows
  extract_lets _ _ _ f1 s2 _ s3 _
  have hs2 : OnlyChanges [.tb, .lint] s s2 := by
    unfold s2
    refine .step (State.detect_only _ _ _) rfl ?_
    unfold f1
    refine .step (set_tb_only _ _) rfl ?_
    exact .refl _ _
  clear_value s2
  have hs3 : OnlyChanges [.tb, .lint] s s3 := by
    unfold s3
    unfold f1
    refine .step (set_tb_only _ _) rfl ?_
    exact .refl _ _
  clear_value s3
  split
  · refine .ite ?_ ?_
    · unfold f1
      refine .step (set_tb_only _ _) rfl ?_
      exact .refl _ _
    · refine .ite ?_ ?_
      · refine .step (set_tb_only _ _) rfl ?_
        exact hs2
      · exact .refl _ _
  · refine .ite ?_ ?_
    · unfold f1
      refine .step (set_tb_only _ _) rfl ?_
      exact .refl _ _
    · refine .ite ?_ ?_
      · refine .step (set_tb_only _ _) rfl ?_
        exact hs2
      · exact .refl _ _
  · refine .ite ?_ ?_
    · unfold f1
      refine .step (set_tb_only _ _) rfl ?_
      exact .refl _ _
    · exact .refl _ _
  · refine .ite ?_ ?_
    · refine .step (set_tb_only _ _) rfl ?_
      exact .refl _ _
    · exact .refl _ _
  · refine .ite ?_ ?_
    · refine .step (set_tb_only _ _) rfl ?_
      exact hs3
    · exact .refl _ _

theorem State.timebaseChange_only (s : State) (old : TimebaseCfg) :
    OnlyChanges [.tb, .lint] s (State.timebaseChange s old) := by
  unfold State.timebaseChange
  extract_lets _ _ s1 s2 _
  have hs1 : OnlyChanges [.tb, .lint] s s1 := by
    unfold s1
    refine .ite ?_ ?_
    · exact .refl _ _
    · refine .step (set_tb_only _ _) rfl ?_
      exact .refl _ _
  clear_value s1
  have hs2 : OnlyChanges [.tb, .lint] s s2 := by
    unfold s2
    refine .ite ?_ ?_
    · refine .step (State.timebaseRows_only _) rfl ?_
      exact hs1
    · exact hs1
  clear_value s2
  refine .ite ?_ ?_
  · refine .step (set_tb_only _ _) rfl ?_
    exact hs2
  · exact hs2

theorem State.nextSlot_only (s : State) :
    OnlyChanges [.clock, .tb] s (State.nextSlot s) := by
  unfold State.nextSlot
  extract_lets _
  refine .step (set_clock_tb_only _ _ _) rfl ?_
  exact .refl _ _

theorem State.steer_only (s : State) (err : Int) :
    OnlyChanges [.tb, .draws] s (State.steer s err) := by
  unfold State.steer
  extract_lets _ _ _ _
  refine .step (set_tb_draws_only _ _ _) rfl ?_
  exact .refl _ _

theorem State.validEdge_only (s : State) (err : Int) :
    OnlyChanges [.tb, .lint, .draws] s (State.validEdge s err) := by
  unfold State.validEdge
  extract_lets _ _ _ _ s1 f2 _ s3 _
  have hs1 : OnlyChanges [.tb, .lint, .draws] s s1 := by
    unfold s1
    refine .step (set_tb_only _ _) rfl ?_
    exact .refl _ _
  clear_value s1
  have hs3 : OnlyChanges [.tb, .lint, .draws] s s3 := by
    unfold s3
    refine .step (State.steer_only _ _) rfl ?_
    refine .step (set_tb_only _ _) rfl ?_
    exact hs1
  clear_value s3
  split
  · refine .ite ?_ ?_
    · unfold f2
      extract_lets 
      refine .step (set_tb_only _ _) rfl ?_
      exact hs1
    · exact hs1
  · refine .ite ?_ ?_
    · refine .step (set_tb_only _ _) rfl ?_
      exact hs3
    · exact hs3
  · refine .ite ?_ ?_
    · refine .step (State.detect_only _ _ _) rfl ?_
      refine .step (set_tb_only _ _) rfl ?_
      exact hs3
    · exact hs3
  · refine .ite ?_ ?_
    · unfold f2
      extract_lets 
      refine .step (set_tb_only _ _) rfl ?_
      exact hs1
    · exact hs1
  · refine .ite ?_ ?_
    · unfold f2
      extract_lets 
      refine .step (set_tb_only _ _) rfl ?_
      exact hs1
    · exact hs1

theorem State.syncinEdge_only (s : State) (falling : Bool) (sub : Nat) :
    OnlyChanges [.tb, .lint, .draws] s (State.syncinEdge s falling sub) := by
  unfold State.syncinEdge
  extract_lets _ _ _ s1 _
  have hs1 : OnlyChanges [.tb, .lint, .draws] s s1 := by
    unfold s1
    refine .step (set_tb_only _ _) rfl ?_
    exact .refl _ _
  clear_value s1
  refine .ite ?_ ?_
  · exact hs1
  · refine .ite ?_ ?_
    · refine .step (State.validEdge_only _ _) rfl ?_
      refine .step (set_tb_only _ _) rfl ?_
      exact hs1
    · refine .step (set_tb_only _ _) rfl ?_
      exact hs1

theorem State.syncoutEdge_only (s : State) (rise : Bool) :
    OnlyChanges [.tb] s (State.syncoutEdge s rise) := by
  unfold State.syncoutEdge
  extract_lets _ _ _ _ _
  refine .ite ?_ ?_
  · refine .step (set_tb_only _ _) rfl ?_
    exact .refl _ _
  · refine .ite ?_ ?_
    · refine .step (set_tb_only _ _) rfl ?_
      exact .refl _ _
    · exact .refl _ _

end Sys2Proof.Machine
end

