-- ==== Sys2Proof/Laws/FramesPress.lean ====
section
/-!
SUPPORT. Footprints of the operations of Machine/Press.lean.
-/
namespace Sys2Proof.Machine
set_option Elab.async false

theorem State.onDet_only (s : State) (n : Nat) (f : DetectorRun → DetectorRun) :
    OnlyChanges [.dets] s (State.onDet s n f) := by
  unfold State.onDet
  refine .step (set_dets_only _ _) rfl ?_
  exact .refl _ _

theorem State.detectorEnable_only (s : State) (n : Nat) :
    OnlyChanges [.dets] s (State.detectorEnable s n) := by
  unfold State.detectorEnable
  refine .step (State.onDet_only _ _ _) rfl ?_
  exact .refl _ _

theorem State.excursionClear_only (s : State) :
    OnlyChanges [.shelf] s (State.excursionClear s) := by
  unfold State.excursionClear
  refine .step (State.onShelf_only _ _) rfl ?_
  exact .refl _ _

theorem State.onPress_only (s : State) (k : Nat) (f : PressRun → PressRun) :
    OnlyChanges [.presses] s (State.onPress s k f) := by
  unfold State.onPress
  refine .step (set_presses_only _ _) rfl ?_
  exact .refl _ _

theorem State.onSense_only (s : State) (n : Nat) (f : SenseRun → SenseRun) :
    OnlyChanges [.senses] s (State.onSense s n f) := by
  unfold State.onSense
  refine .step (set_senses_only _ _) rfl ?_
  exact .refl _ _

theorem State.busWindow_only (s : State) (y : Int) :
    OnlyChanges [.shelf, .lint] s (State.busWindow s y) := by
  unfold State.busWindow
  extract_lets _ _ _ s1
  have hs1 : OnlyChanges [.shelf, .lint] s s1 := by
    unfold s1
    refine .step (State.onShelf_only _ _) rfl ?_
    exact .refl _ _
  clear_value s1
  refine .ite ?_ ?_
  · exact .refl _ _
  · refine .step (State.detectIf_only _ _ _ _) rfl ?_
    exact hs1

theorem State.senseConversion_only (s : State) (n : Nat) (code : Int) :
    OnlyChanges [.senses, .dets, .shelf, .lint] s (State.senseConversion s n code) := by
  unfold State.senseConversion
  extract_lets _ _ s1 _ _ s2
  have hs1 : OnlyChanges [.senses, .dets, .shelf, .lint] s s1 := by
    unfold s1
    refine .step (State.onSense_only _ _ _) rfl ?_
    exact .refl _ _
  clear_value s1
  have hs2 : OnlyChanges [.senses, .dets, .shelf, .lint] s s2 := by
    unfold s2
    refine .ite ?_ ?_
    · refine .step (State.onDet_only _ _ _) rfl ?_
      exact hs1
    · exact hs1
  clear_value s2
  refine .ite ?_ ?_
  · refine .step (State.busWindow_only _ _) rfl ?_
    exact hs2
  · exact hs2

theorem State.excursionClose_only (s : State) :
    OnlyChanges [.shelf] s (State.excursionClose s) := by
  unfold State.excursionClose
  extract_lets _
  refine .ite ?_ ?_
  · refine .step (State.onShelf_only _ _) rfl ?_
    exact .refl _ _
  · exact .refl _ _

theorem State.requestLaunch_only (s : State) (k : Nat) :
    OnlyChanges [.groups, .ports, .presses, .lint, .score] s (State.requestLaunch s k) := by
  unfold State.requestLaunch
  extract_lets _ _ _ _ s1 s2
  have hs1 : OnlyChanges [.groups, .ports, .presses, .lint, .score] s s1 := by
    unfold s1
    refine .step (State.onPress_only _ _ _) rfl ?_
    exact .refl _ _
  clear_value s1
  have hs2 : OnlyChanges [.groups, .ports, .presses, .lint, .score] s s2 := by
    unfold s2
    refine .foldl (fun u3 _ => ?_) ?_
    · refine .step (State.suspendLock_only _ _) rfl ?_
      refine .step (State.onPort_only _ _ _) rfl ?_
      exact .refl _ _
    · exact hs1
  clear_value s2
  refine .ite ?_ ?_
  · refine .step (State.onPress_only _ _ _) rfl ?_
    exact .refl _ _
  · refine .step (State.captureEvent_only _ _ _) rfl ?_
    refine .step (State.detectIf_only _ _ _ _) rfl ?_
    refine .step (State.detect_only _ _ _) rfl ?_
    exact hs2

theorem State.detectorTrip_only (s : State) (n : Nat) :
    OnlyChanges [.groups, .ports, .dets, .presses, .lint, .score] s (State.detectorTrip s n) := by
  unfold State.detectorTrip
  extract_lets s1
  have hs1 : OnlyChanges [.groups, .ports, .dets, .presses, .lint, .score] s s1 := by
    unfold s1
    refine .step (State.onDet_only _ _ _) rfl ?_
    exact .refl _ _
  clear_value s1
  refine .ite ?_ ?_
  · refine .step (State.requestLaunch_only _ _) rfl ?_
    exact hs1
  · exact .refl _ _

theorem State.detectorRearm_only (s : State) (n : Nat) :
    OnlyChanges [.dets] s (State.detectorRearm s n) := by
  unfold State.detectorRearm
  split
  · refine .ite ?_ ?_
    · refine .step (State.onDet_only _ _ _) rfl ?_
      exact .refl _ _
    · exact .refl _ _
  · exact .refl _ _

theorem State.burstClose_only (s : State) (k : Nat) :
    OnlyChanges [.presses] s (State.burstClose s k) := by
  unfold State.burstClose
  split
  · refine .ite ?_ ?_
    · refine .step (State.onPress_only _ _ _) rfl ?_
      exact .refl _ _
    · exact .refl _ _
  · exact .refl _ _

end Sys2Proof.Machine
end

