-- ==== Sys2Proof/Laws/FramesLoss.lean ====
section
/-!
SUPPORT. Footprints of the operations of Machine/Loss.lean.
-/
namespace Sys2Proof.Machine
set_option Elab.async false

theorem State.inputState_only (s : State) (p : Nat) :
    OnlyChanges [.ports] s (State.inputState s p) := by
  unfold State.inputState
  extract_lets _ _ _
  refine .ite ?_ ?_
  · exact .refl _ _
  · refine .step (State.onPort_only _ _ _) rfl ?_
    exact .refl _ _

theorem State.settleToZero_only (s : State) :
    OnlyChanges [.staged, .commits] s (State.settleToZero s) := by
  unfold State.settleToZero
  refine .foldl (fun u1 _ => ?_) ?_
  · refine .ite ?_ ?_
    · refine .step (State.writeSetpoint_only _ _ _) rfl ?_
      exact .refl _ _
    · exact .refl _ _
  · exact .refl _ _

theorem State.declareLoss_only (s : State) :
    OnlyChanges [.staged, .groups, .shelf, .commits] s (State.declareLoss s) := by
  unfold State.declareLoss
  extract_lets s1 s2
  have hs1 : OnlyChanges [.staged, .groups, .shelf, .commits] s s1 := by
    unfold s1
    refine .step (State.settleToZero_only _) rfl ?_
    exact .refl _ _
  clear_value s1
  have hs2 : OnlyChanges [.staged, .groups, .shelf, .commits] s s2 := by
    unfold s2
    refine .foldl (fun u3 _ => ?_) ?_
    · refine .step (State.onGroup_only _ _ _) rfl ?_
      exact .refl _ _
    · exact hs1
  clear_value s2
  refine .step (State.onShelf_only _ _) rfl ?_
  exact hs2

theorem State.lossRows_only (s : State) :
    OnlyChanges [.staged, .chans, .groups, .shelf, .commits] s (State.lossRows s) := by
  unfold State.lossRows
  refine .ite ?_ ?_
  · refine .ite ?_ ?_
    · refine .step (State.declareLoss_only _) rfl ?_
      exact .refl _ _
    · exact .refl _ _
  · refine .step (State.lossEdge_only _) rfl ?_
    exact .refl _ _

theorem State.lossClear_only (s : State) :
    OnlyChanges [.chans, .groups, .shelf] s (State.lossClear s) := by
  unfold State.lossClear
  split
  · extract_lets s1
    have hs1 : OnlyChanges [.chans, .groups, .shelf] s s1 := by
      unfold s1
      refine .foldl (fun u2 _ => ?_) ?_
      · extract_lets _ _ s3 s4
        have hs3 : OnlyChanges [.chans, .groups, .shelf] u2 s3 := by
          unfold s3
          refine .foldl (fun u5 _ => ?_) ?_
          · refine .step (State.onChan_only _ _ _) rfl ?_
            exact .refl _ _
          · exact .refl _ _
        clear_value s3
        have hs4 : OnlyChanges [.chans, .groups, .shelf] u2 s4 := by
          unfold s4
          refine .step (State.onChan_only _ _ _) rfl ?_
          exact hs3
        clear_value s4
        refine .step (State.onGroup_only _ _ _) rfl ?_
        exact hs4
      · exact .refl _ _
    clear_value s1
    refine .ite ?_ ?_
    · refine .step (State.onShelf_only _ _) rfl ?_
      exact hs1
    · exact .refl _ _
  · exact .refl _ _

end Sys2Proof.Machine
end

