-- ==== Sys2Proof/Laws/FramesLinks.lean ====
section
/-!
SUPPORT. Footprints of the operations of Machine/Links.lean.
-/
namespace Sys2Proof.Machine
set_option Elab.async false

theorem State.afterLiveness_only (s : State) (p : Nat) :
    OnlyChanges [.chans, .shelf] s (State.afterLiveness s p) := by
  unfold State.afterLiveness
  refine .ite ?_ ?_
  · refine .step (State.recomputeD_only _) rfl ?_
    exact .refl _ _
  · exact .refl _ _

theorem State.enterTraining_only (s : State) (p : Nat) (stop : Bool) :
    OnlyChanges [.chans, .ports, .shelf] s (State.enterTraining s p stop) := by
  unfold State.enterTraining
  refine .step (State.afterLiveness_only _ _) rfl ?_
  refine .step (State.onPort_only _ _ _) rfl ?_
  exact .refl _ _

theorem State.trainDown_only (s : State) (p : Nat) :
    OnlyChanges [.chans, .ports, .shelf] s (State.trainDown s p) := by
  unfold State.trainDown
  extract_lets _ _
  refine .ite ?_ ?_
  · refine .step (State.enterTraining_only _ _ _) rfl ?_
    exact .refl _ _
  · exact .refl _ _

theorem State.deliverInc_only (s : State) (g : Nat) :
    OnlyChanges [.groups] s (State.deliverInc s g) := by
  unfold State.deliverInc
  extract_lets _
  refine .step (State.onGroup_only _ _ _) rfl ?_
  exact .refl _ _

theorem State.deliverParams_only (s : State) (p : Nat) :
    OnlyChanges [.ports] s (State.deliverParams s p) := by
  unfold State.deliverParams
  extract_lets _ _ _ _ _
  refine .ite ?_ ?_
  · exact .refl _ _
  · refine .step (State.onPort_only _ _ _) rfl ?_
    exact .refl _ _

theorem State.slotSymbol_only (s : State) (p : Nat) (t : SlotContent) :
    OnlyChanges [.ports] s (State.slotSymbol s p t) := by
  unfold State.slotSymbol
  refine .step (State.onPort_only _ _ _) rfl ?_
  exact .refl _ _

theorem State.auxTake_only (s : State) (p : Nat) :
    OnlyChanges [.ports] s (State.auxTake s p) := by
  unfold State.auxTake
  extract_lets _
  refine .step (State.onPort_only _ _ _) rfl ?_
  exact .refl _ _

theorem State.serviceSlot_only (s : State) (p : Nat) :
    OnlyChanges [.ports] s (State.serviceSlot s p) := by
  unfold State.serviceSlot
  extract_lets _ _ _ _ s1 s2 _ _
  have hs1 : OnlyChanges [.ports] s s1 := by
    unfold s1
    refine .ite ?_ ?_
    · exact .refl _ _
    · refine .step (State.onPort_only _ _ _) rfl ?_
      exact .refl _ _
  clear_value s1
  have hs2 : OnlyChanges [.ports] s s2 := by
    unfold s2
    refine .step (State.auxTake_only _ _) rfl ?_
    exact hs1
  clear_value s2
  refine .ite ?_ ?_
  · refine .step (State.slotSymbol_only _ _ _) rfl ?_
    exact .refl _ _
  · refine .step (State.onPort_only _ _ _) rfl ?_
    exact hs2

theorem State.commandFrame_only (s : State) (p : Nat) (ws : List (BitVec 24)) :
    OnlyChanges [.ports] s (State.commandFrame s p ws) := by
  unfold State.commandFrame
  extract_lets s1 _
  have hs1 : OnlyChanges [.ports] s s1 := by
    unfold s1
    refine .step (State.auxTake_only _ _) rfl ?_
    exact .refl _ _
  clear_value s1
  refine .step (State.onPort_only _ _ _) rfl ?_
  exact hs1

theorem State.slotPort_only (s : State) (p : Nat) :
    OnlyChanges [.chans, .ports, .shelf] s (State.slotPort s p) := by
  unfold State.slotPort
  extract_lets _ s1 s2 _ _
  have hs1 : OnlyChanges [.chans, .ports, .shelf] s s1 := by
    unfold s1
    refine .step (State.onPort_only _ _ _) rfl ?_
    exact .refl _ _
  clear_value s1
  have hs2 : OnlyChanges [.chans, .ports, .shelf] s s2 := by
    unfold s2
    refine .step (State.slotSymbol_only _ _ _) rfl ?_
    exact hs1
  clear_value s2
  refine .ite ?_ ?_
  · refine .step (State.slotSymbol_only _ _ _) rfl ?_
    refine .step (State.onPort_only _ _ _) rfl ?_
    exact hs1
  · split
    · refine .ite ?_ ?_
      · refine .step (State.trainDown_only _ _) rfl ?_
        exact hs2
      · exact hs2
    · exact hs2
    · refine .ite ?_ ?_
      · refine .step (State.onPort_only _ _ _) rfl ?_
        exact hs1
      · exact hs2
    · refine .ite ?_ ?_
      · refine .step (State.serviceSlot_only _ _) rfl ?_
        refine .step (State.onPort_only _ _ _) rfl ?_
        exact hs1
      · refine .step (State.serviceSlot_only _ _) rfl ?_
        exact hs1
    · refine .ite ?_ ?_
      · refine .ite ?_ ?_
        · split
          · refine .ite ?_ ?_
            · refine .step (State.commandFrame_only _ _ _) rfl ?_
              exact hs1
            · refine .step (State.slotSymbol_only _ _ _) rfl ?_
              exact hs1
          · refine .step (State.slotSymbol_only _ _ _) rfl ?_
            exact hs1
        · refine .step (State.slotSymbol_only _ _ _) rfl ?_
          exact hs1
      · refine .step (State.serviceSlot_only _ _) rfl ?_
        exact hs1

theorem State.slot_only (s : State) :
    OnlyChanges [.clock, .tb, .chans, .ports, .shelf] s (State.slot s) := by
  unfold State.slot
  refine .foldl (fun u1 _ => ?_) ?_
  · refine .step (State.slotPort_only _ _) rfl ?_
    exact .refl _ _
  · refine .step (State.nextSlot_only _) rfl ?_
    exact .refl _ _

theorem State.markInc_only (s : State) (g : Nat) :
    OnlyChanges [.groups] s (State.markInc s g) := by
  unfold State.markInc
  refine .step (State.onGroup_only _ _ _) rfl ?_
  exact .refl _ _

theorem State.markParams_only (s : State) (p : Nat) :
    OnlyChanges [.ports] s (State.markParams s p) := by
  unfold State.markParams
  refine .step (State.onPort_only _ _ _) rfl ?_
  exact .refl _ _

theorem State.linkFail_only (s : State) (p : Nat) (cause : Nat) :
    OnlyChanges [.ports, .lint] s (State.linkFail s p cause) := by
  unfold State.linkFail
  refine .step (State.detect_only _ _ _) rfl ?_
  refine .step (State.onPort_only _ _ _) rfl ?_
  exact .refl _ _

theorem State.symbolLock_only (s : State) (p : Nat) :
    OnlyChanges [.chans, .ports, .shelf] s (State.symbolLock s p) := by
  unfold State.symbolLock
  refine .step (State.trainDown_only _ _) rfl ?_
  refine .step (State.onPort_only _ _ _) rfl ?_
  exact .refl _ _

theorem State.assignTimeout_only (s : State) (p : Nat) :
    OnlyChanges [.ports, .lint] s (State.assignTimeout s p) := by
  unfold State.assignTimeout
  extract_lets _
  refine .ite ?_ ?_
  · refine .ite ?_ ?_
    · refine .step (State.onPort_only _ _ _) rfl ?_
      exact .refl _ _
    · refine .step (State.linkFail_only _ _ _) rfl ?_
      exact .refl _ _
  · exact .refl _ _

theorem State.configuringFail_only (s : State) (p : Nat) :
    OnlyChanges [.ports, .lint] s (State.configuringFail s p) := by
  unfold State.configuringFail
  extract_lets _
  refine .ite ?_ ?_
  · refine .step (State.linkFail_only _ _ _) rfl ?_
    exact .refl _ _
  · exact .refl _ _

theorem State.lostRetrain_only (s : State) (p : Nat) :
    OnlyChanges [.chans, .ports, .shelf] s (State.lostRetrain s p) := by
  unfold State.lostRetrain
  extract_lets _
  refine .ite ?_ ?_
  · refine .step (State.enterTraining_only _ _ _) rfl ?_
    exact .refl _ _
  · exact .refl _ _

theorem State.portLost_only (s : State) (p : Nat) :
    OnlyChanges [.chans, .groups, .ports, .shelf, .lint] s (State.portLost s p) := by
  unfold State.portLost
  extract_lets s1 s2 _ s3
  have hs1 : OnlyChanges [.chans, .groups, .ports, .shelf, .lint] s s1 := by
    unfold s1
    refine .step (State.onPort_only _ _ _) rfl ?_
    exact .refl _ _
  clear_value s1
  have hs2 : OnlyChanges [.chans, .groups, .ports, .shelf, .lint] s s2 := by
    unfold s2
    refine .step (State.detect_only _ _ _) rfl ?_
    exact hs1
  clear_value s2
  have hs3 : OnlyChanges [.chans, .groups, .ports, .shelf, .lint] s s3 := by
    unfold s3
    refine .ite ?_ ?_
    · refine .step (State.groupFault_only _ _ _) rfl ?_
      exact hs2
    · exact hs2
  clear_value s3
  refine .step (State.afterLiveness_only _ _) rfl ?_
  exact hs3

theorem State.edgeReport_only (s : State) (p : Nat) (x : UplinkIn) :
    OnlyChanges [.groups, .ports] s (State.edgeReport s p x) := by
  unfold State.edgeReport
  extract_lets _ _ _ _ _ _ s1
  have hs1 : OnlyChanges [.groups, .ports] s s1 := by
    unfold s1
    refine .step (State.onPort_only _ _ _) rfl ?_
    exact .refl _ _
  clear_value s1
  refine .ite ?_ ?_
  · refine .step (State.onGroup_only _ _ _) rfl ?_
    exact hs1
  · exact .refl _ _

theorem State.itemReport_only (s : State) (p : Nat) (x : UplinkIn) :
    OnlyChanges [.chans, .groups, .ports, .shelf, .models, .lint] s (State.itemReport s p x) := by
  unfold State.itemReport
  extract_lets _ _ _ s1 s2 _ _
  have hs1 : OnlyChanges [.chans, .groups, .ports, .shelf, .models, .lint] s s1 := by
    unfold s1
    refine .step (State.onPort_only _ _ _) rfl ?_
    exact .refl _ _
  clear_value s1
  have hs2 : OnlyChanges [.chans, .groups, .ports, .shelf, .models, .lint] s s2 := by
    unfold s2
    refine .step (State.onPort_only _ _ _) rfl ?_
    exact .refl _ _
  clear_value s2
  split
  · refine .ite ?_ ?_
    · refine .step (State.onModel_only _ _ _) rfl ?_
      exact hs1
    · exact hs1
  · refine .step (State.onPort_only _ _ _) rfl ?_
    exact .refl _ _
  · split
    · exact hs2
    · refine .ite ?_ ?_
      · refine .step (State.onPort_only _ _ _) rfl ?_
        exact hs2
      · refine .ite ?_ ?_
        · refine .step (State.onPort_only _ _ _) rfl ?_
          exact hs2
        · refine .ite ?_ ?_
          · refine .step (State.portLost_only _ _) rfl ?_
            refine .step (State.detect_only _ _ _) rfl ?_
            exact hs2
          · exact hs2
  · refine .step (State.onPort_only _ _ _) rfl ?_
    exact .refl _ _

theorem State.statusFlags_only (s : State) (p : Nat) (new : Byte) :
    OnlyChanges [.ports, .lint] s (State.statusFlags s p new) := by
  unfold State.statusFlags
  extract_lets _ _ _ f1 s2 s3 s4 s5 s6
  have hs2 : OnlyChanges [.ports, .lint] s s2 := by
    unfold s2
    refine .step (State.onPort_only _ _ _) rfl ?_
    exact .refl _ _
  clear_value s2
  have hs3 : OnlyChanges [.ports, .lint] s s3 := by
    unfold s3
    refine .step (State.detectIf_only _ _ _ _) rfl ?_
    exact hs2
  clear_value s3
  have hs4 : OnlyChanges [.ports, .lint] s s4 := by
    unfold s4
    refine .step (State.detectIf_only _ _ _ _) rfl ?_
    exact hs3
  clear_value s4
  have hs5 : OnlyChanges [.ports, .lint] s s5 := by
    unfold s5
    refine .step (State.detectIf_only _ _ _ _) rfl ?_
    exact hs4
  clear_value s5
  have hs6 : OnlyChanges [.ports, .lint] s s6 := by
    unfold s6
    refine .step (State.detectIf_only _ _ _ _) rfl ?_
    exact hs5
  clear_value s6
  refine .step (State.detectIf_only _ _ _ _) rfl ?_
  exact hs6

theorem State.acceptFrame_only (s : State) (p : Nat) (x : UplinkIn) :
    OnlyChanges [.chans, .groups, .ports, .shelf, .models, .lint] s (State.acceptFrame s p x) := by
  unfold State.acceptFrame
  extract_lets s1 s2
  have hs1 : OnlyChanges [.chans, .groups, .ports, .shelf, .models, .lint] s s1 := by
    unfold s1
    refine .step (State.onPort_only _ _ _) rfl ?_
    exact .refl _ _
  clear_value s1
  have hs2 : OnlyChanges [.chans, .groups, .ports, .shelf, .models, .lint] s s2 := by
    unfold s2
    refine .ite ?_ ?_
    · refine .step (State.itemReport_only _ _ _) rfl ?_
      exact hs1
    · exact hs1
  clear_value s2
  refine .step (State.edgeReport_only _ _ _) rfl ?_
  exact hs2

theorem State.helloTraining_only (s : State) (p : Nat) (x : UplinkIn) :
    OnlyChanges [.ports, .lint] s (State.helloTraining s p x) := by
  unfold State.helloTraining
  extract_lets _ s1 _
  have hs1 : OnlyChanges [.ports, .lint] s s1 := by
    unfold s1
    refine .step (State.onPort_only _ _ _) rfl ?_
    exact .refl _ _
  clear_value s1
  refine .ite ?_ ?_
  · refine .step (State.linkFail_only _ _ _) rfl ?_
    exact .refl _ _
  · refine .step (State.onPort_only _ _ _) rfl ?_
    exact hs1

theorem State.frameConfiguring_only (s : State) (p : Nat) (x : UplinkIn) :
    OnlyChanges [.chans, .groups, .ports, .shelf, .models, .lint] s (State.frameConfiguring s p x) := by
  unfold State.frameConfiguring
  extract_lets _ _ _ _ s1
  have hs1 : OnlyChanges [.chans, .groups, .ports, .shelf, .models, .lint] s s1 := by
    unfold s1
    refine .step (State.onPort_only _ _ _) rfl ?_
    exact .refl _ _
  clear_value s1
  refine .ite ?_ ?_
  · refine .step (State.linkFail_only _ _ _) rfl ?_
    exact .refl _ _
  · refine .ite ?_ ?_
    · refine .step (State.linkFail_only _ _ _) rfl ?_
      exact .refl _ _
    · refine .ite ?_ ?_
      · refine .step (State.afterLiveness_only _ _) rfl ?_
        refine .step (State.acceptFrame_only _ _ _) rfl ?_
        exact hs1
      · exact .refl _ _

theorem State.uplinkFrame_only (s : State) (p : Nat) (x : UplinkIn) :
    OnlyChanges [.chans, .groups, .ports, .shelf, .models, .lint] s (State.uplinkFrame s p x) := by
  unfold State.uplinkFrame
  extract_lets s1 _ _ s2
  have hs1 : OnlyChanges [.chans, .groups, .ports, .shelf, .models, .lint] s s1 := by
    unfold s1
    refine .step (State.onPort_only _ _ _) rfl ?_
    exact .refl _ _
  clear_value s1
  have hs2 : OnlyChanges [.chans, .groups, .ports, .shelf, .models, .lint] s s2 := by
    unfold s2
    refine .step (State.statusFlags_only _ _ _) rfl ?_
    exact hs1
  clear_value s2
  refine .ite ?_ ?_
  · refine .step (State.onPort_only _ _ _) rfl ?_
    exact hs1
  · split
    · refine .ite ?_ ?_
      · refine .step (State.helloTraining_only _ _ _) rfl ?_
        exact hs2
      · exact hs2
    · refine .step (State.frameConfiguring_only _ _ _) rfl ?_
      refine .step (State.statusFlags_only _ _ _) rfl ?_
      exact hs1
    · refine .ite ?_ ?_
      · refine .step (State.acceptFrame_only _ _ _) rfl ?_
        refine .step (State.statusFlags_only _ _ _) rfl ?_
        exact hs1
      · exact hs1
    · refine .step (State.statusFlags_only _ _ _) rfl ?_
      exact hs1
    · refine .step (State.statusFlags_only _ _ _) rfl ?_
      exact hs1

theorem State.commaSeen_only (s : State) (idles : List (Nat × Nat)) (p : Nat) :
    OnlyChanges [.ports] s (State.commaSeen s idles p) := by
  unfold State.commaSeen
  refine .step (State.onPort_only _ _ _) rfl ?_
  exact .refl _ _

theorem State.deadlinePort_only (idles : List (Nat × Nat)) (s : State) (p : Nat) :
    OnlyChanges [.chans, .groups, .ports, .shelf, .lint] s (State.deadlinePort idles s p) := by
  unfold State.deadlinePort
  extract_lets s1 _ s2
  have hs1 : OnlyChanges [.chans, .groups, .ports, .shelf, .lint] s s1 := by
    unfold s1
    refine .step (State.commaSeen_only _ _ _) rfl ?_
    exact .refl _ _
  clear_value s1
  have hs2 : OnlyChanges [.chans, .groups, .ports, .shelf, .lint] s s2 := by
    unfold s2
    refine .step (State.onPort_only _ _ _) rfl ?_
    exact hs1
  clear_value s2
  refine .ite ?_ ?_
  · exact hs1
  · refine .ite ?_ ?_
    · refine .step (State.onPort_only _ _ _) rfl ?_
      exact hs1
    · refine .ite ?_ ?_
      · refine .step (State.portLost_only _ _) rfl ?_
        exact hs2
      · exact hs2

theorem State.modelSample_only (s : State) (p : Nat) :
    OnlyChanges [.models] s (State.modelSample s p) := by
  unfold State.modelSample
  extract_lets _ _ f1 _
  refine .step (State.onModel_only _ _ _) rfl ?_
  exact .refl _ _

theorem State.arrivalDeadline_only (s : State) (g : Nat) (lone : Option Nat) (idles : List (Nat × Nat)) :
    OnlyChanges [.staged, .chans, .groups, .ports, .shelf, .models, .lint, .commits] s (State.arrivalDeadline s g lone idles) := by
  unfold State.arrivalDeadline
  extract_lets _ s1 s2 _ s3 s4
  have hs1 : OnlyChanges [.staged, .chans, .groups, .ports, .shelf, .models, .lint, .commits] s s1 := by
    unfold s1
    refine .foldl (fun u5 _ => ?_) ?_
    · refine .step (State.deadlinePort_only _ _ _) rfl ?_
      exact .refl _ _
    · exact .refl _ _
  clear_value s1
  have hs2 : OnlyChanges [.staged, .chans, .groups, .ports, .shelf, .models, .lint, .commits] s s2 := by
    unfold s2
    refine .foldl (fun u6 _ => ?_) ?_
    · refine .step (State.modelSample_only _ _) rfl ?_
      exact .refl _ _
    · exact hs1
  clear_value s2
  have hs3 : OnlyChanges [.staged, .chans, .groups, .ports, .shelf, .models, .lint, .commits] s s3 := by
    unfold s3
    refine .foldl (fun u7 _ => ?_) ?_
    · refine .step (State.inputState_only _ _) rfl ?_
      exact .refl _ _
    · exact hs2
  clear_value s3
  have hs4 : OnlyChanges [.staged, .chans, .groups, .ports, .shelf, .models, .lint, .commits] s s4 := by
    unfold s4
    refine .ite ?_ ?_
    · exact hs3
    · refine .step (State.recomputeD_only _) rfl ?_
      exact hs3
  clear_value s4
  refine .step (State.lossRows_only _) rfl ?_
  exact hs4

end Sys2Proof.Machine
end

