-- ==== Sys2Proof/Laws/FramesFeeds.lean ====
section
/-!
SUPPORT. Footprints of the operations of Machine/Feeds.lean.
-/
namespace Sys2Proof.Machine
set_option Elab.async false

theorem State.thrUpdate_only (s : State) (z : Nat) :
    OnlyChanges [.feeds] s (State.thrUpdate s z) := by
  unfold State.thrUpdate
  extract_lets s1 _
  have hs1 : OnlyChanges [.feeds] s s1 := by
    unfold s1
    refine .step (State.onFeed_only _ _ _) rfl ?_
    exact .refl _ _
  clear_value s1
  refine .step (State.onFeed_only _ _ _) rfl ?_
  exact hs1

theorem State.feedTo_only (s : State) (z : Nat) (ph : FeedPhase) :
    OnlyChanges [.feeds] s (State.feedTo s z ph) := by
  unfold State.feedTo
  refine .step (State.onFeed_only _ _ _) rfl ?_
  exact .refl _ _

theorem State.feedAfterReset_only (s : State) (z : Nat) (tripped : Bool) :
    OnlyChanges [.feeds, .lint] s (State.feedAfterReset s z tripped) := by
  unfold State.feedAfterReset
  extract_lets _
  refine .ite ?_ ?_
  · refine .step (State.detect_only _ _ _) rfl ?_
    refine .step (State.onFeed_only _ _ _) rfl ?_
    refine .step (State.feedTo_only _ _ _) rfl ?_
    exact .refl _ _
  · refine .ite ?_ ?_
    · refine .step (State.onFeed_only _ _ _) rfl ?_
      exact .refl _ _
    · refine .ite ?_ ?_
      · refine .step (State.feedTo_only _ _ _) rfl ?_
        exact .refl _ _
      · refine .step (State.feedTo_only _ _ _) rfl ?_
        exact .refl _ _

theorem State.overcurrent_only (s : State) (z : Nat) :
    OnlyChanges [.feeds] s (State.overcurrent s z) := by
  unfold State.overcurrent
  refine .step (State.onFeed_only _ _ _) rfl ?_
  exact .refl _ _

theorem State.feedRecord_only (s : State) (z : Nat) (cause : Nat) :
    OnlyChanges [.score] s (State.feedRecord s z cause) := by
  unfold State.feedRecord
  extract_lets _
  refine .step (State.blockEvent_only _ _ _ _ _) rfl ?_
  exact .refl _ _

theorem State.feedPreCharge_only (s : State) (z : Nat) :
    OnlyChanges [.feeds] s (State.feedPreCharge s z) := by
  unfold State.feedPreCharge
  refine .step (State.onFeed_only _ _ _) rfl ?_
  exact .refl _ _

theorem State.feedEnd_only (s : State) (z : Nat) (causes : List Nat) :
    OnlyChanges [.feeds, .lint, .score] s (State.feedEnd s z causes) := by
  unfold State.feedEnd
  extract_lets s1 _ _ s2 s3
  have hs1 : OnlyChanges [.feeds, .lint, .score] s s1 := by
    unfold s1
    refine .foldl (fun u4 _ => ?_) ?_
    · refine .step (State.detect_only _ _ _) rfl ?_
      exact .refl _ _
    · exact .refl _ _
  clear_value s1
  have hs2 : OnlyChanges [.feeds, .lint, .score] s s2 := by
    unfold s2
    refine .step (State.onFeed_only _ _ _) rfl ?_
    exact hs1
  clear_value s2
  have hs3 : OnlyChanges [.feeds, .lint, .score] s s3 := by
    unfold s3
    refine .ite ?_ ?_
    · refine .step (State.detect_only _ _ _) rfl ?_
      refine .step (State.feedTo_only _ _ _) rfl ?_
      exact hs2
    · refine .step (State.onFeed_only _ _ _) rfl ?_
      refine .step (State.feedTo_only _ _ _) rfl ?_
      exact hs2
  clear_value s3
  refine .step (State.feedRecord_only _ _ _) rfl ?_
  exact hs3

theorem State.feedStop_only (s : State) (z : Nat) (cause : Nat) :
    OnlyChanges [.feeds] s (State.feedStop s z cause) := by
  unfold State.feedStop
  extract_lets _
  split
  · exact .refl _ _
  · exact .refl _ _
  · refine .step (State.onFeed_only _ _ _) rfl ?_
    refine .step (State.feedTo_only _ _ _) rfl ?_
    exact .refl _ _
  · refine .step (State.onFeed_only _ _ _) rfl ?_
    refine .step (State.feedTo_only _ _ _) rfl ?_
    exact .refl _ _

theorem State.feedStart_only (s : State) (z : Nat) :
    OnlyChanges [.feeds] s (State.feedStart s z) := by
  unfold State.feedStart
  extract_lets _
  refine .ite ?_ ?_
  · exact .refl _ _
  · refine .ite ?_ ?_
    · refine .step (State.onFeed_only _ _ _) rfl ?_
      exact .refl _ _
    · refine .ite ?_ ?_
      · exact .refl _ _
      · refine .step (State.onFeed_only _ _ _) rfl ?_
        refine .step (State.feedTo_only _ _ _) rfl ?_
        exact .refl _ _

theorem State.feedRow_only (s : State) (z : Nat) :
    OnlyChanges [.feeds, .lint, .score] s (State.feedRow s z) := by
  have stop (c : Nat) : OnlyChanges [.feeds, .lint, .score] s (s.feedStop z c) := .step (State.feedStop_only _ _ _) rfl (.refl _ _)
  have go (f : FeedRun → FeedRun) : OnlyChanges [.feeds, .lint, .score] s (s.onFeed z f) := .step (State.onFeed_only _ _ _) rfl (.refl _ _)
  have into (ph : FeedPhase) : OnlyChanges [.feeds, .lint, .score] s (s.feedTo z ph) := .step (State.feedTo_only _ _ _) rfl (.refl _ _)
  have toThen (ph : FeedPhase) (f : FeedRun → FeedRun) : OnlyChanges [.feeds, .lint, .score] s ((s.feedTo z ph).onFeed z f) :=
    .step (State.onFeed_only _ _ _) rfl (into ph)
  have pre : OnlyChanges [.feeds, .lint, .score] s (s.feedPreCharge z) := .step (State.feedPreCharge_only _ _) rfl (.refl _ _)
  have ends (es : List Nat) : OnlyChanges [.feeds, .lint, .score] s (s.feedEnd z es) := .step (State.feedEnd_only _ _ _) rfl (.refl _ _)
  unfold State.feedRow
  extract_lets r b seated ends' stop' s1 kept
  have h1 : OnlyChanges [.feeds, .lint, .score] s s1 := toThen _ _
  clear_value stop' s1 kept
  split
  · exact .ite (.step (State.feedStart_only _ _) rfl (.refl _ _)) (.refl _ _)
  · split
    · exact stop _
    · exact .ite pre (.refl _ _)
  · refine .ite (ends _) ?_
    split
    · exact stop _
    · exact .ite (toThen _ _) (.ite (go _) (.refl _ _))
  · refine .ite (ends _) (.ite ?_ ?_)
    · exact .step (State.feedRecord_only _ _ _) rfl (.step (State.detect_only _ _ _) rfl
        (.step (State.detect_only _ _ _) rfl h1))
    · split
      · exact stop _
      · exact .ite (toThen _ _) (.ite (go _) (.refl _ _))
  · split
    · exact stop _
    · exact .ite (.ite pre (into _)) (.refl _ _)
  · exact .ite (toThen _ _) (.refl _ _)

theorem State.feedTripped_only (s : State) (z : Nat) :
    OnlyChanges [.lint, .score] s (State.feedTripped s z) := by
  unfold State.feedTripped
  split
  · exact .refl _ _
  · exact .refl _ _
  · refine .ite ?_ ?_
    · refine .step (State.feedRecord_only _ _ _) rfl ?_
      refine .step (State.detect_only _ _ _) rfl ?_
      exact .refl _ _
    · exact .refl _ _

theorem State.feedShed_only (s : State) (z : Nat) :
    OnlyChanges [.feeds] s (State.feedShed s z) := by
  unfold State.feedShed
  split
  · exact .refl _ _
  · exact .refl _ _
  · refine .step (State.onFeed_only _ _ _) rfl ?_
    refine .step (State.feedTo_only _ _ _) rfl ?_
    exact .refl _ _

theorem State.feedRows_only (s : State) (z : Nat) :
    OnlyChanges [.feeds, .lint, .score] s (State.feedRows s z) := by
  unfold State.feedRows
  extract_lets s1 s2
  have hs1 : OnlyChanges [.feeds, .lint, .score] s s1 := by
    unfold s1
    refine .step (State.feedRow_only _ _) rfl ?_
    refine .step (State.feedTripped_only _ _) rfl ?_
    exact .refl _ _
  clear_value s1
  have hs2 : OnlyChanges [.feeds, .lint, .score] s s2 := by
    unfold s2
    refine .ite ?_ ?_
    · refine .step (State.feedShed_only _ _) rfl ?_
      exact hs1
    · exact hs1
  clear_value s2
  refine .step (State.onFeed_only _ _ _) rfl ?_
  exact hs2

theorem State.seatingFault_only (s : State) (z : Nat) :
    OnlyChanges [.feeds, .lint] s (State.seatingFault s z) := by
  unfold State.seatingFault
  extract_lets _ _ _ _
  refine .ite ?_ ?_
  · refine .step (State.detectIf_only _ _ _ _) rfl ?_
    refine .step (State.onFeed_only _ _ _) rfl ?_
    exact .refl _ _
  · refine .step (State.onFeed_only _ _ _) rfl ?_
    exact .refl _ _

theorem State.feedIntegrate_only (s : State) (z : Nat) :
    OnlyChanges [.feeds] s (State.feedIntegrate s z) := by
  unfold State.feedIntegrate
  extract_lets _
  refine .step (State.onFeed_only _ _ _) rfl ?_
  exact .refl _ _

theorem State.overlapEnd_only (s : State) (z : Nat) :
    OnlyChanges [.feeds] s (State.overlapEnd s z) := by
  unfold State.overlapEnd
  extract_lets _
  refine .ite ?_ ?_
  · refine .step (State.onFeed_only _ _ _) rfl ?_
    exact .refl _ _
  · exact .refl _ _

theorem State.feedTick_only (s : State) (z : Nat) (x : FeedIn) :
    OnlyChanges [.feeds, .lint, .score] s (State.feedTick s z x) := by
  unfold State.feedTick
  extract_lets _ s1 s2 s3 s4 s5 s6
  have hs1 : OnlyChanges [.feeds, .lint, .score] s s1 := by
    unfold s1
    refine .step (State.onFeed_only _ _ _) rfl ?_
    exact .refl _ _
  clear_value s1
  have hs2 : OnlyChanges [.feeds, .lint, .score] s s2 := by
    unfold s2
    refine .step (State.seatingFault_only _ _) rfl ?_
    exact hs1
  clear_value s2
  have hs3 : OnlyChanges [.feeds, .lint, .score] s s3 := by
    unfold s3
    refine .step (State.feedIntegrate_only _ _) rfl ?_
    exact hs2
  clear_value s3
  have hs4 : OnlyChanges [.feeds, .lint, .score] s s4 := by
    unfold s4
    refine .step (State.feedRows_only _ _) rfl ?_
    exact hs3
  clear_value s4
  have hs5 : OnlyChanges [.feeds, .lint, .score] s s5 := by
    unfold s5
    refine .step (State.overlapEnd_only _ _) rfl ?_
    exact hs4
  clear_value s5
  have hs6 : OnlyChanges [.feeds, .lint, .score] s s6 := by
    unfold s6
    refine .ite ?_ ?_
    · refine .step (State.overcurrent_only _ _) rfl ?_
      exact hs5
    · exact hs5
  clear_value s6
  refine .step (State.thrUpdate_only _ _) rfl ?_
  exact hs6

theorem State.askShed_only (s : State) (z : Nat) :
    OnlyChanges [.feeds] s (State.askShed s z) := by
  unfold State.askShed
  refine .step (State.onFeed_only _ _ _) rfl ?_
  exact .refl _ _

end Sys2Proof.Machine
end

