-- ==== Sys2Proof/Laws/FramesStrings.lean ====
section
/-!
SUPPORT. Footprints of the operations of Machine/Strings.lean.
-/
namespace Sys2Proof.Machine
set_option Elab.async false

theorem State.checkpointAll_only (s : State) :
    OnlyChanges [.strings] s (State.checkpointAll s) := by
  unfold State.checkpointAll
  refine .foldl (fun u1 _ => ?_) ?_
  · refine .step (State.onStr_only _ _ _) rfl ?_
    exact .refl _ _
  · exact .refl _ _

theorem State.capacityStart_only (s : State) (k : Nat) :
    OnlyChanges [.strings, .lint, .score] s (State.capacityStart s k) := by
  unfold State.capacityStart
  extract_lets r b i l s1 torn
  have h1 : OnlyChanges [.strings, .lint, .score] s s1 :=
    .ite (.step (State.detect_only _ _ _) rfl (.step (State.onStr_only _ _ _) rfl (.refl _ _)))
      (.step (State.onStr_only _ _ _) rfl (.refl _ _))
  clear_value s1
  cases torn with
  | nil => exact h1
  | cons j t =>
    exact .step (State.blockEvent_only _ _ _ _ _) rfl
      (.step (State.detect_only _ _ _) rfl (.step (State.onStr_only _ _ _) rfl h1))

theorem State.slotWrites_only (s : State) :
    OnlyChanges [.strings] s (State.slotWrites s) := by
  unfold State.slotWrites
  refine .foldl (fun u1 _ => ?_) ?_
  · refine .step (State.onStr_only _ _ _) rfl ?_
    exact .refl _ _
  · exact .refl _ _

theorem State.clearLearnFlags_only (s : State) (k : Nat) :
    OnlyChanges [.strings] s (State.clearLearnFlags s k) := by
  unfold State.clearLearnFlags
  refine .step (State.onStr_only _ _ _) rfl ?_
  exact .refl _ _

theorem State.formsAt_only (s : State) (k : Nat) (delta : Int) :
    OnlyChanges [.strings] s (State.formsAt s k delta) := by
  unfold State.formsAt
  refine .step (State.onStr_only _ _ _) rfl ?_
  exact .refl _ _

theorem State.absorbForms_only (s : State) (k : Nat) (b1 : Int) :
    OnlyChanges [.strings] s (State.absorbForms s k b1) := by
  unfold State.absorbForms
  refine .step (State.formsAt_only _ _ _) rfl ?_
  exact .refl _ _

theorem State.stringFlags_only (s : State) (k : Nat) :
    OnlyChanges [.strings] s (State.stringFlags s k) := by
  unfold State.stringFlags
  refine .step (State.onStr_only _ _ _) rfl ?_
  exact .refl _ _

theorem State.restoreNominal_only (s : State) (k : Nat) :
    OnlyChanges [.strings] s (State.restoreNominal s k) := by
  unfold State.restoreNominal
  extract_lets _ _ s1
  have hs1 : OnlyChanges [.strings] s s1 := by
    unfold s1
    refine .step (State.onStr_only _ _ _) rfl ?_
    exact .refl _ _
  clear_value s1
  refine .ite ?_ ?_
  · refine .step (State.absorbForms_only _ _ _) rfl ?_
    refine .step (State.stringFlags_only _ _) rfl ?_
    exact hs1
  · exact hs1

theorem State.stringRequests_only (s : State) (k : Nat) :
    OnlyChanges [.strings] s (State.stringRequests s k) := by
  unfold State.stringRequests
  extract_lets _ s1 s2
  have hs1 : OnlyChanges [.strings] s s1 := by
    unfold s1
    refine .ite ?_ ?_
    · refine .step (State.clearLearnFlags_only _ _) rfl ?_
      exact .refl _ _
    · exact .refl _ _
  clear_value s1
  have hs2 : OnlyChanges [.strings] s s2 := by
    unfold s2
    refine .ite ?_ ?_
    · refine .step (State.restoreNominal_only _ _) rfl ?_
      exact hs1
    · exact hs1
  clear_value s2
  refine .step (State.onStr_only _ _ _) rfl ?_
  exact hs2

theorem State.countStart_only (s : State) (k : Nat) :
    OnlyChanges [.strings, .lint] s (State.countStart s k) := by
  unfold State.countStart
  extract_lets _ _ _
  refine .ite ?_ ?_
  · exact .refl _ _
  · refine .ite ?_ ?_
    · refine .step (State.onStr_only _ _ _) rfl ?_
      exact .refl _ _
    · refine .ite ?_ ?_
      · refine .step (State.detect_only _ _ _) rfl ?_
        refine .step (State.onStr_only _ _ _) rfl ?_
        exact .refl _ _
      · refine .step (State.onStr_only _ _ _) rfl ?_
        exact .refl _ _

theorem State.stringRuns_only (s : State) (k : Nat) :
    OnlyChanges [.strings] s (State.stringRuns s k) := by
  unfold State.stringRuns
  extract_lets _ _ _
  refine .step (State.onStr_only _ _ _) rfl ?_
  exact .refl _ _

theorem State.cycleTick_only (s : State) (k : Nat) (dA : Int) :
    OnlyChanges [.strings] s (State.cycleTick s k dA) := by
  unfold State.cycleTick
  extract_lets _ _
  refine .step (State.onStr_only _ _ _) rfl ?_
  exact .refl _ _

theorem State.fullAnchor_only (s : State) (k : Nat) :
    OnlyChanges [.strings] s (State.fullAnchor s k) := by
  unfold State.fullAnchor
  extract_lets _
  refine .step (State.onStr_only _ _ _) rfl ?_
  exact .refl _ _

theorem State.chargeState_only (s : State) (k : Nat) :
    OnlyChanges [.strings] s (State.chargeState s k) := by
  unfold State.chargeState
  extract_lets _ _ s1
  have hs1 : OnlyChanges [.strings] s s1 := by
    unfold s1
    refine .step (State.onStr_only _ _ _) rfl ?_
    exact .refl _ _
  clear_value s1
  refine .ite ?_ ?_
  · refine .step (State.fullAnchor_only _ _) rfl ?_
    exact hs1
  · exact hs1

theorem State.learn_only (s : State) (k : Nat) (c : LearnCycle) :
    OnlyChanges [.strings, .score] s (State.learn s k c) := by
  unfold State.learn
  extract_lets _ _ _
  refine .ite ?_ ?_
  · exact .refl _ _
  · refine .ite ?_ ?_
    · refine .step (State.onStr_only _ _ _) rfl ?_
      exact .refl _ _
    · refine .step (State.blockEvent_only _ _ _ _ _) rfl ?_
      refine .step (State.onStr_only _ _ _) rfl ?_
      exact .refl _ _

theorem State.emptyAnchor_only (s : State) (k : Nat) :
    OnlyChanges [.strings, .score] s (State.emptyAnchor s k) := by
  unfold State.emptyAnchor
  extract_lets s1
  have hs1 : OnlyChanges [.strings, .score] s s1 := by
    unfold s1
    split
    · refine .step (State.learn_only _ _ _) rfl ?_
      exact .refl _ _
    · exact .refl _ _
  clear_value s1
  refine .step (State.onStr_only _ _ _) rfl ?_
  exact hs1

theorem State.stringForms_only (s : State) (k : Nat) (b1 : Int) :
    OnlyChanges [.strings] s (State.stringForms s k b1) := by
  unfold State.stringForms
  extract_lets _
  refine .step (State.formsAt_only _ _ _) rfl ?_
  exact .refl _ _

theorem State.stringFirmware_only (s : State) (k : Nat) (b1 : Int) :
    OnlyChanges [.strings, .score] s (State.stringFirmware s k b1) := by
  unfold State.stringFirmware
  extract_lets s1 s2
  have hs1 : OnlyChanges [.strings, .score] s s1 := by
    unfold s1
    refine .ite ?_ ?_
    · refine .step (State.emptyAnchor_only _ _) rfl ?_
      exact .refl _ _
    · exact .refl _ _
  clear_value s1
  have hs2 : OnlyChanges [.strings, .score] s s2 := by
    unfold s2
    refine .step (State.stringFlags_only _ _) rfl ?_
    exact hs1
  clear_value s2
  refine .ite ?_ ?_
  · exact .refl _ _
  · refine .step (State.stringForms_only _ _ _) rfl ?_
    exact hs2

theorem State.stringSeen_only (s : State) (k : Nat) :
    OnlyChanges [.strings] s (State.stringSeen s k) := by
  unfold State.stringSeen
  extract_lets _
  refine .step (State.onStr_only _ _ _) rfl ?_
  exact .refl _ _

theorem State.stringSetpoints_only (s : State) (k : Nat) :
    OnlyChanges [.staged, .commits] s (State.stringSetpoints s k) := by
  unfold State.stringSetpoints
  extract_lets _ _ _ s1
  have hs1 : OnlyChanges [.staged, .commits] s s1 := by
    unfold s1
    refine .step (State.writeSetpoint_only _ _ _) rfl ?_
    exact .refl _ _
  clear_value s1
  refine .ite ?_ ?_
  · exact .refl _ _
  · refine .step (State.writeSetpoint_only _ _ _) rfl ?_
    exact hs1

theorem State.stringTick_only (s : State) (k : Nat) (x : StringIn) :
    OnlyChanges [.staged, .strings, .lint, .score, .commits] s (State.stringTick s k x) := by
  unfold State.stringTick
  extract_lets _ s1 _ s2 _ _ s3 s4 s5 s6 s7
  have hs1 : OnlyChanges [.staged, .strings, .lint, .score, .commits] s s1 := by
    unfold s1
    refine .step (State.stringRequests_only _ _) rfl ?_
    refine .ite ?_ ?_
    · refine .step (State.countStart_only _ _) rfl ?_
      exact .refl _ _
    · exact .refl _ _
  clear_value s1
  have hs2 : OnlyChanges [.staged, .strings, .lint, .score, .commits] s s2 := by
    unfold s2
    refine .step (State.onStr_only _ _ _) rfl ?_
    exact hs1
  clear_value s2
  have hs3 : OnlyChanges [.staged, .strings, .lint, .score, .commits] s s3 := by
    unfold s3
    refine .ite ?_ ?_
    · refine .step (State.onStr_only _ _ _) rfl ?_
      exact hs2
    · exact hs2
  clear_value s3
  have hs4 : OnlyChanges [.staged, .strings, .lint, .score, .commits] s s4 := by
    unfold s4
    refine .step (State.stringRuns_only _ _) rfl ?_
    exact hs3
  clear_value s4
  have hs5 : OnlyChanges [.staged, .strings, .lint, .score, .commits] s s5 := by
    unfold s5
    refine .ite ?_ ?_
    · refine .step (State.cycleTick_only _ _ _) rfl ?_
      exact hs4
    · refine .step (State.onStr_only _ _ _) rfl ?_
      exact hs4
  clear_value s5
  have hs6 : OnlyChanges [.staged, .strings, .lint, .score, .commits] s s6 := by
    unfold s6
    refine .step (State.chargeState_only _ _) rfl ?_
    exact hs5
  clear_value s6
  have hs7 : OnlyChanges [.staged, .strings, .lint, .score, .commits] s s7 := by
    unfold s7
    refine .step (State.stringFirmware_only _ _ _) rfl ?_
    exact hs6
  clear_value s7
  refine .step (State.stringSeen_only _ _) rfl ?_
  refine .step (State.stringSetpoints_only _ _) rfl ?_
  exact hs7

theorem State.stringRow_only {qs : List Part} {a s : State} {k : Nat} {f : State → State}
    (hf : ∀ u, OnlyChanges qs u (f u)) (w : Part.within [.staged, .strings, .commits] qs = true) (h : OnlyChanges qs a s) :
    OnlyChanges qs a (s.stringRow k f) := by
  unfold State.stringRow
  extract_lets b1 s1 s2
  have h1 : OnlyChanges qs a s1 := h.trans (hf s)
  have h2 : OnlyChanges qs a s2 :=
    .ite (.step (State.absorbForms_only _ _ _) (Part.within_trans rfl w)
      (.step (State.stringFlags_only _ _) (Part.within_trans rfl w) h1)) h1
  exact .step (State.stringSeen_only _ _) (Part.within_trans rfl w)
    (.step (State.stringSetpoints_only _ _) (Part.within_trans rfl w) h2)

theorem State.termination_only (s : State) (k : Nat) :
    OnlyChanges [.staged, .strings, .commits] s (State.termination s k) := by
  unfold State.termination
  refine .ite ?_ ?_
  · refine State.stringRow_only (fun u1 => ?_) rfl ?_
    · refine .step (State.chargeState_only _ _) rfl ?_
      exact .refl _ _
    · exact .refl _ _
  · exact .refl _ _

theorem State.recharge_only (s : State) (k : Nat) :
    OnlyChanges [.staged, .strings, .commits] s (State.recharge s k) := by
  unfold State.recharge
  refine .ite ?_ ?_
  · refine State.stringRow_only (fun u1 => ?_) rfl ?_
    · refine .step (State.chargeState_only _ _) rfl ?_
      exact .refl _ _
    · exact .refl _ _
  · exact .refl _ _

theorem State.emptyAnchorDue_only (s : State) (k : Nat) :
    OnlyChanges [.staged, .strings, .score, .commits] s (State.emptyAnchorDue s k) := by
  unfold State.emptyAnchorDue
  refine .ite ?_ ?_
  · refine State.stringRow_only (fun u1 => ?_) rfl ?_
    · refine .step (State.emptyAnchor_only _ _) rfl ?_
      exact .refl _ _
    · exact .refl _ _
  · exact .refl _ _

end Sys2Proof.Machine
end

