-- ==== Sys2Proof/Laws/FramesSoak.lean ====
section
/-!
SUPPORT. Footprints of the operations of Machine/Soak.lean.
-/
namespace Sys2Proof.Machine
set_option Elab.async false

theorem State.holdDerates_only (s : State) :
    OnlyChanges [.staged, .commits] s (State.holdDerates s) := by
  unfold State.holdDerates
  refine .foldl (fun u1 _ => ?_) ?_
  · refine .step (State.writeSetpoint_only _ _ _) rfl ?_
    exact .refl _ _
  · exact .refl _ _

theorem State.busbarCurrents_only (s : State) :
    OnlyChanges [.models] s (State.busbarCurrents s) := by
  unfold State.busbarCurrents
  refine .foldl (fun u1 _ => ?_) ?_
  · extract_lets _ _ _ f2 _
    refine .ite ?_ ?_
    · exact .refl _ _
    · refine .step (State.onModel_only _ _ _) rfl ?_
      exact .refl _ _
  · exact .refl _ _

theorem State.busbarVoltage_only (s : State) (y : Int) :
    OnlyChanges [.models] s (State.busbarVoltage s y) := by
  unfold State.busbarVoltage
  refine .foldl (fun u1 _ => ?_) ?_
  · refine .ite ?_ ?_
    · exact .refl _ _
    · refine .step (State.onModel_only _ _ _) rfl ?_
      exact .refl _ _
  · exact .refl _ _

theorem State.stopTargets_only (s : State) (m : Nat) :
    OnlyChanges [.groups, .feeds] s (State.stopTargets s m) := by
  unfold State.stopTargets
  extract_lets s1
  have hs1 : OnlyChanges [.groups, .feeds] s s1 := by
    unfold s1
    refine .foldl (fun u2 _ => ?_) ?_
    · refine .step (State.onGroup_only _ _ _) rfl ?_
      exact .refl _ _
    · exact .refl _ _
  clear_value s1
  refine .foldl (fun u3 _ => ?_) ?_
  · refine .step (State.onFeed_only _ _ _) rfl ?_
    exact .refl _ _
  · exact hs1

theorem State.restartTargets_only (s : State) (m : Nat) :
    OnlyChanges [.groups, .feeds] s (State.restartTargets s m) := by
  unfold State.restartTargets
  extract_lets s1
  have hs1 : OnlyChanges [.groups, .feeds] s s1 := by
    unfold s1
    refine .foldl (fun u2 _ => ?_) ?_
    · refine .ite ?_ ?_
      · refine .step (State.onGroup_only _ _ _) rfl ?_
        exact .refl _ _
      · exact .refl _ _
    · exact .refl _ _
  clear_value s1
  refine .foldl (fun u3 _ => ?_) ?_
  · refine .ite ?_ ?_
    · refine .step (State.onFeed_only _ _ _) rfl ?_
      exact .refl _ _
    · exact .refl _ _
  · exact hs1

theorem State.inletStep_only (s : State) (m : Nat) :
    OnlyChanges [.models, .lint] s (State.inletStep s m) := by
  unfold State.inletStep
  extract_lets _ _ _
  refine .ite ?_ ?_
  · exact .refl _ _
  · refine .step (State.detectIf_only _ _ _ _) rfl ?_
    refine .step (State.onModel_only _ _ _) rfl ?_
    exact .refl _ _

theorem State.modelLoss_only (s : State) (m : Nat) (x : ChipIn) :
    OnlyChanges [.models] s (State.modelLoss s m x) := by
  unfold State.modelLoss
  extract_lets _ _
  refine .ite ?_ ?_
  · refine .step (State.onModel_only _ _ _) rfl ?_
    exact .refl _ _
  · refine .step (State.onModel_only _ _ _) rfl ?_
    exact .refl _ _

theorem State.modelFlags_only (s : State) (m : Nat) :
    OnlyChanges [.models, .lint] s (State.modelFlags s m) := by
  unfold State.modelFlags
  extract_lets _ _ _ _ _ s1 s2 s3
  have hs1 : OnlyChanges [.models, .lint] s s1 := by
    unfold s1
    refine .step (State.onModel_only _ _ _) rfl ?_
    exact .refl _ _
  clear_value s1
  have hs2 : OnlyChanges [.models, .lint] s s2 := by
    unfold s2
    refine .step (State.detectIf_only _ _ _ _) rfl ?_
    exact hs1
  clear_value s2
  have hs3 : OnlyChanges [.models, .lint] s s3 := by
    unfold s3
    refine .step (State.detectIf_only _ _ _ _) rfl ?_
    exact hs2
  clear_value s3
  refine .step (State.detectIf_only _ _ _ _) rfl ?_
  exact hs3

theorem State.latchModel_only (s : State) (m : Nat) :
    OnlyChanges [.models, .lint] s (State.latchModel s m) := by
  unfold State.latchModel
  refine .step (State.detect_only _ _ _) rfl ?_
  refine .step (State.onModel_only _ _ _) rfl ?_
  exact .refl _ _

theorem State.modelAction_only (s : State) (m : Nat) :
    OnlyChanges [.groups, .feeds, .models, .lint] s (State.modelAction s m) := by
  unfold State.modelAction
  extract_lets _ _
  split
  · refine .ite ?_ ?_
    · refine .step (State.stopTargets_only _ _) rfl ?_
      refine .step (State.latchModel_only _ _) rfl ?_
      refine .step (State.detect_only _ _ _) rfl ?_
      exact .refl _ _
    · refine .ite ?_ ?_
      · refine .ite ?_ ?_
        · refine .step (State.stopTargets_only _ _) rfl ?_
          refine .step (State.latchModel_only _ _) rfl ?_
          exact .refl _ _
        · refine .step (State.stopTargets_only _ _) rfl ?_
          refine .step (State.onModel_only _ _ _) rfl ?_
          exact .refl _ _
      · exact .refl _ _
  · refine .ite ?_ ?_
    · refine .step (State.latchModel_only _ _) rfl ?_
      refine .step (State.detect_only _ _ _) rfl ?_
      exact .refl _ _
    · refine .ite ?_ ?_
      · refine .step (State.restartTargets_only _ _) rfl ?_
        refine .step (State.onModel_only _ _ _) rfl ?_
        exact .refl _ _
      · exact .refl _ _
  · exact .refl _ _

theorem State.modelStart_only (s : State) (m : Nat) :
    OnlyChanges [.models] s (State.modelStart s m) := by
  unfold State.modelStart
  extract_lets _ _
  refine .step (State.onModel_only _ _ _) rfl ?_
  exact .refl _ _

theorem State.modelSeen_only (s : State) (m : Nat) :
    OnlyChanges [.models] s (State.modelSeen s m) := by
  unfold State.modelSeen
  extract_lets _
  refine .step (State.onModel_only _ _ _) rfl ?_
  exact .refl _ _

theorem State.modelOne_only (s : State) (m : Nat) (x : ChipIn) :
    OnlyChanges [.groups, .feeds, .models, .lint] s (State.modelOne s m x) := by
  unfold State.modelOne
  extract_lets _ s1 s2 s3 s4 s5
  have hs1 : OnlyChanges [.groups, .feeds, .models, .lint] s s1 := by
    unfold s1
    refine .step (State.modelStart_only _ _) rfl ?_
    refine .step (State.inletStep_only _ _) rfl ?_
    exact .refl _ _
  clear_value s1
  have hs2 : OnlyChanges [.groups, .feeds, .models, .lint] s s2 := by
    unfold s2
    refine .step (State.modelLoss_only _ _ _) rfl ?_
    exact hs1
  clear_value s2
  have hs3 : OnlyChanges [.groups, .feeds, .models, .lint] s s3 := by
    unfold s3
    refine .step (State.onModel_only _ _ _) rfl ?_
    exact hs2
  clear_value s3
  have hs4 : OnlyChanges [.groups, .feeds, .models, .lint] s s4 := by
    unfold s4
    refine .step (State.modelFlags_only _ _) rfl ?_
    exact hs3
  clear_value s4
  have hs5 : OnlyChanges [.groups, .feeds, .models, .lint] s s5 := by
    unfold s5
    refine .step (State.modelAction_only _ _) rfl ?_
    exact hs4
  clear_value s5
  refine .ite ?_ ?_
  · refine .step (State.modelSeen_only _ _) rfl ?_
    refine .step (State.onModel_only _ _ _) rfl ?_
    exact hs1
  · refine .step (State.modelSeen_only _ _) rfl ?_
    refine .step (State.onModel_only _ _ _) rfl ?_
    exact hs5

theorem State.modelStep_only (s : State) (x : ChipIn) :
    OnlyChanges [.staged, .groups, .feeds, .models, .lint, .commits] s (State.modelStep s x) := by
  unfold State.modelStep
  refine .ite ?_ ?_
  · exact .refl _ _
  · refine .step (State.holdDerates_only _) rfl ?_
    refine .foldl (fun u1 _ => ?_) ?_
    · refine .step (State.modelOne_only _ _ _) rfl ?_
      exact .refl _ _
    · exact .refl _ _

theorem State.modelInvalid_only (s : State) (m : Nat) :
    OnlyChanges [.groups, .feeds, .models, .lint] s (State.modelInvalid s m) := by
  unfold State.modelInvalid
  refine .ite ?_ ?_
  · refine .step (State.modelAction_only _ _) rfl ?_
    exact .refl _ _
  · exact .refl _ _

end Sys2Proof.Machine
end

