-- ==== Sys2Proof/Laws/FramesShelf.lean ====
section
/-!
SUPPORT. Footprints of the operations of Machine/Shelf.lean.
-/
namespace Sys2Proof.Machine
set_option Elab.async false

theorem State.shedTo_only (s : State) (ph : ShedPhase) :
    OnlyChanges [.shelf] s (State.shedTo s ph) := by
  unfold State.shedTo
  refine .step (State.onShelf_only _ _) rfl ?_
  exact .refl _ _

theorem State.warnRank_only (s : State) (r : Nat) :
    OnlyChanges [.feeds] s (State.warnRank s r) := by
  unfold State.warnRank
  refine .foldl (fun u1 _ => ?_) ?_
  · refine .step (State.thrUpdate_only _ _) rfl ?_
    refine .step (State.onFeed_only _ _ _) rfl ?_
    exact .refl _ _
  · exact .refl _ _

theorem State.releaseWarning_only (s : State) :
    OnlyChanges [.feeds] s (State.releaseWarning s) := by
  unfold State.releaseWarning
  refine .foldl (fun u1 _ => ?_) ?_
  · refine .step (State.thrUpdate_only _ _) rfl ?_
    refine .step (State.onFeed_only _ _ _) rfl ?_
    exact .refl _ _
  · exact .refl _ _

theorem State.shedStep_only (s : State) :
    OnlyChanges [.feeds, .score] s (State.shedStep s) := by
  unfold State.shedStep
  extract_lets _ _ _ s1 s2
  have hs1 : OnlyChanges [.feeds, .score] s s1 := by
    unfold s1
    refine .foldl (fun u3 _ => ?_) ?_
    · refine .step (State.askShed_only _ _) rfl ?_
      exact .refl _ _
    · exact .refl _ _
  clear_value s1
  have hs2 : OnlyChanges [.feeds, .score] s s2 := by
    unfold s2
    refine .step (State.releaseWarning_only _) rfl ?_
    exact hs1
  clear_value s2
  refine .step (State.blockEvent_only _ _ _ _ _) rfl ?_
  exact hs2

theorem State.startRank_only (s : State) (r : Nat) :
    OnlyChanges [.feeds] s (State.startRank s r) := by
  unfold State.startRank
  refine .foldl (fun u1 _ => ?_) ?_
  · extract_lets _ _
    refine .step (State.onFeed_only _ _ _) rfl ?_
    exact .refl _ _
  · exact .refl _ _

theorem State.shedRow_only (s : State) :
    OnlyChanges [.shelf, .feeds, .score] s (State.shedRow s) := by
  unfold State.shedRow
  extract_lets _ _
  split
  · refine .ite ?_ ?_
    · refine .step (State.shedTo_only _ _) rfl ?_
      exact .refl _ _
    · exact .refl _ _
  · refine .ite ?_ ?_
    · refine .step (State.shedTo_only _ _) rfl ?_
      exact .refl _ _
    · refine .ite ?_ ?_
      · refine .step (State.shedTo_only _ _) rfl ?_
        exact .refl _ _
      · exact .refl _ _
  · refine .ite ?_ ?_
    · refine .step (State.shedTo_only _ _) rfl ?_
      exact .refl _ _
    · refine .ite ?_ ?_
      · refine .step (State.shedTo_only _ _) rfl ?_
        exact .refl _ _
      · refine .ite ?_ ?_
        · split
          · refine .step (State.shedTo_only _ _) rfl ?_
            exact .refl _ _
          · refine .step (State.warnRank_only _ _) rfl ?_
            refine .step (State.onShelf_only _ _) rfl ?_
            refine .step (State.shedTo_only _ _) rfl ?_
            exact .refl _ _
        · exact .refl _ _
  · refine .ite ?_ ?_
    · refine .step (State.releaseWarning_only _) rfl ?_
      refine .step (State.shedTo_only _ _) rfl ?_
      exact .refl _ _
    · refine .ite ?_ ?_
      · refine .step (State.shedStep_only _) rfl ?_
        refine .step (State.shedTo_only _ _) rfl ?_
        exact .refl _ _
      · exact .refl _ _
  · refine .ite ?_ ?_
    · refine .step (State.shedTo_only _ _) rfl ?_
      exact .refl _ _
    · refine .ite ?_ ?_
      · refine .step (State.shedTo_only _ _) rfl ?_
        exact .refl _ _
      · exact .refl _ _
  · refine .ite ?_ ?_
    · refine .step (State.shedTo_only _ _) rfl ?_
      exact .refl _ _
    · refine .ite ?_ ?_
      · exact .refl _ _
      · split
        · refine .step (State.shedTo_only _ _) rfl ?_
          exact .refl _ _
        · refine .step (State.startRank_only _ _) rfl ?_
          refine .step (State.shedTo_only _ _) rfl ?_
          exact .refl _ _
  · refine .ite ?_ ?_
    · refine .step (State.shedTo_only _ _) rfl ?_
      exact .refl _ _
    · split
      · refine .step (State.shedTo_only _ _) rfl ?_
        exact .refl _ _
      · refine .ite ?_ ?_
        · refine .step (State.startRank_only _ _) rfl ?_
          refine .step (State.shedTo_only _ _) rfl ?_
          exact .refl _ _
        · exact .refl _ _

theorem State.shedRowIn_only (s : State) (ph : ShedPhase) (us : Nat) :
    OnlyChanges [.shelf, .feeds, .score] s (State.shedRowIn s ph us) := by
  unfold State.shedRowIn
  refine .ite ?_ ?_
  · refine .step (State.shedRow_only _) rfl ?_
    exact .refl _ _
  · exact .refl _ _

theorem State.powerTick_only (s : State) :
    OnlyChanges [.shelf] s (State.powerTick s) := by
  unfold State.powerTick
  extract_lets _
  refine .step (State.onShelf_only _ _) rfl ?_
  exact .refl _ _

theorem State.capCompute_only (s : State) :
    OnlyChanges [.shelf] s (State.capCompute s) := by
  unfold State.capCompute
  extract_lets _ _ _ _ _
  refine .step (State.onShelf_only _ _) rfl ?_
  exact .refl _ _

theorem State.capSetpoints_only (s : State) :
    OnlyChanges [.staged, .commits] s (State.capSetpoints s) := by
  unfold State.capSetpoints
  extract_lets _ _
  refine .foldl (fun u1 _ => ?_) ?_
  · extract_lets _
    refine .step (State.writeSetpoint_only _ _ _) rfl ?_
    exact .refl _ _
  · exact .refl _ _

theorem State.capTick_only (s : State) :
    OnlyChanges [.staged, .shelf, .commits] s (State.capTick s) := by
  unfold State.capTick
  extract_lets s1
  have hs1 : OnlyChanges [.staged, .shelf, .commits] s s1 := by
    unfold s1
    refine .ite ?_ ?_
    · refine .step (State.capCompute_only _) rfl ?_
      exact .refl _ _
    · exact .refl _ _
  clear_value s1
  refine .ite ?_ ?_
  · exact .refl _ _
  · refine .step (State.capSetpoints_only _) rfl ?_
    refine .step (State.powerTick_only _) rfl ?_
    exact hs1

theorem State.zoneGrant_only (s : State) :
    OnlyChanges [.shelf, .feeds] s (State.zoneGrant s) := by
  unfold State.zoneGrant
  extract_lets _ _ _ s1
  have hs1 : OnlyChanges [.shelf, .feeds] s s1 := by
    unfold s1
    refine .step (State.onShelf_only _ _) rfl ?_
    exact .refl _ _
  clear_value s1
  refine .ite ?_ ?_
  · exact .refl _ _
  · refine .foldl (fun u2 _ => ?_) ?_
    · extract_lets _ _ _
      refine .step (State.onFeed_only _ _ _) rfl ?_
      exact .refl _ _
    · exact hs1

theorem State.hangPublish_only (s : State) :
    OnlyChanges [.shelf] s (State.hangPublish s) := by
  unfold State.hangPublish
  extract_lets _ _ _ _ _ _
  refine .ite ?_ ?_
  · refine .step (State.onShelf_only _ _) rfl ?_
    exact .refl _ _
  · refine .step (State.onShelf_only _ _) rfl ?_
    exact .refl _ _

end Sys2Proof.Machine
end

