-- ==== Sys2Proof/Laws/FramesOrders.lean ====
section
/-!
SUPPORT. Footprints of the operations of Machine/Orders.lean.
-/
namespace Sys2Proof.Machine
set_option Elab.async false

theorem State.onOrder_only (s : State) (k : Nat) (f : OrderRun → OrderRun) :
    OnlyChanges [.orders] s (State.onOrder s k f) := by
  unfold State.onOrder
  refine .step (set_orders_only _ _) rfl ?_
  exact .refl _ _

theorem State.onRail_only (s : State) (r : Nat) (f : RailRun → RailRun) :
    OnlyChanges [.rails] s (State.onRail s r f) := by
  unfold State.onRail
  refine .step (set_rails_only _ _) rfl ?_
  exact .refl _ _

theorem State.sequencerResume_only (s : State) :
    OnlyChanges [.rails, .orders] s (State.sequencerResume s) := by
  unfold State.sequencerResume
  extract_lets s1
  have hs1 : OnlyChanges [.rails, .orders] s s1 := by
    unfold s1
    refine .foldl (fun u2 _ => ?_) ?_
    · refine .step (State.onRail_only _ _ _) rfl ?_
      exact .refl _ _
    · exact .refl _ _
  clear_value s1
  refine .foldl (fun u3 _ => ?_) ?_
  · refine .step (State.onOrder_only _ _ _) rfl ?_
    exact .refl _ _
  · exact hs1

theorem State.readPg_only (s : State) (pgin : Word) :
    OnlyChanges [.rails, .seq] s (State.readPg s pgin) := by
  unfold State.readPg
  extract_lets _ s1
  have hs1 : OnlyChanges [.rails, .seq] s s1 := by
    unfold s1
    refine .step (set_seq_only _ _) rfl ?_
    exact .refl _ _
  clear_value s1
  refine .foldl (fun u2 _ => ?_) ?_
  · extract_lets _
    refine .step (State.onRail_only _ _ _) rfl ?_
    exact .refl _ _
  · exact hs1

theorem State.railTo_only (s : State) (r : Nat) (ph : RailPhase) :
    OnlyChanges [.rails] s (State.railTo s r ph) := by
  unfold State.railTo
  refine .step (State.onRail_only _ _ _) rfl ?_
  exact .refl _ _

theorem State.orderFault_only (s : State) (s0 : State) (r : Nat) (cause : Nat) :
    OnlyChanges [.orders] s (State.orderFault s s0 r cause) := by
  unfold State.orderFault
  refine .step (State.onOrder_only _ _ _) rfl ?_
  exact .refl _ _

theorem State.railRow_only (s0 : State) (s : State) (r : Nat) :
    OnlyChanges [.rails, .orders, .lint] s (State.railRow s0 s r) := by
  unfold State.railRow
  extract_lets _ _ _ _ _ s1 s2
  have hs1 : OnlyChanges [.rails, .orders, .lint] s s1 := by
    unfold s1
    refine .step (State.onRail_only _ _ _) rfl ?_
    refine .step (State.railTo_only _ _ _) rfl ?_
    exact .refl _ _
  clear_value s1
  have hs2 : OnlyChanges [.rails, .orders, .lint] s s2 := by
    unfold s2
    refine .step (State.detect_only _ _ _) rfl ?_
    exact hs1
  clear_value s2
  split
  · refine .ite ?_ ?_
    · exact .refl _ _
    · refine .ite ?_ ?_
      · refine .step (State.onRail_only _ _ _) rfl ?_
        exact .refl _ _
      · refine .ite ?_ ?_
        · refine .step (State.railTo_only _ _ _) rfl ?_
          exact .refl _ _
        · exact .refl _ _
  · refine .ite ?_ ?_
    · refine .step (State.railTo_only _ _ _) rfl ?_
      exact .refl _ _
    · refine .ite ?_ ?_
      · refine .step (State.railTo_only _ _ _) rfl ?_
        exact .refl _ _
      · refine .ite ?_ ?_
        · refine .step (State.onRail_only _ _ _) rfl ?_
          refine .step (State.railTo_only _ _ _) rfl ?_
          exact .refl _ _
        · refine .ite ?_ ?_
          · refine .step (State.railTo_only _ _ _) rfl ?_
            exact .refl _ _
          · exact .refl _ _
  · refine .ite ?_ ?_
    · refine .step (State.railTo_only _ _ _) rfl ?_
      exact .refl _ _
    · refine .ite ?_ ?_
      · refine .step (State.railTo_only _ _ _) rfl ?_
        exact .refl _ _
      · refine .ite ?_ ?_
        · refine .step (State.onRail_only _ _ _) rfl ?_
          refine .step (State.railTo_only _ _ _) rfl ?_
          exact .refl _ _
        · refine .ite ?_ ?_
          · refine .ite ?_ ?_
            · exact hs2
            · refine .step (State.orderFault_only _ _ _ _) rfl ?_
              exact hs2
          · exact .refl _ _
  · refine .ite ?_ ?_
    · refine .step (State.railTo_only _ _ _) rfl ?_
      exact .refl _ _
    · refine .ite ?_ ?_
      · refine .step (State.railTo_only _ _ _) rfl ?_
        exact .refl _ _
      · refine .ite ?_ ?_
        · refine .step (State.railTo_only _ _ _) rfl ?_
          exact .refl _ _
        · refine .ite ?_ ?_
          · refine .step (State.onRail_only _ _ _) rfl ?_
            exact .refl _ _
          · exact .refl _ _
  · refine .ite ?_ ?_
    · refine .step (State.railTo_only _ _ _) rfl ?_
      exact .refl _ _
    · refine .ite ?_ ?_
      · refine .step (State.detect_only _ _ _) rfl ?_
        refine .step (State.onRail_only _ _ _) rfl ?_
        refine .step (State.railTo_only _ _ _) rfl ?_
        exact .refl _ _
      · exact .refl _ _

theorem State.orderTo_only (s : State) (k : Nat) (ph : OrderPhase) :
    OnlyChanges [.orders] s (State.orderTo s k ph) := by
  unfold State.orderTo
  refine .step (State.onOrder_only _ _ _) rfl ?_
  exact .refl _ _

theorem State.orderRise_only (s : State) (k : Nat) :
    OnlyChanges [.rails, .orders, .lint] s (State.orderRise s k) := by
  unfold State.orderRise
  extract_lets s1
  have hs1 : OnlyChanges [.rails, .orders, .lint] s s1 := by
    unfold s1
    refine .foldl (fun u2 _ => ?_) ?_
    · refine .step (State.onRail_only _ _ _) rfl ?_
      exact .refl _ _
    · exact .refl _ _
  clear_value s1
  refine .ite ?_ ?_
  · refine .step (State.orderTo_only _ _ _) rfl ?_
    exact hs1
  · refine .step (State.detect_only _ _ _) rfl ?_
    refine .step (State.orderTo_only _ _ _) rfl ?_
    exact .refl _ _

theorem State.orderDrop_only (s0 : State) (s : State) (k : Nat) :
    OnlyChanges [.orders, .lint] s (State.orderDrop s0 s k) := by
  unfold State.orderDrop
  extract_lets _ s1 s2
  have hs1 : OnlyChanges [.orders, .lint] s s1 := by
    unfold s1
    refine .foldl (fun u3 _ => ?_) ?_
    · refine .step (State.detect_only _ _ _) rfl ?_
      exact .refl _ _
    · exact .refl _ _
  clear_value s1
  have hs2 : OnlyChanges [.orders, .lint] s s2 := by
    unfold s2
    refine .step (State.orderFault_only _ _ _ _) rfl ?_
    exact hs1
  clear_value s2
  refine .step (State.onOrder_only _ _ _) rfl ?_
  exact hs2

theorem State.orderRow_only (s0 : State) (s : State) (k : Nat) :
    OnlyChanges [.rails, .orders, .lint] s (State.orderRow s0 s k) := by
  unfold State.orderRow
  extract_lets _ _ _ _ _ _ s1 s2 s3
  have hs1 : OnlyChanges [.rails, .orders, .lint] s s1 := by
    unfold s1
    refine .step (State.onOrder_only _ _ _) rfl ?_
    exact .refl _ _
  clear_value s1
  have hs2 : OnlyChanges [.rails, .orders, .lint] s s2 := by
    unfold s2
    refine .foldl (fun u4 _ => ?_) ?_
    · refine .step (State.onRail_only _ _ _) rfl ?_
      exact .refl _ _
    · exact hs1
  clear_value s2
  have hs3 : OnlyChanges [.rails, .orders, .lint] s s3 := by
    unfold s3
    refine .step (State.onOrder_only _ _ _) rfl ?_
    exact hs1
  clear_value s3
  refine .ite ?_ ?_
  · refine .step (State.orderDrop_only _ _ _) rfl ?_
    exact hs1
  · split
    · refine .ite ?_ ?_
      · refine .step (State.orderRise_only _ _) rfl ?_
        exact hs1
      · exact hs1
    · refine .ite ?_ ?_
      · refine .step (State.orderTo_only _ _ _) rfl ?_
        exact hs1
      · refine .ite ?_ ?_
        · refine .step (State.onOrder_only _ _ _) rfl ?_
          exact hs1
        · refine .ite ?_ ?_
          · refine .step (State.onOrder_only _ _ _) rfl ?_
            exact hs1
          · exact hs1
    · refine .ite ?_ ?_
      · refine .step (State.orderTo_only _ _ _) rfl ?_
        exact hs1
      · refine .ite ?_ ?_
        · refine .step (State.onOrder_only _ _ _) rfl ?_
          exact hs2
        · exact hs1
    · refine .ite ?_ ?_
      · refine .step (State.onOrder_only _ _ _) rfl ?_
        exact hs1
      · refine .ite ?_ ?_
        · refine .step (State.onOrder_only _ _ _) rfl ?_
          exact hs1
        · refine .ite ?_ ?_
          · refine .ite ?_ ?_
            · refine .step (State.orderRise_only _ _) rfl ?_
              exact hs3
            · refine .step (State.orderTo_only _ _ _) rfl ?_
              exact hs3
          · exact hs1
    · refine .ite ?_ ?_
      · refine .step (State.onOrder_only _ _ _) rfl ?_
        exact hs1
      · refine .ite ?_ ?_
        · refine .step (State.onOrder_only _ _ _) rfl ?_
          exact hs1
        · refine .ite ?_ ?_
          · refine .ite ?_ ?_
            · refine .step (State.orderRise_only _ _) rfl ?_
              exact hs3
            · refine .step (State.orderTo_only _ _ _) rfl ?_
              exact hs3
          · exact hs1

theorem State.sequencerSeen_only (s : State) :
    OnlyChanges [.orders, .seq] s (State.sequencerSeen s) := by
  unfold State.sequencerSeen
  extract_lets _ s1 f2
  have hs1 : OnlyChanges [.orders, .seq] s s1 := by
    unfold s1
    refine .step (set_seq_only _ _) rfl ?_
    exact .refl _ _
  clear_value s1
  refine .foldl (fun u3 _ => ?_) ?_
  · extract_lets _ _
    refine .step (State.onOrder_only _ _ _) rfl ?_
    exact .refl _ _
  · exact hs1

theorem State.orderClear_only (s : State) (k : Nat) :
    OnlyChanges [.orders] s (State.orderClear s k) := by
  unfold State.orderClear
  refine .step (State.onOrder_only _ _ _) rfl ?_
  exact .refl _ _

theorem State.takeOrderClear_only (s : State) (k : Nat) :
    OnlyChanges [.orders] s (State.takeOrderClear s k) := by
  unfold State.takeOrderClear
  refine .ite ?_ ?_
  · refine .step (State.onOrder_only _ _ _) rfl ?_
    refine .step (State.orderClear_only _ _) rfl ?_
    exact .refl _ _
  · exact .refl _ _

theorem State.sequencerTick_only (s : State) (pgin : Word) :
    OnlyChanges [.rails, .orders, .seq, .lint] s (State.sequencerTick s pgin) := by
  unfold State.sequencerTick
  extract_lets _ s1 s2 s3
  have hs1 : OnlyChanges [.rails, .orders, .seq, .lint] s s1 := by
    unfold s1
    refine .step (set_seq_only _ _) rfl ?_
    exact .refl _ _
  clear_value s1
  have hs2 : OnlyChanges [.rails, .orders, .seq, .lint] s s2 := by
    unfold s2
    refine .step (State.readPg_only _ _) rfl ?_
    refine .foldl (fun u4 _ => ?_) ?_
    · refine .step (State.takeOrderClear_only _ _) rfl ?_
      exact .refl _ _
    · exact hs1
  clear_value s2
  have hs3 : OnlyChanges [.rails, .orders, .seq, .lint] s s3 := by
    unfold s3
    refine .foldl (fun u5 _ => ?_) ?_
    · refine .step (State.orderRow_only _ _ _) rfl ?_
      exact .refl _ _
    · exact hs2
  clear_value s3
  refine .ite ?_ ?_
  · exact .refl _ _
  · refine .step (State.sequencerSeen_only _) rfl ?_
    refine .foldl (fun u6 _ => ?_) ?_
    · refine .step (State.railRow_only _ _ _) rfl ?_
      exact .refl _ _
    · exact hs3

theorem State.railDue_only (s : State) (r : Nat) (ph : RailPhase) :
    OnlyChanges [.rails, .orders, .seq, .lint] s (State.railDue s r ph) := by
  unfold State.railDue
  refine .ite ?_ ?_
  · refine .step (State.sequencerSeen_only _) rfl ?_
    refine .step (State.railRow_only _ _ _) rfl ?_
    exact .refl _ _
  · exact .refl _ _

theorem State.railUp_only (s : State) (r : Nat) :
    OnlyChanges [.rails, .orders, .seq, .lint] s (State.railUp s r) := by
  unfold State.railUp
  refine .ite ?_ ?_
  · refine .step (State.railDue_only _ _ _) rfl ?_
    exact .refl _ _
  · exact .refl _ _

theorem State.railDown_only (s : State) (r : Nat) :
    OnlyChanges [.rails, .orders, .seq, .lint] s (State.railDown s r) := by
  unfold State.railDown
  extract_lets _
  refine .ite ?_ ?_
  · refine .step (State.railDue_only _ _ _) rfl ?_
    exact .refl _ _
  · exact .refl _ _

theorem State.railFault_only (s : State) (r : Nat) :
    OnlyChanges [.rails, .orders, .seq, .lint] s (State.railFault s r) := by
  unfold State.railFault
  refine .ite ?_ ?_
  · refine .step (State.sequencerSeen_only _) rfl ?_
    refine .step (State.railRow_only _ _ _) rfl ?_
    refine .step (State.orderDrop_only _ _ _) rfl ?_
    exact .refl _ _
  · exact .refl _ _

end Sys2Proof.Machine
end

