-- ==== Sys2Proof/Laws/FramesLint.lean ====
section
/-!
SUPPORT. Footprints of the operations of Machine/Lint.lean.
-/
namespace Sys2Proof.Machine
set_option Elab.async false

theorem State.recordsWritten_only (s : State) :
    OnlyChanges [.score] s (State.recordsWritten s) := by
  unfold State.recordsWritten
  extract_lets _
  refine .step (set_score_only _ _) rfl ?_
  exact .refl _ _

theorem State.captureResume_only (s : State) (c : Nat) :
    OnlyChanges [.score] s (State.captureResume s c) := by
  unfold State.captureResume
  refine .ite ?_ ?_
  · refine .step (State.onCapture_only _ _ _) rfl ?_
    exact .refl _ _
  · exact .refl _ _

theorem State.changeWrite_only (s : State) (time : Nat) (episode : Nat) (index : Nat) (sub : Nat) (origin : List Byte) (count : Nat) (old : List Byte) (new : List Byte) :
    OnlyChanges [.score] s (State.changeWrite s time episode index sub origin count old new) := by
  unfold State.changeWrite
  refine .step (State.recordAt_only _ _ _ _ _) rfl ?_
  exact .refl _ _

theorem State.changeAlone_only (s : State) (index : Nat) (sub : Nat) (origin : List Byte) (old : List Byte) (new : List Byte) :
    OnlyChanges [.score] s (State.changeAlone s index sub origin old new) := by
  unfold State.changeAlone
  refine .ite ?_ ?_
  · exact .refl _ _
  · refine .step (State.changeWrite_only _ _ _ _ _ _ _ _ _) rfl ?_
    exact .refl _ _

theorem State.flushHolds_only (s : State) :
    OnlyChanges [.score] s (State.flushHolds s) := by
  unfold State.flushHolds
  extract_lets _ _ _ s1 _
  have hs1 : OnlyChanges [.score] s s1 := by
    unfold s1
    refine .foldl (fun u2 _ => ?_) ?_
    · refine .ite ?_ ?_
      · exact .refl _ _
      · refine .step (State.changeWrite_only _ _ _ _ _ _ _ _ _) rfl ?_
        exact .refl _ _
    · exact .refl _ _
  clear_value s1
  refine .step (set_score_only _ _) rfl ?_
  exact hs1

theorem State.changeAt_only (s : State) (time : Nat) (episode : Nat) (index : Nat) (sub : Nat) (origin : List Byte) (old : List Byte) (new : List Byte) :
    OnlyChanges [.score] s (State.changeAt s time episode index sub origin old new) := by
  unfold State.changeAt
  extract_lets s1 f2 _ _ s3 _
  have hs1 : OnlyChanges [.score] s s1 := by
    unfold s1
    refine .step (State.flushHolds_only _) rfl ?_
    exact .refl _ _
  clear_value s1
  have hs3 : OnlyChanges [.score] s s3 := by
    unfold s3
    refine .step (State.changeWrite_only _ _ _ _ _ _ _ _ _) rfl ?_
    exact hs1
  clear_value s3
  refine .ite ?_ ?_
  · exact .refl _ _
  · split
    · refine .ite ?_ ?_
      · refine .step (State.changeWrite_only _ _ _ _ _ _ _ _ _) rfl ?_
        exact hs1
      · refine .step (set_score_only _ _) rfl ?_
        exact hs1
    · refine .step (set_score_only _ _) rfl ?_
      exact hs3

theorem State.change_only (s : State) (index : Nat) (sub : Nat) (origin : List Byte) (old : List Byte) (new : List Byte) :
    OnlyChanges [.score] s (State.change s index sub origin old new) := by
  unfold State.change
  refine .step (State.changeAt_only _ _ _ _ _ _ _ _) rfl ?_
  exact .refl _ _

theorem State.latchSnapshot_only (s : State) (closing : Bool) :
    OnlyChanges [.lint] s (State.latchSnapshot s closing) := by
  unfold State.latchSnapshot
  extract_lets _ _
  refine .ite ?_ ?_
  · exact .refl _ _
  · refine .ite ?_ ?_
    · refine .step (State.detect_only _ _ _) rfl ?_
      refine .step (State.onLint_only _ _) rfl ?_
      exact .refl _ _
    · refine .step (State.onLint_only _ _) rfl ?_
      exact .refl _ _

theorem State.closeEpisode_only (s : State) (cause : Nat) :
    OnlyChanges [.lint, .score] s (State.closeEpisode s cause) := by
  unfold State.closeEpisode
  extract_lets s1 _ _ s2
  have hs1 : OnlyChanges [.lint, .score] s s1 := by
    unfold s1
    refine .ite ?_ ?_
    · exact .refl _ _
    · refine .step (State.latchSnapshot_only _ _) rfl ?_
      exact .refl _ _
  clear_value s1
  have hs2 : OnlyChanges [.lint, .score] s s2 := by
    unfold s2
    refine .step (State.record_only _ _ _) rfl ?_
    exact hs1
  clear_value s2
  refine .step (State.onLint_only _ _) rfl ?_
  exact hs2

theorem State.captureReset_only (s : State) (c : Nat) :
    OnlyChanges [.lint, .score] s (State.captureReset s c) := by
  unfold State.captureReset
  extract_lets s1
  have hs1 : OnlyChanges [.lint, .score] s s1 := by
    unfold s1
    refine .step (State.onCapture_only _ _ _) rfl ?_
    exact .refl _ _
  clear_value s1
  split
  · refine .step (State.detect_only _ _ _) rfl ?_
    refine .step (State.onCapture_only _ _ _) rfl ?_
    exact hs1
  · refine .step (State.detect_only _ _ _) rfl ?_
    refine .step (State.onCapture_only _ _ _) rfl ?_
    exact hs1
  · refine .step (State.onCapture_only _ _ _) rfl ?_
    exact hs1
  · exact hs1

theorem State.captureArm_only (s : State) (c : Nat) :
    OnlyChanges [.score] s (State.captureArm s c) := by
  unfold State.captureArm
  refine .ite ?_ ?_
  · refine .step (State.onCapture_only _ _ _) rfl ?_
    exact .refl _ _
  · exact .refl _ _

theorem State.captureDisarm_only (s : State) (c : Nat) :
    OnlyChanges [.score] s (State.captureDisarm s c) := by
  unfold State.captureDisarm
  refine .ite ?_ ?_
  · refine .step (State.onCapture_only _ _ _) rfl ?_
    exact .refl _ _
  · exact .refl _ _

theorem State.captureRequests_only (s : State) (c : Nat) :
    OnlyChanges [.score] s (State.captureRequests s c) := by
  unfold State.captureRequests
  extract_lets _ s1
  have hs1 : OnlyChanges [.score] s s1 := by
    unfold s1
    refine .step (State.onCapture_only _ _ _) rfl ?_
    exact .refl _ _
  clear_value s1
  refine .foldl (fun u2 _ => ?_) ?_
  · split
    · refine .step (State.captureArm_only _ _) rfl ?_
      exact .refl _ _
    · refine .step (State.captureTrigger_only _ _ _ _) rfl ?_
      exact .refl _ _
    · refine .step (State.captureDisarm_only _ _) rfl ?_
      exact .refl _ _
  · exact hs1

theorem State.captureCommands_only (s : State) :
    OnlyChanges [.score] s (State.captureCommands s) := by
  unfold State.captureCommands
  refine .foldl (fun u1 _ => ?_) ?_
  · refine .step (State.captureRequests_only _ _) rfl ?_
    exact .refl _ _
  · exact .refl _ _

theorem State.lintStopGroup_only (s : State) (keep : Bool) (g : Nat) :
    OnlyChanges [.groups] s (State.lintStopGroup s keep g) := by
  unfold State.lintStopGroup
  refine .step (State.onGroup_only _ _ _) rfl ?_
  exact .refl _ _

theorem State.lintStopFeed_only (s : State) (keep : Bool) (cause : Nat) (z : Nat) :
    OnlyChanges [.feeds] s (State.lintStopFeed s keep cause z) := by
  unfold State.lintStopFeed
  refine .step (State.onFeed_only _ _ _) rfl ?_
  exact .refl _ _

theorem State.lintStopOrder_only (s : State) (k : Nat) :
    OnlyChanges [.orders] s (State.lintStopOrder s k) := by
  unfold State.lintStopOrder
  refine .step (State.onOrder_only _ _ _) rfl ?_
  exact .refl _ _

theorem State.enterSafe_only (s : State) (keep : Bool) :
    OnlyChanges [.groups, .feeds, .orders, .lint] s (State.enterSafe s keep) := by
  unfold State.enterSafe
  extract_lets s1 s2 s3
  have hs1 : OnlyChanges [.groups, .feeds, .orders, .lint] s s1 := by
    unfold s1
    refine .step (State.onLint_only _ _) rfl ?_
    exact .refl _ _
  clear_value s1
  have hs2 : OnlyChanges [.groups, .feeds, .orders, .lint] s s2 := by
    unfold s2
    refine .foldl (fun u4 _ => ?_) ?_
    · refine .step (State.lintStopGroup_only _ _ _) rfl ?_
      exact .refl _ _
    · exact hs1
  clear_value s2
  have hs3 : OnlyChanges [.groups, .feeds, .orders, .lint] s s3 := by
    unfold s3
    refine .foldl (fun u5 _ => ?_) ?_
    · refine .step (State.lintStopFeed_only _ _ _ _) rfl ?_
      exact .refl _ _
    · exact hs2
  clear_value s3
  refine .foldl (fun u6 _ => ?_) ?_
  · refine .step (State.lintStopOrder_only _ _) rfl ?_
    exact .refl _ _
  · exact hs3

theorem State.endSafe_only (s : State) :
    OnlyChanges [.lint] s (State.endSafe s) := by
  unfold State.endSafe
  refine .step (State.onLint_only _ _) rfl ?_
  exact .refl _ _

theorem State.react_only (s : State) (d : Detected) :
    OnlyChanges [.groups, .feeds, .orders, .lint] s (State.react s d) := by
  unfold State.react
  extract_lets _ _ _ _ _ s1 s2 s3 s4
  have hs1 : OnlyChanges [.groups, .feeds, .orders, .lint] s s1 := by
    unfold s1
    refine .foldl (fun u5 _ => ?_) ?_
    · refine .step (State.lintStopGroup_only _ _ _) rfl ?_
      exact .refl _ _
    · exact .refl _ _
  clear_value s1
  have hs2 : OnlyChanges [.groups, .feeds, .orders, .lint] s s2 := by
    unfold s2
    refine .foldl (fun u6 _ => ?_) ?_
    · refine .step (State.lintStopFeed_only _ _ _ _) rfl ?_
      exact .refl _ _
    · exact hs1
  clear_value s2
  have hs3 : OnlyChanges [.groups, .feeds, .orders, .lint] s s3 := by
    unfold s3
    refine .foldl (fun u7 _ => ?_) ?_
    · refine .step (State.lintStopOrder_only _ _) rfl ?_
      exact .refl _ _
    · exact hs2
  clear_value s3
  have hs4 : OnlyChanges [.groups, .feeds, .orders, .lint] s s4 := by
    unfold s4
    refine .ite ?_ ?_
    · refine .step (State.enterSafe_only _ _) rfl ?_
      exact hs3
    · exact hs3
  clear_value s4
  refine .step (State.onLint_only _ _) rfl ?_
  exact hs4

theorem State.registerOne_only (s : State) (d : Detected) :
    OnlyChanges [.lint] s (State.registerOne s d).1 := by
  unfold State.registerOne
  extract_lets _ _ _
  dsimp only
  refine .step (State.onLint_only _ _) rfl ?_
  exact .refl _ _

theorem State.registerOne_to {s : State} {d : Detected} {t : State} {y} (e : (State.registerOne s d) = (t, y)) : OnlyChanges [.lint] s t := by
  have h := State.registerOne_only s d
  rw [e] at h; exact h

theorem State.writeSnapshot_only (s : State) (closing : Bool) :
    OnlyChanges [.lint, .score] s (State.writeSnapshot s closing) := by
  unfold State.writeSnapshot
  split
  · exact .refl _ _
  · extract_lets s1
    have hs1 : OnlyChanges [.lint, .score] s s1 := by
      unfold s1
      refine .foldl (fun u2 _ => ?_) ?_
      · refine .step (State.recordAt_only _ _ _ _ _) rfl ?_
        exact .refl _ _
      · exact .refl _ _
    clear_value s1
    refine .step (State.onLint_only _ _) rfl ?_
    exact hs1

theorem State.showEpisode_only (s : State) :
    OnlyChanges [.lint] s (State.showEpisode s) := by
  unfold State.showEpisode
  refine .step (State.onLint_only _ _) rfl ?_
  exact .refl _ _

theorem State.episodeEvents_only (s : State) (ds : List Detected) :
    OnlyChanges [.lint, .score] s (State.episodeEvents s ds) := by
  unfold State.episodeEvents
  extract_lets _ _ _ s1 s2 s3 _ s4 s5
  have hs1 : OnlyChanges [.lint, .score] s s1 := by
    unfold s1
    refine .ite ?_ ?_
    · refine .step (State.onLint_only _ _) rfl ?_
      exact .refl _ _
    · exact .refl _ _
  clear_value s1
  have hs2 : OnlyChanges [.lint, .score] s s2 := by
    unfold s2
    refine .foldl (fun u6 _ => ?_) ?_
    · refine .step (State.onLint_only _ _) rfl ?_
      exact .refl _ _
    · exact hs1
  clear_value s2
  have hs3 : OnlyChanges [.lint, .score] s s3 := by
    unfold s3
    refine .ite ?_ ?_
    · refine .step (State.showEpisode_only _) rfl ?_
      exact hs2
    · exact hs2
  clear_value s3
  have hs4 : OnlyChanges [.lint, .score] s s4 := by
    unfold s4
    refine .step (State.latchSnapshot_only _ _) rfl ?_
    exact hs3
  clear_value s4
  have hs5 : OnlyChanges [.lint, .score] s s5 := by
    unfold s5
    refine .step (State.record_only _ _ _) rfl ?_
    exact hs4
  clear_value s5
  refine .ite ?_ ?_
  · exact .refl _ _
  · refine .ite ?_ ?_
    · refine .step (State.captureEvent_only _ _ _) rfl ?_
      exact hs5
    · exact hs3

theorem State.registerAll_only (s : State) :
    OnlyChanges [.groups, .feeds, .orders, .lint, .score] s s.registerAll := by
  have pass (ds : List Detected) (a : State × List Detected) (b : State) (h : OnlyChanges [.lint] b a.1) :
      OnlyChanges [.lint] b (ds.foldl (fun (a : State × List Detected) d =>
        let (s, e) := a.1.registerOne d
        (s, if e then a.2 ++ [d] else a.2)) a).1 := by
    induction ds generalizing a with
    | nil => exact h
    | cons d ds ih => exact ih _ (h.trans (a.1.registerOne_only d))
  unfold State.registerAll
  extract_lets ds s1
  have h1 : OnlyChanges [.lint] s s1 := State.onLint_only s _
  split
  next s2 evs e =>
  have h2 : OnlyChanges [.lint] s s2 := by
    have h := pass ds (s1, []) s h1
    rw [e] at h
    exact h
  refine .foldl (fun u d => (State.react_only u d).mono rfl) ?_
  refine .foldl (fun u d => (State.captureEvent_only u _ _).mono rfl) ?_
  exact .step (State.episodeEvents_only _ _) rfl (h2.mono rfl)

theorem State.episodeRows_only (s : State) :
    OnlyChanges [.groups, .feeds, .orders, .lint, .score] s (State.episodeRows s) := by
  unfold State.episodeRows
  extract_lets s1
  have hs1 : OnlyChanges [.groups, .feeds, .orders, .lint, .score] s s1 := by
    unfold s1
    refine .step (State.registerAll_only _) rfl ?_
    exact .refl _ _
  clear_value s1
  refine .ite ?_ ?_
  · exact hs1
  · refine .ite ?_ ?_
    · refine .step (State.closeEpisode_only _ _) rfl ?_
      exact hs1
    · refine .ite ?_ ?_
      · refine .step (State.closeEpisode_only _ _) rfl ?_
        exact hs1
      · exact hs1

theorem State.captureSample_only (s : State) (c : Nat) :
    OnlyChanges [.score] s (State.captureSample s c) := by
  unfold State.captureSample
  extract_lets _ _
  split
  · exact .refl _ _
  · refine .ite ?_ ?_
    · exact .refl _ _
    · split
      · refine .step (State.onCapture_only _ _ _) rfl ?_
        exact .refl _ _
      · refine .ite ?_ ?_
        · refine .step (State.onCapture_only _ _ _) rfl ?_
          exact .refl _ _
        · exact .refl _ _
      · exact .refl _ _

theorem State.captureFull_only (s : State) (c : Nat) :
    OnlyChanges [.score] s (State.captureFull s c) := by
  unfold State.captureFull
  extract_lets _
  refine .ite ?_ ?_
  · refine .step (State.onCapture_only _ _ _) rfl ?_
    exact .refl _ _
  · exact .refl _ _

theorem State.captureSaved_only (s : State) (c : Nat) :
    OnlyChanges [.score] s (State.captureSaved s c) := by
  unfold State.captureSaved
  extract_lets _ _ _ s1
  have hs1 : OnlyChanges [.score] s s1 := by
    unfold s1
    refine .step (State.record_only _ _ _) rfl ?_
    exact .refl _ _
  clear_value s1
  refine .ite ?_ ?_
  · exact .refl _ _
  · refine .step (State.onCapture_only _ _ _) rfl ?_
    exact hs1

end Sys2Proof.Machine
end

