-- ==== Sys2Proof/Laws/FramesTwoWire.lean ====
section
/-!
SUPPORT. Footprints of the operations of Machine/TwoWire.lean.
-/
namespace Sys2Proof.Machine
set_option Elab.async false

theorem State.onTw_only (s : State) (t : Nat) (f : TwRun → TwRun) :
    OnlyChanges [.tws] s (State.onTw s t f) := by
  unfold State.onTw
  refine .step (set_tws_only _ _) rfl ?_
  exact .refl _ _

theorem State.twRecover_only (s : State) (t : Nat) :
    OnlyChanges [.tws] s (State.twRecover s t) := by
  unfold State.twRecover
  refine .step (State.onTw_only _ _ _) rfl ?_
  exact .refl _ _

theorem State.twStart_only (s : State) :
    OnlyChanges [.tws] s (State.twStart s) := by
  unfold State.twStart
  refine .foldl (fun u1 _ => ?_) ?_
  · refine .ite ?_ ?_
    · refine .step (State.twRecover_only _ _) rfl ?_
      exact .refl _ _
    · exact .refl _ _
  · exact .refl _ _

theorem State.twReset_only (s : State) :
    OnlyChanges [.tws] s (State.twReset s) := by
  unfold State.twReset
  refine .foldl (fun u1 _ => ?_) ?_
  · refine .step (State.onTw_only _ _ _) rfl ?_
    exact .refl _ _
  · exact .refl _ _

theorem State.twEnable_only (s : State) (t : Nat) :
    OnlyChanges [.tws] s (State.twEnable s t) := by
  unfold State.twEnable
  refine .ite ?_ ?_
  · refine .step (State.onTw_only _ _ _) rfl ?_
    exact .refl _ _
  · refine .ite ?_ ?_
    · refine .step (State.twRecover_only _ _) rfl ?_
      exact .refl _ _
    · exact .refl _ _

theorem State.onSensor_only (s : State) (n : Nat) (f : SensorRun → SensorRun) :
    OnlyChanges [.sensors] s (State.onSensor s n f) := by
  unfold State.onSensor
  refine .step (set_sensors_only _ _) rfl ?_
  exact .refl _ _

theorem State.sensorSet_only (s : State) (old : Vector SensorCfg 16) (n : Nat) :
    OnlyChanges [.sensors, .lint] s (State.sensorSet s old n) := by
  unfold State.sensorSet
  extract_lets _ _
  refine .ite ?_ ?_
  · refine .step (State.onSensor_only _ _ _) rfl ?_
    exact .refl _ _
  · refine .ite ?_ ?_
    · refine .step (State.detectIf_only _ _ _ _) rfl ?_
      exact .refl _ _
    · exact .refl _ _

theorem State.twNext_only (s : State) (t : Nat) :
    OnlyChanges [.sent, .tws] s (State.twNext s t) := by
  unfold State.twNext
  split
  · refine .step (State.onTw_only _ _ _) rfl ?_
    exact .refl _ _
  · extract_lets s1
    have hs1 : OnlyChanges [.sent, .tws] s s1 := by
      unfold s1
      refine .step (State.onTw_only _ _ _) rfl ?_
      exact .refl _ _
    clear_value s1
    refine .step (set_out_only _ _) rfl ?_
    exact hs1

theorem State.twIdle_only (s : State) (t : Nat) (clocks : Nat) :
    OnlyChanges [.sent, .tws] s (State.twIdle s t clocks) := by
  unfold State.twIdle
  extract_lets s1 s2
  have hs1 : OnlyChanges [.sent, .tws] s s1 := by
    unfold s1
    refine .step (State.onTw_only _ _ _) rfl ?_
    exact .refl _ _
  clear_value s1
  have hs2 : OnlyChanges [.sent, .tws] s s2 := by
    unfold s2
    refine .step (set_out_only _ _) rfl ?_
    exact hs1
  clear_value s2
  refine .step (State.twNext_only _ _) rfl ?_
  exact hs2

theorem State.twStuck_only (s : State) (t : Nat) :
    OnlyChanges [.tws, .lint] s (State.twStuck s t) := by
  unfold State.twStuck
  refine .step (State.detect_only _ _ _) rfl ?_
  refine .step (State.onTw_only _ _ _) rfl ?_
  exact .refl _ _

theorem State.pollFailed_only (s : State) (t : Nat) (n : Nat) :
    OnlyChanges [.sensors, .lint] s (State.pollFailed s t n) := by
  unfold State.pollFailed
  refine .step (State.detectIf_only _ _ _ _) rfl ?_
  refine .step (State.onSensor_only _ _ _) rfl ?_
  exact .refl _ _

theorem State.twBusError_only (s : State) (t : Nat) :
    OnlyChanges [.tws, .sensors, .lint] s (State.twBusError s t) := by
  unfold State.twBusError
  extract_lets _ s1
  have hs1 : OnlyChanges [.tws, .sensors, .lint] s s1 := by
    unfold s1
    refine .step (State.detect_only _ _ _) rfl ?_
    refine .step (State.pollFailed_only _ _ _) rfl ?_
    exact .refl _ _
  clear_value s1
  refine .step (State.twRecover_only _ _) rfl ?_
  refine .step (State.onTw_only _ _ _) rfl ?_
  exact hs1

theorem State.sensorPoll_only (s : State) (n : Nat) (scl : Bool) (sda : Bool) :
    OnlyChanges [.sent, .tws, .sensors] s (State.sensorPoll s n scl sda) := by
  unfold State.sensorPoll
  extract_lets _ _ s1 s2
  have hs1 : OnlyChanges [.sent, .tws, .sensors] s s1 := by
    unfold s1
    refine .ite ?_ ?_
    · exact .refl _ _
    · refine .step (State.onSensor_only _ _ _) rfl ?_
      exact .refl _ _
  clear_value s1
  have hs2 : OnlyChanges [.sent, .tws, .sensors] s s2 := by
    unfold s2
    refine .step (State.onTw_only _ _ _) rfl ?_
    exact hs1
  clear_value s2
  refine .ite ?_ ?_
  · exact .refl _ _
  · refine .ite ?_ ?_
    · exact hs2
    · refine .ite ?_ ?_
      · refine .step (State.twRecover_only _ _) rfl ?_
        exact hs2
      · refine .ite ?_ ?_
        · exact hs2
        · refine .step (State.twNext_only _ _) rfl ?_
          exact hs2

theorem State.twComplete_only (s : State) (t : Nat) (x : TwResult) :
    OnlyChanges [.sent, .tws, .sensors, .lint] s (State.twComplete s t x) := by
  unfold State.twComplete
  extract_lets _ _
  refine .ite ?_ ?_
  · exact .refl _ _
  · split
    · refine .step (State.twIdle_only _ _ _) rfl ?_
      refine .step (State.pollFailed_only _ _ _) rfl ?_
      exact .refl _ _
    · refine .step (State.twBusError_only _ _) rfl ?_
      exact .refl _ _
    · refine .ite ?_ ?_
      · refine .step (State.twIdle_only _ _ _) rfl ?_
        refine .step (State.onSensor_only _ _ _) rfl ?_
        exact .refl _ _
      · refine .step (State.twBusError_only _ _) rfl ?_
        exact .refl _ _

theorem State.twRecoveryEnd_only (s : State) (t : Nat) (sda : List Bool) :
    OnlyChanges [.sent, .tws, .lint] s (State.twRecoveryEnd s t sda) := by
  unfold State.twRecoveryEnd
  refine .ite ?_ ?_
  · exact .refl _ _
  · split
    · refine .step (State.twIdle_only _ _ _) rfl ?_
      refine .step (State.onTw_only _ _ _) rfl ?_
      exact .refl _ _
    · extract_lets s1
      have hs1 : OnlyChanges [.sent, .tws, .lint] s s1 := by
        unfold s1
        refine .step (State.twStuck_only _ _) rfl ?_
        exact .refl _ _
      clear_value s1
      refine .ite ?_ ?_
      · exact .refl _ _
      · refine .step (set_out_only _ _) rfl ?_
        exact hs1

theorem State.twSclTimeout_only (s : State) (t : Nat) :
    OnlyChanges [.tws, .sensors, .lint] s (State.twSclTimeout s t) := by
  unfold State.twSclTimeout
  split
  · refine .step (State.twStuck_only _ _) rfl ?_
    exact .refl _ _
  · refine .step (State.twBusError_only _ _) rfl ?_
    exact .refl _ _
  · exact .refl _ _

theorem State.twStuckRetry_only (s : State) (t : Nat) :
    OnlyChanges [.tws] s (State.twStuckRetry s t) := by
  unfold State.twStuckRetry
  refine .ite ?_ ?_
  · refine .step (State.twRecover_only _ _) rfl ?_
    exact .refl _ _
  · exact .refl _ _

end Sys2Proof.Machine
end

