-- ==== Sys2Proof/Laws/FramesFuses.lean ====
section
/-!
SUPPORT. Footprints of the operations of Machine/Fuses.lean.
-/
namespace Sys2Proof.Machine
set_option Elab.async false

theorem State.onRec_only (s : State) (f : BootRecord → BootRecord) :
    OnlyChanges [.bootRec] s (State.onRec s f) := by
  unfold State.onRec
  refine .step (set_bootRec_only _ _) rfl ?_
  exact .refl _ _

theorem State.sealLoad_only (s : State) :
    OnlyChanges [.tamper] s (State.sealLoad s) := by
  unfold State.sealLoad
  extract_lets _ _
  refine .step (set_tamper_only _ _) rfl ?_
  exact .refl _ _

theorem State.onFuses_only (s : State) (f : FuseRun → FuseRun) :
    OnlyChanges [.fuses] s (State.onFuses s f) := by
  unfold State.onFuses
  refine .step (set_fuses_only _ _) rfl ?_
  exact .refl _ _

theorem State.latchFuses_only (s : State) (weak : List (Nat × Word)) :
    OnlyChanges [.fuses] s (State.latchFuses s weak) := by
  unfold State.latchFuses
  extract_lets s1
  have hs1 : OnlyChanges [.fuses] s s1 := by
    unfold s1
    refine .step (State.onFuses_only _ _) rfl ?_
    exact .refl _ _
  clear_value s1
  refine .step (State.onFuses_only _ _) rfl ?_
  exact hs1

theorem State.fuseEvent_only (s : State) (event : Nat) (word : Nat) (seat : Nat) (before : Word) (after : Word) (readN : Word) (readM : Word) :
    OnlyChanges [.score] s (State.fuseEvent s event word seat before after readN readM) := by
  unfold State.fuseEvent
  refine .step (State.record_only _ _ _) rfl ?_
  exact .refl _ _

theorem State.sealStitch_only (s : State) (w : Nat) (v : Word) :
    OnlyChanges [.fuses, .score] s (State.sealStitch s w v) := by
  unfold State.sealStitch
  refine .step (State.fuseEvent_only _ _ _ _ _ _ _ _) rfl ?_
  refine .step (State.onFuses_only _ _) rfl ?_
  exact .refl _ _

theorem State.presenceEvent_only (s : State) (event : Nat) (seat : Nat) (index : Nat) (sub : Nat) (previous : Nat) :
    OnlyChanges [.score] s (State.presenceEvent s event seat index sub previous) := by
  unfold State.presenceEvent
  refine .step (State.record_only _ _ _) rfl ?_
  exact .refl _ _

theorem State.stitchBreak_only (s : State) :
    OnlyChanges [.fuses, .score, .tamper] s (State.stitchBreak s) := by
  unfold State.stitchBreak
  extract_lets _ s1 _
  have hs1 : OnlyChanges [.fuses, .score, .tamper] s s1 := by
    unfold s1
    refine .step (State.sealStitch_only _ _ _) rfl ?_
    refine .step (State.sealStitch_only _ _ _) rfl ?_
    refine .step (State.sealStitch_only _ _ _) rfl ?_
    exact .refl _ _
  clear_value s1
  refine .step (State.presenceEvent_only _ _ _ _ _ _) rfl ?_
  refine .step (set_tamper_only _ _) rfl ?_
  exact hs1

theorem State.marginResult_only (s : State) (w : Nat) (seat : Nat) (n : Word) (t : Word) :
    OnlyChanges [.fuses, .lint, .score] s (State.marginResult s w seat n t) := by
  unfold State.marginResult
  extract_lets _
  refine .ite ?_ ?_
  · refine .step (State.detect_only _ _ _) rfl ?_
    refine .step (State.fuseEvent_only _ _ _ _ _ _ _ _) rfl ?_
    refine .step (State.onFuses_only _ _) rfl ?_
    exact .refl _ _
  · refine .ite ?_ ?_
    · refine .step (State.fuseEvent_only _ _ _ _ _ _ _ _) rfl ?_
      refine .step (State.onFuses_only _ _) rfl ?_
      exact .refl _ _
    · exact .refl _ _

theorem State.fuseBegin_only (s : State) (op : FuseOp) (seat : Nat) :
    OnlyChanges [.fuses] s (State.fuseBegin s op seat) := by
  unfold State.fuseBegin
  refine .step (State.onFuses_only _ _) rfl ?_
  exact .refl _ _

theorem State.fuseDone_only (s : State) (missN : Word) (missT : Word) :
    OnlyChanges [.fuses, .lint, .score] s (State.fuseDone s missN missT) := by
  unfold State.fuseDone
  split
  · refine .ite ?_ ?_
    · exact .refl _ _
    · refine .step (State.onFuses_only _ _) rfl ?_
      exact .refl _ _
  · extract_lets _ _
    refine .ite ?_ ?_
    · exact .refl _ _
    · refine .step (State.marginResult_only _ _ _ _ _) rfl ?_
      refine .step (State.onFuses_only _ _) rfl ?_
      exact .refl _ _
  · exact .refl _ _

theorem State.stitchDone_only (s : State) (missN : Word) (missT : Word) :
    OnlyChanges [.fuses, .lint, .score] s (State.stitchDone s missN missT) := by
  unfold State.stitchDone
  split
  · extract_lets _ _ s1 _ _ _ s2 s3 _
    have hs1 : OnlyChanges [.fuses, .lint, .score] s s1 := by
      unfold s1
      refine .step (State.onFuses_only _ _) rfl ?_
      exact .refl _ _
    clear_value s1
    have hs2 : OnlyChanges [.fuses, .lint, .score] s s2 := by
      unfold s2
      refine .step (State.onFuses_only _ _) rfl ?_
      exact hs1
    clear_value s2
    have hs3 : OnlyChanges [.fuses, .lint, .score] s s3 := by
      unfold s3
      refine .ite ?_ ?_
      · refine .step (State.fuseEvent_only _ _ _ _ _ _ _ _) rfl ?_
        refine .step (State.marginResult_only _ _ _ _ _) rfl ?_
        exact hs2
      · refine .step (State.detect_only _ _ _) rfl ?_
        refine .step (State.fuseEvent_only _ _ _ _ _ _ _ _) rfl ?_
        refine .step (State.marginResult_only _ _ _ _ _) rfl ?_
        exact hs2
    clear_value s3
    refine .ite ?_ ?_
    · refine .step (State.fuseEvent_only _ _ _ _ _ _ _ _) rfl ?_
      refine .step (State.onFuses_only _ _) rfl ?_
      exact hs3
    · exact hs3
  · exact .refl _ _

theorem State.marginSweep_only (s : State) (weak : List (Nat × Word × Word)) :
    OnlyChanges [.fuses, .lint, .score] s (State.marginSweep s weak) := by
  unfold State.marginSweep
  refine .ite ?_ ?_
  · exact .refl _ _
  · refine .foldl (fun u1 _ => ?_) ?_
    · extract_lets _
      split
      refine .step (State.marginResult_only _ _ _ _ _) rfl ?_
      exact .refl _ _
    · refine .step (State.onFuses_only _ _) rfl ?_
      exact .refl _ _

theorem State.basteNow_only (s : State) (seat : Nat) :
    OnlyChanges [.fuses, .score] s (State.basteNow s seat) := by
  unfold State.basteNow
  extract_lets _ _
  refine .step (State.fuseEvent_only _ _ _ _ _ _ _ _) rfl ?_
  refine .step (State.onFuses_only _ _) rfl ?_
  exact .refl _ _

theorem State.ownerSet_only (s : State) (seat : Nat) :
    OnlyChanges [.score, .bootRec] s (State.ownerSet s seat) := by
  unfold State.ownerSet
  refine .step (State.fuseEvent_only _ _ _ _ _ _ _ _) rfl ?_
  refine .step (State.onRec_only _ _) rfl ?_
  exact .refl _ _

theorem State.ownerRelease_only (s : State) (seat : Nat) :
    OnlyChanges [.score, .bootRec] s (State.ownerRelease s seat) := by
  unfold State.ownerRelease
  refine .step (State.fuseEvent_only _ _ _ _ _ _ _ _) rfl ?_
  refine .step (State.onRec_only _ _) rfl ?_
  exact .refl _ _

theorem State.windowOpen_only (s : State) :
    OnlyChanges [.score, .presence] s (State.windowOpen s) := by
  unfold State.windowOpen
  extract_lets _ _
  refine .step (State.presenceEvent_only _ _ _ _ _ _) rfl ?_
  refine .step (set_presence_only _ _) rfl ?_
  exact .refl _ _

theorem State.windowExpire_only (s : State) :
    OnlyChanges [.score, .presence] s (State.windowExpire s) := by
  unfold State.windowExpire
  split
  · extract_lets _
    refine .ite ?_ ?_
    · refine .step (State.presenceEvent_only _ _ _ _ _ _) rfl ?_
      refine .step (set_presence_only _ _) rfl ?_
      exact .refl _ _
    · exact .refl _ _
  · exact .refl _ _

theorem State.windowEnd_only (s : State) (seat : Nat) :
    OnlyChanges [.score, .presence] s (State.windowEnd s seat) := by
  unfold State.windowEnd
  extract_lets _
  refine .ite ?_ ?_
  · refine .step (State.presenceEvent_only _ _ _ _ _ _) rfl ?_
    refine .step (set_presence_only _ _) rfl ?_
    exact .refl _ _
  · exact .refl _ _

theorem State.jumperFit_only (s : State) :
    OnlyChanges [.score, .presence] s (State.jumperFit s) := by
  unfold State.jumperFit
  extract_lets _
  refine .ite ?_ ?_
  · exact .refl _ _
  · refine .step (State.presenceEvent_only _ _ _ _ _ _) rfl ?_
    refine .step (set_presence_only _ _) rfl ?_
    exact .refl _ _

theorem State.jumperOut_only (s : State) :
    OnlyChanges [.score, .presence] s (State.jumperOut s) := by
  unfold State.jumperOut
  extract_lets _
  refine .ite ?_ ?_
  · refine .step (State.presenceEvent_only _ _ _ _ _ _) rfl ?_
    refine .step (set_presence_only _ _) rfl ?_
    exact .refl _ _
  · exact .refl _ _

theorem State.sealArm_only (s : State) (seat : Nat) :
    OnlyChanges [.fuses, .score, .tamper] s (State.sealArm s seat) := by
  unfold State.sealArm
  extract_lets _ s1
  have hs1 : OnlyChanges [.fuses, .score, .tamper] s s1 := by
    unfold s1
    refine .step (set_tamper_only _ _) rfl ?_
    exact .refl _ _
  clear_value s1
  refine .step (State.presenceEvent_only _ _ _ _ _ _) rfl ?_
  refine .step (State.sealStitch_only _ _ _) rfl ?_
  exact hs1

theorem State.sealCheck_only (s : State) (equal : Bool) :
    OnlyChanges [.fuses, .lint, .score, .tamper] s (State.sealCheck s equal) := by
  unfold State.sealCheck
  extract_lets _ s1 _ s2 s3
  have hs1 : OnlyChanges [.fuses, .lint, .score, .tamper] s s1 := by
    unfold s1
    refine .step (set_tamper_only _ _) rfl ?_
    exact .refl _ _
  clear_value s1
  have hs2 : OnlyChanges [.fuses, .lint, .score, .tamper] s s2 := by
    unfold s2
    refine .step (set_tamper_only _ _) rfl ?_
    exact hs1
  clear_value s2
  have hs3 : OnlyChanges [.fuses, .lint, .score, .tamper] s s3 := by
    unfold s3
    refine .step (State.presenceEvent_only _ _ _ _ _ _) rfl ?_
    refine .step (State.detect_only _ _ _) rfl ?_
    exact hs2
  clear_value s3
  refine .ite ?_ ?_
  · refine .ite ?_ ?_
    · exact hs3
    · refine .step (State.stitchBreak_only _) rfl ?_
      exact hs3
  · exact hs1

end Sys2Proof.Machine
end

