-- ==== Sys2Proof/Laws/FramesLoads.lean ====
section
/-!
SUPPORT. Footprints of the operations of Machine/Loads.lean.
-/
namespace Sys2Proof.Machine
set_option Elab.async false

theorem State.onImage_only (s : State) (f : LoadRun → LoadRun) :
    OnlyChanges [.image] s (State.onImage s f) := by
  unfold State.onImage
  refine .step (set_image_only _ _) rfl ?_
  exact .refl _ _

theorem State.onPatch_only (s : State) (f : LoadRun → LoadRun) :
    OnlyChanges [.patch] s (State.onPatch s f) := by
  unfold State.onPatch
  refine .step (set_patch_only _ _) rfl ?_
  exact .refl _ _

theorem State.loadsTrial_only (s : State) :
    OnlyChanges [.patch, .image] s (State.loadsTrial s) := by
  unfold State.loadsTrial
  extract_lets f1
  refine .step (State.onImage_only _ _) rfl ?_
  refine .step (State.onPatch_only _ _) rfl ?_
  exact .refl _ _

theorem State.onSlot_only (s : State) (k : Nat) (f : SlotImage → SlotImage) :
    OnlyChanges [.slots] s (State.onSlot s k f) := by
  unfold State.onSlot
  refine .step (set_slots_only _ _) rfl ?_
  exact .refl _ _

theorem State.loadsStart_only (s : State) :
    OnlyChanges [.bootRec, .slots, .patch, .image] s (State.loadsStart s) := by
  unfold State.loadsStart
  extract_lets s1 s2 f3
  have hs1 : OnlyChanges [.bootRec, .slots, .patch, .image] s s1 := by
    unfold s1
    refine .ite ?_ ?_
    · refine .step (State.onSlot_only _ _ _) rfl ?_
      exact .refl _ _
    · exact .refl _ _
  clear_value s1
  have hs2 : OnlyChanges [.bootRec, .slots, .patch, .image] s s2 := by
    unfold s2
    refine .ite ?_ ?_
    · refine .step (State.onRec_only _ _) rfl ?_
      exact hs1
    · exact hs1
  clear_value s2
  refine .step (State.onImage_only _ _) rfl ?_
  refine .step (State.onPatch_only _ _) rfl ?_
  exact hs2

theorem State.patchEvent_only (s : State) (event : Nat) (seat : Nat) (cond : Half) (base : Nat) (target : Nat) (len : Nat) (failure : Nat) :
    OnlyChanges [.score] s (State.patchEvent s event seat cond base target len failure) := by
  unfold State.patchEvent
  refine .step (State.record_only _ _ _) rfl ?_
  exact .refl _ _

theorem State.unmark_only (s : State) (k : Nat) :
    OnlyChanges [.bootRec] s (State.unmark s k) := by
  unfold State.unmark
  refine .ite ?_ ?_
  · refine .step (State.onRec_only _ _) rfl ?_
    exact .refl _ _
  · exact .refl _ _

theorem State.patchNote_only (s : State) (event : Nat) (seat : Nat) (failure : Nat) (cond : Half) :
    OnlyChanges [.score] s (State.patchNote s event seat failure cond) := by
  unfold State.patchNote
  extract_lets _
  refine .step (State.patchEvent_only _ _ _ _ _ _ _ _) rfl ?_
  exact .refl _ _

theorem State.imageNote_only (s : State) (event : Nat) (seat : Nat) (failure : Nat) (cond : Half) :
    OnlyChanges [.score] s (State.imageNote s event seat failure cond) := by
  unfold State.imageNote
  extract_lets _
  refine .step (State.patchEvent_only _ _ _ _ _ _ _ _) rfl ?_
  exact .refl _ _

theorem State.patchPiece_only (s : State) (seat : Nat) (offset : Nat) (bs : List Byte) :
    OkOnly [.score, .patch] s (State.patchPiece s seat offset bs) := by
  unfold State.patchPiece
  extract_lets _ s1 _ s2
  have hs1 : OnlyChanges [.score, .patch] s s1 := by
    unfold s1
    refine .step (State.onPatch_only _ _) rfl ?_
    exact .refl _ _
  clear_value s1
  have hs2 : OnlyChanges [.score, .patch] s s2 := by
    unfold s2
    refine .step (State.onPatch_only _ _) rfl ?_
    exact .refl _ _
  clear_value s2
  split
  · split
    · exact .error
    · refine .ok ?_
      refine .ite ?_ ?_
      · refine .step (State.patchNote_only _ _ _ _ _) rfl ?_
        exact hs1
      · exact hs1
  · split
    · exact .error
    · split
      · exact .error
      · refine .ok ?_
        refine .ite ?_ ?_
        · refine .step (State.patchNote_only _ _ _ _ _) rfl ?_
          exact hs2
        · exact hs2

theorem State.imagePiece_only (s : State) (seat : Nat) (offset : Nat) (bs : List Byte) :
    OkOnly [.score, .bootRec, .slots, .image] s (State.imagePiece s seat offset bs) := by
  unfold State.imagePiece
  extract_lets _ f1 f2 _
  split
  · split
    · exact .error
    · split
      · exact .error
      · refine .ok ?_
        unfold f2
        refine .ite ?_ ?_
        · refine .step (State.imageNote_only _ _ _ _ _) rfl ?_
          unfold f1
          refine .step (State.unmark_only _ _) rfl ?_
          refine .step (State.onSlot_only _ _ _) rfl ?_
          refine .step (State.onImage_only _ _) rfl ?_
          exact .refl _ _
        · unfold f1
          refine .step (State.unmark_only _ _) rfl ?_
          refine .step (State.onSlot_only _ _ _) rfl ?_
          refine .step (State.onImage_only _ _) rfl ?_
          exact .refl _ _
  · split
    · exact .error
    · split
      · exact .error
      · refine .ok ?_
        unfold f2
        refine .ite ?_ ?_
        · refine .step (State.imageNote_only _ _ _ _ _) rfl ?_
          unfold f1
          refine .step (State.unmark_only _ _) rfl ?_
          refine .step (State.onSlot_only _ _ _) rfl ?_
          refine .step (State.onImage_only _ _) rfl ?_
          exact .refl _ _
        · unfold f1
          refine .step (State.unmark_only _ _) rfl ?_
          refine .step (State.onSlot_only _ _ _) rfl ?_
          refine .step (State.onImage_only _ _) rfl ?_
          exact .refl _ _

theorem State.refuseWrite_only (s : State) :
    OnlyChanges [.boot] s (State.refuseWrite s) := by
  unfold State.refuseWrite
  extract_lets _
  refine .step (set_boot_only _ _) rfl ?_
  exact .refl _ _

theorem State.noRefusals_only (s : State) :
    OnlyChanges [.boot] s (State.noRefusals s) := by
  unfold State.noRefusals
  extract_lets _
  refine .step (set_boot_only _ _) rfl ?_
  exact .refl _ _

theorem State.patchVerify_only (s : State) (seat : Nat) :
    OkOnly [.lint, .score, .patch] s (State.patchVerify s seat) := by
  unfold State.patchVerify
  extract_lets _
  split
  · exact .error
  · split
    · refine .ok ?_
      refine .step (State.patchNote_only _ _ _ _ _) rfl ?_
      refine .step (State.onPatch_only _ _) rfl ?_
      exact .refl _ _
    · refine .ok ?_
      refine .step (State.detect_only _ _ _) rfl ?_
      refine .step (State.patchNote_only _ _ _ _ _) rfl ?_
      refine .step (State.onPatch_only _ _) rfl ?_
      exact .refl _ _

theorem State.patchApply_only (s : State) (seat : Nat) :
    OnlyChanges [.score, .bootRec, .slots, .patch] s (State.patchApply s seat) := by
  unfold State.patchApply
  extract_lets s1
  have hs1 : OnlyChanges [.score, .bootRec, .slots, .patch] s s1 := by
    unfold s1
    refine .step (State.onPatch_only _ _) rfl ?_
    exact .refl _ _
  clear_value s1
  refine .step (State.patchNote_only _ _ _ _ _) rfl ?_
  refine .step (State.unmark_only _ _) rfl ?_
  refine .step (State.onSlot_only _ _ _) rfl ?_
  exact hs1

theorem State.patchApplied_only (s : State) :
    OnlyChanges [.lint, .score, .bootRec, .slots, .patch] s (State.patchApplied s) := by
  unfold State.patchApplied
  extract_lets _ _ _ s1 s2 s3 _
  have hs1 : OnlyChanges [.lint, .score, .bootRec, .slots, .patch] s s1 := by
    unfold s1
    refine .step (State.onSlot_only _ _ _) rfl ?_
    exact .refl _ _
  clear_value s1
  have hs2 : OnlyChanges [.lint, .score, .bootRec, .slots, .patch] s s2 := by
    unfold s2
    refine .step (State.onSlot_only _ _ _) rfl ?_
    exact hs1
  clear_value s2
  have hs3 : OnlyChanges [.lint, .score, .bootRec, .slots, .patch] s s3 := by
    unfold s3
    refine .step (State.onRec_only _ _) rfl ?_
    exact hs2
  clear_value s3
  refine .ite ?_ ?_
  · exact .refl _ _
  · refine .ite ?_ ?_
    · refine .step (State.patchNote_only _ _ _ _ _) rfl ?_
      refine .step (State.onPatch_only _ _) rfl ?_
      exact hs3
    · refine .step (State.detect_only _ _ _) rfl ?_
      refine .step (State.patchNote_only _ _ _ _ _) rfl ?_
      refine .step (State.onPatch_only _ _) rfl ?_
      exact hs1

theorem State.clearTrial_only (s : State) (made : Bool) :
    OnlyChanges [.bootRec, .slots] s (State.clearTrial s made) := by
  unfold State.clearTrial
  refine .ite ?_ ?_
  · refine .step (State.onRec_only _ _) rfl ?_
    refine .step (State.onSlot_only _ _ _) rfl ?_
    exact .refl _ _
  · exact .refl _ _

theorem State.patchDiscard_only (s : State) (seat : Nat) :
    OkOnly [.score, .bootRec, .slots, .patch] s (State.patchDiscard s seat) := by
  unfold State.patchDiscard
  extract_lets s1
  have hs1 : OnlyChanges [.score, .bootRec, .slots, .patch] s s1 := by
    unfold s1
    refine .step (State.patchNote_only _ _ _ _ _) rfl ?_
    refine .step (State.clearTrial_only _ _) rfl ?_
    exact .refl _ _
  clear_value s1
  split
  · exact .error
  · refine .ok ?_
    refine .step (State.onPatch_only _ _) rfl ?_
    exact hs1

theorem State.imageDiscard_only (s : State) (seat : Nat) :
    OkOnly [.score, .bootRec, .slots, .image] s (State.imageDiscard s seat) := by
  unfold State.imageDiscard
  extract_lets s1
  have hs1 : OnlyChanges [.score, .bootRec, .slots, .image] s s1 := by
    unfold s1
    refine .step (State.imageNote_only _ _ _ _ _) rfl ?_
    refine .step (State.clearTrial_only _ _) rfl ?_
    exact .refl _ _
  clear_value s1
  split
  · exact .error
  · refine .ok ?_
    refine .step (State.onImage_only _ _) rfl ?_
    exact hs1

theorem State.imageWrite_only (s : State) (seat : Nat) :
    OnlyChanges [.lint, .score, .bootRec, .image] s (State.imageWrite s seat) := by
  unfold State.imageWrite
  extract_lets _ _
  refine .ite ?_ ?_
  · refine .step (State.onRec_only _ _) rfl ?_
    refine .step (State.onImage_only _ _) rfl ?_
    exact .refl _ _
  · refine .step (State.detect_only _ _ _) rfl ?_
    refine .step (State.imageNote_only _ _ _ _ _) rfl ?_
    refine .step (State.onImage_only _ _) rfl ?_
    exact .refl _ _

theorem State.imageWritten_only (s : State) :
    OnlyChanges [.score, .slots, .image] s (State.imageWritten s) := by
  unfold State.imageWritten
  extract_lets s1
  have hs1 : OnlyChanges [.score, .slots, .image] s s1 := by
    unfold s1
    refine .step (State.onSlot_only _ _ _) rfl ?_
    exact .refl _ _
  clear_value s1
  refine .ite ?_ ?_
  · exact .refl _ _
  · refine .step (State.imageNote_only _ _ _ _ _) rfl ?_
    refine .step (State.onImage_only _ _) rfl ?_
    exact hs1

theorem State.writeStop_only (s : State) :
    OnlyChanges [.score, .boot, .bootRec, .slots, .patch, .image] s (State.writeStop s) := by
  unfold State.writeStop
  extract_lets _ f1 s2 s3
  have hs2 : OnlyChanges [.score, .boot, .bootRec, .slots, .patch, .image] s s2 := by
    unfold s2
    refine .ite ?_ ?_
    · refine .step (State.patchNote_only _ _ _ _ _) rfl ?_
      refine .step (State.onPatch_only _ _) rfl ?_
      unfold f1
      extract_lets s4 _
      have hs4 : OnlyChanges [.score, .boot, .bootRec, .slots, .patch, .image] s s4 := by
        unfold s4
        refine .step (State.onSlot_only _ _ _) rfl ?_
        exact .refl _ _
      clear_value s4
      refine .step (set_boot_only _ _) rfl ?_
      exact hs4
    · exact .refl _ _
  clear_value s2
  have hs3 : OnlyChanges [.score, .boot, .bootRec, .slots, .patch, .image] s s3 := by
    unfold s3
    refine .step (State.onRec_only _ _) rfl ?_
    unfold f1
    extract_lets s5 _
    have hs5 : OnlyChanges [.score, .boot, .bootRec, .slots, .patch, .image] s s5 := by
      unfold s5
      refine .step (State.onSlot_only _ _ _) rfl ?_
      exact hs2
    clear_value s5
    refine .step (set_boot_only _ _) rfl ?_
    exact hs5
  clear_value s3
  refine .ite ?_ ?_
  · exact .refl _ _
  · refine .ite ?_ ?_
    · refine .step (State.imageNote_only _ _ _ _ _) rfl ?_
      refine .step (State.onImage_only _ _) rfl ?_
      exact hs3
    · exact hs2

end Sys2Proof.Machine
end

