-- ==== Sys2Proof/Laws/FramesReads.lean ====
section
/-!
SUPPORT. Footprints of the operations of Machine/Reads.lean.
-/
namespace Sys2Proof.Machine
set_option Elab.async false

theorem State.onSeat_only (s : State) (k : Nat) (f : SeatRun → SeatRun) :
    OnlyChanges [.seats] s (State.onSeat s k f) := by
  unfold State.onSeat
  refine .step (set_seats_only _ _) rfl ?_
  exact .refl _ _

end Sys2Proof.Machine
end

