-- ==== Sys2Proof/Laws/FramesCommit.lean ====
section
/-!
SUPPORT. Footprints of the operations of Machine/Commit.lean.
-/
namespace Sys2Proof.Machine
set_option Elab.async false

theorem State.feedSwapped_only (s : State) (z : Nat) :
    OnlyChanges [.feeds] s (State.feedSwapped s z) := by
  unfold State.feedSwapped
  refine .step (State.thrUpdate_only _ _) rfl ?_
  refine .step (State.onFeed_only _ _ _) rfl ?_
  exact .refl _ _

theorem State.swapBanks_only (s : State) (ids : List Nat) :
    OnlyChanges [.active, .staged] s (State.swapBanks s ids) := by
  unfold State.swapBanks
  extract_lets _ _
  refine .step (set_active_staged_only _ _ _) rfl ?_
  exact .refl _ _

theorem State.channelSwapped_only (s : State) (c : Nat) (old : ChannelBank) :
    OnlyChanges [.chans, .draws] s (State.channelSwapped s c old) := by
  unfold State.channelSwapped
  extract_lets _ s1
  have hs1 : OnlyChanges [.chans, .draws] s s1 := by
    unfold s1
    refine .ite ?_ ?_
    · refine .step (State.onChan_only _ _ _) rfl ?_
      exact .refl _ _
    · exact .refl _ _
  clear_value s1
  refine .ite ?_ ?_
  · refine .step (State.assignLanes_only _ _) rfl ?_
    exact hs1
  · refine .step (State.onChan_only _ _ _) rfl ?_
    exact hs1

theorem State.groupSwapped_only (s : State) (g : Nat) :
    OnlyChanges [.groups] s (State.groupSwapped s g) := by
  unfold State.groupSwapped
  refine .step (State.onGroup_only _ _ _) rfl ?_
  exact .refl _ _

theorem State.portSwapped_only (s : State) (p : Nat) (old : PortBank) :
    OnlyChanges [.chans, .ports, .shelf, .working] s (State.portSwapped s p old) := by
  unfold State.portSwapped
  extract_lets s1 _ s2
  have hs1 : OnlyChanges [.chans, .ports, .shelf, .working] s s1 := by
    unfold s1
    refine .step (State.onPort_only _ _ _) rfl ?_
    exact .refl _ _
  clear_value s1
  have hs2 : OnlyChanges [.chans, .ports, .shelf, .working] s s2 := by
    unfold s2
    refine .step (set_working_only _ _) rfl ?_
    exact hs1
  clear_value s2
  refine .ite ?_ ?_
  · exact .refl _ _
  · refine .ite ?_ ?_
    · exact hs2
    · refine .step (State.enterTraining_only _ _ _) rfl ?_
      exact hs2

theorem State.ironSwapped_only (s : State) (i : Nat) (old : IronBank) :
    OnlyChanges [.irons, .flat] s (State.ironSwapped s i old) := by
  unfold State.ironSwapped
  extract_lets _ _ _ _ _ s1 _ s2
  have hs1 : OnlyChanges [.irons, .flat] s s1 := by
    unfold s1
    refine .ite ?_ ?_
    · refine .step (set_flat_only _ _) rfl ?_
      exact .refl _ _
    · exact .refl _ _
  clear_value s1
  have hs2 : OnlyChanges [.irons, .flat] s s2 := by
    unfold s2
    refine .ite ?_ ?_
    · refine .step (set_flat_only _ _) rfl ?_
      exact hs1
    · exact hs1
  clear_value s2
  refine .step (State.onIron_only _ _ _) rfl ?_
  exact hs2

theorem State.blockSwapped_only (old : Banks) (s : State) (id : Nat) :
    OnlyChanges [.chans, .groups, .ports, .irons, .flat, .shelf, .feeds, .working, .draws] s (State.blockSwapped old s id) := by
  unfold State.blockSwapped
  extract_lets _
  split
  · refine .step (State.channelSwapped_only _ _ _) rfl ?_
    exact .refl _ _
  · refine .step (State.groupSwapped_only _ _) rfl ?_
    exact .refl _ _
  · refine .step (State.portSwapped_only _ _ _) rfl ?_
    exact .refl _ _
  · refine .step (State.feedSwapped_only _ _) rfl ?_
    exact .refl _ _
  · refine .step (State.ironSwapped_only _ _ _) rfl ?_
    exact .refl _ _
  · exact .refl _ _

theorem State.swapBlocks_only (s : State) (ids : List Nat) (host : Bool) :
    OnlyChanges [.active, .staged, .chans, .groups, .ports, .irons, .flat, .shelf, .feeds, .working, .commits, .draws] s (State.swapBlocks s ids host) := by
  unfold State.swapBlocks
  extract_lets _ s1 _ s2 s3 s4
  have hs1 : OnlyChanges [.active, .staged, .chans, .groups, .ports, .irons, .flat, .shelf, .feeds, .working, .commits, .draws] s s1 := by
    unfold s1
    refine .step (State.swapBanks_only _ _) rfl ?_
    exact .refl _ _
  clear_value s1
  have hs2 : OnlyChanges [.active, .staged, .chans, .groups, .ports, .irons, .flat, .shelf, .feeds, .working, .commits, .draws] s s2 := by
    unfold s2
    refine .foldl (fun u5 _ => ?_) ?_
    · refine .step (State.blockSwapped_only _ _ _) rfl ?_
      exact .refl _ _
    · exact hs1
  clear_value s2
  have hs3 : OnlyChanges [.active, .staged, .chans, .groups, .ports, .irons, .flat, .shelf, .feeds, .working, .commits, .draws] s s3 := by
    unfold s3
    refine .foldl (fun u6 _ => ?_) ?_
    · refine .step (State.deliverParams_only _ _) rfl ?_
      exact .refl _ _
    · exact hs2
  clear_value s3
  have hs4 : OnlyChanges [.active, .staged, .chans, .groups, .ports, .irons, .flat, .shelf, .feeds, .working, .commits, .draws] s s4 := by
    unfold s4
    refine .foldl (fun u7 _ => ?_) ?_
    · refine .step (State.deliverInc_only _ _) rfl ?_
      exact .refl _ _
    · exact hs3
  clear_value s4
  refine .step (State.holdDerates_only _) rfl ?_
  refine .step (State.recomputeD_only _) rfl ?_
  exact hs4

theorem State.commitShow_only (s : State) (l : CommitList) (result : Nat) (reason : Nat) (failed : Nat) :
    OnlyChanges [.seats] s (State.commitShow s l result reason failed) := by
  unfold State.commitShow
  refine .step (State.onSeat_only _ _ _) rfl ?_
  exact .refl _ _

theorem State.commitEvent_only (s : State) (l : CommitList) (result : Nat) (reason : Nat) :
    OnlyChanges [.score] s (State.commitEvent s l result reason) := by
  unfold State.commitEvent
  extract_lets _
  refine .step (State.blockEvent_only _ _ _ _ _) rfl ?_
  exact .refl _ _

theorem State.commitReceive_only (s : State) (seat : Nat) (bs : List Byte) :
    OnlyChanges [.seats, .commits] s (State.commitReceive s seat bs) := by
  unfold State.commitReceive
  extract_lets s1 _
  have hs1 : OnlyChanges [.seats, .commits] s s1 := by
    unfold s1
    refine .step (State.onSeat_only _ _ _) rfl ?_
    exact .refl _ _
  clear_value s1
  refine .step (set_commits_only _ _) rfl ?_
  exact hs1

theorem State.commitProcess_only (s : State) :
    OnlyChanges [.score, .seats, .commits] s (State.commitProcess s) := by
  unfold State.commitProcess
  split
  · extract_lets _ s1 f2 s3 _
    have hs1 : OnlyChanges [.score, .seats, .commits] s s1 := by
      unfold s1
      refine .step (set_commits_only _ _) rfl ?_
      exact .refl _ _
    clear_value s1
    have hs3 : OnlyChanges [.score, .seats, .commits] s s3 := by
      unfold s3
      refine .step (State.commitShow_only _ _ _ _ _) rfl ?_
      exact hs1
    clear_value s3
    split
    · unfold f2
      refine .step (State.commitEvent_only _ _ _ _) rfl ?_
      refine .step (State.commitShow_only _ _ _ _ _) rfl ?_
      exact hs1
    · extract_lets _
      split
      · unfold f2
        refine .step (State.commitEvent_only _ _ _ _) rfl ?_
        refine .step (State.commitShow_only _ _ _ _ _) rfl ?_
        exact hs1
      · refine .step (set_commits_only _ _) rfl ?_
        exact hs3
  · exact .refl _ _

theorem State.releaseHeld_only (s : State) :
    OnlyChanges [.staged, .score, .commits] s (State.releaseHeld s) := by
  unfold State.releaseHeld
  extract_lets s1 _
  have hs1 : OnlyChanges [.staged, .score, .commits] s s1 := by
    unfold s1
    refine .foldl (fun u2 _ => ?_) ?_
    · split
      · extract_lets _
        refine .step (State.changeAt_only _ _ _ _ _ _ _ _) rfl ?_
        refine .step (set_staged_only _ _) rfl ?_
        exact .refl _ _
      · exact .refl _ _
    · exact .refl _ _
  clear_value s1
  refine .step (set_commits_only _ _) rfl ?_
  exact hs1

theorem State.releaseStarts_only (s : State) :
    OnlyChanges [.groups] s (State.releaseStarts s) := by
  unfold State.releaseStarts
  refine .foldl (fun u1 _ => ?_) ?_
  · refine .step (State.onGroup_only _ _ _) rfl ?_
    exact .refl _ _
  · exact .refl _ _

theorem State.commitSwap_only (s : State) :
    OnlyChanges [.active, .staged, .chans, .groups, .ports, .irons, .flat, .shelf, .feeds, .score, .boot, .working, .seats, .commits, .draws] s (State.commitSwap s) := by
  unfold State.commitSwap
  split
  · exact .refl _ _
  · extract_lets s1 _ _ s2 s3
    have hs1 : OnlyChanges [.active, .staged, .chans, .groups, .ports, .irons, .flat, .shelf, .feeds, .score, .boot, .working, .seats, .commits, .draws] s s1 := by
      unfold s1
      refine .step (State.swapBlocks_only _ _ _) rfl ?_
      exact .refl _ _
    clear_value s1
    have hs2 : OnlyChanges [.active, .staged, .chans, .groups, .ports, .irons, .flat, .shelf, .feeds, .score, .boot, .working, .seats, .commits, .draws] s s2 := by
      unfold s2
      refine .step (set_boot_commits_only _ _ _) rfl ?_
      exact hs1
    clear_value s2
    have hs3 : OnlyChanges [.active, .staged, .chans, .groups, .ports, .irons, .flat, .shelf, .feeds, .score, .boot, .working, .seats, .commits, .draws] s s3 := by
      unfold s3
      refine .step (State.releaseStarts_only _) rfl ?_
      refine .step (State.releaseHeld_only _) rfl ?_
      exact hs2
    clear_value s3
    refine .ite ?_ ?_
    · exact .refl _ _
    · refine .step (State.commitEvent_only _ _ _ _) rfl ?_
      refine .step (State.commitShow_only _ _ _ _ _) rfl ?_
      exact hs3

theorem State.settingTaken_only (s : State) (old : Settings) (x : Obj) :
    OnlyChanges [.tb, .dets, .tws, .sensors, .lint] s (State.settingTaken s old x) := by
  unfold State.settingTaken
  split
  · refine .step (State.timebaseChange_only _ _) rfl ?_
    exact .refl _ _
  · refine .step (State.detectorEnable_only _ _) rfl ?_
    exact .refl _ _
  · refine .step (State.twEnable_only _ _) rfl ?_
    exact .refl _ _
  · refine .step (State.sensorSet_only _ _ _) rfl ?_
    exact .refl _ _
  · exact .refl _ _

theorem State.takeSetting_only (s : State) (w : Waiting) :
    OnlyChanges [.tb, .active, .staged, .cfg, .dets, .tws, .sensors, .lint] s (State.takeSetting s w) := by
  unfold State.takeSetting
  split
  · exact .refl _ _
  · extract_lets _
    refine .ite ?_ ?_
    · refine .step (set_active_staged_only _ _ _) rfl ?_
      exact .refl _ _
    · refine .ite ?_ ?_
      · refine .step (set_cfg_only _ _) rfl ?_
        exact .refl _ _
      · refine .step (State.settingTaken_only _ _ _) rfl ?_
        refine .step (set_cfg_only _ _) rfl ?_
        exact .refl _ _

theorem State.marksTake_only (s : State) :
    OnlyChanges [.tb, .active, .staged, .cfg, .chans, .ports, .dets, .shelf, .tws, .sensors, .lint, .commits] s (State.marksTake s) := by
  unfold State.marksTake
  extract_lets _ _ s1 s2
  have hs1 : OnlyChanges [.tb, .active, .staged, .cfg, .chans, .ports, .dets, .shelf, .tws, .sensors, .lint, .commits] s s1 := by
    unfold s1
    refine .step (set_commits_only _ _) rfl ?_
    exact .refl _ _
  clear_value s1
  have hs2 : OnlyChanges [.tb, .active, .staged, .cfg, .chans, .ports, .dets, .shelf, .tws, .sensors, .lint, .commits] s s2 := by
    unfold s2
    refine .foldl (fun u3 _ => ?_) ?_
    · refine .step (State.takeSetting_only _ _) rfl ?_
      exact .refl _ _
    · exact hs1
  clear_value s2
  refine .step (State.lossEdge_only _) rfl ?_
  refine .ite ?_ ?_
  · refine .foldl (fun u4 _ => ?_) ?_
    · refine .step (State.deliverParams_only _ _) rfl ?_
      exact .refl _ _
    · exact hs2
  · exact hs2

theorem State.tapsTake_only (s : State) :
    OnlyChanges [.tb, .active, .staged, .cfg, .dets, .tws, .sensors, .lint, .commits] s (State.tapsTake s) := by
  unfold State.tapsTake
  extract_lets f1 _ _ s2
  have hs2 : OnlyChanges [.tb, .active, .staged, .cfg, .dets, .tws, .sensors, .lint, .commits] s s2 := by
    unfold s2
    refine .step (set_commits_only _ _) rfl ?_
    exact .refl _ _
  clear_value s2
  refine .foldl (fun u3 _ => ?_) ?_
  · refine .step (State.takeSetting_only _ _) rfl ?_
    exact .refl _ _
  · exact hs2

theorem State.immediatesTake_only (s : State) :
    OnlyChanges [.active, .models, .commits] s (State.immediatesTake s) := by
  unfold State.immediatesTake
  extract_lets _ _ s1
  have hs1 : OnlyChanges [.active, .models, .commits] s s1 := by
    unfold s1
    refine .step (set_commits_only _ _) rfl ?_
    exact .refl _ _
  clear_value s1
  refine .foldl (fun u2 _ => ?_) ?_
  · split
    · extract_lets s3
      have hs3 : OnlyChanges [.active, .models, .commits] u2 s3 := by
        unfold s3
        refine .step (set_active_only _ _) rfl ?_
        exact .refl _ _
      clear_value s3
      refine .ite ?_ ?_
      · refine .step (State.onModel_only _ _ _) rfl ?_
        exact hs3
      · exact hs3
    · exact .refl _ _
  · exact hs1

end Sys2Proof.Machine
end

