-- ==== Sys2Proof/Laws/FramesSeats.lean ====
section
/-!
SUPPORT. Footprints of the operations of Machine/Seats.lean.
-/
namespace Sys2Proof.Machine
set_option Elab.async false

theorem State.neutralise_only (s : State) (x : Obj) :
    OnlyChanges [.cfg, .score, .commits] s (State.neutralise s x) := by
  unfold State.neutralise
  extract_lets _ _ _ _ s1
  have hs1 : OnlyChanges [.cfg, .score, .commits] s s1 := by
    unfold s1
    refine .step (set_cfg_commits_only _ _ _) rfl ?_
    exact .refl _ _
  clear_value s1
  refine .step (State.changeAlone_only _ _ _ _ _ _) rfl ?_
  exact hs1

theorem State.onTt_only (s : State) (t : Nat) (f : TargetRun → TargetRun) :
    OnlyChanges [.tts] s (State.onTt s t f) := by
  unfold State.onTt
  refine .step (set_tts_only _ _) rfl ?_
  exact .refl _ _

theorem State.ttQuiet_only (s : State) :
    OnlyChanges [.tts] s (State.ttQuiet s) := by
  unfold State.ttQuiet
  refine .foldl (fun u1 _ => ?_) ?_
  · refine .ite ?_ ?_
    · refine .step (State.onTt_only _ _ _) rfl ?_
      exact .refl _ _
    · exact .refl _ _
  · exact .refl _ _

theorem State.closeSeat_only (s : State) (k : Nat) (cause : Nat) (origin : List Byte) :
    OnlyChanges [.cfg, .score, .seats, .tts, .commits] s (State.closeSeat s k cause origin) := by
  unfold State.closeSeat
  extract_lets _ s1 s2 s3
  have hs1 : OnlyChanges [.cfg, .score, .seats, .tts, .commits] s s1 := by
    unfold s1
    refine .foldl (fun u4 _ => ?_) ?_
    · refine .step (State.neutralise_only _ _) rfl ?_
      exact .refl _ _
    · exact .refl _ _
  clear_value s1
  have hs2 : OnlyChanges [.cfg, .score, .seats, .tts, .commits] s s2 := by
    unfold s2
    refine .step (set_tts_only _ _) rfl ?_
    exact hs1
  clear_value s2
  have hs3 : OnlyChanges [.cfg, .score, .seats, .tts, .commits] s s3 := by
    unfold s3
    refine .step (State.onSeat_only _ _ _) rfl ?_
    exact hs2
  clear_value s3
  refine .step (State.change_only _ _ _ _ _ _) rfl ?_
  refine .step (State.ttQuiet_only _) rfl ?_
  exact hs3

theorem State.closeBench_only (s : State) :
    OnlyChanges [.cfg, .score, .seats, .tts, .commits] s (State.closeBench s) := by
  unfold State.closeBench
  refine .foldl (fun u1 _ => ?_) ?_
  · refine .ite ?_ ?_
    · refine .step (State.closeSeat_only _ _ _ _) rfl ?_
      exact .refl _ _
    · exact .refl _ _
  · exact .refl _ _

theorem State.orphanSeat_only (s : State) (k : Nat) :
    OnlyChanges [.seats] s (State.orphanSeat s k) := by
  unfold State.orphanSeat
  refine .step (State.onSeat_only _ _ _) rfl ?_
  exact .refl _ _

theorem State.closeTransport_only (s : State) (code : Nat) (port : Nat) :
    OnlyChanges [.cfg, .score, .seats, .tts, .commits] s (State.closeTransport s code port) := by
  unfold State.closeTransport
  refine .foldl (fun u1 _ => ?_) ?_
  · extract_lets _
    refine .ite ?_ ?_
    · refine .step (State.closeSeat_only _ _ _ _) rfl ?_
      exact .refl _ _
    · exact .refl _ _
  · exact .refl _ _

theorem State.queueNotice_only (s : State) (k : Nat) (sub : Subscription) (ended : Bool) (data : List Byte) :
    OnlyChanges [.seats] s (State.queueNotice s k sub ended data) := by
  unfold State.queueNotice
  refine .step (State.onSeat_only _ _ _) rfl ?_
  exact .refl _ _

theorem State.popNotice_only (s : State) (k : Nat) :
    OnlyChanges [.seats] s (State.popNotice s k).1 := by
  unfold State.popNotice
  extract_lets _
  split
  · dsimp only
    exact .refl _ _
  · dsimp only
    refine .step (State.onSeat_only _ _ _) rfl ?_
    exact .refl _ _

theorem State.popNotice_to {s : State} {k : Nat} {t : State} {y} (e : (State.popNotice s k) = (t, y)) : OnlyChanges [.seats] s t := by
  have h := State.popNotice_only s k
  rw [e] at h; exact h

theorem State.drainNotices_only (s : State) (k n : Nat) : OnlyChanges [.sent, .seats] s (s.drainNotices k n) := by
  induction n generalizing s with
  | zero => exact .refl _ _
  | succ n ih =>
    unfold State.drainNotices
    extract_lets r
    refine .ite (.refl _ _) ?_
    split
    · refine .trans (b := { ‹State› with out := _ }) ?_ (ih _)
      exact .step (set_out_only _ _) rfl ((State.popNotice_to (by assumption)).mono rfl)
    · exact (State.popNotice_to (by assumption)).mono rfl

theorem State.endSubscription_only (s : State) (k : Nat) (x : Subscription) :
    OnlyChanges [.sent, .seats] s (State.endSubscription s k x) := by
  unfold State.endSubscription
  extract_lets s1
  have hs1 : OnlyChanges [.sent, .seats] s s1 := by
    unfold s1
    refine .step (State.queueNotice_only _ _ _ _ _) rfl ?_
    exact .refl _ _
  clear_value s1
  refine .step (State.drainNotices_only _ _ _) rfl ?_
  refine .step (State.onSeat_only _ _ _) rfl ?_
  exact hs1

theorem State.endUnread_only (s : State) :
    OnlyChanges [.sent, .seats] s (State.endUnread s) := by
  unfold State.endUnread
  refine .foldl (fun u1 _ => ?_) ?_
  · refine .foldl (fun u2 _ => ?_) ?_
    · refine .step (State.endSubscription_only _ _ _) rfl ?_
      exact .refl _ _
    · exact .refl _ _
  · exact .refl _ _

theorem State.ungrant_only (s : State) (k : Nat) (index : Nat) (subs : List Nat) :
    OnlyChanges [.seats] s (State.ungrant s k index subs) := by
  unfold State.ungrant
  refine .step (State.onSeat_only _ _ _) rfl ?_
  exact .refl _ _

theorem State.grant_only (s : State) (k : Nat) (index : Nat) (subs : List Nat) :
    OnlyChanges [.seats] s (State.grant s k index subs) := by
  unfold State.grant
  extract_lets s1
  have hs1 : OnlyChanges [.seats] s s1 := by
    unfold s1
    refine .step (set_seats_only _ _) rfl ?_
    exact .refl _ _
  clear_value s1
  refine .step (State.onSeat_only _ _ _) rfl ?_
  exact hs1

theorem State.notify_only (s : State) (k : Nat) (sub : Subscription) :
    OnlyChanges [.seats] s (State.notify s k sub) := by
  unfold State.notify
  extract_lets _
  refine .step (State.onSeat_only _ _ _) rfl ?_
  refine .step (State.queueNotice_only _ _ _ _ _) rfl ?_
  exact .refl _ _

theorem State.openSeat_only (s : State) (k : Nat) (cls : Nat) (lease : Nat) (h : HostId) :
    OnlyChanges [.cfg, .score, .seats, .tts, .commits, .draws] s (State.openSeat s k cls lease h) := by
  unfold State.openSeat
  extract_lets s1 _ _ _ s2 s3
  have hs1 : OnlyChanges [.cfg, .score, .seats, .tts, .commits, .draws] s s1 := by
    unfold s1
    refine .ite ?_ ?_
    · refine .step (State.closeSeat_only _ _ _ _) rfl ?_
      exact .refl _ _
    · exact .refl _ _
  clear_value s1
  have hs2 : OnlyChanges [.cfg, .score, .seats, .tts, .commits, .draws] s s2 := by
    unfold s2
    refine .step (State.onSeat_only _ _ _) rfl ?_
    exact hs1
  clear_value s2
  have hs3 : OnlyChanges [.cfg, .score, .seats, .tts, .commits, .draws] s s3 := by
    unfold s3
    refine .step (set_draws_only _ _) rfl ?_
    exact hs2
  clear_value s3
  refine .step (State.change_only _ _ _ _ _ _) rfl ?_
  exact hs3

theorem State.seatExpire_only (s : State) (k : Nat) :
    OnlyChanges [.cfg, .score, .seats, .tts, .commits] s (State.seatExpire s k) := by
  unfold State.seatExpire
  refine .ite ?_ ?_
  · refine .step (State.closeSeat_only _ _ _ _) rfl ?_
    exact .refl _ _
  · exact .refl _ _

theorem State.orphanExpire_only (s : State) (k : Nat) :
    OnlyChanges [.cfg, .score, .seats, .tts, .commits] s (State.orphanExpire s k) := by
  unfold State.orphanExpire
  refine .ite ?_ ?_
  · refine .step (State.closeSeat_only _ _ _ _) rfl ?_
    exact .refl _ _
  · exact .refl _ _

theorem State.notifyPeriodic_only (s : State) (k : Nat) (num : Nat) (drain : Nat) :
    OnlyChanges [.sent, .seats] s (State.notifyPeriodic s k num drain) := by
  unfold State.notifyPeriodic
  split
  · refine .ite ?_ ?_
    · refine .step (State.drainNotices_only _ _ _) rfl ?_
      refine .step (State.notify_only _ _ _) rfl ?_
      exact .refl _ _
    · refine .step (State.drainNotices_only _ _ _) rfl ?_
      exact .refl _ _
  · refine .step (State.drainNotices_only _ _ _) rfl ?_
    exact .refl _ _

theorem State.notifyChange_only (s : State) (k : Nat) (num : Nat) (drain : Nat) :
    OnlyChanges [.sent, .seats] s (State.notifyChange s k num drain) := by
  unfold State.notifyChange
  split
  · refine .ite ?_ ?_
    · refine .step (State.drainNotices_only _ _ _) rfl ?_
      refine .step (State.notify_only _ _ _) rfl ?_
      exact .refl _ _
    · refine .step (State.drainNotices_only _ _ _) rfl ?_
      exact .refl _ _
  · refine .step (State.drainNotices_only _ _ _) rfl ?_
    exact .refl _ _

end Sys2Proof.Machine
end

