-- ==== Sys2Proof/Laws/FramesBoot.lean ====
section
/-!
SUPPORT. Footprints of the operations of Machine/Boot.lean.
-/
namespace Sys2Proof.Machine
set_option Elab.async false

theorem State.onBoot_only (s : State) (f : BootRun → BootRun) :
    OnlyChanges [.boot] s (State.onBoot s f) := by
  unfold State.onBoot
  refine .step (set_boot_only _ _) rfl ?_
  exact .refl _ _

theorem State.running_only {qs : List Part} {a s : State} {f : State → State} (hf : ∀ u, OnlyChanges qs u (f u))
    (h : OnlyChanges qs a s) : OnlyChanges qs a (s.running f) := by
  unfold State.running
  split
  · exact h
  · exact h.trans (hf s)

theorem State.withFirmware_only {qs : List Part} {a s : State} {f : State → State} (hf : ∀ u, OnlyChanges qs u (f u))
    (h : OnlyChanges qs a s) : OnlyChanges qs a (s.withFirmware f) := by
  unfold State.withFirmware
  split
  · exact h.trans (hf s)
  · exact h

theorem State.bootEvent_only (s : State) (event : Nat) (slot : Nat) :
    OnlyChanges [.score] s (State.bootEvent s event slot) := by
  unfold State.bootEvent
  extract_lets _ _
  refine .step (State.record_only _ _ _) rfl ?_
  exact .refl _ _

theorem State.requestGroup_only (s : State) (g : Nat) :
    OnlyChanges [.groups] s (State.requestGroup s g) := by
  unfold State.requestGroup
  refine .ite ?_ ?_
  · exact .refl _ _
  · refine .ite ?_ ?_
    · refine .step (State.onGroup_only _ _ _) rfl ?_
      exact .refl _ _
    · refine .step (State.onGroup_only _ _ _) rfl ?_
      exact .refl _ _

theorem State.requestFeed_only (s : State) (z : Nat) :
    OnlyChanges [.feeds] s (State.requestFeed s z) := by
  unfold State.requestFeed
  refine .ite ?_ ?_
  · exact .refl _ _
  · refine .ite ?_ ?_
    · refine .step (State.onFeed_only _ _ _) rfl ?_
      exact .refl _ _
    · refine .ite ?_ ?_
      · exact .refl _ _
      · refine .step (State.onFeed_only _ _ _) rfl ?_
        exact .refl _ _

theorem State.requestUp_only (s : State) (k : Nat) :
    OnlyChanges [.orders] s (State.requestUp s k) := by
  unfold State.requestUp
  refine .ite ?_ ?_
  · exact .refl _ _
  · refine .step (State.onOrder_only _ _ _) rfl ?_
    exact .refl _ _

theorem State.resumeMarks_only (s : State) :
    OnlyChanges [.groups] s (State.resumeMarks s) := by
  unfold State.resumeMarks
  refine .foldl (fun u1 _ => ?_) ?_
  · refine .ite ?_ ?_
    · refine .step (State.onGroup_only _ _ _) rfl ?_
      refine .step (State.requestGroup_only _ _) rfl ?_
      exact .refl _ _
    · exact .refl _ _
  · exact .refl _ _

theorem State.safeCapture_only (s : State) :
    OnlyChanges [.safeSet] s (State.safeCapture s) := by
  unfold State.safeCapture
  extract_lets _ _ _
  refine .step (set_safeSet_only _ _) rfl ?_
  exact .refl _ _

theorem State.safeDone_only (s : State) :
    OnlyChanges [.safeSet] s (State.safeDone s) := by
  unfold State.safeDone
  split
  · exact .refl _ _
  · refine .step (set_safeSet_only _ _) rfl ?_
    exact .refl _ _

theorem State.loadSettings_only (s : State) (c : Settings) :
    OnlyChanges [.tb, .cfg, .dets, .lint] s (State.loadSettings s c) := by
  unfold State.loadSettings
  extract_lets _ s1 s2
  have hs1 : OnlyChanges [.tb, .cfg, .dets, .lint] s s1 := by
    unfold s1
    refine .step (set_cfg_only _ _) rfl ?_
    exact .refl _ _
  clear_value s1
  have hs2 : OnlyChanges [.tb, .cfg, .dets, .lint] s s2 := by
    unfold s2
    refine .foldl (fun u3 _ => ?_) ?_
    · refine .step (State.detectorEnable_only _ _) rfl ?_
      exact .refl _ _
    · exact hs1
  clear_value s2
  refine .step (State.timebaseChange_only _ _) rfl ?_
  exact hs2

theorem State.linksStart_only (s : State) :
    OnlyChanges [.chans, .ports, .shelf] s (State.linksStart s) := by
  unfold State.linksStart
  refine .foldl (fun u1 _ => ?_) ?_
  · refine .step (State.trainDown_only _ _) rfl ?_
    exact .refl _ _
  · exact .refl _ _

theorem State.hardwareStart_only (s : State) :
    OnlyChanges [.tb, .active, .staged, .cfg, .chans, .groups, .ports, .dets, .shelf, .feeds, .orders, .seq, .lint, .score, .commits, .hardwareRun, .draws] s (State.hardwareStart s) := by
  unfold State.hardwareStart
  split
  · exact .refl _ _
  · extract_lets _ s1 _ s2 s3 s4 s5 s6 s7 s8 s9
    have hs1 : OnlyChanges [.tb, .active, .staged, .cfg, .chans, .groups, .ports, .dets, .shelf, .feeds, .orders, .seq, .lint, .score, .commits, .hardwareRun, .draws] s s1 := by
      unfold s1
      refine .step (set_active_staged_seq_hardwareRun_only _ _ _ _ _) rfl ?_
      exact .refl _ _
    clear_value s1
    have hs2 : OnlyChanges [.tb, .active, .staged, .cfg, .chans, .groups, .ports, .dets, .shelf, .feeds, .orders, .seq, .lint, .score, .commits, .hardwareRun, .draws] s s2 := by
      unfold s2
      refine .step (State.onShelf_only _ _) rfl ?_
      refine .step (State.loadSettings_only _ _) rfl ?_
      exact hs1
    clear_value s2
    have hs3 : OnlyChanges [.tb, .active, .staged, .cfg, .chans, .groups, .ports, .dets, .shelf, .feeds, .orders, .seq, .lint, .score, .commits, .hardwareRun, .draws] s s3 := by
      unfold s3
      refine .step (State.assignLanes_only _ _) rfl ?_
      exact hs2
    clear_value s3
    have hs4 : OnlyChanges [.tb, .active, .staged, .cfg, .chans, .groups, .ports, .dets, .shelf, .feeds, .orders, .seq, .lint, .score, .commits, .hardwareRun, .draws] s s4 := by
      unfold s4
      refine .foldl (fun u10 _ => ?_) ?_
      · refine .step (State.feedSwapped_only _ _) rfl ?_
        exact .refl _ _
      · exact hs3
    clear_value s4
    have hs5 : OnlyChanges [.tb, .active, .staged, .cfg, .chans, .groups, .ports, .dets, .shelf, .feeds, .orders, .seq, .lint, .score, .commits, .hardwareRun, .draws] s s5 := by
      unfold s5
      refine .foldl (fun u11 _ => ?_) ?_
      · refine .step (State.deliverInc_only _ _) rfl ?_
        exact .refl _ _
      · exact hs4
    clear_value s5
    have hs6 : OnlyChanges [.tb, .active, .staged, .cfg, .chans, .groups, .ports, .dets, .shelf, .feeds, .orders, .seq, .lint, .score, .commits, .hardwareRun, .draws] s s6 := by
      unfold s6
      refine .step (State.holdDerates_only _) rfl ?_
      refine .step (State.recomputeD_only _) rfl ?_
      exact hs5
    clear_value s6
    have hs7 : OnlyChanges [.tb, .active, .staged, .cfg, .chans, .groups, .ports, .dets, .shelf, .feeds, .orders, .seq, .lint, .score, .commits, .hardwareRun, .draws] s s7 := by
      unfold s7
      refine .foldl (fun u12 _ => ?_) ?_
      · refine .step (State.requestGroup_only _ _) rfl ?_
        exact .refl _ _
      · exact hs6
    clear_value s7
    have hs8 : OnlyChanges [.tb, .active, .staged, .cfg, .chans, .groups, .ports, .dets, .shelf, .feeds, .orders, .seq, .lint, .score, .commits, .hardwareRun, .draws] s s8 := by
      unfold s8
      refine .foldl (fun u13 _ => ?_) ?_
      · refine .step (State.requestFeed_only _ _) rfl ?_
        exact .refl _ _
      · exact hs7
    clear_value s8
    have hs9 : OnlyChanges [.tb, .active, .staged, .cfg, .chans, .groups, .ports, .dets, .shelf, .feeds, .orders, .seq, .lint, .score, .commits, .hardwareRun, .draws] s s9 := by
      unfold s9
      refine .foldl (fun u14 _ => ?_) ?_
      · refine .step (State.requestUp_only _ _) rfl ?_
        exact .refl _ _
      · exact hs8
    clear_value s9
    refine .step (State.bootEvent_only _ _ _) rfl ?_
    refine .step (State.linksStart_only _) rfl ?_
    refine .step (State.resumeMarks_only _) rfl ?_
    exact hs9

theorem State.loadWorking_only (s : State) :
    OnlyChanges [.tb, .active, .staged, .cfg, .chans, .groups, .ports, .irons, .flat, .dets, .shelf, .feeds, .lint, .boot, .working, .commits, .draws] s (State.loadWorking s) := by
  unfold State.loadWorking
  extract_lets _ s1 _ _ _ _ s2 s3 _ s4 s5
  have hs1 : OnlyChanges [.tb, .active, .staged, .cfg, .chans, .groups, .ports, .irons, .flat, .dets, .shelf, .feeds, .lint, .boot, .working, .commits, .draws] s s1 := by
    unfold s1
    refine .step (State.loadSettings_only _ _) rfl ?_
    exact .refl _ _
  clear_value s1
  have hs2 : OnlyChanges [.tb, .active, .staged, .cfg, .chans, .groups, .ports, .irons, .flat, .dets, .shelf, .feeds, .lint, .boot, .working, .commits, .draws] s s2 := by
    unfold s2
    refine .step (set_staged_only _ _) rfl ?_
    exact hs1
  clear_value s2
  have hs3 : OnlyChanges [.tb, .active, .staged, .cfg, .chans, .groups, .ports, .irons, .flat, .dets, .shelf, .feeds, .lint, .boot, .working, .commits, .draws] s s3 := by
    unfold s3
    refine .step (State.swapBlocks_only _ _ _) rfl ?_
    exact hs2
  clear_value s3
  have hs4 : OnlyChanges [.tb, .active, .staged, .cfg, .chans, .groups, .ports, .irons, .flat, .dets, .shelf, .feeds, .lint, .boot, .working, .commits, .draws] s s4 := by
    unfold s4
    refine .step (set_staged_boot_only _ _ _) rfl ?_
    exact hs3
  clear_value s4
  have hs5 : OnlyChanges [.tb, .active, .staged, .cfg, .chans, .groups, .ports, .irons, .flat, .dets, .shelf, .feeds, .lint, .boot, .working, .commits, .draws] s s5 := by
    unfold s5
    refine .foldl (fun u6 _ => ?_) ?_
    · refine .step (State.detect_only _ _ _) rfl ?_
      refine .step (State.onGroup_only _ _ _) rfl ?_
      exact .refl _ _
    · exact hs4
  clear_value s5
  refine .step (State.detectIf_only _ _ _ _) rfl ?_
  exact hs5

theorem State.saveWorking_only (s : State) :
    OnlyChanges [.working] s (State.saveWorking s) := by
  unfold State.saveWorking
  extract_lets _ _
  refine .ite ?_ ?_
  · exact .refl _ _
  · refine .step (set_working_only _ _) rfl ?_
    exact .refl _ _

theorem State.cutRecord_only (s : State) (n : Nat) :
    OnlyChanges [.score] s (State.cutRecord s n) := by
  unfold State.cutRecord
  extract_lets _ _
  refine .ite ?_ ?_
  · refine .step (set_score_only _ _) rfl ?_
    exact .refl _ _
  · refine .step (State.recordsWritten_only _) rfl ?_
    exact .refl _ _

theorem State.powerFail_only (s : State) (cut : Option Nat) :
    OnlyChanges [.groups, .strings, .lint, .score] s (State.powerFail s cut) := by
  unfold State.powerFail
  extract_lets s1 s2 s3 _ s4 s5 _
  have hs1 : OnlyChanges [.groups, .strings, .lint, .score] s s1 := by
    unfold s1
    split
    · refine .step (State.cutRecord_only _ _) rfl ?_
      exact .refl _ _
    · refine .step (State.recordsWritten_only _) rfl ?_
      exact .refl _ _
  clear_value s1
  have hs2 : OnlyChanges [.groups, .strings, .lint, .score] s s2 := by
    unfold s2
    refine .step (State.detect_only _ _ _) rfl ?_
    exact hs1
  clear_value s2
  have hs3 : OnlyChanges [.groups, .strings, .lint, .score] s s3 := by
    unfold s3
    refine .ite ?_ ?_
    · refine .step (State.checkpointAll_only _) rfl ?_
      exact hs2
    · exact hs2
  clear_value s3
  have hs4 : OnlyChanges [.groups, .strings, .lint, .score] s s4 := by
    unfold s4
    refine .foldl (fun u6 _ => ?_) ?_
    · refine .step (State.detect_only _ _ _) rfl ?_
      refine .step (State.onCapture_only _ _ _) rfl ?_
      exact .refl _ _
    · exact hs3
  clear_value s4
  have hs5 : OnlyChanges [.groups, .strings, .lint, .score] s s5 := by
    unfold s5
    refine .foldl (fun u7 _ => ?_) ?_
    · refine .step (State.onGroup_only _ _ _) rfl ?_
      exact .refl _ _
    · exact hs4
  clear_value s5
  refine .step (set_score_only _ _) rfl ?_
  exact hs5

theorem State.excuseAttempt_only (s : State) :
    OnlyChanges [.bootRec] s (State.excuseAttempt s) := by
  unfold State.excuseAttempt
  refine .step (State.onRec_only _ _) rfl ?_
  exact .refl _ _

theorem State.rebuildRecord_only (s : State) :
    OnlyChanges [.lint, .score, .bootRec] s (State.rebuildRecord s) := by
  unfold State.rebuildRecord
  extract_lets f1 _ s2
  have hs2 : OnlyChanges [.lint, .score, .bootRec] s s2 := by
    unfold s2
    refine .step (State.onRec_only _ _) rfl ?_
    exact .refl _ _
  clear_value s2
  refine .step (State.bootEvent_only _ _ _) rfl ?_
  refine .step (State.detect_only _ _ _) rfl ?_
  exact hs2

theorem State.readRecord_only (s : State) :
    OnlyChanges [.lint, .score, .bootRec] s (State.readRecord s) := by
  unfold State.readRecord
  split
  · extract_lets _ _
    refine .step (set_bootRec_only _ _) rfl ?_
    exact .refl _ _
  · refine .step (State.rebuildRecord_only _) rfl ?_
    exact .refl _ _

theorem State.learnedBack_only (s : State) (c : LearnedCopy) :
    OnlyChanges [.groups, .strings] s (State.learnedBack s c) := by
  unfold State.learnedBack
  refine .step (set_groups_strings_only _ _ _) rfl ?_
  exact .refl _ _

theorem State.restoreOld_only (s : State) :
    OnlyChanges [.groups, .strings, .bootRec, .working] s (State.restoreOld s) := by
  unfold State.restoreOld
  extract_lets s1 _
  have hs1 : OnlyChanges [.groups, .strings, .bootRec, .working] s s1 := by
    unfold s1
    split
    · refine .step (State.learnedBack_only _ _) rfl ?_
      exact .refl _ _
    · exact .refl _ _
  clear_value s1
  refine .ite ?_ ?_
  · refine .step (State.onRec_only _ _) rfl ?_
    refine .step (set_working_only _ _) rfl ?_
    exact hs1
  · exact .refl _ _

theorem State.judgeAttempt_only (s : State) :
    OnlyChanges [.groups, .strings, .lint, .score, .bootRec, .working] s (State.judgeAttempt s) := by
  unfold State.judgeAttempt
  extract_lets _ _ s1 _ s2 s3 s4
  have hs1 : OnlyChanges [.groups, .strings, .lint, .score, .bootRec, .working] s s1 := by
    unfold s1
    refine .step (State.onRec_only _ _) rfl ?_
    exact .refl _ _
  clear_value s1
  have hs2 : OnlyChanges [.groups, .strings, .lint, .score, .bootRec, .working] s s2 := by
    unfold s2
    refine .step (State.onRec_only _ _) rfl ?_
    exact .refl _ _
  clear_value s2
  have hs3 : OnlyChanges [.groups, .strings, .lint, .score, .bootRec, .working] s s3 := by
    unfold s3
    refine .step (State.bootEvent_only _ _ _) rfl ?_
    refine .step (State.detect_only _ _ _) rfl ?_
    exact hs2
  clear_value s3
  have hs4 : OnlyChanges [.groups, .strings, .lint, .score, .bootRec, .working] s s4 := by
    unfold s4
    refine .step (State.restoreOld_only _) rfl ?_
    refine .step (State.detect_only _ _ _) rfl ?_
    exact hs3
  clear_value s4
  refine .ite ?_ ?_
  · exact .refl _ _
  · refine .ite ?_ ?_
    · refine .ite ?_ ?_
      · refine .step (State.restoreOld_only _) rfl ?_
        exact hs1
      · exact hs1
    · refine .ite ?_ ?_
      · refine .ite ?_ ?_
        · refine .step (State.bootEvent_only _ _ _) rfl ?_
          refine .step (State.onRec_only _ _) rfl ?_
          exact hs4
        · exact hs4
      · exact hs3

theorem State.lateWarning_only (s : State) :
    OnlyChanges [.groups, .strings, .lint, .score] s (State.lateWarning s) := by
  unfold State.lateWarning
  refine .ite ?_ ?_
  · refine .step (State.powerFail_only _ _) rfl ?_
    exact .refl _ _
  · exact .refl _ _

theorem State.pllLock_only (s : State) (locked : Bool) (refin : Nat) (weak : List (Nat × Word)) :
    OnlyChanges [.clock, .tb, .active, .staged, .cfg, .chans, .groups, .ports, .dets, .shelf, .strings, .feeds, .orders, .seq, .fuses, .lint, .score, .boot, .bootRec, .working, .tamper, .commits, .hardwareRun, .draws] s (State.pllLock s locked refin weak) := by
  unfold State.pllLock
  refine .ite (.refl _ _) ?_
  extract_lets _ s1 s2 _ _ s3 s4 s5 s6 s7
  have h1 : OnlyChanges [.clock, .tb, .active, .staged, .cfg, .chans, .groups, .ports, .dets, .shelf, .strings, .feeds, .orders, .seq, .fuses, .lint, .score, .boot, .bootRec, .working, .tamper, .commits, .hardwareRun, .draws] s s1 := .ite (.step (State.lateWarning_only _) rfl (.refl _ _)) (.refl _ _)
  have h4 : OnlyChanges [.clock, .tb, .active, .staged, .cfg, .chans, .groups, .ports, .dets, .shelf, .strings, .feeds, .orders, .seq, .fuses, .lint, .score, .boot, .bootRec, .working, .tamper, .commits, .hardwareRun, .draws] s s4 :=
    .step (State.onBoot_only _ _) rfl (.step (set_clock_score_only _ _ _) rfl (.step (State.detectIf_only _ _ _ _) rfl h1))
  have h5 : OnlyChanges [.clock, .tb, .active, .staged, .cfg, .chans, .groups, .ports, .dets, .shelf, .strings, .feeds, .orders, .seq, .fuses, .lint, .score, .boot, .bootRec, .working, .tamper, .commits, .hardwareRun, .draws] s s5 := .ite (.step (State.sealLoad_only _) rfl (.step (State.latchFuses_only _ _) rfl h4)) h4
  have h6 : OnlyChanges [.clock, .tb, .active, .staged, .cfg, .chans, .groups, .ports, .dets, .shelf, .strings, .feeds, .orders, .seq, .fuses, .lint, .score, .boot, .bootRec, .working, .tamper, .commits, .hardwareRun, .draws] s s6 := .step (State.judgeAttempt_only _) rfl (.step (State.readRecord_only _) rfl h5)
  have h7 : OnlyChanges [.clock, .tb, .active, .staged, .cfg, .chans, .groups, .ports, .dets, .shelf, .strings, .feeds, .orders, .seq, .fuses, .lint, .score, .boot, .bootRec, .working, .tamper, .commits, .hardwareRun, .draws] s s7 := .ite (.step (set_ports_only _ _) rfl h6) h6
  exact .ite (.step (State.hardwareStart_only _) rfl h7) h7

theorem State.enterBench_only (s : State) (reason : Nat) :
    OnlyChanges [.tb, .active, .staged, .cfg, .chans, .groups, .ports, .dets, .shelf, .feeds, .orders, .seq, .lint, .score, .boot, .bootRec, .commits, .hardwareRun, .draws] s (State.enterBench s reason) := by
  unfold State.enterBench
  extract_lets s1 s2
  have hs1 : OnlyChanges [.tb, .active, .staged, .cfg, .chans, .groups, .ports, .dets, .shelf, .feeds, .orders, .seq, .lint, .score, .boot, .bootRec, .commits, .hardwareRun, .draws] s s1 := by
    unfold s1
    refine .step (State.onBoot_only _ _) rfl ?_
    refine .step (State.onRec_only _ _) rfl ?_
    exact .refl _ _
  clear_value s1
  have hs2 : OnlyChanges [.tb, .active, .staged, .cfg, .chans, .groups, .ports, .dets, .shelf, .feeds, .orders, .seq, .lint, .score, .boot, .bootRec, .commits, .hardwareRun, .draws] s s2 := by
    unfold s2
    refine .step (State.bootEvent_only _ _ _) rfl ?_
    refine .step (State.detect_only _ _ _) rfl ?_
    exact hs1
  clear_value s2
  refine .ite ?_ ?_
  · refine .step (State.hardwareStart_only _) rfl ?_
    exact hs2
  · exact hs2

theorem State.startSlot_only (s : State) (k : Nat) (reason : Nat) :
    OnlyChanges [.score, .boot, .bootRec, .patch, .image] s (State.startSlot s k reason) := by
  unfold State.startSlot
  extract_lets _ s1 s2 s3
  have hs1 : OnlyChanges [.score, .boot, .bootRec, .patch, .image] s s1 := by
    unfold s1
    refine .step (State.onRec_only _ _) rfl ?_
    exact .refl _ _
  clear_value s1
  have hs2 : OnlyChanges [.score, .boot, .bootRec, .patch, .image] s s2 := by
    unfold s2
    refine .step (State.onBoot_only _ _) rfl ?_
    exact hs1
  clear_value s2
  have hs3 : OnlyChanges [.score, .boot, .bootRec, .patch, .image] s s3 := by
    unfold s3
    refine .step (State.bootEvent_only _ _ _) rfl ?_
    exact hs2
  clear_value s3
  refine .ite ?_ ?_
  · refine .step (State.loadsTrial_only _) rfl ?_
    exact hs3
  · exact hs3

theorem State.slotVerified_only (s : State) :
    OnlyChanges [.tb, .active, .staged, .cfg, .chans, .groups, .ports, .dets, .shelf, .feeds, .orders, .seq, .lint, .score, .boot, .bootRec, .slots, .patch, .image, .commits, .hardwareRun, .draws] s (State.slotVerified s) := by
  unfold State.slotVerified
  extract_lets s1 _ _ _ s2 s3 s4
  have hs1 : OnlyChanges [.tb, .active, .staged, .cfg, .chans, .groups, .ports, .dets, .shelf, .feeds, .orders, .seq, .lint, .score, .boot, .bootRec, .slots, .patch, .image, .commits, .hardwareRun, .draws] s s1 := by
    unfold s1
    refine .step (State.loadsStart_only _) rfl ?_
    exact .refl _ _
  clear_value s1
  have hs2 : OnlyChanges [.tb, .active, .staged, .cfg, .chans, .groups, .ports, .dets, .shelf, .feeds, .orders, .seq, .lint, .score, .boot, .bootRec, .slots, .patch, .image, .commits, .hardwareRun, .draws] s s2 := by
    unfold s2
    refine .step (State.bootEvent_only _ _ _) rfl ?_
    refine .step (State.onRec_only _ _) rfl ?_
    exact hs1
  clear_value s2
  have hs3 : OnlyChanges [.tb, .active, .staged, .cfg, .chans, .groups, .ports, .dets, .shelf, .feeds, .orders, .seq, .lint, .score, .boot, .bootRec, .slots, .patch, .image, .commits, .hardwareRun, .draws] s s3 := by
    unfold s3
    refine .step (State.detect_only _ _ _) rfl ?_
    exact hs2
  clear_value s3
  have hs4 : OnlyChanges [.tb, .active, .staged, .cfg, .chans, .groups, .ports, .dets, .shelf, .feeds, .orders, .seq, .lint, .score, .boot, .bootRec, .slots, .patch, .image, .commits, .hardwareRun, .draws] s s4 := by
    unfold s4
    refine .ite ?_ ?_
    · refine .step (State.detect_only _ _ _) rfl ?_
      exact hs3
    · exact hs3
  clear_value s4
  refine .ite ?_ ?_
  · exact .refl _ _
  · refine .ite ?_ ?_
    · refine .step (State.enterBench_only _ _) rfl ?_
      exact hs1
    · refine .ite ?_ ?_
      · refine .step (State.startSlot_only _ _ _) rfl ?_
        exact hs1
      · refine .ite ?_ ?_
        · refine .step (State.enterBench_only _ _) rfl ?_
          exact hs4
        · refine .ite ?_ ?_
          · refine .step (State.bootEvent_only _ _ _) rfl ?_
            refine .step (State.startSlot_only _ _ _) rfl ?_
            exact hs4
          · refine .step (State.enterBench_only _ _) rfl ?_
            exact hs4

theorem State.migrate_only (s : State) :
    OnlyChanges [.groups, .strings, .score, .bootRec, .working] s (State.migrate s) := by
  unfold State.migrate
  extract_lets s1 _ s2
  have hs1 : OnlyChanges [.groups, .strings, .score, .bootRec, .working] s s1 := by
    unfold s1
    refine .step (State.restoreOld_only _) rfl ?_
    exact .refl _ _
  clear_value s1
  have hs2 : OnlyChanges [.groups, .strings, .score, .bootRec, .working] s s2 := by
    unfold s2
    refine .step (set_working_only _ _) rfl ?_
    exact hs1
  clear_value s2
  refine .ite ?_ ?_
  · exact .refl _ _
  · refine .step (State.bootEvent_only _ _ _) rfl ?_
    refine .step (State.onRec_only _ _) rfl ?_
    exact hs2

theorem State.recordStart_only (s : State) :
    OnlyChanges [.score, .bootRec, .working] s (State.recordStart s) := by
  unfold State.recordStart
  extract_lets _ _ _ _ s1 s2 s3
  have hs1 : OnlyChanges [.score, .bootRec, .working] s s1 := by
    unfold s1
    refine .step (State.onRec_only _ _) rfl ?_
    refine .step (set_working_only _ _) rfl ?_
    exact .refl _ _
  clear_value s1
  have hs2 : OnlyChanges [.score, .bootRec, .working] s s2 := by
    unfold s2
    refine .ite ?_ ?_
    · refine .step (State.bootEvent_only _ _ _) rfl ?_
      exact hs1
    · exact hs1
  clear_value s2
  have hs3 : OnlyChanges [.score, .bootRec, .working] s s3 := by
    unfold s3
    refine .step (State.bootEvent_only _ _ _) rfl ?_
    exact hs2
  clear_value s3
  refine .ite ?_ ?_
  · refine .step (State.patchEvent_only _ _ _ _ _ _ _ _) rfl ?_
    exact hs3
  · exact hs3

theorem State.discardTorn_only (s : State) :
    OnlyChanges [.lint, .score] s (State.discardTorn s) := by
  unfold State.discardTorn
  extract_lets _ _ _ _ s1
  have hs1 : OnlyChanges [.lint, .score] s s1 := by
    unfold s1
    refine .step (set_score_only _ _) rfl ?_
    exact .refl _ _
  clear_value s1
  refine .step (State.detectIf_only _ _ _ _) rfl ?_
  exact hs1

theorem State.startedCheckpoint_only (s : State) :
    OnlyChanges [.tb, .active, .staged, .cfg, .chans, .groups, .ports, .irons, .flat, .dets, .shelf, .strings, .feeds, .orders, .seq, .fuses, .tws, .lint, .score, .boot, .bootRec, .working, .tamper, .seats, .tts, .ptp, .commits, .hardwareRun, .draws] s (State.startedCheckpoint s) := by
  unfold State.startedCheckpoint
  extract_lets s1 s2 s3 _ _ s4 s5 s6 s7 s8 s9 _ _ s10 s11 s12 s13
  have hs1 : OnlyChanges [.tb, .active, .staged, .cfg, .chans, .groups, .ports, .irons, .flat, .dets, .shelf, .strings, .feeds, .orders, .seq, .fuses, .tws, .lint, .score, .boot, .bootRec, .working, .tamper, .seats, .tts, .ptp, .commits, .hardwareRun, .draws] s s1 := by
    unfold s1
    refine .step (State.loadWorking_only _) rfl ?_
    refine .step (State.migrate_only _) rfl ?_
    refine .step (State.discardTorn_only _) rfl ?_
    exact .refl _ _
  clear_value s1
  have hs2 : OnlyChanges [.tb, .active, .staged, .cfg, .chans, .groups, .ports, .irons, .flat, .dets, .shelf, .strings, .feeds, .orders, .seq, .fuses, .tws, .lint, .score, .boot, .bootRec, .working, .tamper, .seats, .tts, .ptp, .commits, .hardwareRun, .draws] s s2 := by
    unfold s2
    refine .step (set_hardwareRun_only _ _) rfl ?_
    exact hs1
  clear_value s2
  have hs3 : OnlyChanges [.tb, .active, .staged, .cfg, .chans, .groups, .ports, .irons, .flat, .dets, .shelf, .strings, .feeds, .orders, .seq, .fuses, .tws, .lint, .score, .boot, .bootRec, .working, .tamper, .seats, .tts, .ptp, .commits, .hardwareRun, .draws] s s3 := by
    unfold s3
    refine .step (State.onBoot_only _ _) rfl ?_
    exact hs2
  clear_value s3
  have hs4 : OnlyChanges [.tb, .active, .staged, .cfg, .chans, .groups, .ports, .irons, .flat, .dets, .shelf, .strings, .feeds, .orders, .seq, .fuses, .tws, .lint, .score, .boot, .bootRec, .working, .tamper, .seats, .tts, .ptp, .commits, .hardwareRun, .draws] s s4 := by
    unfold s4
    refine .step (set_seq_score_only _ _ _) rfl ?_
    exact hs3
  clear_value s4
  have hs5 : OnlyChanges [.tb, .active, .staged, .cfg, .chans, .groups, .ports, .irons, .flat, .dets, .shelf, .strings, .feeds, .orders, .seq, .fuses, .tws, .lint, .score, .boot, .bootRec, .working, .tamper, .seats, .tts, .ptp, .commits, .hardwareRun, .draws] s s5 := by
    unfold s5
    refine .step (State.recordStart_only _) rfl ?_
    exact hs4
  clear_value s5
  have hs6 : OnlyChanges [.tb, .active, .staged, .cfg, .chans, .groups, .ports, .irons, .flat, .dets, .shelf, .strings, .feeds, .orders, .seq, .fuses, .tws, .lint, .score, .boot, .bootRec, .working, .tamper, .seats, .tts, .ptp, .commits, .hardwareRun, .draws] s s6 := by
    unfold s6
    refine .step (State.detectIf_only _ _ _ _) rfl ?_
    exact hs5
  clear_value s6
  have hs7 : OnlyChanges [.tb, .active, .staged, .cfg, .chans, .groups, .ports, .irons, .flat, .dets, .shelf, .strings, .feeds, .orders, .seq, .fuses, .tws, .lint, .score, .boot, .bootRec, .working, .tamper, .seats, .tts, .ptp, .commits, .hardwareRun, .draws] s s7 := by
    unfold s7
    refine .foldl (fun u14 _ => ?_) ?_
    · refine .step (State.capacityStart_only _ _) rfl ?_
      exact .refl _ _
    · exact hs6
  clear_value s7
  have hs8 : OnlyChanges [.tb, .active, .staged, .cfg, .chans, .groups, .ports, .irons, .flat, .dets, .shelf, .strings, .feeds, .orders, .seq, .fuses, .tws, .lint, .score, .boot, .bootRec, .working, .tamper, .seats, .tts, .ptp, .commits, .hardwareRun, .draws] s s8 := by
    unfold s8
    refine .foldl (fun u15 _ => ?_) ?_
    · refine .step (State.captureResume_only _ _) rfl ?_
      exact .refl _ _
    · exact hs7
  clear_value s8
  have hs9 : OnlyChanges [.tb, .active, .staged, .cfg, .chans, .groups, .ports, .irons, .flat, .dets, .shelf, .strings, .feeds, .orders, .seq, .fuses, .tws, .lint, .score, .boot, .bootRec, .working, .tamper, .seats, .tts, .ptp, .commits, .hardwareRun, .draws] s s9 := by
    unfold s9
    refine .step (State.twStart_only _) rfl ?_
    exact hs8
  clear_value s9
  have hs10 : OnlyChanges [.tb, .active, .staged, .cfg, .chans, .groups, .ports, .irons, .flat, .dets, .shelf, .strings, .feeds, .orders, .seq, .fuses, .tws, .lint, .score, .boot, .bootRec, .working, .tamper, .seats, .tts, .ptp, .commits, .hardwareRun, .draws] s s10 := by
    unfold s10
    refine .step (set_fuses_tts_ptp_only _ _ _ _) rfl ?_
    exact hs9
  clear_value s10
  have hs11 : OnlyChanges [.tb, .active, .staged, .cfg, .chans, .groups, .ports, .irons, .flat, .dets, .shelf, .strings, .feeds, .orders, .seq, .fuses, .tws, .lint, .score, .boot, .bootRec, .working, .tamper, .seats, .tts, .ptp, .commits, .hardwareRun, .draws] s s11 := by
    unfold s11
    refine .ite ?_ ?_
    · refine .step (State.stitchBreak_only _) rfl ?_
      exact hs10
    · exact hs10
  clear_value s11
  have hs12 : OnlyChanges [.tb, .active, .staged, .cfg, .chans, .groups, .ports, .irons, .flat, .dets, .shelf, .strings, .feeds, .orders, .seq, .fuses, .tws, .lint, .score, .boot, .bootRec, .working, .tamper, .seats, .tts, .ptp, .commits, .hardwareRun, .draws] s s12 := by
    unfold s12
    refine .step (State.closeBench_only _) rfl ?_
    exact hs11
  clear_value s12
  have hs13 : OnlyChanges [.tb, .active, .staged, .cfg, .chans, .groups, .ports, .irons, .flat, .dets, .shelf, .strings, .feeds, .orders, .seq, .fuses, .tws, .lint, .score, .boot, .bootRec, .working, .tamper, .seats, .tts, .ptp, .commits, .hardwareRun, .draws] s s13 := by
    unfold s13
    refine .foldl (fun u16 _ => ?_) ?_
    · refine .step (State.requestUp_only _ _) rfl ?_
      exact .refl _ _
    · exact hs12
  clear_value s13
  refine .ite ?_ ?_
  · exact .refl _ _
  · refine .step (State.linksStart_only _) rfl ?_
    refine .step (State.resumeMarks_only _) rfl ?_
    exact hs13

theorem State.warmReset_only (s : State) (cause : Nat) :
    OnlyChanges [.tb, .chans, .groups, .ports, .irons, .flat, .senses, .dets, .presses, .shelf, .strings, .feeds, .models, .fuses, .tws, .sensors, .lint, .score, .boot, .bootRec, .safeSet, .working, .seats, .t1s, .cans, .tts, .ptp, .ptpAdj, .commits, .hardwareRun] s (State.warmReset s cause) := by
  unfold State.warmReset
  extract_lets s1 s2 s3 s4 s5 s6 s7 _ _ _ _
  have hs1 : OnlyChanges [.tb, .chans, .groups, .ports, .irons, .flat, .senses, .dets, .presses, .shelf, .strings, .feeds, .models, .fuses, .tws, .sensors, .lint, .score, .boot, .bootRec, .safeSet, .working, .seats, .t1s, .cans, .tts, .ptp, .ptpAdj, .commits, .hardwareRun] s s1 := by
    unfold s1
    refine .step (State.saveWorking_only _) rfl ?_
    exact .refl _ _
  clear_value s1
  have hs2 : OnlyChanges [.tb, .chans, .groups, .ports, .irons, .flat, .senses, .dets, .presses, .shelf, .strings, .feeds, .models, .fuses, .tws, .sensors, .lint, .score, .boot, .bootRec, .safeSet, .working, .seats, .t1s, .cans, .tts, .ptp, .ptpAdj, .commits, .hardwareRun] s s2 := by
    unfold s2
    refine .ite ?_ ?_
    · refine .step (State.closeEpisode_only _ _) rfl ?_
      exact hs1
    · exact hs1
  clear_value s2
  have hs3 : OnlyChanges [.tb, .chans, .groups, .ports, .irons, .flat, .senses, .dets, .presses, .shelf, .strings, .feeds, .models, .fuses, .tws, .sensors, .lint, .score, .boot, .bootRec, .safeSet, .working, .seats, .t1s, .cans, .tts, .ptp, .ptpAdj, .commits, .hardwareRun] s s3 := by
    unfold s3
    refine .foldl (fun u8 _ => ?_) ?_
    · refine .step (State.captureReset_only _ _) rfl ?_
      exact .refl _ _
    · exact hs2
  clear_value s3
  have hs4 : OnlyChanges [.tb, .chans, .groups, .ports, .irons, .flat, .senses, .dets, .presses, .shelf, .strings, .feeds, .models, .fuses, .tws, .sensors, .lint, .score, .boot, .bootRec, .safeSet, .working, .seats, .t1s, .cans, .tts, .ptp, .ptpAdj, .commits, .hardwareRun] s s4 := by
    unfold s4
    refine .foldl (fun u9 _ => ?_) ?_
    · refine .step (State.orphanSeat_only _ _) rfl ?_
      exact .refl _ _
    · exact hs3
  clear_value s4
  have hs5 : OnlyChanges [.tb, .chans, .groups, .ports, .irons, .flat, .senses, .dets, .presses, .shelf, .strings, .feeds, .models, .fuses, .tws, .sensors, .lint, .score, .boot, .bootRec, .safeSet, .working, .seats, .t1s, .cans, .tts, .ptp, .ptpAdj, .commits, .hardwareRun] s s5 := by
    unfold s5
    refine .step (State.onBoot_only _ _) rfl ?_
    exact hs4
  clear_value s5
  have hs6 : OnlyChanges [.tb, .chans, .groups, .ports, .irons, .flat, .senses, .dets, .presses, .shelf, .strings, .feeds, .models, .fuses, .tws, .sensors, .lint, .score, .boot, .bootRec, .safeSet, .working, .seats, .t1s, .cans, .tts, .ptp, .ptpAdj, .commits, .hardwareRun] s s6 := by
    unfold s6
    refine .step (State.detectIf_only _ _ _ _) rfl ?_
    exact hs5
  clear_value s6
  have hs7 : OnlyChanges [.tb, .chans, .groups, .ports, .irons, .flat, .senses, .dets, .presses, .shelf, .strings, .feeds, .models, .fuses, .tws, .sensors, .lint, .score, .boot, .bootRec, .safeSet, .working, .seats, .t1s, .cans, .tts, .ptp, .ptpAdj, .commits, .hardwareRun] s s7 := by
    unfold s7
    refine .step (State.twReset_only _) rfl ?_
    exact hs6
  clear_value s7
  refine .ite ?_ ?_
  · exact .refl _ _
  · refine .step (set_tb_chans_groups_ports_irons_flat_senses_dets_presses_shelf_strings_feeds_models_fuses_sensors_lint_score_bootRec_safeSet_t1s_cans_tts_ptp_ptpAdj_commits_hardwareRun_only _ _ _ _ _ _ _ _ _ _ _ _ _ _ _ _ _ _ _ _ _ _ _ _ _ _ _) rfl ?_
    exact hs7

theorem State.resetReleased_only (s : State) (released : Bool) :
    OnlyChanges [.boot] s (State.resetReleased s released) := by
  unfold State.resetReleased
  refine .ite ?_ ?_
  · refine .step (State.onBoot_only _ _) rfl ?_
    exact .refl _ _
  · exact .refl _ _

theorem State.warmResetEnd_only (s : State) (x : HoldIn) :
    OnlyChanges [.groups, .strings, .feeds, .rails, .orders, .lint, .score, .boot] s (State.warmResetEnd s x) := by
  unfold State.warmResetEnd
  extract_lets s1 _ s2
  have hs1 : OnlyChanges [.groups, .strings, .feeds, .rails, .orders, .lint, .score, .boot] s s1 := by
    unfold s1
    refine .step (State.resetReleased_only _ _) rfl ?_
    exact .refl _ _
  clear_value s1
  have hs2 : OnlyChanges [.groups, .strings, .feeds, .rails, .orders, .lint, .score, .boot] s s2 := by
    unfold s2
    refine .step (State.sequencerResume_only _) rfl ?_
    refine .foldl (fun u3 _ => ?_) ?_
    · refine .step (State.feedAfterReset_only _ _ _) rfl ?_
      exact .refl _ _
    · exact hs1
  clear_value s2
  refine .ite ?_ ?_
  · exact hs1
  · refine .step (State.lateWarning_only _) rfl ?_
    refine .step (State.onBoot_only _ _) rfl ?_
    exact hs2

theorem State.resetPin_only (s : State) :
    OnlyChanges [.tb, .chans, .groups, .ports, .irons, .flat, .senses, .dets, .presses, .shelf, .strings, .feeds, .models, .fuses, .tws, .sensors, .lint, .score, .boot, .bootRec, .safeSet, .working, .seats, .t1s, .cans, .tts, .ptp, .ptpAdj, .commits, .hardwareRun] s (State.resetPin s) := by
  unfold State.resetPin
  extract_lets _ s1
  have hs1 : OnlyChanges [.tb, .chans, .groups, .ports, .irons, .flat, .senses, .dets, .presses, .shelf, .strings, .feeds, .models, .fuses, .tws, .sensors, .lint, .score, .boot, .bootRec, .safeSet, .working, .seats, .t1s, .cans, .tts, .ptp, .ptpAdj, .commits, .hardwareRun] s s1 := by
    unfold s1
    refine .step (State.onBoot_only _ _) rfl ?_
    exact .refl _ _
  clear_value s1
  refine .ite ?_ ?_
  · exact hs1
  · refine .step (State.warmReset_only _ _) rfl ?_
    exact hs1

theorem State.supplyCut_only (s : State) :
    OnlyChanges [.score, .draws] s (State.supplyCut s) := by
  unfold State.supplyCut
  refine .ite ?_ ?_
  · exact .refl _ _
  · refine .step (State.cutRecord_only _ _) rfl ?_
    refine .step (set_draws_only _ _) rfl ?_
    exact .refl _ _

theorem State.powerReset_only (s : State) (lost : Bool) :
    OnlyChanges [.clock, .tb, .active, .staged, .cfg, .chans, .groups, .ports, .irons, .flat, .engine, .senses, .dets, .presses, .shelf, .strings, .feeds, .models, .rails, .orders, .seq, .fuses, .tws, .sensors, .lint, .score, .boot, .bootRec, .safeSet, .working, .presence, .tamper, .seats, .t1s, .cans, .tts, .ptp, .ptpAdj, .commits, .hardwareRun, .alive, .draws] s (State.powerReset s lost) := by
  unfold State.powerReset
  extract_lets _ _ _ _ _ _ _ s1 _ _ s2
  have hs1 : OnlyChanges [.clock, .tb, .active, .staged, .cfg, .chans, .groups, .ports, .irons, .flat, .engine, .senses, .dets, .presses, .shelf, .strings, .feeds, .models, .rails, .orders, .seq, .fuses, .tws, .sensors, .lint, .score, .boot, .bootRec, .safeSet, .working, .presence, .tamper, .seats, .t1s, .cans, .tts, .ptp, .ptpAdj, .commits, .hardwareRun, .alive, .draws] s s1 := by
    unfold s1
    refine .step (State.supplyCut_only _) rfl ?_
    refine .step (State.saveWorking_only _) rfl ?_
    exact .refl _ _
  clear_value s1
  have hs2 : OnlyChanges [.clock, .tb, .active, .staged, .cfg, .chans, .groups, .ports, .irons, .flat, .engine, .senses, .dets, .presses, .shelf, .strings, .feeds, .models, .rails, .orders, .seq, .fuses, .tws, .sensors, .lint, .score, .boot, .bootRec, .safeSet, .working, .presence, .tamper, .seats, .t1s, .cans, .tts, .ptp, .ptpAdj, .commits, .hardwareRun, .alive, .draws] s s2 := by
    unfold s2
    refine .step (set_clock_tb_active_staged_cfg_chans_groups_ports_irons_flat_engine_senses_dets_presses_shelf_strings_feeds_models_rails_orders_seq_fuses_tws_sensors_lint_score_boot_bootRec_safeSet_presence_tamper_seats_t1s_cans_tts_ptp_ptpAdj_commits_hardwareRun_alive_only _ _ _ _ _ _ _ _ _ _ _ _ _ _ _ _ _ _ _ _ _ _ _ _ _ _ _ _ _ _ _ _ _ _ _ _ _ _ _ _ _) rfl ?_
    exact hs1
  clear_value s2
  refine .foldl (fun u3 _ => ?_) ?_
  · refine .step (State.captureReset_only _ _) rfl ?_
    exact .refl _ _
  · exact hs2

theorem State.powerOnReset_only (s : State) :
    OnlyChanges [.clock, .tb, .active, .staged, .cfg, .chans, .groups, .ports, .irons, .flat, .engine, .senses, .dets, .presses, .shelf, .strings, .feeds, .models, .rails, .orders, .seq, .fuses, .tws, .sensors, .lint, .score, .boot, .bootRec, .safeSet, .working, .presence, .tamper, .seats, .t1s, .cans, .tts, .ptp, .ptpAdj, .commits, .hardwareRun, .alive, .draws] s (State.powerOnReset s) := by
  unfold State.powerOnReset
  refine .step (State.powerReset_only _ _) rfl ?_
  exact .refl _ _

theorem State.vddAoLoss_only (s : State) :
    OnlyChanges [.clock, .tb, .active, .staged, .cfg, .chans, .groups, .ports, .irons, .flat, .engine, .senses, .dets, .presses, .shelf, .strings, .feeds, .models, .rails, .orders, .seq, .fuses, .tws, .sensors, .lint, .score, .boot, .bootRec, .safeSet, .working, .presence, .tamper, .seats, .t1s, .cans, .tts, .ptp, .ptpAdj, .commits, .hardwareRun, .alive, .draws] s (State.vddAoLoss s) := by
  unfold State.vddAoLoss
  refine .ite ?_ ?_
  · exact .refl _ _
  · refine .step (State.onBoot_only _ _) rfl ?_
    refine .step (State.powerReset_only _ _) rfl ?_
    exact .refl _ _

theorem State.withAo_only {qs : List Part} {a s : State} {f : State → State} (hf : ∀ u, OnlyChanges qs u (f u))
    (h : OnlyChanges qs a s) : OnlyChanges qs a (s.withAo f) := by
  unfold State.withAo
  split
  · exact h
  · exact h.trans (hf s)

theorem State.comparatorTrip_only (s : State) (z : Nat) :
    OnlyChanges [.feeds] s (State.comparatorTrip s z) := by
  unfold State.comparatorTrip
  refine .ite ?_ ?_
  · exact .refl _ _
  · refine .step (State.overcurrent_only _ _) rfl ?_
    exact .refl _ _

theorem State.watchdogExpire_only (s : State) :
    OnlyChanges [.tb, .chans, .groups, .ports, .irons, .flat, .senses, .dets, .presses, .shelf, .strings, .feeds, .models, .fuses, .tws, .sensors, .lint, .score, .boot, .bootRec, .safeSet, .working, .seats, .t1s, .cans, .tts, .ptp, .ptpAdj, .commits, .hardwareRun] s (State.watchdogExpire s) := by
  unfold State.watchdogExpire
  refine .ite ?_ ?_
  · refine .step (State.warmReset_only _ _) rfl ?_
    exact .refl _ _
  · exact .refl _ _

theorem State.startTimer_only (s : State) :
    OnlyChanges [.tb, .chans, .groups, .ports, .irons, .flat, .senses, .dets, .presses, .shelf, .strings, .feeds, .models, .fuses, .tws, .sensors, .lint, .score, .boot, .bootRec, .safeSet, .working, .seats, .t1s, .cans, .tts, .ptp, .ptpAdj, .commits, .hardwareRun] s (State.startTimer s) := by
  unfold State.startTimer
  refine .ite ?_ ?_
  · refine .step (State.warmReset_only _ _) rfl ?_
    exact .refl _ _
  · exact .refl _ _

theorem State.firmwareReset_only (s : State) (migration : Bool) :
    OnlyChanges [.tb, .chans, .groups, .ports, .irons, .flat, .senses, .dets, .presses, .shelf, .strings, .feeds, .models, .fuses, .tws, .sensors, .lint, .score, .boot, .bootRec, .safeSet, .working, .seats, .t1s, .cans, .tts, .ptp, .ptpAdj, .commits, .hardwareRun] s (State.firmwareReset s migration) := by
  unfold State.firmwareReset
  extract_lets _
  refine .ite ?_ ?_
  · refine .step (State.warmReset_only _ _) rfl ?_
    refine .ite ?_ ?_
    · refine .step (State.onRec_only _ _) rfl ?_
      refine .step (State.detect_only _ _ _) rfl ?_
      exact .refl _ _
    · exact .refl _ _
  · exact .refl _ _

theorem State.benchButton_only (s : State) :
    OnlyChanges [.tb, .chans, .groups, .ports, .irons, .flat, .senses, .dets, .presses, .shelf, .strings, .feeds, .models, .fuses, .tws, .sensors, .lint, .score, .boot, .bootRec, .safeSet, .working, .seats, .t1s, .cans, .tts, .ptp, .ptpAdj, .commits, .hardwareRun] s (State.benchButton s) := by
  unfold State.benchButton
  refine .ite ?_ ?_
  · exact .refl _ _
  · refine .step (State.warmReset_only _ _) rfl ?_
    refine .step (State.bootEvent_only _ _ _) rfl ?_
    refine .step (State.onRec_only _ _) rfl ?_
    exact .refl _ _

theorem State.benchTrial_only (s : State) :
    OnlyChanges [.tb, .chans, .groups, .ports, .irons, .flat, .senses, .dets, .presses, .shelf, .strings, .feeds, .models, .fuses, .tws, .sensors, .lint, .score, .boot, .bootRec, .safeSet, .working, .seats, .t1s, .cans, .tts, .ptp, .ptpAdj, .commits, .hardwareRun] s (State.benchTrial s) := by
  unfold State.benchTrial
  refine .ite ?_ ?_
  · refine .step (State.warmReset_only _ _) rfl ?_
    refine .step (State.bootEvent_only _ _ _) rfl ?_
    refine .step (State.onRec_only _ _) rfl ?_
    exact .refl _ _
  · exact .refl _ _

theorem State.powerFailWarning_only (s : State) (cut : Option Nat) :
    OnlyChanges [.groups, .strings, .lint, .score, .boot, .bootRec] s (State.powerFailWarning s cut) := by
  unfold State.powerFailWarning
  refine .ite ?_ ?_
  · refine .step (State.onBoot_only _ _) rfl ?_
    exact .refl _ _
  · refine .step (State.excuseAttempt_only _) rfl ?_
    refine .step (State.powerFail_only _ _) rfl ?_
    exact .refl _ _

theorem State.oscMeasure_only (s : State) (hz : Nat) :
    OnlyChanges [.lint, .boot] s (State.oscMeasure s hz) := by
  unfold State.oscMeasure
  extract_lets _ s1
  have hs1 : OnlyChanges [.lint, .boot] s s1 := by
    unfold s1
    refine .step (State.detectIf_only _ _ _ _) rfl ?_
    exact .refl _ _
  clear_value s1
  refine .step (State.onBoot_only _ _) rfl ?_
  exact hs1

theorem State.watchdogService_only (s : State) :
    OnlyChanges [.boot] s (State.watchdogService s) := by
  unfold State.watchdogService
  refine .ite ?_ ?_
  · refine .step (State.onBoot_only _ _) rfl ?_
    exact .refl _ _
  · exact .refl _ _

theorem State.aliveToggle_only (s : State) :
    OnlyChanges [.alive] s (State.aliveToggle s) := by
  unfold State.aliveToggle
  refine .ite ?_ ?_
  · refine .step (set_alive_only _ _) rfl ?_
    exact .refl _ _
  · exact .refl _ _

theorem State.recordWrites_only (s : State) :
    OnlyChanges [.bootRec] s (State.recordWrites s) := by
  unfold State.recordWrites
  refine .step (set_bootRec_only _ _) rfl ?_
  exact .refl _ _

theorem State.passSlot_only (s : State) :
    OnlyChanges [.clock, .tb, .chans, .groups, .ports, .shelf, .strings, .score, .bootRec] s (State.passSlot s) := by
  unfold State.passSlot
  extract_lets _
  refine .ite ?_ ?_
  · exact .refl _ _
  · refine .ite ?_ ?_
    · refine .step (set_clock_only _ _) rfl ?_
      exact .refl _ _
    · refine .step (State.recordWrites_only _) rfl ?_
      refine .step (State.lastFaultWrites_only _) rfl ?_
      refine .step (State.slotWrites_only _) rfl ?_
      refine .step (State.captureCommands_only _) rfl ?_
      refine .step (State.slot_only _) rfl ?_
      refine .step (State.recordsWritten_only _) rfl ?_
      exact .refl _ _

end Sys2Proof.Machine
end

