-- ==== Sys2Proof/Laws/FramesWrites.lean ====
section
/-!
SUPPORT. Footprints of the operations of Machine/Writes.lean.
-/
namespace Sys2Proof.Machine
set_option Elab.async false

theorem State.afterReply_only (s : State) (x : Obj) (v : Int) :
    OnlyChanges [.tb, .cfg, .chans, .groups, .ports, .irons, .flat, .senses, .dets, .presses, .shelf, .strings, .feeds, .models, .fuses, .tws, .sensors, .lint, .score, .boot, .bootRec, .safeSet, .working, .seats, .t1s, .cans, .tts, .ptp, .ptpAdj, .commits, .hardwareRun] s (State.afterReply s x v) := by
  unfold State.afterReply
  extract_lets s1
  have hs1 : OnlyChanges [.tb, .cfg, .chans, .groups, .ports, .irons, .flat, .senses, .dets, .presses, .shelf, .strings, .feeds, .models, .fuses, .tws, .sensors, .lint, .score, .boot, .bootRec, .safeSet, .working, .seats, .t1s, .cans, .tts, .ptp, .ptpAdj, .commits, .hardwareRun] s s1 := by
    unfold s1
    refine .step (set_cfg_only _ _) rfl ?_
    exact .refl _ _
  clear_value s1
  refine .ite ?_ ?_
  · refine .step (State.warmReset_only _ _) rfl ?_
    exact .refl _ _
  · refine .ite ?_ ?_
    · exact .refl _ _
    · split
      · refine .step (State.closeTransport_only _ _ _) rfl ?_
        exact hs1
      · refine .step (State.closeTransport_only _ _ _) rfl ?_
        exact hs1
      · refine .step (State.closeTransport_only _ _ _) rfl ?_
        exact hs1
      · refine .step (set_ptp_only _ _) rfl ?_
        exact hs1
      · exact hs1

theorem State.loadRefused_only (s : State) (writes : Bool) (status : Nat) :
    OnlyChanges [.boot] s (State.loadRefused s writes status) := by
  unfold State.loadRefused
  extract_lets _
  refine .ite ?_ ?_
  · exact .refl _ _
  · refine .ite ?_ ?_
    · refine .step (State.refuseWrite_only _) rfl ?_
      exact .refl _ _
    · refine .step (set_boot_only _ _) rfl ?_
      exact .refl _ _

theorem State.refusalMark_only (s : State) (x : Obj) (v : Int) (status : Nat) :
    OnlyChanges [.lint, .boot, .safeSet] s (State.refusalMark s x v status) := by
  unfold State.refusalMark
  split
  · refine .step (State.loadRefused_only _ _ _) rfl ?_
    exact .refl _ _
  · refine .step (State.loadRefused_only _ _ _) rfl ?_
    exact .refl _ _
  · refine .step (State.detectIf_only _ _ _ _) rfl ?_
    exact .refl _ _
  · extract_lets _
    refine .ite ?_ ?_
    · refine .step (set_safeSet_only _ _) rfl ?_
      exact .refl _ _
    · exact .refl _ _
  · exact .refl _ _

theorem State.logWrite_only (s : State) (k : Nat) (h : HostId) (x : Obj) (old : List Byte) (new : List Byte) :
    OnlyChanges [.score] s (State.logWrite s k h x old new) := by
  unfold State.logWrite
  refine .step (State.change_only _ _ _ _ _ _) rfl ?_
  exact .refl _ _

theorem State.writeSignals_only (s : State) (k : Nat) (h : HostId) (x : Obj) (bs : List Byte) :
    OkOnly [.score, .commits] s (State.writeSignals s k h x bs) := by
  unfold State.writeSignals
  extract_lets _ _ _ _
  split
  · exact .error
  · split
    · exact .error
    · refine .ok ?_
      refine .step (State.logWrite_only _ _ _ _ _ _) rfl ?_
      refine .step (set_commits_only _ _) rfl ?_
      exact .refl _ _

theorem State.writeDomain_only (s : State) (k : Nat) (h : HostId) (x : Obj) (offset : Nat) (bs : List Byte) :
    OkOnly [.score, .bootRec, .slots, .patch, .image, .seats, .commits] s (State.writeDomain s k h x offset bs) := by
  unfold State.writeDomain
  split
  · refine .step (State.patchPiece_only _ _ _ _) rfl ?_
    refine .step (State.logWrite_only _ _ _ _ _ _) rfl ?_
    exact .refl _ _
  · refine .step (State.imagePiece_only _ _ _ _) rfl ?_
    refine .step (State.logWrite_only _ _ _ _ _ _) rfl ?_
    exact .refl _ _
  · split
    · exact .error
    · refine .ok ?_
      refine .step (State.commitReceive_only _ _ _) rfl ?_
      refine .step (State.logWrite_only _ _ _ _ _ _) rfl ?_
      exact .refl _ _
  · split
    · exact .error
    · refine .step (State.writeSignals_only _ _ _ _ _) rfl ?_
      exact .refl _ _
  · exact .error

theorem State.writeStaged_only (s : State) (k : Nat) (h : HostId) (x : Obj) (v : Int) :
    OkOnly [.staged, .score, .commits] s (State.writeStaged s k h x v) := by
  unfold State.writeStaged
  extract_lets _ _ _ _ _ _ _
  split
  · exact .error
  · split
    · refine .ok ?_
      refine .step (set_commits_only _ _) rfl ?_
      exact .refl _ _
    · refine .ok ?_
      refine .step (State.logWrite_only _ _ _ _ _ _) rfl ?_
      refine .step (set_staged_only _ _) rfl ?_
      exact .refl _ _

theorem State.writeImmediate_only (s : State) (k : Nat) (h : HostId) (x : Obj) (v : Int) :
    OkOnly [.staged, .models, .score, .commits] s (State.writeImmediate s k h x v) := by
  unfold State.writeImmediate
  extract_lets _ _ _ s1 s2
  have hs1 : OnlyChanges [.staged, .models, .score, .commits] s s1 := by
    unfold s1
    refine .step (set_staged_commits_only _ _ _) rfl ?_
    exact .refl _ _
  clear_value s1
  have hs2 : OnlyChanges [.staged, .models, .score, .commits] s s2 := by
    unfold s2
    refine .ite ?_ ?_
    · refine .step (State.onModel_only _ _ _) rfl ?_
      exact hs1
    · exact hs1
  clear_value s2
  split
  · exact .error
  · split
    · exact .error
    · split
      · exact .error
      · refine .ok ?_
        refine .step (State.logWrite_only _ _ _ _ _ _) rfl ?_
        exact hs2

theorem State.writeWaiting_only (s : State) (k : Nat) (h : HostId) (x : Obj) (v : Int) :
    OkOnly [.score, .commits] s (State.writeWaiting s k h x v) := by
  unfold State.writeWaiting
  split
  · exact .error
  · split
    · exact .error
    · split
      · exact .error
      · extract_lets _ _ _ _ _
        refine .ok ?_
        refine .step (State.logWrite_only _ _ _ _ _ _) rfl ?_
        refine .step (set_commits_only _ _) rfl ?_
        exact .refl _ _

theorem State.writeReply_only (s : State) (k : Nat) (h : HostId) (x : Obj) (v : Int) :
    OkOnly [.score] s (State.writeReply s k h x v) := by
  unfold State.writeReply
  split
  · exact .error
  · refine .ok ?_
    refine .step (State.logWrite_only _ _ _ _ _ _) rfl ?_
    exact .refl _ _

theorem State.writeStored_only (s : State) (k : Nat) (h : HostId) (x : Obj) (v : Int) :
    OkOnly [.sent, .cfg, .score, .seats] s (State.writeStored s k h x v) := by
  unfold State.writeStored
  split
  · exact .error
  · extract_lets _ s1
    have hs1 : OnlyChanges [.sent, .cfg, .score, .seats] s s1 := by
      unfold s1
      refine .step (State.logWrite_only _ _ _ _ _ _) rfl ?_
      refine .step (set_cfg_only _ _) rfl ?_
      exact .refl _ _
    clear_value s1
    split
    · exact .error
    · refine .ok ?_
      refine .ite ?_ ?_
      · refine .step (State.endUnread_only _) rfl ?_
        exact hs1
      · exact hs1

theorem State.askGroup_only (s : State) (g : Nat) (v : Int) :
    OkOnly [.groups] s (State.askGroup s g v) := by
  unfold State.askGroup
  split
  · extract_lets _
    split
    · exact .error
    · refine .ok ?_
      refine .step (State.onGroup_only _ _ _) rfl ?_
      exact .refl _ _
  · refine .ok ?_
    refine .step (State.onGroup_only _ _ _) rfl ?_
    exact .refl _ _
  · refine .ok ?_
    refine .step (State.onGroup_only _ _ _) rfl ?_
    exact .refl _ _

theorem State.askIron_only (s : State) (i : Nat) (v : Int) :
    OkOnly [.irons] s (State.askIron s i v) := by
  unfold State.askIron
  refine .ok ?_
  refine .ite ?_ ?_
  · refine .step (State.onIron_only _ _ _) rfl ?_
    exact .refl _ _
  · refine .step (State.onIron_only _ _ _) rfl ?_
    exact .refl _ _

theorem State.askString_only (s : State) (k : Nat) (v : Int) :
    OkOnly [.strings] s (State.askString s k v) := by
  unfold State.askString
  split
  · refine .ok ?_
    refine .step (State.onStr_only _ _ _) rfl ?_
    exact .refl _ _
  · split
    · refine .ok ?_
      refine .step (State.onStr_only _ _ _) rfl ?_
      exact .refl _ _
    · exact .error

theorem State.askFeed_only (s : State) (z : Nat) (v : Int) :
    OkOnly [.feeds] s (State.askFeed s z v) := by
  unfold State.askFeed
  split
  · extract_lets _
    split
    · exact .error
    · refine .ok ?_
      refine .step (State.onFeed_only _ _ _) rfl ?_
      exact .refl _ _
  · refine .ok ?_
    refine .step (State.onFeed_only _ _ _) rfl ?_
    exact .refl _ _
  · refine .ok ?_
    refine .step (State.onFeed_only _ _ _) rfl ?_
    exact .refl _ _
  · refine .ok ?_
    refine .step (State.onFeed_only _ _ _) rfl ?_
    exact .refl _ _

theorem State.askOrder_only (s : State) (o : Nat) (v : Int) :
    OkOnly [.orders] s (State.askOrder s o v) := by
  unfold State.askOrder
  split
  · split
    · exact .error
    · split
      · exact .error
      · refine .ok ?_
        refine .step (State.onOrder_only _ _ _) rfl ?_
        exact .refl _ _
  · refine .ok ?_
    refine .step (State.onOrder_only _ _ _) rfl ?_
    exact .refl _ _
  · refine .ok ?_
    refine .step (State.onOrder_only _ _ _) rfl ?_
    exact .refl _ _

theorem State.clearWord_only (s : State) (w : Nat) (mask : Word) :
    OnlyChanges [.lint] s (State.clearWord s w mask) := by
  unfold State.clearWord
  extract_lets _ _ f1
  refine .step (State.onLint_only _ _) rfl ?_
  exact .refl _ _

theorem State.askCapture_only (s : State) (c : Nat) (v : Int) :
    OkOnly [.score] s (State.askCapture s c v) := by
  unfold State.askCapture
  extract_lets _
  split
  · refine .ok ?_
    refine .step (State.onCapture_only _ _ _) rfl ?_
    exact .refl _ _
  · exact .error

theorem State.askSeat_only (s : State) (by' : Nat) (k : Nat) :
    OkOnly [.cfg, .score, .seats, .tts, .commits] s (State.askSeat s by' k) := by
  unfold State.askSeat
  split
  · exact .error
  · refine .ok ?_
    refine .step (State.closeSeat_only _ _ _ _) rfl ?_
    refine .step (State.presenceEvent_only _ _ _ _ _ _) rfl ?_
    exact .refl _ _

theorem State.askSafeSet_only (s : State) :
    OkOnly [.safeSet] s (State.askSafeSet s) := by
  unfold State.askSafeSet
  extract_lets _
  split
  · exact .error
  · refine .ok ?_
    refine .step (State.safeCapture_only _) rfl ?_
    exact .refl _ _

theorem State.slotWrite_only {qs : List Part} {a s go : State} {ok : Bool} (h : OnlyChanges qs a go) :
    OkOnly qs a (s.slotWrite ok go) := by
  unfold State.slotWrite
  split
  · exact .error
  · exact .ok h

theorem State.askFuse_only (s : State) (seat : Nat) (v : Int) :
    OkOnly [.fuses, .score] s (State.askFuse s seat v) := by
  unfold State.askFuse
  split
  · split
    · exact .error
    · split
      · exact .error
      · refine .ok ?_
        refine .step (State.basteNow_only _ _) rfl ?_
        exact .refl _ _
  · split
    · exact .error
    · refine .ok ?_
      refine .step (State.fuseBegin_only _ _ _) rfl ?_
      exact .refl _ _

theorem State.command_only (s : State) (k : Nat) (x : Obj) (v : Int) :
    OkOnly [.cfg, .groups, .irons, .shelf, .strings, .feeds, .orders, .fuses, .tws, .lint, .score, .boot, .bootRec, .slots, .patch, .image, .safeSet, .presence, .tamper, .seats, .tts, .commits] s (State.command s k x v) := by
  unfold State.command
  split
  · refine .step (State.askGroup_only _ _ _) rfl ?_
    exact .refl _ _
  · refine .step (State.askIron_only _ _ _) rfl ?_
    exact .refl _ _
  · refine .ok ?_
    refine .step (State.excursionClear_only _) rfl ?_
    exact .refl _ _
  · refine .step (State.askString_only _ _ _) rfl ?_
    exact .refl _ _
  · refine .step (State.askFeed_only _ _ _) rfl ?_
    exact .refl _ _
  · refine .step (State.askOrder_only _ _ _) rfl ?_
    exact .refl _ _
  · refine .ok ?_
    refine .step (State.clearWord_only _ _ _) rfl ?_
    exact .refl _ _
  · refine .ok ?_
    refine .step (State.endSafe_only _) rfl ?_
    exact .refl _ _
  · extract_lets _
    refine .ok ?_
    refine .step (set_score_only _ _) rfl ?_
    exact .refl _ _
  · refine .step (State.askCapture_only _ _ _) rfl ?_
    exact .refl _ _
  · refine .ok ?_
    refine .step (State.onCapture_only _ _ _) rfl ?_
    exact .refl _ _
  · refine .step (State.askSeat_only _ _ _) rfl ?_
    exact .refl _ _
  · refine .step (State.askSafeSet_only _) rfl ?_
    exact .refl _ _
  · refine OkOnly.map (fun u1 => ?_) ?_
    · refine .step (State.noRefusals_only _) rfl ?_
      exact .refl _ _
    · split
      · refine .step (State.patchVerify_only _ _) rfl ?_
        exact .refl _ _
      · split
        · refine State.slotWrite_only ?_
          refine .step (State.patchApply_only _ _) rfl ?_
          exact .refl _ _
        · refine .step (State.patchDiscard_only _ _) rfl ?_
          exact .refl _ _
  · refine OkOnly.map (fun u2 => ?_) ?_
    · refine .step (State.noRefusals_only _) rfl ?_
      exact .refl _ _
    · split
      · refine State.slotWrite_only ?_
        refine .step (State.imageWrite_only _ _) rfl ?_
        exact .refl _ _
      · refine .step (State.imageDiscard_only _ _) rfl ?_
        exact .refl _ _
  · refine .ok ?_
    refine .step (State.onFuses_only _ _) rfl ?_
    exact .refl _ _
  · split
    · exact .error
    · refine .ok ?_
      refine .step (State.fuseBegin_only _ _ _) rfl ?_
      exact .refl _ _
  · refine .ok ?_
    refine .step (State.onFuses_only _ _) rfl ?_
    exact .refl _ _
  · refine .step (State.askFuse_only _ _ _) rfl ?_
    exact .refl _ _
  · split
    · refine .ok ?_
      refine .step (State.ownerSet_only _ _) rfl ?_
      exact .refl _ _
    · split
      · exact .error
      · refine .ok ?_
        refine .step (State.ownerRelease_only _ _) rfl ?_
        exact .refl _ _
  · refine .ok ?_
    refine .step (State.windowEnd_only _ _) rfl ?_
    exact .refl _ _
  · split
    · refine .ok ?_
      refine .step (State.sealArm_only _ _) rfl ?_
      exact .refl _ _
    · exact .error
  · split
    · refine .ok ?_
      refine .step (State.twRecover_only _ _) rfl ?_
      exact .refl _ _
    · exact .error
  · refine .ok ?_
    exact .refl _ _

theorem State.writeValue_only (s : State) (k : Nat) (h : HostId) (x : Obj) (v : Int) :
    OkOnly [.sent, .staged, .cfg, .groups, .irons, .shelf, .strings, .feeds, .models, .orders, .fuses, .tws, .lint, .score, .boot, .bootRec, .slots, .patch, .image, .safeSet, .presence, .tamper, .seats, .tts, .commits] s (State.writeValue s k h x v) := by
  unfold State.writeValue
  extract_lets _ _
  split
  · refine .step (State.writeStaged_only _ _ _ _ _) rfl ?_
    exact .refl _ _
  · refine .step (State.writeImmediate_only _ _ _ _ _) rfl ?_
    exact .refl _ _
  · refine .step (State.writeWaiting_only _ _ _ _ _) rfl ?_
    exact .refl _ _
  · refine .step (State.writeWaiting_only _ _ _ _ _) rfl ?_
    exact .refl _ _
  · refine .step (State.writeReply_only _ _ _ _ _) rfl ?_
    exact .refl _ _
  · refine .step (State.writeStored_only _ _ _ _ _) rfl ?_
    exact .refl _ _
  · refine .step (State.writeStored_only _ _ _ _ _) rfl ?_
    exact .refl _ _
  · split
    · refine .step (State.writeStored_only _ _ _ _ _) rfl ?_
      exact .refl _ _
    · split
      · exact .error
      · refine .step (State.command_only _ _ _ _) rfl ?_
        refine .step (State.logWrite_only _ _ _ _ _ _) rfl ?_
        exact .refl _ _

theorem State.hostWrite_only (s : State) (k : Nat) (h : HostId) (x : Obj) (offset : Nat) (bs : List Byte) :
    OkOnly [.sent, .staged, .cfg, .groups, .irons, .shelf, .strings, .feeds, .models, .orders, .fuses, .tws, .lint, .score, .boot, .bootRec, .slots, .patch, .image, .safeSet, .presence, .tamper, .seats, .tts, .commits] s (State.hostWrite s k h x offset bs) := by
  unfold State.hostWrite
  split
  · refine .step (State.writeDomain_only _ _ _ _ _ _) rfl ?_
    exact .refl _ _
  · split
    · exact .error
    · refine .step (State.writeValue_only _ _ _ _ _) rfl ?_
      exact .refl _ _

end Sys2Proof.Machine
end

