-- ==== Sys2Proof/Laws/FramesOap.lean ====
section
/-!
SUPPORT. Footprints of the operations of Machine/Oap.lean.
-/
namespace Sys2Proof.Machine
set_option Elab.async false

theorem State.enqueue_only (s : State) (r : Reply) (effect : Option (Nat × Nat × Int)) :
    OnlyChanges [.tts] s (State.enqueue s r effect) := by
  unfold State.enqueue
  extract_lets _
  refine .step (State.onTt_only _ _ _) rfl ?_
  exact .refl _ _

theorem State.send_only (s : State) (r : Reply) (toAll : Bool) :
    OnlyChanges [.sent, .t1s, .tts] s (State.send s r toAll) := by
  unfold State.send
  refine .ite ?_ ?_
  · refine .step (State.enqueue_only _ _ _) rfl ?_
    exact .refl _ _
  · refine .ite ?_ ?_
    · refine .step (set_t1s_only _ _) rfl ?_
      exact .refl _ _
    · refine .step (set_out_only _ _) rfl ?_
      exact .refl _ _

theorem State.turnAway_only (s : State) (h : Hdr) (op : Nat) (status : Nat) :
    OnlyChanges [.sent, .t1s, .tts] s (State.turnAway s h op status) := by
  unfold State.turnAway
  refine .step (State.send_only _ _ _) rfl ?_
  exact .refl _ _

theorem State.readEffect_only (s : State) (k : Nat) (x : Obj) (offset : Nat) (bs : List Byte) :
    OnlyChanges [.score] s (State.readEffect s k x offset bs) := by
  unfold State.readEffect
  refine .ite ?_ ?_
  · split
    · extract_lets _
      refine .step (set_score_only _ _) rfl ?_
      exact .refl _ _
    · exact .refl _ _
  · exact .refl _ _

theorem State.readOctets_only (s : State) (k : Nat) (active : Bool) (x : Obj) (offset : Nat) (n : Nat) :
    OnlyChanges [.score] s (State.readOctets s k active x offset n).1 := by
  exact State.readEffect_only s k x offset _

theorem State.readOctets_to {s : State} {k : Nat} {active : Bool} {x : Obj} {offset : Nat} {n : Nat} {t : State} {y}
    (e : s.readOctets k active x offset n = (t, y)) : OnlyChanges [.score] s t := by
  have h := State.readOctets_only s k active x offset n
  rw [e] at h; exact h

theorem State.takeEffect_only (s : State) (e : Option (Nat × Nat × Int)) :
    OnlyChanges [.tb, .cfg, .chans, .groups, .ports, .irons, .flat, .senses, .dets, .presses, .shelf, .strings, .feeds, .models, .fuses, .tws, .sensors, .lint, .score, .boot, .bootRec, .safeSet, .working, .seats, .t1s, .cans, .tts, .ptp, .ptpAdj, .commits, .hardwareRun] s (State.takeEffect s e) := by
  unfold State.takeEffect
  split
  · split
    · refine .step (State.afterReply_only _ _ _) rfl ?_
      exact .refl _ _
    · exact .refl _ _
  · exact .refl _ _

theorem State.finish_only {qs : List Part} {s : State} {h : Hdr} {op : Nat} {a : Answer}
    (w : Part.within [.sent, .seats, .t1s, .tts] qs = true) (k : AnswerOnly qs s a)
    (ke : ∀ u, OnlyChanges qs u (State.takeEffect u a.effect)) : OnlyChanges qs s (State.finish h op a) := by
  have send (u : State) (r : Reply) (b : Bool) : OnlyChanges qs u (u.send r b) :=
    (State.send_only u r b).mono (Part.within_trans rfl w)
  have queue (u : State) (r : Reply) (e : Option (Nat × Nat × Int)) : OnlyChanges qs u (u.enqueue r e) :=
    (State.enqueue_only u r e).mono (Part.within_trans rfl w)
  have seat (u : State) (n : Nat) (f : SeatRun → SeatRun) : OnlyChanges qs u (u.onSeat n f) :=
    (State.onSeat_only u n f).mono (Part.within_trans rfl w)
  unfold State.finish
  extract_lets t r t2
  split
  · exact k.1
  · have h1 : OnlyChanges qs s t2 := k.1.trans (seat _ _ _)
    split
    · split
      · exact (h1.trans (k.2 _)).trans (queue _ _ _)
      · exact (h1.trans (queue _ _ _)).trans (k.2 _)
    · exact ((h1.trans (send _ _ _)).trans (k.2 _)).trans (ke _)

theorem State.doClose_only (s : State) (h : Hdr) :
    AnswerOnly [.cfg, .score, .seats, .tts, .commits] s (State.doClose s h) := by
  unfold State.doClose
  refine .intro ?_ (fun u1 => ?_)
  · exact .refl _ _
  · refine .step (State.closeSeat_only _ _ _ _) rfl ?_
    exact .refl _ _

theorem State.doRead_only (s : State) (h : Hdr) (index : Nat) (sub : Nat) (active : Bool) (offset : Nat) (maxLen : Nat) :
    AnswerOnly [.score] s (State.doRead s h index sub active offset maxLen) := by
  unfold State.doRead
  split
  · refine .intro ?_ (fun u1 => ?_)
    · exact .refl _ _
    · exact .refl _ _
  · extract_lets _ _
    split
    · refine .intro ?_ (fun u2 => ?_)
      · exact .refl _ _
      · exact .refl _ _
    · split
      · refine .intro ?_ (fun u3 => ?_)
        · exact .refl _ _
        · exact .refl _ _
      · split
        refine .intro ?_ (fun u4 => ?_)
        · refine .step (State.readOctets_to (by assumption)) rfl ?_
          exact .refl _ _
        · exact .refl _ _

theorem State.doWrite_only (s : State) (h : Hdr) (index : Nat) (sub : Nat) (e : Expect) (offset : Nat) (bs : List Byte) :
    AnswerOnly [.sent, .staged, .cfg, .groups, .irons, .shelf, .strings, .feeds, .models, .orders, .fuses, .tws, .lint, .score, .boot, .bootRec, .slots, .patch, .image, .safeSet, .presence, .tamper, .seats, .tts, .commits] s (State.doWrite s h index sub e offset bs) := by
  unfold State.doWrite
  split
  · refine .intro ?_ (fun u1 => ?_)
    · split
      · refine .ite ?_ ?_
        · refine .step (State.refusalMark_only _ _ _ _) rfl ?_
          exact .refl _ _
        · exact .refl _ _
      · exact .refl _ _
    · exact .refl _ _
  · split
    · refine .intro ?_ (fun u2 => ?_)
      · refine .step (State.refusalMark_only _ _ _ _) rfl ?_
        exact .refl _ _
      · exact .refl _ _
    · split
      · refine .intro ?_ (fun u3 => ?_)
        · refine .step (OkOnly.of (State.hostWrite_only _ _ _ _ _ _) (by assumption)) rfl ?_
          exact .refl _ _
        · exact .refl _ _
      · refine .intro ?_ (fun u4 => ?_)
        · refine .step (OkOnly.of (State.hostWrite_only _ _ _ _ _ _) (by assumption)) rfl ?_
          exact .refl _ _
        · exact .refl _ _

theorem State.doReadMulti_only (s : State) (h : Hdr) (es : List (Nat × Nat × Bool)) :
    AnswerOnly [.score] s (s.doReadMulti h es) := by
  unfold State.doReadMulti
  extract_lets one
  have hone (a : State × List Byte) (e : Nat × Nat × Bool) : OnlyChanges [.score] a.1 (one a e).1 := by
    unfold one
    split
    · exact .refl _ _
    · exact State.readOctets_only _ _ _ _ _ _
  have hf (l : List (Nat × Nat × Bool)) (a : State × List Byte) : OnlyChanges [.score] a.1 (l.foldl one a).1 := by
    induction l generalizing a with
    | nil => exact .refl _ _
    | cons e l ih => exact (hone a e).trans (ih _)
  split
  next t b e =>
  have h1 := hf es (s, [])
  rw [e] at h1
  split
  · exact .intro (.refl _ _) (fun _ => .refl _ _)
  · exact .intro h1 (fun _ => .refl _ _)

theorem State.doSteward_only (s : State) (h : Hdr) (index : Nat) (sub : Nat) (action : Nat) :
    AnswerOnly [.score, .seats] s (State.doSteward s h index sub action) := by
  unfold State.doSteward
  extract_lets _ _ _ f1 f2
  split
  · unfold f1
    refine .intro ?_ (fun u3 => ?_)
    · exact .refl _ _
    · exact .refl _ _
  · split
    · unfold f1
      refine .intro ?_ (fun u4 => ?_)
      · exact .refl _ _
      · exact .refl _ _
    · split
      · split
        · unfold f2
          refine .intro ?_ (fun u5 => ?_)
          · refine .step (State.ungrant_only _ _ _ _) rfl ?_
            exact .refl _ _
          · exact .refl _ _
        · unfold f1
          refine .intro ?_ (fun u6 => ?_)
          · exact .refl _ _
          · exact .refl _ _
      · unfold f2
        refine .intro ?_ (fun u7 => ?_)
        · exact .refl _ _
        · exact .refl _ _
      · split
        · unfold f1
          refine .intro ?_ (fun u8 => ?_)
          · exact .refl _ _
          · exact .refl _ _
        · split
          · unfold f1
            refine .intro ?_ (fun u9 => ?_)
            · exact .refl _ _
            · exact .refl _ _
          · split
            · unfold f1
              refine .intro ?_ (fun u10 => ?_)
              · exact .refl _ _
              · exact .refl _ _
            · unfold f2
              refine .intro ?_ (fun u11 => ?_)
              · refine .step (State.grant_only _ _ _ _) rfl ?_
                exact .refl _ _
              · exact .refl _ _
      · split
        · unfold f1
          refine .intro ?_ (fun u12 => ?_)
          · exact .refl _ _
          · exact .refl _ _
        · split
          · unfold f1
            refine .intro ?_ (fun u13 => ?_)
            · exact .refl _ _
            · exact .refl _ _
          · split
            · unfold f1
              refine .intro ?_ (fun u14 => ?_)
              · exact .refl _ _
              · exact .refl _ _
            · unfold f2
              refine .intro ?_ (fun u15 => ?_)
              · refine .step (State.presenceEvent_only _ _ _ _ _ _) rfl ?_
                refine .step (State.grant_only _ _ _ _) rfl ?_
                exact .refl _ _
              · exact .refl _ _

theorem State.doSubscribe_only (s : State) (h : Hdr) (index : Nat) (sub : Nat) (periodic : Bool) (interval : Nat) :
    AnswerOnly [.sent, .seats] s (State.doSubscribe s h index sub periodic interval) := by
  unfold State.doSubscribe
  extract_lets _ _ f1
  split
  · unfold f1
    refine .intro ?_ (fun u2 => ?_)
    · exact .refl _ _
    · exact .refl _ _
  · split
    · unfold f1
      refine .intro ?_ (fun u3 => ?_)
      · exact .refl _ _
      · exact .refl _ _
    · split
      · unfold f1
        refine .intro ?_ (fun u4 => ?_)
        · exact .refl _ _
        · exact .refl _ _
      · split
        · unfold f1
          refine .intro ?_ (fun u5 => ?_)
          · exact .refl _ _
          · exact .refl _ _
        · extract_lets _
          refine .intro ?_ (fun u6 => ?_)
          · refine .step (State.onSeat_only _ _ _) rfl ?_
            exact .refl _ _
          · refine .step (State.drainNotices_only _ _ _) rfl ?_
            refine .step (State.notify_only _ _ _) rfl ?_
            exact .refl _ _

theorem State.doUnsubscribe_only (s : State) (h : Hdr) (num : Nat) :
    AnswerOnly [.seats] s (State.doUnsubscribe s h num) := by
  unfold State.doUnsubscribe
  refine .intro ?_ (fun u1 => ?_)
  · refine .step (State.onSeat_only _ _ _) rfl ?_
    exact .refl _ _
  · exact .refl _ _

theorem State.serve_only (s : State) (h : Hdr) (r : Req) :
    AnswerOnly [.sent, .staged, .cfg, .groups, .irons, .shelf, .strings, .feeds, .models, .orders, .fuses, .tws, .lint, .score, .boot, .bootRec, .slots, .patch, .image, .safeSet, .presence, .tamper, .seats, .tts, .commits] s (State.serve s h r) := by
  unfold State.serve
  split
  · refine .intro ?_ (fun u1 => ?_)
    · exact .refl _ _
    · exact .refl _ _
  · split
    · refine .step (State.doClose_only _ _) rfl ?_
      exact .refl _ _
    · refine .intro ?_ (fun u2 => ?_)
      · exact .refl _ _
      · exact .refl _ _
    · refine .step (State.doRead_only _ _ _ _ _ _ _) rfl ?_
      exact .refl _ _
    · refine .step (State.doWrite_only _ _ _ _ _ _ _) rfl ?_
      exact .refl _ _
    · refine .step (State.doReadMulti_only _ _ _) rfl ?_
      exact .refl _ _
    · refine .step (State.doSteward_only _ _ _ _ _) rfl ?_
      exact .refl _ _
    · refine .step (State.doSubscribe_only _ _ _ _ _ _) rfl ?_
      exact .refl _ _
    · refine .step (State.doUnsubscribe_only _ _ _) rfl ?_
      exact .refl _ _
    · refine .intro ?_ (fun u3 => ?_)
      · exact .refl _ _
      · exact .refl _ _
    · refine .intro ?_ (fun u4 => ?_)
      · exact .refl _ _
      · exact .refl _ _

theorem State.processOpen_only (s : State) (h : Hdr) (r : Req) :
    OnlyChanges [.sent, .tb, .staged, .cfg, .chans, .groups, .ports, .irons, .flat, .senses, .dets, .presses, .shelf, .strings, .feeds, .models, .orders, .fuses, .tws, .sensors, .lint, .score, .boot, .bootRec, .slots, .patch, .image, .safeSet, .working, .presence, .tamper, .seats, .t1s, .cans, .tts, .ptp, .ptpAdj, .commits, .hardwareRun] s (State.processOpen s h r) := by
  unfold State.processOpen
  split
  · exact (State.send_only _ _ _).mono rfl
  · refine .ite ((State.turnAway_only _ _ _ _).mono rfl) ?_
    exact State.finish_only rfl ((State.serve_only _ _ _).step rfl ((State.onSeat_only _ _ _).mono rfl))
      (fun u => (State.takeEffect_only u _).mono rfl)

theorem State.doOpen_only (s : State) (h : Hdr) (cls : Nat) (lease : Nat) :
    AnswerOnly [.cfg, .score, .seats, .tts, .commits, .draws] s (State.doOpen s h cls lease) := by
  unfold State.doOpen
  extract_lets s1
  have hs1 : OnlyChanges [.cfg, .score, .seats, .tts, .commits, .draws] s s1 := by
    unfold s1
    refine .step (State.onSeat_only _ _ _) rfl ?_
    refine .step (State.openSeat_only _ _ _ _ _) rfl ?_
    exact .refl _ _
  clear_value s1
  split
  · refine .intro ?_ (fun u2 => ?_)
    · exact hs1
    · exact .refl _ _
  · refine .intro ?_ (fun u3 => ?_)
    · exact .refl _ _
    · exact .refl _ _

theorem State.doIdentify_only (s : State) :
    AnswerOnly [] s (State.doIdentify s) := by
  unfold State.doIdentify
  refine .intro ?_ (fun u1 => ?_)
  · exact .refl _ _
  · exact .refl _ _

theorem State.processFree_only (s : State) (h : Hdr) (r : Req) :
    OnlyChanges [.sent, .cfg, .score, .seats, .t1s, .tts, .commits, .draws] s (State.processFree s h r) := by
  unfold State.processFree
  refine .ite ((State.turnAway_only _ _ _ _).mono rfl) ?_
  split
  · exact .step (State.send_only _ _ _) rfl ((State.doOpen_only _ _ _ _).1.mono rfl)
  · exact .step (State.send_only _ _ _) rfl (.refl _ _)

theorem State.process_only (s : State) (h : Hdr) (op : Nat) (r : Except Nat Req) :
    OnlyChanges [.sent, .tb, .staged, .cfg, .chans, .groups, .ports, .irons, .flat, .senses, .dets, .presses, .shelf, .strings, .feeds, .models, .orders, .fuses, .tws, .sensors, .lint, .score, .boot, .bootRec, .slots, .patch, .image, .safeSet, .working, .presence, .tamper, .seats, .t1s, .cans, .tts, .ptp, .ptpAdj, .commits, .hardwareRun, .draws] s (State.process s h op r) := by
  unfold State.process
  extract_lets _ _ _ _ _ _ _ _ _ s1
  have hs1 : OnlyChanges [.sent, .tb, .staged, .cfg, .chans, .groups, .ports, .irons, .flat, .senses, .dets, .presses, .shelf, .strings, .feeds, .models, .orders, .fuses, .tws, .sensors, .lint, .score, .boot, .bootRec, .slots, .patch, .image, .safeSet, .working, .presence, .tamper, .seats, .t1s, .cans, .tts, .ptp, .ptpAdj, .commits, .hardwareRun, .draws] s s1 := by
    unfold s1
    refine .ite ?_ ?_
    · refine .step (State.onSeat_only _ _ _) rfl ?_
      exact .refl _ _
    · exact .refl _ _
  clear_value s1
  refine .ite ?_ ?_
  · exact .refl _ _
  · split
    · refine .step (State.turnAway_only _ _ _ _) rfl ?_
      exact hs1
    · refine .ite ?_ ?_
      · refine .step (State.turnAway_only _ _ _ _) rfl ?_
        exact hs1
      · refine .ite ?_ ?_
        · refine .step (State.turnAway_only _ _ _ _) rfl ?_
          exact hs1
        · refine .ite ?_ ?_
          · refine .step (State.processFree_only _ _ _) rfl ?_
            exact hs1
          · refine .ite ?_ ?_
            · refine .step (State.processOpen_only _ _ _) rfl ?_
              exact hs1
            · refine .step (State.turnAway_only _ _ _ _) rfl ?_
              exact hs1

theorem State.request_only (s : State) (h : Hdr) (r : Req) :
    OnlyChanges [.sent, .tb, .staged, .cfg, .chans, .groups, .ports, .irons, .flat, .senses, .dets, .presses, .shelf, .strings, .feeds, .models, .orders, .fuses, .tws, .sensors, .lint, .score, .boot, .bootRec, .slots, .patch, .image, .safeSet, .working, .presence, .tamper, .seats, .t1s, .cans, .tts, .ptp, .ptpAdj, .commits, .hardwareRun, .draws] s (State.request s h r) := by
  unfold State.request
  refine .step (State.process_only _ _ _ _) rfl ?_
  exact .refl _ _

theorem State.writeRequest_only (s : State) (h : Hdr) (e : Expect) (index : Nat) (sub : Nat) (v : Int) :
    OnlyChanges [.sent, .tb, .staged, .cfg, .chans, .groups, .ports, .irons, .flat, .senses, .dets, .presses, .shelf, .strings, .feeds, .models, .orders, .fuses, .tws, .sensors, .lint, .score, .boot, .bootRec, .slots, .patch, .image, .safeSet, .working, .presence, .tamper, .seats, .t1s, .cans, .tts, .ptp, .ptpAdj, .commits, .hardwareRun, .draws] s (State.writeRequest s h e index sub v) := by
  unfold State.writeRequest
  refine .step (State.request_only _ _ _) rfl ?_
  exact .refl _ _

end Sys2Proof.Machine
end

