-- ==== Sys2Proof/Laws/FramesTransports.lean ====
section
/-!
SUPPORT. Footprints of the operations of Machine/Transports.lean.
-/
namespace Sys2Proof.Machine
set_option Elab.async false

theorem State.onT1s_only (s : State) (t : Nat) (f : T1sRun → T1sRun) :
    OnlyChanges [.t1s] s (State.onT1s s t f) := by
  unfold State.onT1s
  refine .step (set_t1s_only _ _) rfl ?_
  exact .refl _ _

theorem State.onCan_only (s : State) (c : Nat) (f : CanRun → CanRun) :
    OnlyChanges [.cans] s (State.onCan s c f) := by
  unfold State.onCan
  refine .step (set_cans_only _ _) rfl ?_
  exact .refl _ _

theorem State.dropDatagram_only (s : State) (t : Nat) :
    OnlyChanges [.t1s] s (State.dropDatagram s t) := by
  unfold State.dropDatagram
  refine .step (State.onT1s_only _ _ _) rfl ?_
  exact .refl _ _

theorem State.udpDatagram_only (s : State) (x : Datagram) :
    OnlyChanges [.sent, .tb, .staged, .cfg, .chans, .groups, .ports, .irons, .flat, .senses, .dets, .presses, .shelf, .strings, .feeds, .models, .orders, .fuses, .tws, .sensors, .lint, .score, .boot, .bootRec, .slots, .patch, .image, .safeSet, .working, .presence, .tamper, .seats, .t1s, .cans, .tts, .ptp, .ptpAdj, .commits, .hardwareRun, .draws] s (State.udpDatagram s x) := by
  unfold State.udpDatagram
  extract_lets _ _ _ _ _ _ _ s1 _
  have hs1 : OnlyChanges [.sent, .tb, .staged, .cfg, .chans, .groups, .ports, .irons, .flat, .senses, .dets, .presses, .shelf, .strings, .feeds, .models, .orders, .fuses, .tws, .sensors, .lint, .score, .boot, .bootRec, .slots, .patch, .image, .safeSet, .working, .presence, .tamper, .seats, .t1s, .cans, .tts, .ptp, .ptpAdj, .commits, .hardwareRun, .draws] s s1 := by
    unfold s1
    refine .step (State.onT1s_only _ _ _) rfl ?_
    exact .refl _ _
  clear_value s1
  refine .ite ?_ ?_
  · exact .refl _ _
  · refine .ite ?_ ?_
    · refine .step (State.dropDatagram_only _ _) rfl ?_
      exact hs1
    · refine .ite ?_ ?_
      · refine .ite ?_ ?_
        · exact hs1
        · refine .step (State.dropDatagram_only _ _) rfl ?_
          exact hs1
      · refine .ite ?_ ?_
        · refine .step (State.dropDatagram_only _ _) rfl ?_
          exact hs1
        · split
          refine .step (State.process_only _ _ _ _) rfl ?_
          exact hs1

theorem State.delayedReply_only (s : State) (t : Nat) :
    OnlyChanges [.sent, .t1s] s (State.delayedReply s t) := by
  unfold State.delayedReply
  split
  · exact .refl _ _
  · extract_lets s1
    have hs1 : OnlyChanges [.sent, .t1s] s s1 := by
      unfold s1
      refine .step (State.onT1s_only _ _ _) rfl ?_
      exact .refl _ _
    clear_value s1
    refine .step (set_out_only _ _) rfl ?_
    exact hs1

theorem State.dropMessage_only (s : State) (c : Nat) :
    OnlyChanges [.cans] s (State.dropMessage s c) := by
  unfold State.dropMessage
  refine .step (State.onCan_only _ _ _) rfl ?_
  exact .refl _ _

theorem State.forget_only (s : State) (c : Nat) (seat : Nat) (mark : Nat) :
    OnlyChanges [.cans] s (State.forget s c seat mark) := by
  unfold State.forget
  refine .step (State.onCan_only _ _ _) rfl ?_
  exact .refl _ _

theorem State.canMessage_only (s : State) (c : Nat) (seat : Nat) (mark : Nat) (busy : Bool) (m : List Byte) :
    OnlyChanges [.sent, .tb, .staged, .cfg, .chans, .groups, .ports, .irons, .flat, .senses, .dets, .presses, .shelf, .strings, .feeds, .models, .orders, .fuses, .tws, .sensors, .lint, .score, .boot, .bootRec, .slots, .patch, .image, .safeSet, .working, .presence, .tamper, .seats, .t1s, .cans, .tts, .ptp, .ptpAdj, .commits, .hardwareRun, .draws] s (State.canMessage s c seat mark busy m) := by
  unfold State.canMessage
  refine .ite ?_ ?_
  · refine .step (State.dropMessage_only _ _) rfl ?_
    exact .refl _ _
  · split
    refine .step (State.process_only _ _ _ _) rfl ?_
    exact .refl _ _

theorem State.canJoin_only (s : State) (c : Nat) (seat : Nat) (mark : Nat) (seg : Nat) (last : Bool) (busy : Bool) (before : List Byte) (octets : List Byte) :
    OnlyChanges [.sent, .tb, .staged, .cfg, .chans, .groups, .ports, .irons, .flat, .senses, .dets, .presses, .shelf, .strings, .feeds, .models, .orders, .fuses, .tws, .sensors, .lint, .score, .boot, .bootRec, .slots, .patch, .image, .safeSet, .working, .presence, .tamper, .seats, .t1s, .cans, .tts, .ptp, .ptpAdj, .commits, .hardwareRun, .draws] s (State.canJoin s c seat mark seg last busy before octets) := by
  unfold State.canJoin
  extract_lets _ _ _ _ _ _ _ s1
  have hs1 : OnlyChanges [.sent, .tb, .staged, .cfg, .chans, .groups, .ports, .irons, .flat, .senses, .dets, .presses, .shelf, .strings, .feeds, .models, .orders, .fuses, .tws, .sensors, .lint, .score, .boot, .bootRec, .slots, .patch, .image, .safeSet, .working, .presence, .tamper, .seats, .t1s, .cans, .tts, .ptp, .ptpAdj, .commits, .hardwareRun, .draws] s s1 := by
    unfold s1
    refine .step (State.forget_only _ _ _ _) rfl ?_
    exact .refl _ _
  clear_value s1
  refine .ite ?_ ?_
  · refine .step (State.canMessage_only _ _ _ _ _ _) rfl ?_
    exact hs1
  · refine .ite ?_ ?_
    · refine .step (State.dropMessage_only _ _) rfl ?_
      exact hs1
    · refine .step (State.onCan_only _ _ _) rfl ?_
      exact hs1

theorem State.canErrors_only (s : State) (c : Nat) (errors : Nat) :
    OnlyChanges [.cans] s (State.canErrors s c errors) := by
  unfold State.canErrors
  refine .step (State.onCan_only _ _ _) rfl ?_
  exact .refl _ _

theorem State.canReceive_only (s : State) (x : CanFrame) :
    OnlyChanges [.sent, .tb, .staged, .cfg, .chans, .groups, .ports, .irons, .flat, .senses, .dets, .presses, .shelf, .strings, .feeds, .models, .orders, .fuses, .tws, .sensors, .lint, .score, .boot, .bootRec, .slots, .patch, .image, .safeSet, .working, .presence, .tamper, .seats, .t1s, .cans, .tts, .ptp, .ptpAdj, .commits, .hardwareRun, .draws] s (State.canReceive s x) := by
  unfold State.canReceive
  extract_lets _ _ _ _ _ _ _ _ s1 _ _ _ _
  have hs1 : OnlyChanges [.sent, .tb, .staged, .cfg, .chans, .groups, .ports, .irons, .flat, .senses, .dets, .presses, .shelf, .strings, .feeds, .models, .orders, .fuses, .tws, .sensors, .lint, .score, .boot, .bootRec, .slots, .patch, .image, .safeSet, .working, .presence, .tamper, .seats, .t1s, .cans, .tts, .ptp, .ptpAdj, .commits, .hardwareRun, .draws] s s1 := by
    unfold s1
    refine .step (State.onCan_only _ _ _) rfl ?_
    exact .refl _ _
  clear_value s1
  refine .ite ?_ ?_
  · exact .refl _ _
  · refine .ite ?_ ?_
    · refine .step (State.dropMessage_only _ _) rfl ?_
      exact .refl _ _
    · split
      · refine .ite ?_ ?_
        · refine .step (State.canJoin_only _ _ _ _ _ _ _ _ _) rfl ?_
          exact hs1
        · exact hs1
      · refine .ite ?_ ?_
        · refine .step (State.canJoin_only _ _ _ _ _ _ _ _ _) rfl ?_
          refine .step (State.dropMessage_only _ _) rfl ?_
          exact hs1
        · refine .ite ?_ ?_
          · refine .step (State.dropMessage_only _ _) rfl ?_
            refine .step (State.forget_only _ _ _ _) rfl ?_
            exact hs1
          · refine .step (State.canJoin_only _ _ _ _ _ _ _ _ _) rfl ?_
            exact hs1

theorem State.canSegment_only (s : State) (x : CanFrame) :
    OnlyChanges [.sent, .tb, .staged, .cfg, .chans, .groups, .ports, .irons, .flat, .senses, .dets, .presses, .shelf, .strings, .feeds, .models, .orders, .fuses, .tws, .sensors, .lint, .score, .boot, .bootRec, .slots, .patch, .image, .safeSet, .working, .presence, .tamper, .seats, .t1s, .cans, .tts, .ptp, .ptpAdj, .commits, .hardwareRun, .draws] s (State.canSegment s x) := by
  unfold State.canSegment
  extract_lets _ _ _ _ _ _ _ _
  refine .ite ?_ ?_
  · exact .refl _ _
  · refine .ite ?_ ?_
    · refine .step (State.canErrors_only _ _ _) rfl ?_
      exact .refl _ _
    · refine .step (State.canReceive_only _ _) rfl ?_
      refine .step (State.canErrors_only _ _ _) rfl ?_
      exact .refl _ _

theorem State.segmentTimeout_only (s : State) (c : Nat) (seat : Nat) (mark : Nat) :
    OnlyChanges [.cans] s (State.segmentTimeout s c seat mark) := by
  unfold State.segmentTimeout
  split
  · refine .ite ?_ ?_
    · refine .step (State.dropMessage_only _ _) rfl ?_
      refine .step (State.forget_only _ _ _ _) rfl ?_
      exact .refl _ _
    · exact .refl _ _
  · exact .refl _ _

theorem State.busOffRecovery_only (s : State) (c : Nat) :
    OnlyChanges [.cans] s (State.busOffRecovery s c) := by
  unfold State.busOffRecovery
  refine .step (State.onCan_only _ _ _) rfl ?_
  exact .refl _ _

theorem State.onPtp_only (s : State) (f : PtpRun → PtpRun) :
    OnlyChanges [.ptp] s (State.onPtp s f) := by
  unfold State.onPtp
  refine .step (set_ptp_only _ _) rfl ?_
  exact .refl _ _

theorem State.timeStep_only (s : State) (offset : Int) :
    OnlyChanges [.clock, .score, .ptp] s (State.timeStep s offset) := by
  unfold State.timeStep
  extract_lets _ _ _ s1 s2
  have hs1 : OnlyChanges [.clock, .score, .ptp] s s1 := by
    unfold s1
    refine .step (set_clock_only _ _) rfl ?_
    exact .refl _ _
  clear_value s1
  have hs2 : OnlyChanges [.clock, .score, .ptp] s s2 := by
    unfold s2
    refine .step (State.onPtp_only _ _) rfl ?_
    exact hs1
  clear_value s2
  refine .step (State.changeAlone_only _ _ _ _ _ _) rfl ?_
  exact hs2

theorem State.discipline_only (s : State) (offset : Int) :
    OnlyChanges [.clock, .score, .ptp, .ptpAdj, .draws] s (State.discipline s offset) := by
  unfold State.discipline
  extract_lets _ s1 _ _ s2
  have hs1 : OnlyChanges [.clock, .score, .ptp, .ptpAdj, .draws] s s1 := by
    unfold s1
    refine .step (State.onPtp_only _ _) rfl ?_
    exact .refl _ _
  clear_value s1
  have hs2 : OnlyChanges [.clock, .score, .ptp, .ptpAdj, .draws] s s2 := by
    unfold s2
    refine .step (set_ptpAdj_draws_only _ _ _) rfl ?_
    exact hs1
  clear_value s2
  refine .ite ?_ ?_
  · refine .step (State.timeStep_only _ _) rfl ?_
    exact hs1
  · refine .step (State.onPtp_only _ _) rfl ?_
    exact hs2

theorem State.delayReq_only (s : State) :
    OnlyChanges [.sent, .ptp] s (State.delayReq s) := by
  unfold State.delayReq
  extract_lets s1
  have hs1 : OnlyChanges [.sent, .ptp] s s1 := by
    unfold s1
    refine .step (State.onPtp_only _ _) rfl ?_
    exact .refl _ _
  clear_value s1
  refine .step (set_out_only _ _) rfl ?_
  exact hs1

theorem State.ptpSync_only (s : State) (t1 : Int) (t2 : Int) :
    OnlyChanges [.sent, .clock, .score, .ptp, .ptpAdj, .draws] s (State.ptpSync s t1 t2) := by
  unfold State.ptpSync
  extract_lets s1
  have hs1 : OnlyChanges [.sent, .clock, .score, .ptp, .ptpAdj, .draws] s s1 := by
    unfold s1
    refine .step (State.onPtp_only _ _) rfl ?_
    exact .refl _ _
  clear_value s1
  refine .step (State.delayReq_only _) rfl ?_
  refine .step (State.discipline_only _ _) rfl ?_
  exact hs1

theorem State.ptpAnnounce_only (s : State) (source : Nat) (rank : List Nat) (interval : Nat) :
    OnlyChanges [.ptp] s (State.ptpAnnounce s source rank interval) := by
  unfold State.ptpAnnounce
  extract_lets _ _ f1 _ s2
  have hs2 : OnlyChanges [.ptp] s s2 := by
    unfold s2
    refine .step (State.onPtp_only _ _) rfl ?_
    exact .refl _ _
  clear_value s2
  refine .ite ?_ ?_
  · refine .step (State.onPtp_only _ _) rfl ?_
    exact .refl _ _
  · refine .ite ?_ ?_
    · refine .step (State.onPtp_only _ _) rfl ?_
      exact hs2
    · exact hs2

theorem State.ptpMessage_only (s : State) (x : PtpIn) :
    OnlyChanges [.sent, .clock, .score, .ptp, .ptpAdj, .draws] s (State.ptpMessage s x) := by
  unfold State.ptpMessage
  extract_lets f1
  refine .ite ?_ ?_
  · exact .refl _ _
  · split
    · refine .step (State.ptpAnnounce_only _ _ _ _) rfl ?_
      exact .refl _ _
    · refine .ite ?_ ?_
      · exact .refl _ _
      · refine .ite ?_ ?_
        · refine .step (State.onPtp_only _ _) rfl ?_
          exact .refl _ _
        · refine .step (State.ptpSync_only _ _ _) rfl ?_
          exact .refl _ _
    · split
      · refine .ite ?_ ?_
        · refine .step (State.ptpSync_only _ _ _) rfl ?_
          exact .refl _ _
        · exact .refl _ _
      · exact .refl _ _
    · refine .ite ?_ ?_
      · refine .step (State.onPtp_only _ _) rfl ?_
        exact .refl _ _
      · exact .refl _ _
    · exact .refl _ _

theorem State.announceTimeout_only (s : State) :
    OnlyChanges [.ptp] s (State.announceTimeout s) := by
  unfold State.announceTimeout
  refine .ite ?_ ?_
  · refine .step (State.onPtp_only _ _) rfl ?_
    exact .refl _ _
  · exact .refl _ _

theorem State.offsetStep_only (s : State) :
    OnlyChanges [.clock, .score, .ptp] s (State.offsetStep s) := by
  unfold State.offsetStep
  split
  · refine .ite ?_ ?_
    · refine .step (State.timeStep_only _ _) rfl ?_
      exact .refl _ _
    · exact .refl _ _
  · exact .refl _ _

end Sys2Proof.Machine
end

