-- ==== Sys2Proof/Laws/FramesPmbus.lean ====
section
/-!
SUPPORT. Footprints of the operations of Machine/Pmbus.lean.
-/
namespace Sys2Proof.Machine
set_option Elab.async false

theorem State.ttMark_only (s : State) (t : Nat) (bit : Nat) :
    OnlyChanges [.tts] s (State.ttMark s t bit) := by
  unfold State.ttMark
  refine .step (State.onTt_only _ _ _) rfl ?_
  exact .refl _ _

theorem State.ttTouch_only (s : State) (t : Nat) :
    OnlyChanges [.seats] s (State.ttTouch s t) := by
  unfold State.ttTouch
  refine .step (State.onSeat_only _ _ _) rfl ?_
  exact .refl _ _

theorem State.ttNack_only (s : State) (t : Nat) :
    OnlyChanges [.sent] s (State.ttNack s t) := by
  unfold State.ttNack
  refine .step (set_out_only _ _) rfl ?_
  exact .refl _ _

theorem State.ttRefuse_only (s : State) (t : Nat) (bit : Nat) :
    OnlyChanges [.sent, .tts] s (State.ttRefuse s t bit) := by
  unfold State.ttRefuse
  refine .step (State.ttNack_only _ _) rfl ?_
  refine .step (State.ttMark_only _ _ _) rfl ?_
  exact .refl _ _

theorem State.ttDiscard_only (s : State) (t : Nat) :
    OnlyChanges [.tts] s (State.ttDiscard s t) := by
  unfold State.ttDiscard
  refine .step (State.ttMark_only _ _ _) rfl ?_
  refine .step (State.onTt_only _ _ _) rfl ?_
  exact .refl _ _

theorem State.ttAnswer_only (s : State) (t : Nat) (code : Byte) (ack : Bool) (data : List Byte) :
    OnlyChanges [.sent] s (State.ttAnswer s t code ack data) := by
  unfold State.ttAnswer
  refine .step (set_out_only _ _) rfl ?_
  exact .refl _ _

theorem State.ttRead_only (s : State) (t : Nat) (code : Byte) (ack : Bool) :
    OnlyChanges [.sent, .seats, .tts] s (State.ttRead s t code ack) := by
  unfold State.ttRead
  extract_lets s1
  have hs1 : OnlyChanges [.sent, .seats, .tts] s s1 := by
    unfold s1
    refine .step (State.ttTouch_only _ _) rfl ?_
    exact .refl _ _
  clear_value s1
  refine .ite ?_ ?_
  · refine .step (State.ttNack_only _ _) rfl ?_
    exact .refl _ _
  · split
    · refine .step (State.ttRefuse_only _ _ _) rfl ?_
      exact hs1
    · refine .ite ?_ ?_
      · refine .step (State.ttAnswer_only _ _ _ _ _) rfl ?_
        exact hs1
      · refine .step (State.ttRefuse_only _ _ _) rfl ?_
        exact hs1
    · refine .step (State.ttRefuse_only _ _ _) rfl ?_
      exact hs1

theorem State.ttSend_only (s : State) (t : Nat) (ack : Bool) (octets : List Byte) :
    OnlyChanges [.sent, .tts] s (State.ttSend s t ack octets) := by
  unfold State.ttSend
  extract_lets s1
  have hs1 : OnlyChanges [.sent, .tts] s s1 := by
    unfold s1
    refine .step (State.ttAnswer_only _ _ _ _ _) rfl ?_
    exact .refl _ _
  clear_value s1
  refine .step (State.onTt_only _ _ _) rfl ?_
  exact hs1

theorem State.ttSendReply_only (s : State) (t : Nat) (ack : Bool) (q : Queued) :
    OnlyChanges [.sent, .tb, .cfg, .chans, .groups, .ports, .irons, .flat, .senses, .dets, .presses, .shelf, .strings, .feeds, .models, .fuses, .tws, .sensors, .lint, .score, .boot, .bootRec, .safeSet, .working, .seats, .t1s, .cans, .tts, .ptp, .ptpAdj, .commits, .hardwareRun] s (State.ttSendReply s t ack q) := by
  unfold State.ttSendReply
  refine .step (State.takeEffect_only _ _) rfl ?_
  refine .step (State.ttSend_only _ _ _ _) rfl ?_
  refine .step (State.onTt_only _ _ _) rfl ?_
  exact .refl _ _

theorem State.ttSendNotice_only (s : State) (t : Nat) (ack : Bool) :
    OnlyChanges [.sent, .seats, .tts] s (State.ttSendNotice s t ack) := by
  unfold State.ttSendNotice
  extract_lets _
  split
  · refine .step (State.ttSend_only _ _ _ _) rfl ?_
    refine .step (State.popNotice_to (by assumption)) rfl ?_
    exact .refl _ _
  · refine .step (State.ttSend_only _ _ _ _) rfl ?_
    refine .step (State.popNotice_to (by assumption)) rfl ?_
    exact .refl _ _

theorem State.oapRead_only (s : State) (t : Nat) (ack : Bool) :
    OnlyChanges [.sent, .tb, .cfg, .chans, .groups, .ports, .irons, .flat, .senses, .dets, .presses, .shelf, .strings, .feeds, .models, .fuses, .tws, .sensors, .lint, .score, .boot, .bootRec, .safeSet, .working, .seats, .t1s, .cans, .tts, .ptp, .ptpAdj, .commits, .hardwareRun] s (State.oapRead s t ack) := by
  unfold State.oapRead
  extract_lets s1
  have hs1 : OnlyChanges [.sent, .tb, .cfg, .chans, .groups, .ports, .irons, .flat, .senses, .dets, .presses, .shelf, .strings, .feeds, .models, .fuses, .tws, .sensors, .lint, .score, .boot, .bootRec, .safeSet, .working, .seats, .t1s, .cans, .tts, .ptp, .ptpAdj, .commits, .hardwareRun] s s1 := by
    unfold s1
    refine .step (State.ttTouch_only _ _) rfl ?_
    exact .refl _ _
  clear_value s1
  refine .ite ?_ ?_
  · refine .step (State.ttNack_only _ _) rfl ?_
    exact .refl _ _
  · split
    · refine .ite ?_ ?_
      · refine .step (State.ttSendNotice_only _ _ _) rfl ?_
        exact hs1
      · refine .step (State.ttSendReply_only _ _ _ _) rfl ?_
        exact hs1
    · refine .step (State.ttSendReply_only _ _ _ _) rfl ?_
      exact hs1
    · refine .step (State.ttSendNotice_only _ _ _) rfl ?_
      exact hs1
    · refine .step (State.ttSend_only _ _ _ _) rfl ?_
      exact hs1

theorem State.notifyHost_only (s : State) (t : Nat) (lost : Bool) :
    OnlyChanges [.sent, .tts] s (State.notifyHost s t lost) := by
  unfold State.notifyHost
  extract_lets s1
  have hs1 : OnlyChanges [.sent, .tts] s s1 := by
    unfold s1
    refine .step (State.onTt_only _ _ _) rfl ?_
    exact .refl _ _
  clear_value s1
  refine .ite ?_ ?_
  · refine .step (State.onTt_only _ _ _) rfl ?_
    exact .refl _ _
  · refine .step (set_out_only _ _) rfl ?_
    exact hs1

theorem State.hostNotify_only (s : State) (t : Nat) (lost : Bool) :
    OnlyChanges [.sent, .tts] s (State.hostNotify s t lost) := by
  unfold State.hostNotify
  refine .ite ?_ ?_
  · refine .step (State.notifyHost_only _ _ _) rfl ?_
    exact .refl _ _
  · exact .refl _ _

theorem State.hostNotifyRepeat_only (s : State) (t : Nat) (lost : Bool) :
    OnlyChanges [.sent, .tts] s (State.hostNotifyRepeat s t lost) := by
  unfold State.hostNotifyRepeat
  split
  · refine .ite ?_ ?_
    · refine .step (State.notifyHost_only _ _ _) rfl ?_
      exact .refl _ _
    · exact .refl _ _
  · exact .refl _ _

theorem State.pageWrite_only (s : State) (t : Nat) (octets : List Byte) (pec : Option Byte) :
    OnlyChanges [.sent, .seats, .tts] s (State.pageWrite s t octets pec) := by
  unfold State.pageWrite
  extract_lets s1
  have hs1 : OnlyChanges [.sent, .seats, .tts] s s1 := by
    unfold s1
    refine .step (State.ttTouch_only _ _) rfl ?_
    exact .refl _ _
  clear_value s1
  refine .ite ?_ ?_
  · refine .step (State.ttNack_only _ _) rfl ?_
    exact .refl _ _
  · split
    · refine .step (State.ttDiscard_only _ _) rfl ?_
      exact hs1
    · refine .ite ?_ ?_
      · refine .step (State.ttDiscard_only _ _) rfl ?_
        exact hs1
      · refine .ite ?_ ?_
        · refine .step (State.ttRefuse_only _ _ _) rfl ?_
          exact hs1
        · refine .step (State.onTt_only _ _ _) rfl ?_
          exact hs1

theorem State.page_only (s : State) (t : Nat) (x : PageIn) :
    OnlyChanges [.sent, .seats, .tts] s (State.page s t x) := by
  unfold State.page
  split
  · refine .step (State.ttRead_only _ _ _ _) rfl ?_
    exact .refl _ _
  · refine .step (State.pageWrite_only _ _ _ _) rfl ?_
    exact .refl _ _

theorem State.clearFaults_only (s : State) (t : Nat) (pec : Option Byte) :
    OnlyChanges [.sent, .seats, .tts] s (State.clearFaults s t pec) := by
  unfold State.clearFaults
  extract_lets s1
  have hs1 : OnlyChanges [.sent, .seats, .tts] s s1 := by
    unfold s1
    refine .step (State.ttTouch_only _ _) rfl ?_
    exact .refl _ _
  clear_value s1
  refine .ite ?_ ?_
  · refine .step (State.ttNack_only _ _) rfl ?_
    exact .refl _ _
  · refine .ite ?_ ?_
    · refine .step (State.ttRefuse_only _ _ _) rfl ?_
      exact hs1
    · refine .ite ?_ ?_
      · refine .step (State.ttDiscard_only _ _) rfl ?_
        exact hs1
      · refine .step (State.onTt_only _ _ _) rfl ?_
        exact hs1

theorem State.oapMessage_only (s : State) (t : Nat) (busy : Bool) (x : BlockIn) (pec : Option Byte) :
    OnlyChanges [.sent, .tb, .staged, .cfg, .chans, .groups, .ports, .irons, .flat, .senses, .dets, .presses, .shelf, .strings, .feeds, .models, .orders, .fuses, .tws, .sensors, .lint, .score, .boot, .bootRec, .slots, .patch, .image, .safeSet, .working, .presence, .tamper, .seats, .t1s, .cans, .tts, .ptp, .ptpAdj, .commits, .hardwareRun, .draws] s (State.oapMessage s t busy x pec) := by
  unfold State.oapMessage
  extract_lets _ _ _ _ _ _ _ _
  refine .ite ?_ ?_
  · refine .step (State.ttDiscard_only _ _) rfl ?_
    exact .refl _ _
  · refine .ite ?_ ?_
    · refine .step (State.ttRefuse_only _ _ _) rfl ?_
      exact .refl _ _
    · split
      refine .step (State.process_only _ _ _ _) rfl ?_
      exact .refl _ _

theorem State.oapWrite_only (s : State) (t : Nat) (busy : Bool) (x : BlockIn) (pec : Option Byte) :
    OnlyChanges [.sent, .tb, .staged, .cfg, .chans, .groups, .ports, .irons, .flat, .senses, .dets, .presses, .shelf, .strings, .feeds, .models, .orders, .fuses, .tws, .sensors, .lint, .score, .boot, .bootRec, .slots, .patch, .image, .safeSet, .working, .presence, .tamper, .seats, .t1s, .cans, .tts, .ptp, .ptpAdj, .commits, .hardwareRun, .draws] s (State.oapWrite s t busy x pec) := by
  unfold State.oapWrite
  extract_lets _ _ _ _ _ _ _ s1
  have hs1 : OnlyChanges [.sent, .tb, .staged, .cfg, .chans, .groups, .ports, .irons, .flat, .senses, .dets, .presses, .shelf, .strings, .feeds, .models, .orders, .fuses, .tws, .sensors, .lint, .score, .boot, .bootRec, .slots, .patch, .image, .safeSet, .working, .presence, .tamper, .seats, .t1s, .cans, .tts, .ptp, .ptpAdj, .commits, .hardwareRun, .draws] s s1 := by
    unfold s1
    refine .step (State.ttTouch_only _ _) rfl ?_
    exact .refl _ _
  clear_value s1
  refine .ite ?_ ?_
  · refine .step (State.ttNack_only _ _) rfl ?_
    exact .refl _ _
  · refine .ite ?_ ?_
    · refine .step (State.oapMessage_only _ _ _ _ _) rfl ?_
      exact hs1
    · refine .ite ?_ ?_
      · refine .step (State.pageWrite_only _ _ _ _) rfl ?_
        exact .refl _ _
      · refine .ite ?_ ?_
        · refine .step (State.clearFaults_only _ _ _) rfl ?_
          exact .refl _ _
        · refine .ite ?_ ?_
          · refine .step (State.ttRefuse_only _ _ _) rfl ?_
            exact hs1
          · split
            · refine .step (State.ttRefuse_only _ _ _) rfl ?_
              exact hs1
            · refine .step (State.ttRefuse_only _ _ _) rfl ?_
              exact hs1

theorem State.targetAbort_only (s : State) (t : Nat) :
    OnlyChanges [.tts] s (State.targetAbort s t) := by
  unfold State.targetAbort
  refine .ite ?_ ?_
  · refine .step (State.ttDiscard_only _ _) rfl ?_
    exact .refl _ _
  · exact .refl _ _

theorem State.targetTimeout_only (s : State) (t : Nat) (writing : Bool) :
    OnlyChanges [.tts] s (State.targetTimeout s t writing) := by
  unfold State.targetTimeout
  refine .ite ?_ ?_
  · refine .step (State.ttDiscard_only _ _) rfl ?_
    exact .refl _ _
  · exact .refl _ _

end Sys2Proof.Machine
end

