-- ==== Sys2Proof/Laws/FramesRows.lean ====
section
/-!
SUPPORT. Footprints of the operations of Machine/Rows.lean.
-/
namespace Sys2Proof.Machine
set_option Elab.async false

theorem State.fresh_only (s : State) :
    OnlyChanges [.sent] s (State.fresh s) := by
  unfold State.fresh
  refine .step (set_out_only _ _) rfl ?_
  exact .refl _ _

theorem State.hostPut_only (s : State) (h : Hdr) (e : Expect) (f : Family) (unit : Nat) (off : Nat) (sub : Nat) (v : Int) :
    OnlyChanges [.sent, .tb, .staged, .cfg, .chans, .groups, .ports, .irons, .flat, .senses, .dets, .presses, .shelf, .strings, .feeds, .models, .orders, .fuses, .tws, .sensors, .lint, .score, .boot, .bootRec, .slots, .patch, .image, .safeSet, .working, .presence, .tamper, .seats, .t1s, .cans, .tts, .ptp, .ptpAdj, .commits, .hardwareRun, .draws] s (State.hostPut s h e f unit off sub v) := by
  unfold State.hostPut
  refine .ite ?_ ?_
  · refine .step (State.writeRequest_only _ _ _ _ _ _) rfl ?_
    exact .refl _ _
  · exact .refl _ _

theorem State.ask_only {qs : List Part} {a s : State} {o : Source} {f : Family} {unit off sub : Nat} {v : Int}
    {block : State → State} (hb : ∀ u, OnlyChanges qs u (block u)) (w : Part.within [.sent, .tb, .staged, .cfg, .chans, .groups, .ports, .irons, .flat, .senses, .dets, .presses, .shelf, .strings, .feeds, .models, .orders, .fuses, .tws, .sensors, .lint, .score, .boot, .bootRec, .slots, .patch, .image, .safeSet, .working, .presence, .tamper, .seats, .t1s, .cans, .tts, .ptp, .ptpAdj, .commits, .hardwareRun, .draws] qs = true)
    (h : OnlyChanges qs a s) : OnlyChanges qs a (s.ask o f unit off sub v block) := by
  unfold State.ask
  split
  · exact (State.hostPut_only _ _ _ _ _ _ _ _).step w h
  · exact h.trans (hb s)

theorem State.ifDone_only {qs : List Part} {a s : State} {e : Except Refused State} (k : OkOnly qs s e)
    (h : OnlyChanges qs a s) : OnlyChanges qs a (s.ifDone e) := by
  cases e with
  | ok t => exact h.trans (k t rfl)
  | error r => exact h

theorem State.startGroup_only (s : State) (o : Source) (g : Nat) :
    OnlyChanges [.sent, .tb, .staged, .cfg, .chans, .groups, .ports, .irons, .flat, .senses, .dets, .presses, .shelf, .strings, .feeds, .models, .orders, .fuses, .tws, .sensors, .lint, .score, .boot, .bootRec, .slots, .patch, .image, .safeSet, .working, .presence, .tamper, .seats, .t1s, .cans, .tts, .ptp, .ptpAdj, .commits, .hardwareRun, .draws] s (State.startGroup s o g) := by
  unfold State.startGroup
  refine State.ask_only (fun u1 => ?_) rfl ?_
  · refine .step (State.requestGroup_only _ _) rfl ?_
    exact .refl _ _
  · exact .refl _ _

theorem State.stopGroup_only (s : State) (o : Source) (g : Nat) :
    OnlyChanges [.sent, .tb, .staged, .cfg, .chans, .groups, .ports, .irons, .flat, .senses, .dets, .presses, .shelf, .strings, .feeds, .models, .orders, .fuses, .tws, .sensors, .lint, .score, .boot, .bootRec, .slots, .patch, .image, .safeSet, .working, .presence, .tamper, .seats, .t1s, .cans, .tts, .ptp, .ptpAdj, .commits, .hardwareRun, .draws] s (State.stopGroup s o g) := by
  unfold State.stopGroup
  refine State.ask_only (fun u1 => ?_) rfl ?_
  · refine .step (State.onGroup_only _ _ _) rfl ?_
    exact .refl _ _
  · exact .refl _ _

theorem State.clearGroup_only (s : State) (o : Source) (g : Nat) :
    OnlyChanges [.sent, .tb, .staged, .cfg, .chans, .groups, .ports, .irons, .flat, .senses, .dets, .presses, .shelf, .strings, .feeds, .models, .orders, .fuses, .tws, .sensors, .lint, .score, .boot, .bootRec, .slots, .patch, .image, .safeSet, .working, .presence, .tamper, .seats, .t1s, .cans, .tts, .ptp, .ptpAdj, .commits, .hardwareRun, .draws] s (State.clearGroup s o g) := by
  unfold State.clearGroup
  refine State.ask_only (fun u1 => ?_) rfl ?_
  · refine .step (State.onGroup_only _ _ _) rfl ?_
    exact .refl _ _
  · exact .refl _ _

theorem State.startFeed_only (s : State) (o : Source) (z : Nat) :
    OnlyChanges [.sent, .tb, .staged, .cfg, .chans, .groups, .ports, .irons, .flat, .senses, .dets, .presses, .shelf, .strings, .feeds, .models, .orders, .fuses, .tws, .sensors, .lint, .score, .boot, .bootRec, .slots, .patch, .image, .safeSet, .working, .presence, .tamper, .seats, .t1s, .cans, .tts, .ptp, .ptpAdj, .commits, .hardwareRun, .draws] s (State.startFeed s o z) := by
  unfold State.startFeed
  refine State.ask_only (fun u1 => ?_) rfl ?_
  · refine .step (State.requestFeed_only _ _) rfl ?_
    exact .refl _ _
  · exact .refl _ _

theorem State.stopFeedNow_only (s : State) (o : Source) (z : Nat) :
    OnlyChanges [.sent, .tb, .staged, .cfg, .chans, .groups, .ports, .irons, .flat, .senses, .dets, .presses, .shelf, .strings, .feeds, .models, .orders, .fuses, .tws, .sensors, .lint, .score, .boot, .bootRec, .slots, .patch, .image, .safeSet, .working, .presence, .tamper, .seats, .t1s, .cans, .tts, .ptp, .ptpAdj, .commits, .hardwareRun, .draws] s (State.stopFeedNow s o z) := by
  unfold State.stopFeedNow
  refine State.ask_only (fun u1 => ?_) rfl ?_
  · refine .step (State.onFeed_only _ _ _) rfl ?_
    exact .refl _ _
  · exact .refl _ _

theorem State.clearFeed_only (s : State) (o : Source) (z : Nat) :
    OnlyChanges [.sent, .tb, .staged, .cfg, .chans, .groups, .ports, .irons, .flat, .senses, .dets, .presses, .shelf, .strings, .feeds, .models, .orders, .fuses, .tws, .sensors, .lint, .score, .boot, .bootRec, .slots, .patch, .image, .safeSet, .working, .presence, .tamper, .seats, .t1s, .cans, .tts, .ptp, .ptpAdj, .commits, .hardwareRun, .draws] s (State.clearFeed s o z) := by
  unfold State.clearFeed
  refine State.ask_only (fun u1 => ?_) rfl ?_
  · refine .step (State.onFeed_only _ _ _) rfl ?_
    exact .refl _ _
  · exact .refl _ _

theorem State.clearCaptures_only (s : State) (o : Source) (z : Nat) :
    OnlyChanges [.sent, .tb, .staged, .cfg, .chans, .groups, .ports, .irons, .flat, .senses, .dets, .presses, .shelf, .strings, .feeds, .models, .orders, .fuses, .tws, .sensors, .lint, .score, .boot, .bootRec, .slots, .patch, .image, .safeSet, .working, .presence, .tamper, .seats, .t1s, .cans, .tts, .ptp, .ptpAdj, .commits, .hardwareRun, .draws] s (State.clearCaptures s o z) := by
  unfold State.clearCaptures
  refine State.ask_only (fun u1 => ?_) rfl ?_
  · refine .step (State.onFeed_only _ _ _) rfl ?_
    exact .refl _ _
  · exact .refl _ _

theorem State.upOrder_only (s : State) (o : Source) (k : Nat) :
    OnlyChanges [.sent, .tb, .staged, .cfg, .chans, .groups, .ports, .irons, .flat, .senses, .dets, .presses, .shelf, .strings, .feeds, .models, .orders, .fuses, .tws, .sensors, .lint, .score, .boot, .bootRec, .slots, .patch, .image, .safeSet, .working, .presence, .tamper, .seats, .t1s, .cans, .tts, .ptp, .ptpAdj, .commits, .hardwareRun, .draws] s (State.upOrder s o k) := by
  unfold State.upOrder
  refine State.ask_only (fun u1 => ?_) rfl ?_
  · refine .step (State.requestUp_only _ _) rfl ?_
    exact .refl _ _
  · exact .refl _ _

theorem State.downOrder_only (s : State) (o : Source) (k : Nat) :
    OnlyChanges [.sent, .tb, .staged, .cfg, .chans, .groups, .ports, .irons, .flat, .senses, .dets, .presses, .shelf, .strings, .feeds, .models, .orders, .fuses, .tws, .sensors, .lint, .score, .boot, .bootRec, .slots, .patch, .image, .safeSet, .working, .presence, .tamper, .seats, .t1s, .cans, .tts, .ptp, .ptpAdj, .commits, .hardwareRun, .draws] s (State.downOrder s o k) := by
  unfold State.downOrder
  refine State.ask_only (fun u1 => ?_) rfl ?_
  · refine .step (State.onOrder_only _ _ _) rfl ?_
    exact .refl _ _
  · exact .refl _ _

theorem State.clearOrder_only (s : State) (o : Source) (k : Nat) :
    OnlyChanges [.sent, .tb, .staged, .cfg, .chans, .groups, .ports, .irons, .flat, .senses, .dets, .presses, .shelf, .strings, .feeds, .models, .orders, .fuses, .tws, .sensors, .lint, .score, .boot, .bootRec, .slots, .patch, .image, .safeSet, .working, .presence, .tamper, .seats, .t1s, .cans, .tts, .ptp, .ptpAdj, .commits, .hardwareRun, .draws] s (State.clearOrder s o k) := by
  unfold State.clearOrder
  refine State.ask_only (fun u1 => ?_) rfl ?_
  · refine .step (State.onOrder_only _ _ _) rfl ?_
    exact .refl _ _
  · exact .refl _ _

theorem State.commandIron_only (s : State) (o : Source) (i : Nat) (v : Int) :
    OnlyChanges [.sent, .tb, .staged, .cfg, .chans, .groups, .ports, .irons, .flat, .senses, .dets, .presses, .shelf, .strings, .feeds, .models, .orders, .fuses, .tws, .sensors, .lint, .score, .boot, .bootRec, .slots, .patch, .image, .safeSet, .working, .presence, .tamper, .seats, .t1s, .cans, .tts, .ptp, .ptpAdj, .commits, .hardwareRun, .draws] s (State.commandIron s o i v) := by
  unfold State.commandIron
  refine State.ask_only (fun u1 => ?_) rfl ?_
  · refine State.ifDone_only ?_ ?_
    · refine .step (State.askIron_only _ _ _) rfl ?_
      exact .refl _ _
    · exact .refl _ _
  · exact .refl _ _

theorem State.commandString_only (s : State) (o : Source) (k : Nat) (v : Int) :
    OnlyChanges [.sent, .tb, .staged, .cfg, .chans, .groups, .ports, .irons, .flat, .senses, .dets, .presses, .shelf, .strings, .feeds, .models, .orders, .fuses, .tws, .sensors, .lint, .score, .boot, .bootRec, .slots, .patch, .image, .safeSet, .working, .presence, .tamper, .seats, .t1s, .cans, .tts, .ptp, .ptpAdj, .commits, .hardwareRun, .draws] s (State.commandString s o k v) := by
  unfold State.commandString
  refine State.ask_only (fun u1 => ?_) rfl ?_
  · refine State.ifDone_only ?_ ?_
    · refine .step (State.askString_only _ _ _) rfl ?_
      exact .refl _ _
    · exact .refl _ _
  · exact .refl _ _

theorem State.triggerCapture_only (s : State) (o : Source) (c : Nat) :
    OnlyChanges [.sent, .tb, .staged, .cfg, .chans, .groups, .ports, .irons, .flat, .senses, .dets, .presses, .shelf, .strings, .feeds, .models, .orders, .fuses, .tws, .sensors, .lint, .score, .boot, .bootRec, .slots, .patch, .image, .safeSet, .working, .presence, .tamper, .seats, .t1s, .cans, .tts, .ptp, .ptpAdj, .commits, .hardwareRun, .draws] s (State.triggerCapture s o c) := by
  unfold State.triggerCapture
  refine State.ask_only (fun u1 => ?_) rfl ?_
  · refine .ite ?_ ?_
    · exact .refl _ _
    · refine .step (State.captureTrigger_only _ _ _ _) rfl ?_
      exact .refl _ _
  · exact .refl _ _

theorem State.groupDue_only {qs : List Part} {a s : State} {g : Nat} {f : State → State}
    (hf : ∀ u, OnlyChanges qs u (f u)) (h : OnlyChanges qs a s) : OnlyChanges qs a (s.groupDue g f) := by
  unfold State.groupDue
  exact .ite (h.trans (hf s)) h

theorem State.softStartRow_only (s : State) (g : Nat) :
    OnlyChanges [.groups, .ports, .lint] s (State.softStartRow s g) := by
  unfold State.softStartRow
  refine State.groupDue_only (fun u1 => ?_) ?_
  · refine .step (State.writeLastFault_only _ _) rfl ?_
    refine .step (State.softStartTimeout_only _ _) rfl ?_
    exact .refl _ _
  · exact .refl _ _

theorem State.retryRow_only (s : State) (g : Nat) :
    OnlyChanges [.chans, .groups, .ports, .shelf] s (State.retryRow s g) := by
  unfold State.retryRow
  refine State.groupDue_only (fun u1 => ?_) ?_
  · refine .step (State.retryTimer_only _ _) rfl ?_
    exact .refl _ _
  · exact .refl _ _

theorem State.feedDue_only {qs : List Part} {a s : State} {f : State → State}
    (hf : ∀ u, OnlyChanges qs u (f u)) (h : OnlyChanges qs a s) : OnlyChanges qs a (s.feedDue f) := by
  unfold State.feedDue
  exact .ite (h.trans (hf s)) h

theorem State.mainGateRow_only (s : State) (z : Nat) :
    OnlyChanges [.feeds, .lint, .score] s (State.mainGateRow s z) := by
  unfold State.mainGateRow
  refine State.feedDue_only (fun u1 => ?_) ?_
  · refine .ite ?_ ?_
    · refine .step (State.feedRows_only _ _) rfl ?_
      exact .refl _ _
    · exact .refl _ _
  · exact .refl _ _

theorem State.feedRowsIn_only (s : State) (z : Nat) (ph : FeedPhase) :
    OnlyChanges [.feeds, .lint, .score] s (State.feedRowsIn s z ph) := by
  unfold State.feedRowsIn
  refine State.feedDue_only (fun u1 => ?_) ?_
  · refine .ite ?_ ?_
    · refine .step (State.feedRows_only _ _) rfl ?_
      exact .refl _ _
    · exact .refl _ _
  · exact .refl _ _

theorem State.timebaseIn_only (s : State) (ph : TimebasePhase) :
    OnlyChanges [.tb, .lint] s (State.timebaseIn s ph) := by
  unfold State.timebaseIn
  refine .ite ?_ ?_
  · refine .step (State.timebaseRows_only _) rfl ?_
    exact .refl _ _
  · exact .refl _ _

theorem State.syncinGone_only (s : State) :
    OnlyChanges [.tb, .lint] s (State.syncinGone s) := by
  unfold State.syncinGone
  refine .ite ?_ ?_
  · refine .step (State.timebaseIn_only _ _) rfl ?_
    exact .refl _ _
  · refine .step (State.timebaseIn_only _ _) rfl ?_
    exact .refl _ _

theorem State.supportExit_only (s : State) (g : Nat) :
    OnlyChanges [.chans, .groups] s (State.supportExit s g) := by
  unfold State.supportExit
  split
  · refine .ite ?_ ?_
    · refine .step (State.leaveSupport_only _ _) rfl ?_
      exact .refl _ _
    · exact .refl _ _
  · exact .refl _ _

theorem State.spareTest_only (s : State) (pass : Bool) :
    OnlyChanges [.groups, .engine, .lint] s (State.spareTest s pass) := by
  unfold State.spareTest
  refine .ite ?_ ?_
  · exact .refl _ _
  · refine .step (State.detect_only _ _ _) rfl ?_
    refine .step (State.retireLane_only _ _) rfl ?_
    exact .refl _ _

theorem State.shareLimit_only (s : State) (p : Nat) :
    OnlyChanges [.lint] s (State.shareLimit s p) := by
  unfold State.shareLimit
  refine .step (State.detectIf_only _ _ _ _) rfl ?_
  exact .refl _ _

theorem State.lockLimitRow_only (s : State) (p : Nat) (k : Nat) :
    OnlyChanges [.lint] s (State.lockLimitRow s p k) := by
  unfold State.lockLimitRow
  refine .step (State.detectIf_only _ _ _ _) rfl ?_
  exact .refl _ _

theorem State.lockResumeRow_only (s : State) (g : Nat) :
    OnlyChanges [.groups] s (State.lockResumeRow s g) := by
  unfold State.lockResumeRow
  refine .ite ?_ ?_
  · refine .step (State.onGroup_only _ _ _) rfl ?_
    exact .refl _ _
  · exact .refl _ _

theorem State.periodCandidate_only (s : State) (i : Nat) (candidate : Nat) (peak : Nat) :
    OnlyChanges [.irons] s (State.periodCandidate s i candidate peak) := by
  unfold State.periodCandidate
  extract_lets _ f1
  refine .ite ?_ ?_
  · exact .refl _ _
  · refine .step (State.onIron_only _ _ _) rfl ?_
    exact .refl _ _

theorem State.feedTickAll_only (s : State) (x : Vector FeedIn 16) :
    OnlyChanges [.feeds, .models, .lint, .score] s (State.feedTickAll s x) := by
  unfold State.feedTickAll
  refine .ite ?_ ?_
  · exact .refl _ _
  · refine .step (State.busbarCurrents_only _) rfl ?_
    refine .foldl (fun u1 _ => ?_) ?_
    · split
      · refine .step (State.feedTick_only _ _ _) rfl ?_
        exact .refl _ _
      · exact .refl _ _
    · exact .refl _ _

theorem State.stringTickAll_only (s : State) (x : Vector StringIn 8) :
    OnlyChanges [.staged, .strings, .lint, .score, .commits] s (State.stringTickAll s x) := by
  unfold State.stringTickAll
  refine .ite ?_ ?_
  · exact .refl _ _
  · refine .foldl (fun u1 _ => ?_) ?_
    · split
      · refine .ite ?_ ?_
        · refine .step (State.onStr_only _ _ _) rfl ?_
          exact .refl _ _
        · refine .step (State.stringTick_only _ _ _) rfl ?_
          exact .refl _ _
      · exact .refl _ _
    · exact .refl _ _

theorem State.convert_only (s : State) (n : Nat) (code : Int) :
    OnlyChanges [.senses, .dets, .shelf, .models, .lint] s (State.convert s n code) := by
  unfold State.convert
  extract_lets s1
  have hs1 : OnlyChanges [.senses, .dets, .shelf, .models, .lint] s s1 := by
    unfold s1
    refine .step (State.senseConversion_only _ _ _) rfl ?_
    exact .refl _ _
  clear_value s1
  refine .ite ?_ ?_
  · refine .step (State.busbarVoltage_only _ _) rfl ?_
    exact hs1
  · exact hs1

theorem State.lockSymbols_only (s : State) (p : Nat) :
    OnlyChanges [.chans, .ports, .shelf] s (State.lockSymbols s p) := by
  unfold State.lockSymbols
  refine .ite ?_ ?_
  · refine .step (State.symbolLock_only _ _) rfl ?_
    exact .refl _ _
  · refine .step (State.onPort_only _ _ _) rfl ?_
    exact .refl _ _

theorem State.lintBoundary_only (s : State) (extra : Option (Nat × Nat)) :
    OnlyChanges [.groups, .feeds, .orders, .lint, .score] s (State.lintBoundary s extra) := by
  unfold State.lintBoundary
  extract_lets s1
  have hs1 : OnlyChanges [.groups, .feeds, .orders, .lint, .score] s s1 := by
    unfold s1
    refine .step (State.registerAll_only _) rfl ?_
    exact .refl _ _
  clear_value s1
  split
  · refine .step (State.detectIf_only _ _ _ _) rfl ?_
    exact hs1
  · exact hs1

theorem State.thrHold_only (s : State) (z : Nat) :
    OnlyChanges [.feeds] s (State.thrHold s z) := by
  unfold State.thrHold
  refine .step (State.thrUpdate_only _ _) rfl ?_
  exact .refl _ _

theorem State.hostLoad_only (s : State) (h : Hdr) (e : Expect) (index : Nat) (sub : Nat) (offset : Nat) (bs : List Byte) :
    OnlyChanges [.sent, .tb, .staged, .cfg, .chans, .groups, .ports, .irons, .flat, .senses, .dets, .presses, .shelf, .strings, .feeds, .models, .orders, .fuses, .tws, .sensors, .lint, .score, .boot, .bootRec, .slots, .patch, .image, .safeSet, .working, .presence, .tamper, .seats, .t1s, .cans, .tts, .ptp, .ptpAdj, .commits, .hardwareRun, .draws] s (State.hostLoad s h e index sub offset bs) := by
  unfold State.hostLoad
  refine .step (State.request_only _ _ _) rfl ?_
  exact .refl _ _

end Sys2Proof.Machine
end

