-- ==== Sys2Proof/Laws/State.lean ====
section
/-!
SUPPORT. What the updates of one unit or one part leave of the state, field by field.
-/
namespace Sys2Proof

theorem vget_vmod_self {α : Type} {n : Nat} (v : Vector α n) (i : Nat) (d : α) (f : α → α) (h : i < n) :
    vget (vmod v i f) i d = f (vget v i d) := by
  simp [vget, vmod, h]

theorem vget_vmod_ne {α : Type} {n : Nat} (v : Vector α n) (i j : Nat) (d : α) (f : α → α) (h : j ≠ i) :
    vget (vmod v i f) j d = vget v j d := by
  unfold vget vmod
  split
  · rw [Vector.getElem?_set]; simp [Ne.symm h]
  · rfl

namespace Machine.State

/-! ### onChan -/

@[simp] theorem onChan_pending (s : State) (c : Nat) (f : ChannelRun → ChannelRun) : (s.onChan c f).pending = s.pending := rfl
@[simp] theorem onChan_out (s : State) (c : Nat) (f : ChannelRun → ChannelRun) : (s.onChan c f).out = s.out := rfl
@[simp] theorem onChan_clock (s : State) (c : Nat) (f : ChannelRun → ChannelRun) : (s.onChan c f).clock = s.clock := rfl
@[simp] theorem onChan_tb (s : State) (c : Nat) (f : ChannelRun → ChannelRun) : (s.onChan c f).tb = s.tb := rfl
@[simp] theorem onChan_active (s : State) (c : Nat) (f : ChannelRun → ChannelRun) : (s.onChan c f).active = s.active := rfl
@[simp] theorem onChan_staged (s : State) (c : Nat) (f : ChannelRun → ChannelRun) : (s.onChan c f).staged = s.staged := rfl
@[simp] theorem onChan_cfg (s : State) (c : Nat) (f : ChannelRun → ChannelRun) : (s.onChan c f).cfg = s.cfg := rfl
@[simp] theorem onChan_groups (s : State) (c : Nat) (f : ChannelRun → ChannelRun) : (s.onChan c f).groups = s.groups := rfl
@[simp] theorem onChan_ports (s : State) (c : Nat) (f : ChannelRun → ChannelRun) : (s.onChan c f).ports = s.ports := rfl
@[simp] theorem onChan_irons (s : State) (c : Nat) (f : ChannelRun → ChannelRun) : (s.onChan c f).irons = s.irons := rfl
@[simp] theorem onChan_flat (s : State) (c : Nat) (f : ChannelRun → ChannelRun) : (s.onChan c f).flat = s.flat := rfl
@[simp] theorem onChan_engine (s : State) (c : Nat) (f : ChannelRun → ChannelRun) : (s.onChan c f).engine = s.engine := rfl
@[simp] theorem onChan_senses (s : State) (c : Nat) (f : ChannelRun → ChannelRun) : (s.onChan c f).senses = s.senses := rfl
@[simp] theorem onChan_dets (s : State) (c : Nat) (f : ChannelRun → ChannelRun) : (s.onChan c f).dets = s.dets := rfl
@[simp] theorem onChan_presses (s : State) (c : Nat) (f : ChannelRun → ChannelRun) : (s.onChan c f).presses = s.presses := rfl
@[simp] theorem onChan_shelf (s : State) (c : Nat) (f : ChannelRun → ChannelRun) : (s.onChan c f).shelf = s.shelf := rfl
@[simp] theorem onChan_strings (s : State) (c : Nat) (f : ChannelRun → ChannelRun) : (s.onChan c f).strings = s.strings := rfl
@[simp] theorem onChan_feeds (s : State) (c : Nat) (f : ChannelRun → ChannelRun) : (s.onChan c f).feeds = s.feeds := rfl
@[simp] theorem onChan_models (s : State) (c : Nat) (f : ChannelRun → ChannelRun) : (s.onChan c f).models = s.models := rfl
@[simp] theorem onChan_rails (s : State) (c : Nat) (f : ChannelRun → ChannelRun) : (s.onChan c f).rails = s.rails := rfl
@[simp] theorem onChan_orders (s : State) (c : Nat) (f : ChannelRun → ChannelRun) : (s.onChan c f).orders = s.orders := rfl
@[simp] theorem onChan_seq (s : State) (c : Nat) (f : ChannelRun → ChannelRun) : (s.onChan c f).seq = s.seq := rfl
@[simp] theorem onChan_fuses (s : State) (c : Nat) (f : ChannelRun → ChannelRun) : (s.onChan c f).fuses = s.fuses := rfl
@[simp] theorem onChan_tws (s : State) (c : Nat) (f : ChannelRun → ChannelRun) : (s.onChan c f).tws = s.tws := rfl
@[simp] theorem onChan_sensors (s : State) (c : Nat) (f : ChannelRun → ChannelRun) : (s.onChan c f).sensors = s.sensors := rfl
@[simp] theorem onChan_lint (s : State) (c : Nat) (f : ChannelRun → ChannelRun) : (s.onChan c f).lint = s.lint := rfl
@[simp] theorem onChan_score (s : State) (c : Nat) (f : ChannelRun → ChannelRun) : (s.onChan c f).score = s.score := rfl
@[simp] theorem onChan_boot (s : State) (c : Nat) (f : ChannelRun → ChannelRun) : (s.onChan c f).boot = s.boot := rfl
@[simp] theorem onChan_bootRec (s : State) (c : Nat) (f : ChannelRun → ChannelRun) : (s.onChan c f).bootRec = s.bootRec := rfl
@[simp] theorem onChan_slots (s : State) (c : Nat) (f : ChannelRun → ChannelRun) : (s.onChan c f).slots = s.slots := rfl
@[simp] theorem onChan_patch (s : State) (c : Nat) (f : ChannelRun → ChannelRun) : (s.onChan c f).patch = s.patch := rfl
@[simp] theorem onChan_image (s : State) (c : Nat) (f : ChannelRun → ChannelRun) : (s.onChan c f).image = s.image := rfl
@[simp] theorem onChan_safeSet (s : State) (c : Nat) (f : ChannelRun → ChannelRun) : (s.onChan c f).safeSet = s.safeSet := rfl
@[simp] theorem onChan_working (s : State) (c : Nat) (f : ChannelRun → ChannelRun) : (s.onChan c f).working = s.working := rfl
@[simp] theorem onChan_presence (s : State) (c : Nat) (f : ChannelRun → ChannelRun) : (s.onChan c f).presence = s.presence := rfl
@[simp] theorem onChan_tamper (s : State) (c : Nat) (f : ChannelRun → ChannelRun) : (s.onChan c f).tamper = s.tamper := rfl
@[simp] theorem onChan_seats (s : State) (c : Nat) (f : ChannelRun → ChannelRun) : (s.onChan c f).seats = s.seats := rfl
@[simp] theorem onChan_t1s (s : State) (c : Nat) (f : ChannelRun → ChannelRun) : (s.onChan c f).t1s = s.t1s := rfl
@[simp] theorem onChan_cans (s : State) (c : Nat) (f : ChannelRun → ChannelRun) : (s.onChan c f).cans = s.cans := rfl
@[simp] theorem onChan_tts (s : State) (c : Nat) (f : ChannelRun → ChannelRun) : (s.onChan c f).tts = s.tts := rfl
@[simp] theorem onChan_ptp (s : State) (c : Nat) (f : ChannelRun → ChannelRun) : (s.onChan c f).ptp = s.ptp := rfl
@[simp] theorem onChan_ptpAdj (s : State) (c : Nat) (f : ChannelRun → ChannelRun) : (s.onChan c f).ptpAdj = s.ptpAdj := rfl
@[simp] theorem onChan_commits (s : State) (c : Nat) (f : ChannelRun → ChannelRun) : (s.onChan c f).commits = s.commits := rfl
@[simp] theorem onChan_hardwareRun (s : State) (c : Nat) (f : ChannelRun → ChannelRun) : (s.onChan c f).hardwareRun = s.hardwareRun := rfl
@[simp] theorem onChan_alive (s : State) (c : Nat) (f : ChannelRun → ChannelRun) : (s.onChan c f).alive = s.alive := rfl
@[simp] theorem onChan_draws (s : State) (c : Nat) (f : ChannelRun → ChannelRun) : (s.onChan c f).draws = s.draws := rfl

theorem chan_onChan (s : State) (c : Nat) (f : ChannelRun → ChannelRun) (h : c < 128) : (s.onChan c f).chan c = f (s.chan c) :=
  vget_vmod_self _ _ _ _ h

theorem chan_onChan_ne (s : State) (c : Nat) (f : ChannelRun → ChannelRun) (j : Nat) (h : j ≠ c) : (s.onChan c f).chan j = s.chan j :=
  vget_vmod_ne _ _ _ _ _ h

/-! ### onGroup -/

@[simp] theorem onGroup_pending (s : State) (g : Nat) (f : GroupRun → GroupRun) : (s.onGroup g f).pending = s.pending := rfl
@[simp] theorem onGroup_out (s : State) (g : Nat) (f : GroupRun → GroupRun) : (s.onGroup g f).out = s.out := rfl
@[simp] theorem onGroup_clock (s : State) (g : Nat) (f : GroupRun → GroupRun) : (s.onGroup g f).clock = s.clock := rfl
@[simp] theorem onGroup_tb (s : State) (g : Nat) (f : GroupRun → GroupRun) : (s.onGroup g f).tb = s.tb := rfl
@[simp] theorem onGroup_active (s : State) (g : Nat) (f : GroupRun → GroupRun) : (s.onGroup g f).active = s.active := rfl
@[simp] theorem onGroup_staged (s : State) (g : Nat) (f : GroupRun → GroupRun) : (s.onGroup g f).staged = s.staged := rfl
@[simp] theorem onGroup_cfg (s : State) (g : Nat) (f : GroupRun → GroupRun) : (s.onGroup g f).cfg = s.cfg := rfl
@[simp] theorem onGroup_chans (s : State) (g : Nat) (f : GroupRun → GroupRun) : (s.onGroup g f).chans = s.chans := rfl
@[simp] theorem onGroup_ports (s : State) (g : Nat) (f : GroupRun → GroupRun) : (s.onGroup g f).ports = s.ports := rfl
@[simp] theorem onGroup_irons (s : State) (g : Nat) (f : GroupRun → GroupRun) : (s.onGroup g f).irons = s.irons := rfl
@[simp] theorem onGroup_flat (s : State) (g : Nat) (f : GroupRun → GroupRun) : (s.onGroup g f).flat = s.flat := rfl
@[simp] theorem onGroup_engine (s : State) (g : Nat) (f : GroupRun → GroupRun) : (s.onGroup g f).engine = s.engine := rfl
@[simp] theorem onGroup_senses (s : State) (g : Nat) (f : GroupRun → GroupRun) : (s.onGroup g f).senses = s.senses := rfl
@[simp] theorem onGroup_dets (s : State) (g : Nat) (f : GroupRun → GroupRun) : (s.onGroup g f).dets = s.dets := rfl
@[simp] theorem onGroup_presses (s : State) (g : Nat) (f : GroupRun → GroupRun) : (s.onGroup g f).presses = s.presses := rfl
@[simp] theorem onGroup_shelf (s : State) (g : Nat) (f : GroupRun → GroupRun) : (s.onGroup g f).shelf = s.shelf := rfl
@[simp] theorem onGroup_strings (s : State) (g : Nat) (f : GroupRun → GroupRun) : (s.onGroup g f).strings = s.strings := rfl
@[simp] theorem onGroup_feeds (s : State) (g : Nat) (f : GroupRun → GroupRun) : (s.onGroup g f).feeds = s.feeds := rfl
@[simp] theorem onGroup_models (s : State) (g : Nat) (f : GroupRun → GroupRun) : (s.onGroup g f).models = s.models := rfl
@[simp] theorem onGroup_rails (s : State) (g : Nat) (f : GroupRun → GroupRun) : (s.onGroup g f).rails = s.rails := rfl
@[simp] theorem onGroup_orders (s : State) (g : Nat) (f : GroupRun → GroupRun) : (s.onGroup g f).orders = s.orders := rfl
@[simp] theorem onGroup_seq (s : State) (g : Nat) (f : GroupRun → GroupRun) : (s.onGroup g f).seq = s.seq := rfl
@[simp] theorem onGroup_fuses (s : State) (g : Nat) (f : GroupRun → GroupRun) : (s.onGroup g f).fuses = s.fuses := rfl
@[simp] theorem onGroup_tws (s : State) (g : Nat) (f : GroupRun → GroupRun) : (s.onGroup g f).tws = s.tws := rfl
@[simp] theorem onGroup_sensors (s : State) (g : Nat) (f : GroupRun → GroupRun) : (s.onGroup g f).sensors = s.sensors := rfl
@[simp] theorem onGroup_lint (s : State) (g : Nat) (f : GroupRun → GroupRun) : (s.onGroup g f).lint = s.lint := rfl
@[simp] theorem onGroup_score (s : State) (g : Nat) (f : GroupRun → GroupRun) : (s.onGroup g f).score = s.score := rfl
@[simp] theorem onGroup_boot (s : State) (g : Nat) (f : GroupRun → GroupRun) : (s.onGroup g f).boot = s.boot := rfl
@[simp] theorem onGroup_bootRec (s : State) (g : Nat) (f : GroupRun → GroupRun) : (s.onGroup g f).bootRec = s.bootRec := rfl
@[simp] theorem onGroup_slots (s : State) (g : Nat) (f : GroupRun → GroupRun) : (s.onGroup g f).slots = s.slots := rfl
@[simp] theorem onGroup_patch (s : State) (g : Nat) (f : GroupRun → GroupRun) : (s.onGroup g f).patch = s.patch := rfl
@[simp] theorem onGroup_image (s : State) (g : Nat) (f : GroupRun → GroupRun) : (s.onGroup g f).image = s.image := rfl
@[simp] theorem onGroup_safeSet (s : State) (g : Nat) (f : GroupRun → GroupRun) : (s.onGroup g f).safeSet = s.safeSet := rfl
@[simp] theorem onGroup_working (s : State) (g : Nat) (f : GroupRun → GroupRun) : (s.onGroup g f).working = s.working := rfl
@[simp] theorem onGroup_presence (s : State) (g : Nat) (f : GroupRun → GroupRun) : (s.onGroup g f).presence = s.presence := rfl
@[simp] theorem onGroup_tamper (s : State) (g : Nat) (f : GroupRun → GroupRun) : (s.onGroup g f).tamper = s.tamper := rfl
@[simp] theorem onGroup_seats (s : State) (g : Nat) (f : GroupRun → GroupRun) : (s.onGroup g f).seats = s.seats := rfl
@[simp] theorem onGroup_t1s (s : State) (g : Nat) (f : GroupRun → GroupRun) : (s.onGroup g f).t1s = s.t1s := rfl
@[simp] theorem onGroup_cans (s : State) (g : Nat) (f : GroupRun → GroupRun) : (s.onGroup g f).cans = s.cans := rfl
@[simp] theorem onGroup_tts (s : State) (g : Nat) (f : GroupRun → GroupRun) : (s.onGroup g f).tts = s.tts := rfl
@[simp] theorem onGroup_ptp (s : State) (g : Nat) (f : GroupRun → GroupRun) : (s.onGroup g f).ptp = s.ptp := rfl
@[simp] theorem onGroup_ptpAdj (s : State) (g : Nat) (f : GroupRun → GroupRun) : (s.onGroup g f).ptpAdj = s.ptpAdj := rfl
@[simp] theorem onGroup_commits (s : State) (g : Nat) (f : GroupRun → GroupRun) : (s.onGroup g f).commits = s.commits := rfl
@[simp] theorem onGroup_hardwareRun (s : State) (g : Nat) (f : GroupRun → GroupRun) : (s.onGroup g f).hardwareRun = s.hardwareRun := rfl
@[simp] theorem onGroup_alive (s : State) (g : Nat) (f : GroupRun → GroupRun) : (s.onGroup g f).alive = s.alive := rfl
@[simp] theorem onGroup_draws (s : State) (g : Nat) (f : GroupRun → GroupRun) : (s.onGroup g f).draws = s.draws := rfl

theorem group_onGroup (s : State) (g : Nat) (f : GroupRun → GroupRun) (h : g < 32) : (s.onGroup g f).group g = f (s.group g) :=
  vget_vmod_self _ _ _ _ h

theorem group_onGroup_ne (s : State) (g : Nat) (f : GroupRun → GroupRun) (j : Nat) (h : j ≠ g) : (s.onGroup g f).group j = s.group j :=
  vget_vmod_ne _ _ _ _ _ h

/-! ### onPort -/

@[simp] theorem onPort_pending (s : State) (p : Nat) (f : PortRun → PortRun) : (s.onPort p f).pending = s.pending := rfl
@[simp] theorem onPort_out (s : State) (p : Nat) (f : PortRun → PortRun) : (s.onPort p f).out = s.out := rfl
@[simp] theorem onPort_clock (s : State) (p : Nat) (f : PortRun → PortRun) : (s.onPort p f).clock = s.clock := rfl
@[simp] theorem onPort_tb (s : State) (p : Nat) (f : PortRun → PortRun) : (s.onPort p f).tb = s.tb := rfl
@[simp] theorem onPort_active (s : State) (p : Nat) (f : PortRun → PortRun) : (s.onPort p f).active = s.active := rfl
@[simp] theorem onPort_staged (s : State) (p : Nat) (f : PortRun → PortRun) : (s.onPort p f).staged = s.staged := rfl
@[simp] theorem onPort_cfg (s : State) (p : Nat) (f : PortRun → PortRun) : (s.onPort p f).cfg = s.cfg := rfl
@[simp] theorem onPort_chans (s : State) (p : Nat) (f : PortRun → PortRun) : (s.onPort p f).chans = s.chans := rfl
@[simp] theorem onPort_groups (s : State) (p : Nat) (f : PortRun → PortRun) : (s.onPort p f).groups = s.groups := rfl
@[simp] theorem onPort_irons (s : State) (p : Nat) (f : PortRun → PortRun) : (s.onPort p f).irons = s.irons := rfl
@[simp] theorem onPort_flat (s : State) (p : Nat) (f : PortRun → PortRun) : (s.onPort p f).flat = s.flat := rfl
@[simp] theorem onPort_engine (s : State) (p : Nat) (f : PortRun → PortRun) : (s.onPort p f).engine = s.engine := rfl
@[simp] theorem onPort_senses (s : State) (p : Nat) (f : PortRun → PortRun) : (s.onPort p f).senses = s.senses := rfl
@[simp] theorem onPort_dets (s : State) (p : Nat) (f : PortRun → PortRun) : (s.onPort p f).dets = s.dets := rfl
@[simp] theorem onPort_presses (s : State) (p : Nat) (f : PortRun → PortRun) : (s.onPort p f).presses = s.presses := rfl
@[simp] theorem onPort_shelf (s : State) (p : Nat) (f : PortRun → PortRun) : (s.onPort p f).shelf = s.shelf := rfl
@[simp] theorem onPort_strings (s : State) (p : Nat) (f : PortRun → PortRun) : (s.onPort p f).strings = s.strings := rfl
@[simp] theorem onPort_feeds (s : State) (p : Nat) (f : PortRun → PortRun) : (s.onPort p f).feeds = s.feeds := rfl
@[simp] theorem onPort_models (s : State) (p : Nat) (f : PortRun → PortRun) : (s.onPort p f).models = s.models := rfl
@[simp] theorem onPort_rails (s : State) (p : Nat) (f : PortRun → PortRun) : (s.onPort p f).rails = s.rails := rfl
@[simp] theorem onPort_orders (s : State) (p : Nat) (f : PortRun → PortRun) : (s.onPort p f).orders = s.orders := rfl
@[simp] theorem onPort_seq (s : State) (p : Nat) (f : PortRun → PortRun) : (s.onPort p f).seq = s.seq := rfl
@[simp] theorem onPort_fuses (s : State) (p : Nat) (f : PortRun → PortRun) : (s.onPort p f).fuses = s.fuses := rfl
@[simp] theorem onPort_tws (s : State) (p : Nat) (f : PortRun → PortRun) : (s.onPort p f).tws = s.tws := rfl
@[simp] theorem onPort_sensors (s : State) (p : Nat) (f : PortRun → PortRun) : (s.onPort p f).sensors = s.sensors := rfl
@[simp] theorem onPort_lint (s : State) (p : Nat) (f : PortRun → PortRun) : (s.onPort p f).lint = s.lint := rfl
@[simp] theorem onPort_score (s : State) (p : Nat) (f : PortRun → PortRun) : (s.onPort p f).score = s.score := rfl
@[simp] theorem onPort_boot (s : State) (p : Nat) (f : PortRun → PortRun) : (s.onPort p f).boot = s.boot := rfl
@[simp] theorem onPort_bootRec (s : State) (p : Nat) (f : PortRun → PortRun) : (s.onPort p f).bootRec = s.bootRec := rfl
@[simp] theorem onPort_slots (s : State) (p : Nat) (f : PortRun → PortRun) : (s.onPort p f).slots = s.slots := rfl
@[simp] theorem onPort_patch (s : State) (p : Nat) (f : PortRun → PortRun) : (s.onPort p f).patch = s.patch := rfl
@[simp] theorem onPort_image (s : State) (p : Nat) (f : PortRun → PortRun) : (s.onPort p f).image = s.image := rfl
@[simp] theorem onPort_safeSet (s : State) (p : Nat) (f : PortRun → PortRun) : (s.onPort p f).safeSet = s.safeSet := rfl
@[simp] theorem onPort_working (s : State) (p : Nat) (f : PortRun → PortRun) : (s.onPort p f).working = s.working := rfl
@[simp] theorem onPort_presence (s : State) (p : Nat) (f : PortRun → PortRun) : (s.onPort p f).presence = s.presence := rfl
@[simp] theorem onPort_tamper (s : State) (p : Nat) (f : PortRun → PortRun) : (s.onPort p f).tamper = s.tamper := rfl
@[simp] theorem onPort_seats (s : State) (p : Nat) (f : PortRun → PortRun) : (s.onPort p f).seats = s.seats := rfl
@[simp] theorem onPort_t1s (s : State) (p : Nat) (f : PortRun → PortRun) : (s.onPort p f).t1s = s.t1s := rfl
@[simp] theorem onPort_cans (s : State) (p : Nat) (f : PortRun → PortRun) : (s.onPort p f).cans = s.cans := rfl
@[simp] theorem onPort_tts (s : State) (p : Nat) (f : PortRun → PortRun) : (s.onPort p f).tts = s.tts := rfl
@[simp] theorem onPort_ptp (s : State) (p : Nat) (f : PortRun → PortRun) : (s.onPort p f).ptp = s.ptp := rfl
@[simp] theorem onPort_ptpAdj (s : State) (p : Nat) (f : PortRun → PortRun) : (s.onPort p f).ptpAdj = s.ptpAdj := rfl
@[simp] theorem onPort_commits (s : State) (p : Nat) (f : PortRun → PortRun) : (s.onPort p f).commits = s.commits := rfl
@[simp] theorem onPort_hardwareRun (s : State) (p : Nat) (f : PortRun → PortRun) : (s.onPort p f).hardwareRun = s.hardwareRun := rfl
@[simp] theorem onPort_alive (s : State) (p : Nat) (f : PortRun → PortRun) : (s.onPort p f).alive = s.alive := rfl
@[simp] theorem onPort_draws (s : State) (p : Nat) (f : PortRun → PortRun) : (s.onPort p f).draws = s.draws := rfl

theorem port_onPort (s : State) (p : Nat) (f : PortRun → PortRun) (h : p < 48) : (s.onPort p f).port p = f (s.port p) :=
  vget_vmod_self _ _ _ _ h

theorem port_onPort_ne (s : State) (p : Nat) (f : PortRun → PortRun) (j : Nat) (h : j ≠ p) : (s.onPort p f).port j = s.port j :=
  vget_vmod_ne _ _ _ _ _ h

/-! ### onIron -/

@[simp] theorem onIron_pending (s : State) (i : Nat) (f : IronRun → IronRun) : (s.onIron i f).pending = s.pending := rfl
@[simp] theorem onIron_out (s : State) (i : Nat) (f : IronRun → IronRun) : (s.onIron i f).out = s.out := rfl
@[simp] theorem onIron_clock (s : State) (i : Nat) (f : IronRun → IronRun) : (s.onIron i f).clock = s.clock := rfl
@[simp] theorem onIron_tb (s : State) (i : Nat) (f : IronRun → IronRun) : (s.onIron i f).tb = s.tb := rfl
@[simp] theorem onIron_active (s : State) (i : Nat) (f : IronRun → IronRun) : (s.onIron i f).active = s.active := rfl
@[simp] theorem onIron_staged (s : State) (i : Nat) (f : IronRun → IronRun) : (s.onIron i f).staged = s.staged := rfl
@[simp] theorem onIron_cfg (s : State) (i : Nat) (f : IronRun → IronRun) : (s.onIron i f).cfg = s.cfg := rfl
@[simp] theorem onIron_chans (s : State) (i : Nat) (f : IronRun → IronRun) : (s.onIron i f).chans = s.chans := rfl
@[simp] theorem onIron_groups (s : State) (i : Nat) (f : IronRun → IronRun) : (s.onIron i f).groups = s.groups := rfl
@[simp] theorem onIron_ports (s : State) (i : Nat) (f : IronRun → IronRun) : (s.onIron i f).ports = s.ports := rfl
@[simp] theorem onIron_flat (s : State) (i : Nat) (f : IronRun → IronRun) : (s.onIron i f).flat = s.flat := rfl
@[simp] theorem onIron_engine (s : State) (i : Nat) (f : IronRun → IronRun) : (s.onIron i f).engine = s.engine := rfl
@[simp] theorem onIron_senses (s : State) (i : Nat) (f : IronRun → IronRun) : (s.onIron i f).senses = s.senses := rfl
@[simp] theorem onIron_dets (s : State) (i : Nat) (f : IronRun → IronRun) : (s.onIron i f).dets = s.dets := rfl
@[simp] theorem onIron_presses (s : State) (i : Nat) (f : IronRun → IronRun) : (s.onIron i f).presses = s.presses := rfl
@[simp] theorem onIron_shelf (s : State) (i : Nat) (f : IronRun → IronRun) : (s.onIron i f).shelf = s.shelf := rfl
@[simp] theorem onIron_strings (s : State) (i : Nat) (f : IronRun → IronRun) : (s.onIron i f).strings = s.strings := rfl
@[simp] theorem onIron_feeds (s : State) (i : Nat) (f : IronRun → IronRun) : (s.onIron i f).feeds = s.feeds := rfl
@[simp] theorem onIron_models (s : State) (i : Nat) (f : IronRun → IronRun) : (s.onIron i f).models = s.models := rfl
@[simp] theorem onIron_rails (s : State) (i : Nat) (f : IronRun → IronRun) : (s.onIron i f).rails = s.rails := rfl
@[simp] theorem onIron_orders (s : State) (i : Nat) (f : IronRun → IronRun) : (s.onIron i f).orders = s.orders := rfl
@[simp] theorem onIron_seq (s : State) (i : Nat) (f : IronRun → IronRun) : (s.onIron i f).seq = s.seq := rfl
@[simp] theorem onIron_fuses (s : State) (i : Nat) (f : IronRun → IronRun) : (s.onIron i f).fuses = s.fuses := rfl
@[simp] theorem onIron_tws (s : State) (i : Nat) (f : IronRun → IronRun) : (s.onIron i f).tws = s.tws := rfl
@[simp] theorem onIron_sensors (s : State) (i : Nat) (f : IronRun → IronRun) : (s.onIron i f).sensors = s.sensors := rfl
@[simp] theorem onIron_lint (s : State) (i : Nat) (f : IronRun → IronRun) : (s.onIron i f).lint = s.lint := rfl
@[simp] theorem onIron_score (s : State) (i : Nat) (f : IronRun → IronRun) : (s.onIron i f).score = s.score := rfl
@[simp] theorem onIron_boot (s : State) (i : Nat) (f : IronRun → IronRun) : (s.onIron i f).boot = s.boot := rfl
@[simp] theorem onIron_bootRec (s : State) (i : Nat) (f : IronRun → IronRun) : (s.onIron i f).bootRec = s.bootRec := rfl
@[simp] theorem onIron_slots (s : State) (i : Nat) (f : IronRun → IronRun) : (s.onIron i f).slots = s.slots := rfl
@[simp] theorem onIron_patch (s : State) (i : Nat) (f : IronRun → IronRun) : (s.onIron i f).patch = s.patch := rfl
@[simp] theorem onIron_image (s : State) (i : Nat) (f : IronRun → IronRun) : (s.onIron i f).image = s.image := rfl
@[simp] theorem onIron_safeSet (s : State) (i : Nat) (f : IronRun → IronRun) : (s.onIron i f).safeSet = s.safeSet := rfl
@[simp] theorem onIron_working (s : State) (i : Nat) (f : IronRun → IronRun) : (s.onIron i f).working = s.working := rfl
@[simp] theorem onIron_presence (s : State) (i : Nat) (f : IronRun → IronRun) : (s.onIron i f).presence = s.presence := rfl
@[simp] theorem onIron_tamper (s : State) (i : Nat) (f : IronRun → IronRun) : (s.onIron i f).tamper = s.tamper := rfl
@[simp] theorem onIron_seats (s : State) (i : Nat) (f : IronRun → IronRun) : (s.onIron i f).seats = s.seats := rfl
@[simp] theorem onIron_t1s (s : State) (i : Nat) (f : IronRun → IronRun) : (s.onIron i f).t1s = s.t1s := rfl
@[simp] theorem onIron_cans (s : State) (i : Nat) (f : IronRun → IronRun) : (s.onIron i f).cans = s.cans := rfl
@[simp] theorem onIron_tts (s : State) (i : Nat) (f : IronRun → IronRun) : (s.onIron i f).tts = s.tts := rfl
@[simp] theorem onIron_ptp (s : State) (i : Nat) (f : IronRun → IronRun) : (s.onIron i f).ptp = s.ptp := rfl
@[simp] theorem onIron_ptpAdj (s : State) (i : Nat) (f : IronRun → IronRun) : (s.onIron i f).ptpAdj = s.ptpAdj := rfl
@[simp] theorem onIron_commits (s : State) (i : Nat) (f : IronRun → IronRun) : (s.onIron i f).commits = s.commits := rfl
@[simp] theorem onIron_hardwareRun (s : State) (i : Nat) (f : IronRun → IronRun) : (s.onIron i f).hardwareRun = s.hardwareRun := rfl
@[simp] theorem onIron_alive (s : State) (i : Nat) (f : IronRun → IronRun) : (s.onIron i f).alive = s.alive := rfl
@[simp] theorem onIron_draws (s : State) (i : Nat) (f : IronRun → IronRun) : (s.onIron i f).draws = s.draws := rfl

theorem iron_onIron (s : State) (i : Nat) (f : IronRun → IronRun) (h : i < 16) : (s.onIron i f).iron i = f (s.iron i) :=
  vget_vmod_self _ _ _ _ h

theorem iron_onIron_ne (s : State) (i : Nat) (f : IronRun → IronRun) (j : Nat) (h : j ≠ i) : (s.onIron i f).iron j = s.iron j :=
  vget_vmod_ne _ _ _ _ _ h

/-! ### onFeed -/

@[simp] theorem onFeed_pending (s : State) (z : Nat) (f : FeedRun → FeedRun) : (s.onFeed z f).pending = s.pending := rfl
@[simp] theorem onFeed_out (s : State) (z : Nat) (f : FeedRun → FeedRun) : (s.onFeed z f).out = s.out := rfl
@[simp] theorem onFeed_clock (s : State) (z : Nat) (f : FeedRun → FeedRun) : (s.onFeed z f).clock = s.clock := rfl
@[simp] theorem onFeed_tb (s : State) (z : Nat) (f : FeedRun → FeedRun) : (s.onFeed z f).tb = s.tb := rfl
@[simp] theorem onFeed_active (s : State) (z : Nat) (f : FeedRun → FeedRun) : (s.onFeed z f).active = s.active := rfl
@[simp] theorem onFeed_staged (s : State) (z : Nat) (f : FeedRun → FeedRun) : (s.onFeed z f).staged = s.staged := rfl
@[simp] theorem onFeed_cfg (s : State) (z : Nat) (f : FeedRun → FeedRun) : (s.onFeed z f).cfg = s.cfg := rfl
@[simp] theorem onFeed_chans (s : State) (z : Nat) (f : FeedRun → FeedRun) : (s.onFeed z f).chans = s.chans := rfl
@[simp] theorem onFeed_groups (s : State) (z : Nat) (f : FeedRun → FeedRun) : (s.onFeed z f).groups = s.groups := rfl
@[simp] theorem onFeed_ports (s : State) (z : Nat) (f : FeedRun → FeedRun) : (s.onFeed z f).ports = s.ports := rfl
@[simp] theorem onFeed_irons (s : State) (z : Nat) (f : FeedRun → FeedRun) : (s.onFeed z f).irons = s.irons := rfl
@[simp] theorem onFeed_flat (s : State) (z : Nat) (f : FeedRun → FeedRun) : (s.onFeed z f).flat = s.flat := rfl
@[simp] theorem onFeed_engine (s : State) (z : Nat) (f : FeedRun → FeedRun) : (s.onFeed z f).engine = s.engine := rfl
@[simp] theorem onFeed_senses (s : State) (z : Nat) (f : FeedRun → FeedRun) : (s.onFeed z f).senses = s.senses := rfl
@[simp] theorem onFeed_dets (s : State) (z : Nat) (f : FeedRun → FeedRun) : (s.onFeed z f).dets = s.dets := rfl
@[simp] theorem onFeed_presses (s : State) (z : Nat) (f : FeedRun → FeedRun) : (s.onFeed z f).presses = s.presses := rfl
@[simp] theorem onFeed_shelf (s : State) (z : Nat) (f : FeedRun → FeedRun) : (s.onFeed z f).shelf = s.shelf := rfl
@[simp] theorem onFeed_strings (s : State) (z : Nat) (f : FeedRun → FeedRun) : (s.onFeed z f).strings = s.strings := rfl
@[simp] theorem onFeed_models (s : State) (z : Nat) (f : FeedRun → FeedRun) : (s.onFeed z f).models = s.models := rfl
@[simp] theorem onFeed_rails (s : State) (z : Nat) (f : FeedRun → FeedRun) : (s.onFeed z f).rails = s.rails := rfl
@[simp] theorem onFeed_orders (s : State) (z : Nat) (f : FeedRun → FeedRun) : (s.onFeed z f).orders = s.orders := rfl
@[simp] theorem onFeed_seq (s : State) (z : Nat) (f : FeedRun → FeedRun) : (s.onFeed z f).seq = s.seq := rfl
@[simp] theorem onFeed_fuses (s : State) (z : Nat) (f : FeedRun → FeedRun) : (s.onFeed z f).fuses = s.fuses := rfl
@[simp] theorem onFeed_tws (s : State) (z : Nat) (f : FeedRun → FeedRun) : (s.onFeed z f).tws = s.tws := rfl
@[simp] theorem onFeed_sensors (s : State) (z : Nat) (f : FeedRun → FeedRun) : (s.onFeed z f).sensors = s.sensors := rfl
@[simp] theorem onFeed_lint (s : State) (z : Nat) (f : FeedRun → FeedRun) : (s.onFeed z f).lint = s.lint := rfl
@[simp] theorem onFeed_score (s : State) (z : Nat) (f : FeedRun → FeedRun) : (s.onFeed z f).score = s.score := rfl
@[simp] theorem onFeed_boot (s : State) (z : Nat) (f : FeedRun → FeedRun) : (s.onFeed z f).boot = s.boot := rfl
@[simp] theorem onFeed_bootRec (s : State) (z : Nat) (f : FeedRun → FeedRun) : (s.onFeed z f).bootRec = s.bootRec := rfl
@[simp] theorem onFeed_slots (s : State) (z : Nat) (f : FeedRun → FeedRun) : (s.onFeed z f).slots = s.slots := rfl
@[simp] theorem onFeed_patch (s : State) (z : Nat) (f : FeedRun → FeedRun) : (s.onFeed z f).patch = s.patch := rfl
@[simp] theorem onFeed_image (s : State) (z : Nat) (f : FeedRun → FeedRun) : (s.onFeed z f).image = s.image := rfl
@[simp] theorem onFeed_safeSet (s : State) (z : Nat) (f : FeedRun → FeedRun) : (s.onFeed z f).safeSet = s.safeSet := rfl
@[simp] theorem onFeed_working (s : State) (z : Nat) (f : FeedRun → FeedRun) : (s.onFeed z f).working = s.working := rfl
@[simp] theorem onFeed_presence (s : State) (z : Nat) (f : FeedRun → FeedRun) : (s.onFeed z f).presence = s.presence := rfl
@[simp] theorem onFeed_tamper (s : State) (z : Nat) (f : FeedRun → FeedRun) : (s.onFeed z f).tamper = s.tamper := rfl
@[simp] theorem onFeed_seats (s : State) (z : Nat) (f : FeedRun → FeedRun) : (s.onFeed z f).seats = s.seats := rfl
@[simp] theorem onFeed_t1s (s : State) (z : Nat) (f : FeedRun → FeedRun) : (s.onFeed z f).t1s = s.t1s := rfl
@[simp] theorem onFeed_cans (s : State) (z : Nat) (f : FeedRun → FeedRun) : (s.onFeed z f).cans = s.cans := rfl
@[simp] theorem onFeed_tts (s : State) (z : Nat) (f : FeedRun → FeedRun) : (s.onFeed z f).tts = s.tts := rfl
@[simp] theorem onFeed_ptp (s : State) (z : Nat) (f : FeedRun → FeedRun) : (s.onFeed z f).ptp = s.ptp := rfl
@[simp] theorem onFeed_ptpAdj (s : State) (z : Nat) (f : FeedRun → FeedRun) : (s.onFeed z f).ptpAdj = s.ptpAdj := rfl
@[simp] theorem onFeed_commits (s : State) (z : Nat) (f : FeedRun → FeedRun) : (s.onFeed z f).commits = s.commits := rfl
@[simp] theorem onFeed_hardwareRun (s : State) (z : Nat) (f : FeedRun → FeedRun) : (s.onFeed z f).hardwareRun = s.hardwareRun := rfl
@[simp] theorem onFeed_alive (s : State) (z : Nat) (f : FeedRun → FeedRun) : (s.onFeed z f).alive = s.alive := rfl
@[simp] theorem onFeed_draws (s : State) (z : Nat) (f : FeedRun → FeedRun) : (s.onFeed z f).draws = s.draws := rfl

theorem feed_onFeed (s : State) (z : Nat) (f : FeedRun → FeedRun) (h : z < 16) : (s.onFeed z f).feed z = f (s.feed z) :=
  vget_vmod_self _ _ _ _ h

theorem feed_onFeed_ne (s : State) (z : Nat) (f : FeedRun → FeedRun) (j : Nat) (h : j ≠ z) : (s.onFeed z f).feed j = s.feed j :=
  vget_vmod_ne _ _ _ _ _ h

/-! ### onStr -/

@[simp] theorem onStr_pending (s : State) (k : Nat) (f : StringRun → StringRun) : (s.onStr k f).pending = s.pending := rfl
@[simp] theorem onStr_out (s : State) (k : Nat) (f : StringRun → StringRun) : (s.onStr k f).out = s.out := rfl
@[simp] theorem onStr_clock (s : State) (k : Nat) (f : StringRun → StringRun) : (s.onStr k f).clock = s.clock := rfl
@[simp] theorem onStr_tb (s : State) (k : Nat) (f : StringRun → StringRun) : (s.onStr k f).tb = s.tb := rfl
@[simp] theorem onStr_active (s : State) (k : Nat) (f : StringRun → StringRun) : (s.onStr k f).active = s.active := rfl
@[simp] theorem onStr_staged (s : State) (k : Nat) (f : StringRun → StringRun) : (s.onStr k f).staged = s.staged := rfl
@[simp] theorem onStr_cfg (s : State) (k : Nat) (f : StringRun → StringRun) : (s.onStr k f).cfg = s.cfg := rfl
@[simp] theorem onStr_chans (s : State) (k : Nat) (f : StringRun → StringRun) : (s.onStr k f).chans = s.chans := rfl
@[simp] theorem onStr_groups (s : State) (k : Nat) (f : StringRun → StringRun) : (s.onStr k f).groups = s.groups := rfl
@[simp] theorem onStr_ports (s : State) (k : Nat) (f : StringRun → StringRun) : (s.onStr k f).ports = s.ports := rfl
@[simp] theorem onStr_irons (s : State) (k : Nat) (f : StringRun → StringRun) : (s.onStr k f).irons = s.irons := rfl
@[simp] theorem onStr_flat (s : State) (k : Nat) (f : StringRun → StringRun) : (s.onStr k f).flat = s.flat := rfl
@[simp] theorem onStr_engine (s : State) (k : Nat) (f : StringRun → StringRun) : (s.onStr k f).engine = s.engine := rfl
@[simp] theorem onStr_senses (s : State) (k : Nat) (f : StringRun → StringRun) : (s.onStr k f).senses = s.senses := rfl
@[simp] theorem onStr_dets (s : State) (k : Nat) (f : StringRun → StringRun) : (s.onStr k f).dets = s.dets := rfl
@[simp] theorem onStr_presses (s : State) (k : Nat) (f : StringRun → StringRun) : (s.onStr k f).presses = s.presses := rfl
@[simp] theorem onStr_shelf (s : State) (k : Nat) (f : StringRun → StringRun) : (s.onStr k f).shelf = s.shelf := rfl
@[simp] theorem onStr_feeds (s : State) (k : Nat) (f : StringRun → StringRun) : (s.onStr k f).feeds = s.feeds := rfl
@[simp] theorem onStr_models (s : State) (k : Nat) (f : StringRun → StringRun) : (s.onStr k f).models = s.models := rfl
@[simp] theorem onStr_rails (s : State) (k : Nat) (f : StringRun → StringRun) : (s.onStr k f).rails = s.rails := rfl
@[simp] theorem onStr_orders (s : State) (k : Nat) (f : StringRun → StringRun) : (s.onStr k f).orders = s.orders := rfl
@[simp] theorem onStr_seq (s : State) (k : Nat) (f : StringRun → StringRun) : (s.onStr k f).seq = s.seq := rfl
@[simp] theorem onStr_fuses (s : State) (k : Nat) (f : StringRun → StringRun) : (s.onStr k f).fuses = s.fuses := rfl
@[simp] theorem onStr_tws (s : State) (k : Nat) (f : StringRun → StringRun) : (s.onStr k f).tws = s.tws := rfl
@[simp] theorem onStr_sensors (s : State) (k : Nat) (f : StringRun → StringRun) : (s.onStr k f).sensors = s.sensors := rfl
@[simp] theorem onStr_lint (s : State) (k : Nat) (f : StringRun → StringRun) : (s.onStr k f).lint = s.lint := rfl
@[simp] theorem onStr_score (s : State) (k : Nat) (f : StringRun → StringRun) : (s.onStr k f).score = s.score := rfl
@[simp] theorem onStr_boot (s : State) (k : Nat) (f : StringRun → StringRun) : (s.onStr k f).boot = s.boot := rfl
@[simp] theorem onStr_bootRec (s : State) (k : Nat) (f : StringRun → StringRun) : (s.onStr k f).bootRec = s.bootRec := rfl
@[simp] theorem onStr_slots (s : State) (k : Nat) (f : StringRun → StringRun) : (s.onStr k f).slots = s.slots := rfl
@[simp] theorem onStr_patch (s : State) (k : Nat) (f : StringRun → StringRun) : (s.onStr k f).patch = s.patch := rfl
@[simp] theorem onStr_image (s : State) (k : Nat) (f : StringRun → StringRun) : (s.onStr k f).image = s.image := rfl
@[simp] theorem onStr_safeSet (s : State) (k : Nat) (f : StringRun → StringRun) : (s.onStr k f).safeSet = s.safeSet := rfl
@[simp] theorem onStr_working (s : State) (k : Nat) (f : StringRun → StringRun) : (s.onStr k f).working = s.working := rfl
@[simp] theorem onStr_presence (s : State) (k : Nat) (f : StringRun → StringRun) : (s.onStr k f).presence = s.presence := rfl
@[simp] theorem onStr_tamper (s : State) (k : Nat) (f : StringRun → StringRun) : (s.onStr k f).tamper = s.tamper := rfl
@[simp] theorem onStr_seats (s : State) (k : Nat) (f : StringRun → StringRun) : (s.onStr k f).seats = s.seats := rfl
@[simp] theorem onStr_t1s (s : State) (k : Nat) (f : StringRun → StringRun) : (s.onStr k f).t1s = s.t1s := rfl
@[simp] theorem onStr_cans (s : State) (k : Nat) (f : StringRun → StringRun) : (s.onStr k f).cans = s.cans := rfl
@[simp] theorem onStr_tts (s : State) (k : Nat) (f : StringRun → StringRun) : (s.onStr k f).tts = s.tts := rfl
@[simp] theorem onStr_ptp (s : State) (k : Nat) (f : StringRun → StringRun) : (s.onStr k f).ptp = s.ptp := rfl
@[simp] theorem onStr_ptpAdj (s : State) (k : Nat) (f : StringRun → StringRun) : (s.onStr k f).ptpAdj = s.ptpAdj := rfl
@[simp] theorem onStr_commits (s : State) (k : Nat) (f : StringRun → StringRun) : (s.onStr k f).commits = s.commits := rfl
@[simp] theorem onStr_hardwareRun (s : State) (k : Nat) (f : StringRun → StringRun) : (s.onStr k f).hardwareRun = s.hardwareRun := rfl
@[simp] theorem onStr_alive (s : State) (k : Nat) (f : StringRun → StringRun) : (s.onStr k f).alive = s.alive := rfl
@[simp] theorem onStr_draws (s : State) (k : Nat) (f : StringRun → StringRun) : (s.onStr k f).draws = s.draws := rfl

theorem str_onStr (s : State) (k : Nat) (f : StringRun → StringRun) (h : k < 8) : (s.onStr k f).str k = f (s.str k) :=
  vget_vmod_self _ _ _ _ h

theorem str_onStr_ne (s : State) (k : Nat) (f : StringRun → StringRun) (j : Nat) (h : j ≠ k) : (s.onStr k f).str j = s.str j :=
  vget_vmod_ne _ _ _ _ _ h

/-! ### onModel -/

@[simp] theorem onModel_pending (s : State) (m : Nat) (f : ModelRun → ModelRun) : (s.onModel m f).pending = s.pending := rfl
@[simp] theorem onModel_out (s : State) (m : Nat) (f : ModelRun → ModelRun) : (s.onModel m f).out = s.out := rfl
@[simp] theorem onModel_clock (s : State) (m : Nat) (f : ModelRun → ModelRun) : (s.onModel m f).clock = s.clock := rfl
@[simp] theorem onModel_tb (s : State) (m : Nat) (f : ModelRun → ModelRun) : (s.onModel m f).tb = s.tb := rfl
@[simp] theorem onModel_active (s : State) (m : Nat) (f : ModelRun → ModelRun) : (s.onModel m f).active = s.active := rfl
@[simp] theorem onModel_staged (s : State) (m : Nat) (f : ModelRun → ModelRun) : (s.onModel m f).staged = s.staged := rfl
@[simp] theorem onModel_cfg (s : State) (m : Nat) (f : ModelRun → ModelRun) : (s.onModel m f).cfg = s.cfg := rfl
@[simp] theorem onModel_chans (s : State) (m : Nat) (f : ModelRun → ModelRun) : (s.onModel m f).chans = s.chans := rfl
@[simp] theorem onModel_groups (s : State) (m : Nat) (f : ModelRun → ModelRun) : (s.onModel m f).groups = s.groups := rfl
@[simp] theorem onModel_ports (s : State) (m : Nat) (f : ModelRun → ModelRun) : (s.onModel m f).ports = s.ports := rfl
@[simp] theorem onModel_irons (s : State) (m : Nat) (f : ModelRun → ModelRun) : (s.onModel m f).irons = s.irons := rfl
@[simp] theorem onModel_flat (s : State) (m : Nat) (f : ModelRun → ModelRun) : (s.onModel m f).flat = s.flat := rfl
@[simp] theorem onModel_engine (s : State) (m : Nat) (f : ModelRun → ModelRun) : (s.onModel m f).engine = s.engine := rfl
@[simp] theorem onModel_senses (s : State) (m : Nat) (f : ModelRun → ModelRun) : (s.onModel m f).senses = s.senses := rfl
@[simp] theorem onModel_dets (s : State) (m : Nat) (f : ModelRun → ModelRun) : (s.onModel m f).dets = s.dets := rfl
@[simp] theorem onModel_presses (s : State) (m : Nat) (f : ModelRun → ModelRun) : (s.onModel m f).presses = s.presses := rfl
@[simp] theorem onModel_shelf (s : State) (m : Nat) (f : ModelRun → ModelRun) : (s.onModel m f).shelf = s.shelf := rfl
@[simp] theorem onModel_strings (s : State) (m : Nat) (f : ModelRun → ModelRun) : (s.onModel m f).strings = s.strings := rfl
@[simp] theorem onModel_feeds (s : State) (m : Nat) (f : ModelRun → ModelRun) : (s.onModel m f).feeds = s.feeds := rfl
@[simp] theorem onModel_rails (s : State) (m : Nat) (f : ModelRun → ModelRun) : (s.onModel m f).rails = s.rails := rfl
@[simp] theorem onModel_orders (s : State) (m : Nat) (f : ModelRun → ModelRun) : (s.onModel m f).orders = s.orders := rfl
@[simp] theorem onModel_seq (s : State) (m : Nat) (f : ModelRun → ModelRun) : (s.onModel m f).seq = s.seq := rfl
@[simp] theorem onModel_fuses (s : State) (m : Nat) (f : ModelRun → ModelRun) : (s.onModel m f).fuses = s.fuses := rfl
@[simp] theorem onModel_tws (s : State) (m : Nat) (f : ModelRun → ModelRun) : (s.onModel m f).tws = s.tws := rfl
@[simp] theorem onModel_sensors (s : State) (m : Nat) (f : ModelRun → ModelRun) : (s.onModel m f).sensors = s.sensors := rfl
@[simp] theorem onModel_lint (s : State) (m : Nat) (f : ModelRun → ModelRun) : (s.onModel m f).lint = s.lint := rfl
@[simp] theorem onModel_score (s : State) (m : Nat) (f : ModelRun → ModelRun) : (s.onModel m f).score = s.score := rfl
@[simp] theorem onModel_boot (s : State) (m : Nat) (f : ModelRun → ModelRun) : (s.onModel m f).boot = s.boot := rfl
@[simp] theorem onModel_bootRec (s : State) (m : Nat) (f : ModelRun → ModelRun) : (s.onModel m f).bootRec = s.bootRec := rfl
@[simp] theorem onModel_slots (s : State) (m : Nat) (f : ModelRun → ModelRun) : (s.onModel m f).slots = s.slots := rfl
@[simp] theorem onModel_patch (s : State) (m : Nat) (f : ModelRun → ModelRun) : (s.onModel m f).patch = s.patch := rfl
@[simp] theorem onModel_image (s : State) (m : Nat) (f : ModelRun → ModelRun) : (s.onModel m f).image = s.image := rfl
@[simp] theorem onModel_safeSet (s : State) (m : Nat) (f : ModelRun → ModelRun) : (s.onModel m f).safeSet = s.safeSet := rfl
@[simp] theorem onModel_working (s : State) (m : Nat) (f : ModelRun → ModelRun) : (s.onModel m f).working = s.working := rfl
@[simp] theorem onModel_presence (s : State) (m : Nat) (f : ModelRun → ModelRun) : (s.onModel m f).presence = s.presence := rfl
@[simp] theorem onModel_tamper (s : State) (m : Nat) (f : ModelRun → ModelRun) : (s.onModel m f).tamper = s.tamper := rfl
@[simp] theorem onModel_seats (s : State) (m : Nat) (f : ModelRun → ModelRun) : (s.onModel m f).seats = s.seats := rfl
@[simp] theorem onModel_t1s (s : State) (m : Nat) (f : ModelRun → ModelRun) : (s.onModel m f).t1s = s.t1s := rfl
@[simp] theorem onModel_cans (s : State) (m : Nat) (f : ModelRun → ModelRun) : (s.onModel m f).cans = s.cans := rfl
@[simp] theorem onModel_tts (s : State) (m : Nat) (f : ModelRun → ModelRun) : (s.onModel m f).tts = s.tts := rfl
@[simp] theorem onModel_ptp (s : State) (m : Nat) (f : ModelRun → ModelRun) : (s.onModel m f).ptp = s.ptp := rfl
@[simp] theorem onModel_ptpAdj (s : State) (m : Nat) (f : ModelRun → ModelRun) : (s.onModel m f).ptpAdj = s.ptpAdj := rfl
@[simp] theorem onModel_commits (s : State) (m : Nat) (f : ModelRun → ModelRun) : (s.onModel m f).commits = s.commits := rfl
@[simp] theorem onModel_hardwareRun (s : State) (m : Nat) (f : ModelRun → ModelRun) : (s.onModel m f).hardwareRun = s.hardwareRun := rfl
@[simp] theorem onModel_alive (s : State) (m : Nat) (f : ModelRun → ModelRun) : (s.onModel m f).alive = s.alive := rfl
@[simp] theorem onModel_draws (s : State) (m : Nat) (f : ModelRun → ModelRun) : (s.onModel m f).draws = s.draws := rfl

theorem model_onModel (s : State) (m : Nat) (f : ModelRun → ModelRun) (h : m < 65) : (s.onModel m f).model m = f (s.model m) :=
  vget_vmod_self _ _ _ _ h

theorem model_onModel_ne (s : State) (m : Nat) (f : ModelRun → ModelRun) (j : Nat) (h : j ≠ m) : (s.onModel m f).model j = s.model j :=
  vget_vmod_ne _ _ _ _ _ h

/-! ### onShelf -/

@[simp] theorem onShelf_pending (s : State) (f : ShelfRun → ShelfRun) : (s.onShelf f).pending = s.pending := rfl
@[simp] theorem onShelf_out (s : State) (f : ShelfRun → ShelfRun) : (s.onShelf f).out = s.out := rfl
@[simp] theorem onShelf_clock (s : State) (f : ShelfRun → ShelfRun) : (s.onShelf f).clock = s.clock := rfl
@[simp] theorem onShelf_tb (s : State) (f : ShelfRun → ShelfRun) : (s.onShelf f).tb = s.tb := rfl
@[simp] theorem onShelf_active (s : State) (f : ShelfRun → ShelfRun) : (s.onShelf f).active = s.active := rfl
@[simp] theorem onShelf_staged (s : State) (f : ShelfRun → ShelfRun) : (s.onShelf f).staged = s.staged := rfl
@[simp] theorem onShelf_cfg (s : State) (f : ShelfRun → ShelfRun) : (s.onShelf f).cfg = s.cfg := rfl
@[simp] theorem onShelf_chans (s : State) (f : ShelfRun → ShelfRun) : (s.onShelf f).chans = s.chans := rfl
@[simp] theorem onShelf_groups (s : State) (f : ShelfRun → ShelfRun) : (s.onShelf f).groups = s.groups := rfl
@[simp] theorem onShelf_ports (s : State) (f : ShelfRun → ShelfRun) : (s.onShelf f).ports = s.ports := rfl
@[simp] theorem onShelf_irons (s : State) (f : ShelfRun → ShelfRun) : (s.onShelf f).irons = s.irons := rfl
@[simp] theorem onShelf_flat (s : State) (f : ShelfRun → ShelfRun) : (s.onShelf f).flat = s.flat := rfl
@[simp] theorem onShelf_engine (s : State) (f : ShelfRun → ShelfRun) : (s.onShelf f).engine = s.engine := rfl
@[simp] theorem onShelf_senses (s : State) (f : ShelfRun → ShelfRun) : (s.onShelf f).senses = s.senses := rfl
@[simp] theorem onShelf_dets (s : State) (f : ShelfRun → ShelfRun) : (s.onShelf f).dets = s.dets := rfl
@[simp] theorem onShelf_presses (s : State) (f : ShelfRun → ShelfRun) : (s.onShelf f).presses = s.presses := rfl
@[simp] theorem onShelf_strings (s : State) (f : ShelfRun → ShelfRun) : (s.onShelf f).strings = s.strings := rfl
@[simp] theorem onShelf_feeds (s : State) (f : ShelfRun → ShelfRun) : (s.onShelf f).feeds = s.feeds := rfl
@[simp] theorem onShelf_models (s : State) (f : ShelfRun → ShelfRun) : (s.onShelf f).models = s.models := rfl
@[simp] theorem onShelf_rails (s : State) (f : ShelfRun → ShelfRun) : (s.onShelf f).rails = s.rails := rfl
@[simp] theorem onShelf_orders (s : State) (f : ShelfRun → ShelfRun) : (s.onShelf f).orders = s.orders := rfl
@[simp] theorem onShelf_seq (s : State) (f : ShelfRun → ShelfRun) : (s.onShelf f).seq = s.seq := rfl
@[simp] theorem onShelf_fuses (s : State) (f : ShelfRun → ShelfRun) : (s.onShelf f).fuses = s.fuses := rfl
@[simp] theorem onShelf_tws (s : State) (f : ShelfRun → ShelfRun) : (s.onShelf f).tws = s.tws := rfl
@[simp] theorem onShelf_sensors (s : State) (f : ShelfRun → ShelfRun) : (s.onShelf f).sensors = s.sensors := rfl
@[simp] theorem onShelf_lint (s : State) (f : ShelfRun → ShelfRun) : (s.onShelf f).lint = s.lint := rfl
@[simp] theorem onShelf_score (s : State) (f : ShelfRun → ShelfRun) : (s.onShelf f).score = s.score := rfl
@[simp] theorem onShelf_boot (s : State) (f : ShelfRun → ShelfRun) : (s.onShelf f).boot = s.boot := rfl
@[simp] theorem onShelf_bootRec (s : State) (f : ShelfRun → ShelfRun) : (s.onShelf f).bootRec = s.bootRec := rfl
@[simp] theorem onShelf_slots (s : State) (f : ShelfRun → ShelfRun) : (s.onShelf f).slots = s.slots := rfl
@[simp] theorem onShelf_patch (s : State) (f : ShelfRun → ShelfRun) : (s.onShelf f).patch = s.patch := rfl
@[simp] theorem onShelf_image (s : State) (f : ShelfRun → ShelfRun) : (s.onShelf f).image = s.image := rfl
@[simp] theorem onShelf_safeSet (s : State) (f : ShelfRun → ShelfRun) : (s.onShelf f).safeSet = s.safeSet := rfl
@[simp] theorem onShelf_working (s : State) (f : ShelfRun → ShelfRun) : (s.onShelf f).working = s.working := rfl
@[simp] theorem onShelf_presence (s : State) (f : ShelfRun → ShelfRun) : (s.onShelf f).presence = s.presence := rfl
@[simp] theorem onShelf_tamper (s : State) (f : ShelfRun → ShelfRun) : (s.onShelf f).tamper = s.tamper := rfl
@[simp] theorem onShelf_seats (s : State) (f : ShelfRun → ShelfRun) : (s.onShelf f).seats = s.seats := rfl
@[simp] theorem onShelf_t1s (s : State) (f : ShelfRun → ShelfRun) : (s.onShelf f).t1s = s.t1s := rfl
@[simp] theorem onShelf_cans (s : State) (f : ShelfRun → ShelfRun) : (s.onShelf f).cans = s.cans := rfl
@[simp] theorem onShelf_tts (s : State) (f : ShelfRun → ShelfRun) : (s.onShelf f).tts = s.tts := rfl
@[simp] theorem onShelf_ptp (s : State) (f : ShelfRun → ShelfRun) : (s.onShelf f).ptp = s.ptp := rfl
@[simp] theorem onShelf_ptpAdj (s : State) (f : ShelfRun → ShelfRun) : (s.onShelf f).ptpAdj = s.ptpAdj := rfl
@[simp] theorem onShelf_commits (s : State) (f : ShelfRun → ShelfRun) : (s.onShelf f).commits = s.commits := rfl
@[simp] theorem onShelf_hardwareRun (s : State) (f : ShelfRun → ShelfRun) : (s.onShelf f).hardwareRun = s.hardwareRun := rfl
@[simp] theorem onShelf_alive (s : State) (f : ShelfRun → ShelfRun) : (s.onShelf f).alive = s.alive := rfl
@[simp] theorem onShelf_draws (s : State) (f : ShelfRun → ShelfRun) : (s.onShelf f).draws = s.draws := rfl

/-! ### onLint -/

@[simp] theorem onLint_pending (s : State) (f : LintRun → LintRun) : (s.onLint f).pending = s.pending := rfl
@[simp] theorem onLint_out (s : State) (f : LintRun → LintRun) : (s.onLint f).out = s.out := rfl
@[simp] theorem onLint_clock (s : State) (f : LintRun → LintRun) : (s.onLint f).clock = s.clock := rfl
@[simp] theorem onLint_tb (s : State) (f : LintRun → LintRun) : (s.onLint f).tb = s.tb := rfl
@[simp] theorem onLint_active (s : State) (f : LintRun → LintRun) : (s.onLint f).active = s.active := rfl
@[simp] theorem onLint_staged (s : State) (f : LintRun → LintRun) : (s.onLint f).staged = s.staged := rfl
@[simp] theorem onLint_cfg (s : State) (f : LintRun → LintRun) : (s.onLint f).cfg = s.cfg := rfl
@[simp] theorem onLint_chans (s : State) (f : LintRun → LintRun) : (s.onLint f).chans = s.chans := rfl
@[simp] theorem onLint_groups (s : State) (f : LintRun → LintRun) : (s.onLint f).groups = s.groups := rfl
@[simp] theorem onLint_ports (s : State) (f : LintRun → LintRun) : (s.onLint f).ports = s.ports := rfl
@[simp] theorem onLint_irons (s : State) (f : LintRun → LintRun) : (s.onLint f).irons = s.irons := rfl
@[simp] theorem onLint_flat (s : State) (f : LintRun → LintRun) : (s.onLint f).flat = s.flat := rfl
@[simp] theorem onLint_engine (s : State) (f : LintRun → LintRun) : (s.onLint f).engine = s.engine := rfl
@[simp] theorem onLint_senses (s : State) (f : LintRun → LintRun) : (s.onLint f).senses = s.senses := rfl
@[simp] theorem onLint_dets (s : State) (f : LintRun → LintRun) : (s.onLint f).dets = s.dets := rfl
@[simp] theorem onLint_presses (s : State) (f : LintRun → LintRun) : (s.onLint f).presses = s.presses := rfl
@[simp] theorem onLint_shelf (s : State) (f : LintRun → LintRun) : (s.onLint f).shelf = s.shelf := rfl
@[simp] theorem onLint_strings (s : State) (f : LintRun → LintRun) : (s.onLint f).strings = s.strings := rfl
@[simp] theorem onLint_feeds (s : State) (f : LintRun → LintRun) : (s.onLint f).feeds = s.feeds := rfl
@[simp] theorem onLint_models (s : State) (f : LintRun → LintRun) : (s.onLint f).models = s.models := rfl
@[simp] theorem onLint_rails (s : State) (f : LintRun → LintRun) : (s.onLint f).rails = s.rails := rfl
@[simp] theorem onLint_orders (s : State) (f : LintRun → LintRun) : (s.onLint f).orders = s.orders := rfl
@[simp] theorem onLint_seq (s : State) (f : LintRun → LintRun) : (s.onLint f).seq = s.seq := rfl
@[simp] theorem onLint_fuses (s : State) (f : LintRun → LintRun) : (s.onLint f).fuses = s.fuses := rfl
@[simp] theorem onLint_tws (s : State) (f : LintRun → LintRun) : (s.onLint f).tws = s.tws := rfl
@[simp] theorem onLint_sensors (s : State) (f : LintRun → LintRun) : (s.onLint f).sensors = s.sensors := rfl
@[simp] theorem onLint_score (s : State) (f : LintRun → LintRun) : (s.onLint f).score = s.score := rfl
@[simp] theorem onLint_boot (s : State) (f : LintRun → LintRun) : (s.onLint f).boot = s.boot := rfl
@[simp] theorem onLint_bootRec (s : State) (f : LintRun → LintRun) : (s.onLint f).bootRec = s.bootRec := rfl
@[simp] theorem onLint_slots (s : State) (f : LintRun → LintRun) : (s.onLint f).slots = s.slots := rfl
@[simp] theorem onLint_patch (s : State) (f : LintRun → LintRun) : (s.onLint f).patch = s.patch := rfl
@[simp] theorem onLint_image (s : State) (f : LintRun → LintRun) : (s.onLint f).image = s.image := rfl
@[simp] theorem onLint_safeSet (s : State) (f : LintRun → LintRun) : (s.onLint f).safeSet = s.safeSet := rfl
@[simp] theorem onLint_working (s : State) (f : LintRun → LintRun) : (s.onLint f).working = s.working := rfl
@[simp] theorem onLint_presence (s : State) (f : LintRun → LintRun) : (s.onLint f).presence = s.presence := rfl
@[simp] theorem onLint_tamper (s : State) (f : LintRun → LintRun) : (s.onLint f).tamper = s.tamper := rfl
@[simp] theorem onLint_seats (s : State) (f : LintRun → LintRun) : (s.onLint f).seats = s.seats := rfl
@[simp] theorem onLint_t1s (s : State) (f : LintRun → LintRun) : (s.onLint f).t1s = s.t1s := rfl
@[simp] theorem onLint_cans (s : State) (f : LintRun → LintRun) : (s.onLint f).cans = s.cans := rfl
@[simp] theorem onLint_tts (s : State) (f : LintRun → LintRun) : (s.onLint f).tts = s.tts := rfl
@[simp] theorem onLint_ptp (s : State) (f : LintRun → LintRun) : (s.onLint f).ptp = s.ptp := rfl
@[simp] theorem onLint_ptpAdj (s : State) (f : LintRun → LintRun) : (s.onLint f).ptpAdj = s.ptpAdj := rfl
@[simp] theorem onLint_commits (s : State) (f : LintRun → LintRun) : (s.onLint f).commits = s.commits := rfl
@[simp] theorem onLint_hardwareRun (s : State) (f : LintRun → LintRun) : (s.onLint f).hardwareRun = s.hardwareRun := rfl
@[simp] theorem onLint_alive (s : State) (f : LintRun → LintRun) : (s.onLint f).alive = s.alive := rfl
@[simp] theorem onLint_draws (s : State) (f : LintRun → LintRun) : (s.onLint f).draws = s.draws := rfl

/-! ### onCapture -/

@[simp] theorem onCapture_pending (s : State) (c : Nat) (f : CaptureRun → CaptureRun) : (s.onCapture c f).pending = s.pending := rfl
@[simp] theorem onCapture_out (s : State) (c : Nat) (f : CaptureRun → CaptureRun) : (s.onCapture c f).out = s.out := rfl
@[simp] theorem onCapture_clock (s : State) (c : Nat) (f : CaptureRun → CaptureRun) : (s.onCapture c f).clock = s.clock := rfl
@[simp] theorem onCapture_tb (s : State) (c : Nat) (f : CaptureRun → CaptureRun) : (s.onCapture c f).tb = s.tb := rfl
@[simp] theorem onCapture_active (s : State) (c : Nat) (f : CaptureRun → CaptureRun) : (s.onCapture c f).active = s.active := rfl
@[simp] theorem onCapture_staged (s : State) (c : Nat) (f : CaptureRun → CaptureRun) : (s.onCapture c f).staged = s.staged := rfl
@[simp] theorem onCapture_cfg (s : State) (c : Nat) (f : CaptureRun → CaptureRun) : (s.onCapture c f).cfg = s.cfg := rfl
@[simp] theorem onCapture_chans (s : State) (c : Nat) (f : CaptureRun → CaptureRun) : (s.onCapture c f).chans = s.chans := rfl
@[simp] theorem onCapture_groups (s : State) (c : Nat) (f : CaptureRun → CaptureRun) : (s.onCapture c f).groups = s.groups := rfl
@[simp] theorem onCapture_ports (s : State) (c : Nat) (f : CaptureRun → CaptureRun) : (s.onCapture c f).ports = s.ports := rfl
@[simp] theorem onCapture_irons (s : State) (c : Nat) (f : CaptureRun → CaptureRun) : (s.onCapture c f).irons = s.irons := rfl
@[simp] theorem onCapture_flat (s : State) (c : Nat) (f : CaptureRun → CaptureRun) : (s.onCapture c f).flat = s.flat := rfl
@[simp] theorem onCapture_engine (s : State) (c : Nat) (f : CaptureRun → CaptureRun) : (s.onCapture c f).engine = s.engine := rfl
@[simp] theorem onCapture_senses (s : State) (c : Nat) (f : CaptureRun → CaptureRun) : (s.onCapture c f).senses = s.senses := rfl
@[simp] theorem onCapture_dets (s : State) (c : Nat) (f : CaptureRun → CaptureRun) : (s.onCapture c f).dets = s.dets := rfl
@[simp] theorem onCapture_presses (s : State) (c : Nat) (f : CaptureRun → CaptureRun) : (s.onCapture c f).presses = s.presses := rfl
@[simp] theorem onCapture_shelf (s : State) (c : Nat) (f : CaptureRun → CaptureRun) : (s.onCapture c f).shelf = s.shelf := rfl
@[simp] theorem onCapture_strings (s : State) (c : Nat) (f : CaptureRun → CaptureRun) : (s.onCapture c f).strings = s.strings := rfl
@[simp] theorem onCapture_feeds (s : State) (c : Nat) (f : CaptureRun → CaptureRun) : (s.onCapture c f).feeds = s.feeds := rfl
@[simp] theorem onCapture_models (s : State) (c : Nat) (f : CaptureRun → CaptureRun) : (s.onCapture c f).models = s.models := rfl
@[simp] theorem onCapture_rails (s : State) (c : Nat) (f : CaptureRun → CaptureRun) : (s.onCapture c f).rails = s.rails := rfl
@[simp] theorem onCapture_orders (s : State) (c : Nat) (f : CaptureRun → CaptureRun) : (s.onCapture c f).orders = s.orders := rfl
@[simp] theorem onCapture_seq (s : State) (c : Nat) (f : CaptureRun → CaptureRun) : (s.onCapture c f).seq = s.seq := rfl
@[simp] theorem onCapture_fuses (s : State) (c : Nat) (f : CaptureRun → CaptureRun) : (s.onCapture c f).fuses = s.fuses := rfl
@[simp] theorem onCapture_tws (s : State) (c : Nat) (f : CaptureRun → CaptureRun) : (s.onCapture c f).tws = s.tws := rfl
@[simp] theorem onCapture_sensors (s : State) (c : Nat) (f : CaptureRun → CaptureRun) : (s.onCapture c f).sensors = s.sensors := rfl
@[simp] theorem onCapture_lint (s : State) (c : Nat) (f : CaptureRun → CaptureRun) : (s.onCapture c f).lint = s.lint := rfl
@[simp] theorem onCapture_boot (s : State) (c : Nat) (f : CaptureRun → CaptureRun) : (s.onCapture c f).boot = s.boot := rfl
@[simp] theorem onCapture_bootRec (s : State) (c : Nat) (f : CaptureRun → CaptureRun) : (s.onCapture c f).bootRec = s.bootRec := rfl
@[simp] theorem onCapture_slots (s : State) (c : Nat) (f : CaptureRun → CaptureRun) : (s.onCapture c f).slots = s.slots := rfl
@[simp] theorem onCapture_patch (s : State) (c : Nat) (f : CaptureRun → CaptureRun) : (s.onCapture c f).patch = s.patch := rfl
@[simp] theorem onCapture_image (s : State) (c : Nat) (f : CaptureRun → CaptureRun) : (s.onCapture c f).image = s.image := rfl
@[simp] theorem onCapture_safeSet (s : State) (c : Nat) (f : CaptureRun → CaptureRun) : (s.onCapture c f).safeSet = s.safeSet := rfl
@[simp] theorem onCapture_working (s : State) (c : Nat) (f : CaptureRun → CaptureRun) : (s.onCapture c f).working = s.working := rfl
@[simp] theorem onCapture_presence (s : State) (c : Nat) (f : CaptureRun → CaptureRun) : (s.onCapture c f).presence = s.presence := rfl
@[simp] theorem onCapture_tamper (s : State) (c : Nat) (f : CaptureRun → CaptureRun) : (s.onCapture c f).tamper = s.tamper := rfl
@[simp] theorem onCapture_seats (s : State) (c : Nat) (f : CaptureRun → CaptureRun) : (s.onCapture c f).seats = s.seats := rfl
@[simp] theorem onCapture_t1s (s : State) (c : Nat) (f : CaptureRun → CaptureRun) : (s.onCapture c f).t1s = s.t1s := rfl
@[simp] theorem onCapture_cans (s : State) (c : Nat) (f : CaptureRun → CaptureRun) : (s.onCapture c f).cans = s.cans := rfl
@[simp] theorem onCapture_tts (s : State) (c : Nat) (f : CaptureRun → CaptureRun) : (s.onCapture c f).tts = s.tts := rfl
@[simp] theorem onCapture_ptp (s : State) (c : Nat) (f : CaptureRun → CaptureRun) : (s.onCapture c f).ptp = s.ptp := rfl
@[simp] theorem onCapture_ptpAdj (s : State) (c : Nat) (f : CaptureRun → CaptureRun) : (s.onCapture c f).ptpAdj = s.ptpAdj := rfl
@[simp] theorem onCapture_commits (s : State) (c : Nat) (f : CaptureRun → CaptureRun) : (s.onCapture c f).commits = s.commits := rfl
@[simp] theorem onCapture_hardwareRun (s : State) (c : Nat) (f : CaptureRun → CaptureRun) : (s.onCapture c f).hardwareRun = s.hardwareRun := rfl
@[simp] theorem onCapture_alive (s : State) (c : Nat) (f : CaptureRun → CaptureRun) : (s.onCapture c f).alive = s.alive := rfl
@[simp] theorem onCapture_draws (s : State) (c : Nat) (f : CaptureRun → CaptureRun) : (s.onCapture c f).draws = s.draws := rfl

theorem capture_onCapture (s : State) (c : Nat) (f : CaptureRun → CaptureRun) (h : c < 8) : (s.onCapture c f).capture c = f (s.capture c) :=
  vget_vmod_self _ _ _ _ h

theorem capture_onCapture_ne (s : State) (c : Nat) (f : CaptureRun → CaptureRun) (j : Nat) (h : j ≠ c) : (s.onCapture c f).capture j = s.capture j :=
  vget_vmod_ne _ _ _ _ _ h

/-! ### onDet -/

@[simp] theorem onDet_pending (s : State) (n : Nat) (f : DetectorRun → DetectorRun) : (s.onDet n f).pending = s.pending := rfl
@[simp] theorem onDet_out (s : State) (n : Nat) (f : DetectorRun → DetectorRun) : (s.onDet n f).out = s.out := rfl
@[simp] theorem onDet_clock (s : State) (n : Nat) (f : DetectorRun → DetectorRun) : (s.onDet n f).clock = s.clock := rfl
@[simp] theorem onDet_tb (s : State) (n : Nat) (f : DetectorRun → DetectorRun) : (s.onDet n f).tb = s.tb := rfl
@[simp] theorem onDet_active (s : State) (n : Nat) (f : DetectorRun → DetectorRun) : (s.onDet n f).active = s.active := rfl
@[simp] theorem onDet_staged (s : State) (n : Nat) (f : DetectorRun → DetectorRun) : (s.onDet n f).staged = s.staged := rfl
@[simp] theorem onDet_cfg (s : State) (n : Nat) (f : DetectorRun → DetectorRun) : (s.onDet n f).cfg = s.cfg := rfl
@[simp] theorem onDet_chans (s : State) (n : Nat) (f : DetectorRun → DetectorRun) : (s.onDet n f).chans = s.chans := rfl
@[simp] theorem onDet_groups (s : State) (n : Nat) (f : DetectorRun → DetectorRun) : (s.onDet n f).groups = s.groups := rfl
@[simp] theorem onDet_ports (s : State) (n : Nat) (f : DetectorRun → DetectorRun) : (s.onDet n f).ports = s.ports := rfl
@[simp] theorem onDet_irons (s : State) (n : Nat) (f : DetectorRun → DetectorRun) : (s.onDet n f).irons = s.irons := rfl
@[simp] theorem onDet_flat (s : State) (n : Nat) (f : DetectorRun → DetectorRun) : (s.onDet n f).flat = s.flat := rfl
@[simp] theorem onDet_engine (s : State) (n : Nat) (f : DetectorRun → DetectorRun) : (s.onDet n f).engine = s.engine := rfl
@[simp] theorem onDet_senses (s : State) (n : Nat) (f : DetectorRun → DetectorRun) : (s.onDet n f).senses = s.senses := rfl
@[simp] theorem onDet_presses (s : State) (n : Nat) (f : DetectorRun → DetectorRun) : (s.onDet n f).presses = s.presses := rfl
@[simp] theorem onDet_shelf (s : State) (n : Nat) (f : DetectorRun → DetectorRun) : (s.onDet n f).shelf = s.shelf := rfl
@[simp] theorem onDet_strings (s : State) (n : Nat) (f : DetectorRun → DetectorRun) : (s.onDet n f).strings = s.strings := rfl
@[simp] theorem onDet_feeds (s : State) (n : Nat) (f : DetectorRun → DetectorRun) : (s.onDet n f).feeds = s.feeds := rfl
@[simp] theorem onDet_models (s : State) (n : Nat) (f : DetectorRun → DetectorRun) : (s.onDet n f).models = s.models := rfl
@[simp] theorem onDet_rails (s : State) (n : Nat) (f : DetectorRun → DetectorRun) : (s.onDet n f).rails = s.rails := rfl
@[simp] theorem onDet_orders (s : State) (n : Nat) (f : DetectorRun → DetectorRun) : (s.onDet n f).orders = s.orders := rfl
@[simp] theorem onDet_seq (s : State) (n : Nat) (f : DetectorRun → DetectorRun) : (s.onDet n f).seq = s.seq := rfl
@[simp] theorem onDet_fuses (s : State) (n : Nat) (f : DetectorRun → DetectorRun) : (s.onDet n f).fuses = s.fuses := rfl
@[simp] theorem onDet_tws (s : State) (n : Nat) (f : DetectorRun → DetectorRun) : (s.onDet n f).tws = s.tws := rfl
@[simp] theorem onDet_sensors (s : State) (n : Nat) (f : DetectorRun → DetectorRun) : (s.onDet n f).sensors = s.sensors := rfl
@[simp] theorem onDet_lint (s : State) (n : Nat) (f : DetectorRun → DetectorRun) : (s.onDet n f).lint = s.lint := rfl
@[simp] theorem onDet_score (s : State) (n : Nat) (f : DetectorRun → DetectorRun) : (s.onDet n f).score = s.score := rfl
@[simp] theorem onDet_boot (s : State) (n : Nat) (f : DetectorRun → DetectorRun) : (s.onDet n f).boot = s.boot := rfl
@[simp] theorem onDet_bootRec (s : State) (n : Nat) (f : DetectorRun → DetectorRun) : (s.onDet n f).bootRec = s.bootRec := rfl
@[simp] theorem onDet_slots (s : State) (n : Nat) (f : DetectorRun → DetectorRun) : (s.onDet n f).slots = s.slots := rfl
@[simp] theorem onDet_patch (s : State) (n : Nat) (f : DetectorRun → DetectorRun) : (s.onDet n f).patch = s.patch := rfl
@[simp] theorem onDet_image (s : State) (n : Nat) (f : DetectorRun → DetectorRun) : (s.onDet n f).image = s.image := rfl
@[simp] theorem onDet_safeSet (s : State) (n : Nat) (f : DetectorRun → DetectorRun) : (s.onDet n f).safeSet = s.safeSet := rfl
@[simp] theorem onDet_working (s : State) (n : Nat) (f : DetectorRun → DetectorRun) : (s.onDet n f).working = s.working := rfl
@[simp] theorem onDet_presence (s : State) (n : Nat) (f : DetectorRun → DetectorRun) : (s.onDet n f).presence = s.presence := rfl
@[simp] theorem onDet_tamper (s : State) (n : Nat) (f : DetectorRun → DetectorRun) : (s.onDet n f).tamper = s.tamper := rfl
@[simp] theorem onDet_seats (s : State) (n : Nat) (f : DetectorRun → DetectorRun) : (s.onDet n f).seats = s.seats := rfl
@[simp] theorem onDet_t1s (s : State) (n : Nat) (f : DetectorRun → DetectorRun) : (s.onDet n f).t1s = s.t1s := rfl
@[simp] theorem onDet_cans (s : State) (n : Nat) (f : DetectorRun → DetectorRun) : (s.onDet n f).cans = s.cans := rfl
@[simp] theorem onDet_tts (s : State) (n : Nat) (f : DetectorRun → DetectorRun) : (s.onDet n f).tts = s.tts := rfl
@[simp] theorem onDet_ptp (s : State) (n : Nat) (f : DetectorRun → DetectorRun) : (s.onDet n f).ptp = s.ptp := rfl
@[simp] theorem onDet_ptpAdj (s : State) (n : Nat) (f : DetectorRun → DetectorRun) : (s.onDet n f).ptpAdj = s.ptpAdj := rfl
@[simp] theorem onDet_commits (s : State) (n : Nat) (f : DetectorRun → DetectorRun) : (s.onDet n f).commits = s.commits := rfl
@[simp] theorem onDet_hardwareRun (s : State) (n : Nat) (f : DetectorRun → DetectorRun) : (s.onDet n f).hardwareRun = s.hardwareRun := rfl
@[simp] theorem onDet_alive (s : State) (n : Nat) (f : DetectorRun → DetectorRun) : (s.onDet n f).alive = s.alive := rfl
@[simp] theorem onDet_draws (s : State) (n : Nat) (f : DetectorRun → DetectorRun) : (s.onDet n f).draws = s.draws := rfl

theorem det_onDet (s : State) (n : Nat) (f : DetectorRun → DetectorRun) (h : n < 8) : (s.onDet n f).det n = f (s.det n) :=
  vget_vmod_self _ _ _ _ h

theorem det_onDet_ne (s : State) (n : Nat) (f : DetectorRun → DetectorRun) (j : Nat) (h : j ≠ n) : (s.onDet n f).det j = s.det j :=
  vget_vmod_ne _ _ _ _ _ h

/-! ### onPress -/

@[simp] theorem onPress_pending (s : State) (k : Nat) (f : PressRun → PressRun) : (s.onPress k f).pending = s.pending := rfl
@[simp] theorem onPress_out (s : State) (k : Nat) (f : PressRun → PressRun) : (s.onPress k f).out = s.out := rfl
@[simp] theorem onPress_clock (s : State) (k : Nat) (f : PressRun → PressRun) : (s.onPress k f).clock = s.clock := rfl
@[simp] theorem onPress_tb (s : State) (k : Nat) (f : PressRun → PressRun) : (s.onPress k f).tb = s.tb := rfl
@[simp] theorem onPress_active (s : State) (k : Nat) (f : PressRun → PressRun) : (s.onPress k f).active = s.active := rfl
@[simp] theorem onPress_staged (s : State) (k : Nat) (f : PressRun → PressRun) : (s.onPress k f).staged = s.staged := rfl
@[simp] theorem onPress_cfg (s : State) (k : Nat) (f : PressRun → PressRun) : (s.onPress k f).cfg = s.cfg := rfl
@[simp] theorem onPress_chans (s : State) (k : Nat) (f : PressRun → PressRun) : (s.onPress k f).chans = s.chans := rfl
@[simp] theorem onPress_groups (s : State) (k : Nat) (f : PressRun → PressRun) : (s.onPress k f).groups = s.groups := rfl
@[simp] theorem onPress_ports (s : State) (k : Nat) (f : PressRun → PressRun) : (s.onPress k f).ports = s.ports := rfl
@[simp] theorem onPress_irons (s : State) (k : Nat) (f : PressRun → PressRun) : (s.onPress k f).irons = s.irons := rfl
@[simp] theorem onPress_flat (s : State) (k : Nat) (f : PressRun → PressRun) : (s.onPress k f).flat = s.flat := rfl
@[simp] theorem onPress_engine (s : State) (k : Nat) (f : PressRun → PressRun) : (s.onPress k f).engine = s.engine := rfl
@[simp] theorem onPress_senses (s : State) (k : Nat) (f : PressRun → PressRun) : (s.onPress k f).senses = s.senses := rfl
@[simp] theorem onPress_dets (s : State) (k : Nat) (f : PressRun → PressRun) : (s.onPress k f).dets = s.dets := rfl
@[simp] theorem onPress_shelf (s : State) (k : Nat) (f : PressRun → PressRun) : (s.onPress k f).shelf = s.shelf := rfl
@[simp] theorem onPress_strings (s : State) (k : Nat) (f : PressRun → PressRun) : (s.onPress k f).strings = s.strings := rfl
@[simp] theorem onPress_feeds (s : State) (k : Nat) (f : PressRun → PressRun) : (s.onPress k f).feeds = s.feeds := rfl
@[simp] theorem onPress_models (s : State) (k : Nat) (f : PressRun → PressRun) : (s.onPress k f).models = s.models := rfl
@[simp] theorem onPress_rails (s : State) (k : Nat) (f : PressRun → PressRun) : (s.onPress k f).rails = s.rails := rfl
@[simp] theorem onPress_orders (s : State) (k : Nat) (f : PressRun → PressRun) : (s.onPress k f).orders = s.orders := rfl
@[simp] theorem onPress_seq (s : State) (k : Nat) (f : PressRun → PressRun) : (s.onPress k f).seq = s.seq := rfl
@[simp] theorem onPress_fuses (s : State) (k : Nat) (f : PressRun → PressRun) : (s.onPress k f).fuses = s.fuses := rfl
@[simp] theorem onPress_tws (s : State) (k : Nat) (f : PressRun → PressRun) : (s.onPress k f).tws = s.tws := rfl
@[simp] theorem onPress_sensors (s : State) (k : Nat) (f : PressRun → PressRun) : (s.onPress k f).sensors = s.sensors := rfl
@[simp] theorem onPress_lint (s : State) (k : Nat) (f : PressRun → PressRun) : (s.onPress k f).lint = s.lint := rfl
@[simp] theorem onPress_score (s : State) (k : Nat) (f : PressRun → PressRun) : (s.onPress k f).score = s.score := rfl
@[simp] theorem onPress_boot (s : State) (k : Nat) (f : PressRun → PressRun) : (s.onPress k f).boot = s.boot := rfl
@[simp] theorem onPress_bootRec (s : State) (k : Nat) (f : PressRun → PressRun) : (s.onPress k f).bootRec = s.bootRec := rfl
@[simp] theorem onPress_slots (s : State) (k : Nat) (f : PressRun → PressRun) : (s.onPress k f).slots = s.slots := rfl
@[simp] theorem onPress_patch (s : State) (k : Nat) (f : PressRun → PressRun) : (s.onPress k f).patch = s.patch := rfl
@[simp] theorem onPress_image (s : State) (k : Nat) (f : PressRun → PressRun) : (s.onPress k f).image = s.image := rfl
@[simp] theorem onPress_safeSet (s : State) (k : Nat) (f : PressRun → PressRun) : (s.onPress k f).safeSet = s.safeSet := rfl
@[simp] theorem onPress_working (s : State) (k : Nat) (f : PressRun → PressRun) : (s.onPress k f).working = s.working := rfl
@[simp] theorem onPress_presence (s : State) (k : Nat) (f : PressRun → PressRun) : (s.onPress k f).presence = s.presence := rfl
@[simp] theorem onPress_tamper (s : State) (k : Nat) (f : PressRun → PressRun) : (s.onPress k f).tamper = s.tamper := rfl
@[simp] theorem onPress_seats (s : State) (k : Nat) (f : PressRun → PressRun) : (s.onPress k f).seats = s.seats := rfl
@[simp] theorem onPress_t1s (s : State) (k : Nat) (f : PressRun → PressRun) : (s.onPress k f).t1s = s.t1s := rfl
@[simp] theorem onPress_cans (s : State) (k : Nat) (f : PressRun → PressRun) : (s.onPress k f).cans = s.cans := rfl
@[simp] theorem onPress_tts (s : State) (k : Nat) (f : PressRun → PressRun) : (s.onPress k f).tts = s.tts := rfl
@[simp] theorem onPress_ptp (s : State) (k : Nat) (f : PressRun → PressRun) : (s.onPress k f).ptp = s.ptp := rfl
@[simp] theorem onPress_ptpAdj (s : State) (k : Nat) (f : PressRun → PressRun) : (s.onPress k f).ptpAdj = s.ptpAdj := rfl
@[simp] theorem onPress_commits (s : State) (k : Nat) (f : PressRun → PressRun) : (s.onPress k f).commits = s.commits := rfl
@[simp] theorem onPress_hardwareRun (s : State) (k : Nat) (f : PressRun → PressRun) : (s.onPress k f).hardwareRun = s.hardwareRun := rfl
@[simp] theorem onPress_alive (s : State) (k : Nat) (f : PressRun → PressRun) : (s.onPress k f).alive = s.alive := rfl
@[simp] theorem onPress_draws (s : State) (k : Nat) (f : PressRun → PressRun) : (s.onPress k f).draws = s.draws := rfl

theorem press_onPress (s : State) (k : Nat) (f : PressRun → PressRun) (h : k < 4) : (s.onPress k f).press k = f (s.press k) :=
  vget_vmod_self _ _ _ _ h

theorem press_onPress_ne (s : State) (k : Nat) (f : PressRun → PressRun) (j : Nat) (h : j ≠ k) : (s.onPress k f).press j = s.press j :=
  vget_vmod_ne _ _ _ _ _ h

/-! ### onSense -/

@[simp] theorem onSense_pending (s : State) (n : Nat) (f : SenseRun → SenseRun) : (s.onSense n f).pending = s.pending := rfl
@[simp] theorem onSense_out (s : State) (n : Nat) (f : SenseRun → SenseRun) : (s.onSense n f).out = s.out := rfl
@[simp] theorem onSense_clock (s : State) (n : Nat) (f : SenseRun → SenseRun) : (s.onSense n f).clock = s.clock := rfl
@[simp] theorem onSense_tb (s : State) (n : Nat) (f : SenseRun → SenseRun) : (s.onSense n f).tb = s.tb := rfl
@[simp] theorem onSense_active (s : State) (n : Nat) (f : SenseRun → SenseRun) : (s.onSense n f).active = s.active := rfl
@[simp] theorem onSense_staged (s : State) (n : Nat) (f : SenseRun → SenseRun) : (s.onSense n f).staged = s.staged := rfl
@[simp] theorem onSense_cfg (s : State) (n : Nat) (f : SenseRun → SenseRun) : (s.onSense n f).cfg = s.cfg := rfl
@[simp] theorem onSense_chans (s : State) (n : Nat) (f : SenseRun → SenseRun) : (s.onSense n f).chans = s.chans := rfl
@[simp] theorem onSense_groups (s : State) (n : Nat) (f : SenseRun → SenseRun) : (s.onSense n f).groups = s.groups := rfl
@[simp] theorem onSense_ports (s : State) (n : Nat) (f : SenseRun → SenseRun) : (s.onSense n f).ports = s.ports := rfl
@[simp] theorem onSense_irons (s : State) (n : Nat) (f : SenseRun → SenseRun) : (s.onSense n f).irons = s.irons := rfl
@[simp] theorem onSense_flat (s : State) (n : Nat) (f : SenseRun → SenseRun) : (s.onSense n f).flat = s.flat := rfl
@[simp] theorem onSense_engine (s : State) (n : Nat) (f : SenseRun → SenseRun) : (s.onSense n f).engine = s.engine := rfl
@[simp] theorem onSense_dets (s : State) (n : Nat) (f : SenseRun → SenseRun) : (s.onSense n f).dets = s.dets := rfl
@[simp] theorem onSense_presses (s : State) (n : Nat) (f : SenseRun → SenseRun) : (s.onSense n f).presses = s.presses := rfl
@[simp] theorem onSense_shelf (s : State) (n : Nat) (f : SenseRun → SenseRun) : (s.onSense n f).shelf = s.shelf := rfl
@[simp] theorem onSense_strings (s : State) (n : Nat) (f : SenseRun → SenseRun) : (s.onSense n f).strings = s.strings := rfl
@[simp] theorem onSense_feeds (s : State) (n : Nat) (f : SenseRun → SenseRun) : (s.onSense n f).feeds = s.feeds := rfl
@[simp] theorem onSense_models (s : State) (n : Nat) (f : SenseRun → SenseRun) : (s.onSense n f).models = s.models := rfl
@[simp] theorem onSense_rails (s : State) (n : Nat) (f : SenseRun → SenseRun) : (s.onSense n f).rails = s.rails := rfl
@[simp] theorem onSense_orders (s : State) (n : Nat) (f : SenseRun → SenseRun) : (s.onSense n f).orders = s.orders := rfl
@[simp] theorem onSense_seq (s : State) (n : Nat) (f : SenseRun → SenseRun) : (s.onSense n f).seq = s.seq := rfl
@[simp] theorem onSense_fuses (s : State) (n : Nat) (f : SenseRun → SenseRun) : (s.onSense n f).fuses = s.fuses := rfl
@[simp] theorem onSense_tws (s : State) (n : Nat) (f : SenseRun → SenseRun) : (s.onSense n f).tws = s.tws := rfl
@[simp] theorem onSense_sensors (s : State) (n : Nat) (f : SenseRun → SenseRun) : (s.onSense n f).sensors = s.sensors := rfl
@[simp] theorem onSense_lint (s : State) (n : Nat) (f : SenseRun → SenseRun) : (s.onSense n f).lint = s.lint := rfl
@[simp] theorem onSense_score (s : State) (n : Nat) (f : SenseRun → SenseRun) : (s.onSense n f).score = s.score := rfl
@[simp] theorem onSense_boot (s : State) (n : Nat) (f : SenseRun → SenseRun) : (s.onSense n f).boot = s.boot := rfl
@[simp] theorem onSense_bootRec (s : State) (n : Nat) (f : SenseRun → SenseRun) : (s.onSense n f).bootRec = s.bootRec := rfl
@[simp] theorem onSense_slots (s : State) (n : Nat) (f : SenseRun → SenseRun) : (s.onSense n f).slots = s.slots := rfl
@[simp] theorem onSense_patch (s : State) (n : Nat) (f : SenseRun → SenseRun) : (s.onSense n f).patch = s.patch := rfl
@[simp] theorem onSense_image (s : State) (n : Nat) (f : SenseRun → SenseRun) : (s.onSense n f).image = s.image := rfl
@[simp] theorem onSense_safeSet (s : State) (n : Nat) (f : SenseRun → SenseRun) : (s.onSense n f).safeSet = s.safeSet := rfl
@[simp] theorem onSense_working (s : State) (n : Nat) (f : SenseRun → SenseRun) : (s.onSense n f).working = s.working := rfl
@[simp] theorem onSense_presence (s : State) (n : Nat) (f : SenseRun → SenseRun) : (s.onSense n f).presence = s.presence := rfl
@[simp] theorem onSense_tamper (s : State) (n : Nat) (f : SenseRun → SenseRun) : (s.onSense n f).tamper = s.tamper := rfl
@[simp] theorem onSense_seats (s : State) (n : Nat) (f : SenseRun → SenseRun) : (s.onSense n f).seats = s.seats := rfl
@[simp] theorem onSense_t1s (s : State) (n : Nat) (f : SenseRun → SenseRun) : (s.onSense n f).t1s = s.t1s := rfl
@[simp] theorem onSense_cans (s : State) (n : Nat) (f : SenseRun → SenseRun) : (s.onSense n f).cans = s.cans := rfl
@[simp] theorem onSense_tts (s : State) (n : Nat) (f : SenseRun → SenseRun) : (s.onSense n f).tts = s.tts := rfl
@[simp] theorem onSense_ptp (s : State) (n : Nat) (f : SenseRun → SenseRun) : (s.onSense n f).ptp = s.ptp := rfl
@[simp] theorem onSense_ptpAdj (s : State) (n : Nat) (f : SenseRun → SenseRun) : (s.onSense n f).ptpAdj = s.ptpAdj := rfl
@[simp] theorem onSense_commits (s : State) (n : Nat) (f : SenseRun → SenseRun) : (s.onSense n f).commits = s.commits := rfl
@[simp] theorem onSense_hardwareRun (s : State) (n : Nat) (f : SenseRun → SenseRun) : (s.onSense n f).hardwareRun = s.hardwareRun := rfl
@[simp] theorem onSense_alive (s : State) (n : Nat) (f : SenseRun → SenseRun) : (s.onSense n f).alive = s.alive := rfl
@[simp] theorem onSense_draws (s : State) (n : Nat) (f : SenseRun → SenseRun) : (s.onSense n f).draws = s.draws := rfl

theorem sense_onSense (s : State) (n : Nat) (f : SenseRun → SenseRun) (h : n < 32) : (s.onSense n f).sense n = f (s.sense n) :=
  vget_vmod_self _ _ _ _ h

theorem sense_onSense_ne (s : State) (n : Nat) (f : SenseRun → SenseRun) (j : Nat) (h : j ≠ n) : (s.onSense n f).sense j = s.sense j :=
  vget_vmod_ne _ _ _ _ _ h

/-! ### onRail -/

@[simp] theorem onRail_pending (s : State) (r : Nat) (f : RailRun → RailRun) : (s.onRail r f).pending = s.pending := rfl
@[simp] theorem onRail_out (s : State) (r : Nat) (f : RailRun → RailRun) : (s.onRail r f).out = s.out := rfl
@[simp] theorem onRail_clock (s : State) (r : Nat) (f : RailRun → RailRun) : (s.onRail r f).clock = s.clock := rfl
@[simp] theorem onRail_tb (s : State) (r : Nat) (f : RailRun → RailRun) : (s.onRail r f).tb = s.tb := rfl
@[simp] theorem onRail_active (s : State) (r : Nat) (f : RailRun → RailRun) : (s.onRail r f).active = s.active := rfl
@[simp] theorem onRail_staged (s : State) (r : Nat) (f : RailRun → RailRun) : (s.onRail r f).staged = s.staged := rfl
@[simp] theorem onRail_cfg (s : State) (r : Nat) (f : RailRun → RailRun) : (s.onRail r f).cfg = s.cfg := rfl
@[simp] theorem onRail_chans (s : State) (r : Nat) (f : RailRun → RailRun) : (s.onRail r f).chans = s.chans := rfl
@[simp] theorem onRail_groups (s : State) (r : Nat) (f : RailRun → RailRun) : (s.onRail r f).groups = s.groups := rfl
@[simp] theorem onRail_ports (s : State) (r : Nat) (f : RailRun → RailRun) : (s.onRail r f).ports = s.ports := rfl
@[simp] theorem onRail_irons (s : State) (r : Nat) (f : RailRun → RailRun) : (s.onRail r f).irons = s.irons := rfl
@[simp] theorem onRail_flat (s : State) (r : Nat) (f : RailRun → RailRun) : (s.onRail r f).flat = s.flat := rfl
@[simp] theorem onRail_engine (s : State) (r : Nat) (f : RailRun → RailRun) : (s.onRail r f).engine = s.engine := rfl
@[simp] theorem onRail_senses (s : State) (r : Nat) (f : RailRun → RailRun) : (s.onRail r f).senses = s.senses := rfl
@[simp] theorem onRail_dets (s : State) (r : Nat) (f : RailRun → RailRun) : (s.onRail r f).dets = s.dets := rfl
@[simp] theorem onRail_presses (s : State) (r : Nat) (f : RailRun → RailRun) : (s.onRail r f).presses = s.presses := rfl
@[simp] theorem onRail_shelf (s : State) (r : Nat) (f : RailRun → RailRun) : (s.onRail r f).shelf = s.shelf := rfl
@[simp] theorem onRail_strings (s : State) (r : Nat) (f : RailRun → RailRun) : (s.onRail r f).strings = s.strings := rfl
@[simp] theorem onRail_feeds (s : State) (r : Nat) (f : RailRun → RailRun) : (s.onRail r f).feeds = s.feeds := rfl
@[simp] theorem onRail_models (s : State) (r : Nat) (f : RailRun → RailRun) : (s.onRail r f).models = s.models := rfl
@[simp] theorem onRail_orders (s : State) (r : Nat) (f : RailRun → RailRun) : (s.onRail r f).orders = s.orders := rfl
@[simp] theorem onRail_seq (s : State) (r : Nat) (f : RailRun → RailRun) : (s.onRail r f).seq = s.seq := rfl
@[simp] theorem onRail_fuses (s : State) (r : Nat) (f : RailRun → RailRun) : (s.onRail r f).fuses = s.fuses := rfl
@[simp] theorem onRail_tws (s : State) (r : Nat) (f : RailRun → RailRun) : (s.onRail r f).tws = s.tws := rfl
@[simp] theorem onRail_sensors (s : State) (r : Nat) (f : RailRun → RailRun) : (s.onRail r f).sensors = s.sensors := rfl
@[simp] theorem onRail_lint (s : State) (r : Nat) (f : RailRun → RailRun) : (s.onRail r f).lint = s.lint := rfl
@[simp] theorem onRail_score (s : State) (r : Nat) (f : RailRun → RailRun) : (s.onRail r f).score = s.score := rfl
@[simp] theorem onRail_boot (s : State) (r : Nat) (f : RailRun → RailRun) : (s.onRail r f).boot = s.boot := rfl
@[simp] theorem onRail_bootRec (s : State) (r : Nat) (f : RailRun → RailRun) : (s.onRail r f).bootRec = s.bootRec := rfl
@[simp] theorem onRail_slots (s : State) (r : Nat) (f : RailRun → RailRun) : (s.onRail r f).slots = s.slots := rfl
@[simp] theorem onRail_patch (s : State) (r : Nat) (f : RailRun → RailRun) : (s.onRail r f).patch = s.patch := rfl
@[simp] theorem onRail_image (s : State) (r : Nat) (f : RailRun → RailRun) : (s.onRail r f).image = s.image := rfl
@[simp] theorem onRail_safeSet (s : State) (r : Nat) (f : RailRun → RailRun) : (s.onRail r f).safeSet = s.safeSet := rfl
@[simp] theorem onRail_working (s : State) (r : Nat) (f : RailRun → RailRun) : (s.onRail r f).working = s.working := rfl
@[simp] theorem onRail_presence (s : State) (r : Nat) (f : RailRun → RailRun) : (s.onRail r f).presence = s.presence := rfl
@[simp] theorem onRail_tamper (s : State) (r : Nat) (f : RailRun → RailRun) : (s.onRail r f).tamper = s.tamper := rfl
@[simp] theorem onRail_seats (s : State) (r : Nat) (f : RailRun → RailRun) : (s.onRail r f).seats = s.seats := rfl
@[simp] theorem onRail_t1s (s : State) (r : Nat) (f : RailRun → RailRun) : (s.onRail r f).t1s = s.t1s := rfl
@[simp] theorem onRail_cans (s : State) (r : Nat) (f : RailRun → RailRun) : (s.onRail r f).cans = s.cans := rfl
@[simp] theorem onRail_tts (s : State) (r : Nat) (f : RailRun → RailRun) : (s.onRail r f).tts = s.tts := rfl
@[simp] theorem onRail_ptp (s : State) (r : Nat) (f : RailRun → RailRun) : (s.onRail r f).ptp = s.ptp := rfl
@[simp] theorem onRail_ptpAdj (s : State) (r : Nat) (f : RailRun → RailRun) : (s.onRail r f).ptpAdj = s.ptpAdj := rfl
@[simp] theorem onRail_commits (s : State) (r : Nat) (f : RailRun → RailRun) : (s.onRail r f).commits = s.commits := rfl
@[simp] theorem onRail_hardwareRun (s : State) (r : Nat) (f : RailRun → RailRun) : (s.onRail r f).hardwareRun = s.hardwareRun := rfl
@[simp] theorem onRail_alive (s : State) (r : Nat) (f : RailRun → RailRun) : (s.onRail r f).alive = s.alive := rfl
@[simp] theorem onRail_draws (s : State) (r : Nat) (f : RailRun → RailRun) : (s.onRail r f).draws = s.draws := rfl

theorem rail_onRail (s : State) (r : Nat) (f : RailRun → RailRun) (h : r < 32) : (s.onRail r f).rail r = f (s.rail r) :=
  vget_vmod_self _ _ _ _ h

theorem rail_onRail_ne (s : State) (r : Nat) (f : RailRun → RailRun) (j : Nat) (h : j ≠ r) : (s.onRail r f).rail j = s.rail j :=
  vget_vmod_ne _ _ _ _ _ h

/-! ### onOrder -/

@[simp] theorem onOrder_pending (s : State) (k : Nat) (f : OrderRun → OrderRun) : (s.onOrder k f).pending = s.pending := rfl
@[simp] theorem onOrder_out (s : State) (k : Nat) (f : OrderRun → OrderRun) : (s.onOrder k f).out = s.out := rfl
@[simp] theorem onOrder_clock (s : State) (k : Nat) (f : OrderRun → OrderRun) : (s.onOrder k f).clock = s.clock := rfl
@[simp] theorem onOrder_tb (s : State) (k : Nat) (f : OrderRun → OrderRun) : (s.onOrder k f).tb = s.tb := rfl
@[simp] theorem onOrder_active (s : State) (k : Nat) (f : OrderRun → OrderRun) : (s.onOrder k f).active = s.active := rfl
@[simp] theorem onOrder_staged (s : State) (k : Nat) (f : OrderRun → OrderRun) : (s.onOrder k f).staged = s.staged := rfl
@[simp] theorem onOrder_cfg (s : State) (k : Nat) (f : OrderRun → OrderRun) : (s.onOrder k f).cfg = s.cfg := rfl
@[simp] theorem onOrder_chans (s : State) (k : Nat) (f : OrderRun → OrderRun) : (s.onOrder k f).chans = s.chans := rfl
@[simp] theorem onOrder_groups (s : State) (k : Nat) (f : OrderRun → OrderRun) : (s.onOrder k f).groups = s.groups := rfl
@[simp] theorem onOrder_ports (s : State) (k : Nat) (f : OrderRun → OrderRun) : (s.onOrder k f).ports = s.ports := rfl
@[simp] theorem onOrder_irons (s : State) (k : Nat) (f : OrderRun → OrderRun) : (s.onOrder k f).irons = s.irons := rfl
@[simp] theorem onOrder_flat (s : State) (k : Nat) (f : OrderRun → OrderRun) : (s.onOrder k f).flat = s.flat := rfl
@[simp] theorem onOrder_engine (s : State) (k : Nat) (f : OrderRun → OrderRun) : (s.onOrder k f).engine = s.engine := rfl
@[simp] theorem onOrder_senses (s : State) (k : Nat) (f : OrderRun → OrderRun) : (s.onOrder k f).senses = s.senses := rfl
@[simp] theorem onOrder_dets (s : State) (k : Nat) (f : OrderRun → OrderRun) : (s.onOrder k f).dets = s.dets := rfl
@[simp] theorem onOrder_presses (s : State) (k : Nat) (f : OrderRun → OrderRun) : (s.onOrder k f).presses = s.presses := rfl
@[simp] theorem onOrder_shelf (s : State) (k : Nat) (f : OrderRun → OrderRun) : (s.onOrder k f).shelf = s.shelf := rfl
@[simp] theorem onOrder_strings (s : State) (k : Nat) (f : OrderRun → OrderRun) : (s.onOrder k f).strings = s.strings := rfl
@[simp] theorem onOrder_feeds (s : State) (k : Nat) (f : OrderRun → OrderRun) : (s.onOrder k f).feeds = s.feeds := rfl
@[simp] theorem onOrder_models (s : State) (k : Nat) (f : OrderRun → OrderRun) : (s.onOrder k f).models = s.models := rfl
@[simp] theorem onOrder_rails (s : State) (k : Nat) (f : OrderRun → OrderRun) : (s.onOrder k f).rails = s.rails := rfl
@[simp] theorem onOrder_seq (s : State) (k : Nat) (f : OrderRun → OrderRun) : (s.onOrder k f).seq = s.seq := rfl
@[simp] theorem onOrder_fuses (s : State) (k : Nat) (f : OrderRun → OrderRun) : (s.onOrder k f).fuses = s.fuses := rfl
@[simp] theorem onOrder_tws (s : State) (k : Nat) (f : OrderRun → OrderRun) : (s.onOrder k f).tws = s.tws := rfl
@[simp] theorem onOrder_sensors (s : State) (k : Nat) (f : OrderRun → OrderRun) : (s.onOrder k f).sensors = s.sensors := rfl
@[simp] theorem onOrder_lint (s : State) (k : Nat) (f : OrderRun → OrderRun) : (s.onOrder k f).lint = s.lint := rfl
@[simp] theorem onOrder_score (s : State) (k : Nat) (f : OrderRun → OrderRun) : (s.onOrder k f).score = s.score := rfl
@[simp] theorem onOrder_boot (s : State) (k : Nat) (f : OrderRun → OrderRun) : (s.onOrder k f).boot = s.boot := rfl
@[simp] theorem onOrder_bootRec (s : State) (k : Nat) (f : OrderRun → OrderRun) : (s.onOrder k f).bootRec = s.bootRec := rfl
@[simp] theorem onOrder_slots (s : State) (k : Nat) (f : OrderRun → OrderRun) : (s.onOrder k f).slots = s.slots := rfl
@[simp] theorem onOrder_patch (s : State) (k : Nat) (f : OrderRun → OrderRun) : (s.onOrder k f).patch = s.patch := rfl
@[simp] theorem onOrder_image (s : State) (k : Nat) (f : OrderRun → OrderRun) : (s.onOrder k f).image = s.image := rfl
@[simp] theorem onOrder_safeSet (s : State) (k : Nat) (f : OrderRun → OrderRun) : (s.onOrder k f).safeSet = s.safeSet := rfl
@[simp] theorem onOrder_working (s : State) (k : Nat) (f : OrderRun → OrderRun) : (s.onOrder k f).working = s.working := rfl
@[simp] theorem onOrder_presence (s : State) (k : Nat) (f : OrderRun → OrderRun) : (s.onOrder k f).presence = s.presence := rfl
@[simp] theorem onOrder_tamper (s : State) (k : Nat) (f : OrderRun → OrderRun) : (s.onOrder k f).tamper = s.tamper := rfl
@[simp] theorem onOrder_seats (s : State) (k : Nat) (f : OrderRun → OrderRun) : (s.onOrder k f).seats = s.seats := rfl
@[simp] theorem onOrder_t1s (s : State) (k : Nat) (f : OrderRun → OrderRun) : (s.onOrder k f).t1s = s.t1s := rfl
@[simp] theorem onOrder_cans (s : State) (k : Nat) (f : OrderRun → OrderRun) : (s.onOrder k f).cans = s.cans := rfl
@[simp] theorem onOrder_tts (s : State) (k : Nat) (f : OrderRun → OrderRun) : (s.onOrder k f).tts = s.tts := rfl
@[simp] theorem onOrder_ptp (s : State) (k : Nat) (f : OrderRun → OrderRun) : (s.onOrder k f).ptp = s.ptp := rfl
@[simp] theorem onOrder_ptpAdj (s : State) (k : Nat) (f : OrderRun → OrderRun) : (s.onOrder k f).ptpAdj = s.ptpAdj := rfl
@[simp] theorem onOrder_commits (s : State) (k : Nat) (f : OrderRun → OrderRun) : (s.onOrder k f).commits = s.commits := rfl
@[simp] theorem onOrder_hardwareRun (s : State) (k : Nat) (f : OrderRun → OrderRun) : (s.onOrder k f).hardwareRun = s.hardwareRun := rfl
@[simp] theorem onOrder_alive (s : State) (k : Nat) (f : OrderRun → OrderRun) : (s.onOrder k f).alive = s.alive := rfl
@[simp] theorem onOrder_draws (s : State) (k : Nat) (f : OrderRun → OrderRun) : (s.onOrder k f).draws = s.draws := rfl

theorem order_onOrder (s : State) (k : Nat) (f : OrderRun → OrderRun) (h : k < 4) : (s.onOrder k f).order k = f (s.order k) :=
  vget_vmod_self _ _ _ _ h

theorem order_onOrder_ne (s : State) (k : Nat) (f : OrderRun → OrderRun) (j : Nat) (h : j ≠ k) : (s.onOrder k f).order j = s.order j :=
  vget_vmod_ne _ _ _ _ _ h

/-! ### onFuses -/

@[simp] theorem onFuses_pending (s : State) (f : FuseRun → FuseRun) : (s.onFuses f).pending = s.pending := rfl
@[simp] theorem onFuses_out (s : State) (f : FuseRun → FuseRun) : (s.onFuses f).out = s.out := rfl
@[simp] theorem onFuses_clock (s : State) (f : FuseRun → FuseRun) : (s.onFuses f).clock = s.clock := rfl
@[simp] theorem onFuses_tb (s : State) (f : FuseRun → FuseRun) : (s.onFuses f).tb = s.tb := rfl
@[simp] theorem onFuses_active (s : State) (f : FuseRun → FuseRun) : (s.onFuses f).active = s.active := rfl
@[simp] theorem onFuses_staged (s : State) (f : FuseRun → FuseRun) : (s.onFuses f).staged = s.staged := rfl
@[simp] theorem onFuses_cfg (s : State) (f : FuseRun → FuseRun) : (s.onFuses f).cfg = s.cfg := rfl
@[simp] theorem onFuses_chans (s : State) (f : FuseRun → FuseRun) : (s.onFuses f).chans = s.chans := rfl
@[simp] theorem onFuses_groups (s : State) (f : FuseRun → FuseRun) : (s.onFuses f).groups = s.groups := rfl
@[simp] theorem onFuses_ports (s : State) (f : FuseRun → FuseRun) : (s.onFuses f).ports = s.ports := rfl
@[simp] theorem onFuses_irons (s : State) (f : FuseRun → FuseRun) : (s.onFuses f).irons = s.irons := rfl
@[simp] theorem onFuses_flat (s : State) (f : FuseRun → FuseRun) : (s.onFuses f).flat = s.flat := rfl
@[simp] theorem onFuses_engine (s : State) (f : FuseRun → FuseRun) : (s.onFuses f).engine = s.engine := rfl
@[simp] theorem onFuses_senses (s : State) (f : FuseRun → FuseRun) : (s.onFuses f).senses = s.senses := rfl
@[simp] theorem onFuses_dets (s : State) (f : FuseRun → FuseRun) : (s.onFuses f).dets = s.dets := rfl
@[simp] theorem onFuses_presses (s : State) (f : FuseRun → FuseRun) : (s.onFuses f).presses = s.presses := rfl
@[simp] theorem onFuses_shelf (s : State) (f : FuseRun → FuseRun) : (s.onFuses f).shelf = s.shelf := rfl
@[simp] theorem onFuses_strings (s : State) (f : FuseRun → FuseRun) : (s.onFuses f).strings = s.strings := rfl
@[simp] theorem onFuses_feeds (s : State) (f : FuseRun → FuseRun) : (s.onFuses f).feeds = s.feeds := rfl
@[simp] theorem onFuses_models (s : State) (f : FuseRun → FuseRun) : (s.onFuses f).models = s.models := rfl
@[simp] theorem onFuses_rails (s : State) (f : FuseRun → FuseRun) : (s.onFuses f).rails = s.rails := rfl
@[simp] theorem onFuses_orders (s : State) (f : FuseRun → FuseRun) : (s.onFuses f).orders = s.orders := rfl
@[simp] theorem onFuses_seq (s : State) (f : FuseRun → FuseRun) : (s.onFuses f).seq = s.seq := rfl
@[simp] theorem onFuses_tws (s : State) (f : FuseRun → FuseRun) : (s.onFuses f).tws = s.tws := rfl
@[simp] theorem onFuses_sensors (s : State) (f : FuseRun → FuseRun) : (s.onFuses f).sensors = s.sensors := rfl
@[simp] theorem onFuses_lint (s : State) (f : FuseRun → FuseRun) : (s.onFuses f).lint = s.lint := rfl
@[simp] theorem onFuses_score (s : State) (f : FuseRun → FuseRun) : (s.onFuses f).score = s.score := rfl
@[simp] theorem onFuses_boot (s : State) (f : FuseRun → FuseRun) : (s.onFuses f).boot = s.boot := rfl
@[simp] theorem onFuses_bootRec (s : State) (f : FuseRun → FuseRun) : (s.onFuses f).bootRec = s.bootRec := rfl
@[simp] theorem onFuses_slots (s : State) (f : FuseRun → FuseRun) : (s.onFuses f).slots = s.slots := rfl
@[simp] theorem onFuses_patch (s : State) (f : FuseRun → FuseRun) : (s.onFuses f).patch = s.patch := rfl
@[simp] theorem onFuses_image (s : State) (f : FuseRun → FuseRun) : (s.onFuses f).image = s.image := rfl
@[simp] theorem onFuses_safeSet (s : State) (f : FuseRun → FuseRun) : (s.onFuses f).safeSet = s.safeSet := rfl
@[simp] theorem onFuses_working (s : State) (f : FuseRun → FuseRun) : (s.onFuses f).working = s.working := rfl
@[simp] theorem onFuses_presence (s : State) (f : FuseRun → FuseRun) : (s.onFuses f).presence = s.presence := rfl
@[simp] theorem onFuses_tamper (s : State) (f : FuseRun → FuseRun) : (s.onFuses f).tamper = s.tamper := rfl
@[simp] theorem onFuses_seats (s : State) (f : FuseRun → FuseRun) : (s.onFuses f).seats = s.seats := rfl
@[simp] theorem onFuses_t1s (s : State) (f : FuseRun → FuseRun) : (s.onFuses f).t1s = s.t1s := rfl
@[simp] theorem onFuses_cans (s : State) (f : FuseRun → FuseRun) : (s.onFuses f).cans = s.cans := rfl
@[simp] theorem onFuses_tts (s : State) (f : FuseRun → FuseRun) : (s.onFuses f).tts = s.tts := rfl
@[simp] theorem onFuses_ptp (s : State) (f : FuseRun → FuseRun) : (s.onFuses f).ptp = s.ptp := rfl
@[simp] theorem onFuses_ptpAdj (s : State) (f : FuseRun → FuseRun) : (s.onFuses f).ptpAdj = s.ptpAdj := rfl
@[simp] theorem onFuses_commits (s : State) (f : FuseRun → FuseRun) : (s.onFuses f).commits = s.commits := rfl
@[simp] theorem onFuses_hardwareRun (s : State) (f : FuseRun → FuseRun) : (s.onFuses f).hardwareRun = s.hardwareRun := rfl
@[simp] theorem onFuses_alive (s : State) (f : FuseRun → FuseRun) : (s.onFuses f).alive = s.alive := rfl
@[simp] theorem onFuses_draws (s : State) (f : FuseRun → FuseRun) : (s.onFuses f).draws = s.draws := rfl

/-! ### onRec -/

@[simp] theorem onRec_pending (s : State) (f : BootRecord → BootRecord) : (s.onRec f).pending = s.pending := rfl
@[simp] theorem onRec_out (s : State) (f : BootRecord → BootRecord) : (s.onRec f).out = s.out := rfl
@[simp] theorem onRec_clock (s : State) (f : BootRecord → BootRecord) : (s.onRec f).clock = s.clock := rfl
@[simp] theorem onRec_tb (s : State) (f : BootRecord → BootRecord) : (s.onRec f).tb = s.tb := rfl
@[simp] theorem onRec_active (s : State) (f : BootRecord → BootRecord) : (s.onRec f).active = s.active := rfl
@[simp] theorem onRec_staged (s : State) (f : BootRecord → BootRecord) : (s.onRec f).staged = s.staged := rfl
@[simp] theorem onRec_cfg (s : State) (f : BootRecord → BootRecord) : (s.onRec f).cfg = s.cfg := rfl
@[simp] theorem onRec_chans (s : State) (f : BootRecord → BootRecord) : (s.onRec f).chans = s.chans := rfl
@[simp] theorem onRec_groups (s : State) (f : BootRecord → BootRecord) : (s.onRec f).groups = s.groups := rfl
@[simp] theorem onRec_ports (s : State) (f : BootRecord → BootRecord) : (s.onRec f).ports = s.ports := rfl
@[simp] theorem onRec_irons (s : State) (f : BootRecord → BootRecord) : (s.onRec f).irons = s.irons := rfl
@[simp] theorem onRec_flat (s : State) (f : BootRecord → BootRecord) : (s.onRec f).flat = s.flat := rfl
@[simp] theorem onRec_engine (s : State) (f : BootRecord → BootRecord) : (s.onRec f).engine = s.engine := rfl
@[simp] theorem onRec_senses (s : State) (f : BootRecord → BootRecord) : (s.onRec f).senses = s.senses := rfl
@[simp] theorem onRec_dets (s : State) (f : BootRecord → BootRecord) : (s.onRec f).dets = s.dets := rfl
@[simp] theorem onRec_presses (s : State) (f : BootRecord → BootRecord) : (s.onRec f).presses = s.presses := rfl
@[simp] theorem onRec_shelf (s : State) (f : BootRecord → BootRecord) : (s.onRec f).shelf = s.shelf := rfl
@[simp] theorem onRec_strings (s : State) (f : BootRecord → BootRecord) : (s.onRec f).strings = s.strings := rfl
@[simp] theorem onRec_feeds (s : State) (f : BootRecord → BootRecord) : (s.onRec f).feeds = s.feeds := rfl
@[simp] theorem onRec_models (s : State) (f : BootRecord → BootRecord) : (s.onRec f).models = s.models := rfl
@[simp] theorem onRec_rails (s : State) (f : BootRecord → BootRecord) : (s.onRec f).rails = s.rails := rfl
@[simp] theorem onRec_orders (s : State) (f : BootRecord → BootRecord) : (s.onRec f).orders = s.orders := rfl
@[simp] theorem onRec_seq (s : State) (f : BootRecord → BootRecord) : (s.onRec f).seq = s.seq := rfl
@[simp] theorem onRec_fuses (s : State) (f : BootRecord → BootRecord) : (s.onRec f).fuses = s.fuses := rfl
@[simp] theorem onRec_tws (s : State) (f : BootRecord → BootRecord) : (s.onRec f).tws = s.tws := rfl
@[simp] theorem onRec_sensors (s : State) (f : BootRecord → BootRecord) : (s.onRec f).sensors = s.sensors := rfl
@[simp] theorem onRec_lint (s : State) (f : BootRecord → BootRecord) : (s.onRec f).lint = s.lint := rfl
@[simp] theorem onRec_score (s : State) (f : BootRecord → BootRecord) : (s.onRec f).score = s.score := rfl
@[simp] theorem onRec_boot (s : State) (f : BootRecord → BootRecord) : (s.onRec f).boot = s.boot := rfl
@[simp] theorem onRec_slots (s : State) (f : BootRecord → BootRecord) : (s.onRec f).slots = s.slots := rfl
@[simp] theorem onRec_patch (s : State) (f : BootRecord → BootRecord) : (s.onRec f).patch = s.patch := rfl
@[simp] theorem onRec_image (s : State) (f : BootRecord → BootRecord) : (s.onRec f).image = s.image := rfl
@[simp] theorem onRec_safeSet (s : State) (f : BootRecord → BootRecord) : (s.onRec f).safeSet = s.safeSet := rfl
@[simp] theorem onRec_working (s : State) (f : BootRecord → BootRecord) : (s.onRec f).working = s.working := rfl
@[simp] theorem onRec_presence (s : State) (f : BootRecord → BootRecord) : (s.onRec f).presence = s.presence := rfl
@[simp] theorem onRec_tamper (s : State) (f : BootRecord → BootRecord) : (s.onRec f).tamper = s.tamper := rfl
@[simp] theorem onRec_seats (s : State) (f : BootRecord → BootRecord) : (s.onRec f).seats = s.seats := rfl
@[simp] theorem onRec_t1s (s : State) (f : BootRecord → BootRecord) : (s.onRec f).t1s = s.t1s := rfl
@[simp] theorem onRec_cans (s : State) (f : BootRecord → BootRecord) : (s.onRec f).cans = s.cans := rfl
@[simp] theorem onRec_tts (s : State) (f : BootRecord → BootRecord) : (s.onRec f).tts = s.tts := rfl
@[simp] theorem onRec_ptp (s : State) (f : BootRecord → BootRecord) : (s.onRec f).ptp = s.ptp := rfl
@[simp] theorem onRec_ptpAdj (s : State) (f : BootRecord → BootRecord) : (s.onRec f).ptpAdj = s.ptpAdj := rfl
@[simp] theorem onRec_commits (s : State) (f : BootRecord → BootRecord) : (s.onRec f).commits = s.commits := rfl
@[simp] theorem onRec_hardwareRun (s : State) (f : BootRecord → BootRecord) : (s.onRec f).hardwareRun = s.hardwareRun := rfl
@[simp] theorem onRec_alive (s : State) (f : BootRecord → BootRecord) : (s.onRec f).alive = s.alive := rfl
@[simp] theorem onRec_draws (s : State) (f : BootRecord → BootRecord) : (s.onRec f).draws = s.draws := rfl

/-! ### onTw -/

@[simp] theorem onTw_pending (s : State) (t : Nat) (f : TwRun → TwRun) : (s.onTw t f).pending = s.pending := rfl
@[simp] theorem onTw_out (s : State) (t : Nat) (f : TwRun → TwRun) : (s.onTw t f).out = s.out := rfl
@[simp] theorem onTw_clock (s : State) (t : Nat) (f : TwRun → TwRun) : (s.onTw t f).clock = s.clock := rfl
@[simp] theorem onTw_tb (s : State) (t : Nat) (f : TwRun → TwRun) : (s.onTw t f).tb = s.tb := rfl
@[simp] theorem onTw_active (s : State) (t : Nat) (f : TwRun → TwRun) : (s.onTw t f).active = s.active := rfl
@[simp] theorem onTw_staged (s : State) (t : Nat) (f : TwRun → TwRun) : (s.onTw t f).staged = s.staged := rfl
@[simp] theorem onTw_cfg (s : State) (t : Nat) (f : TwRun → TwRun) : (s.onTw t f).cfg = s.cfg := rfl
@[simp] theorem onTw_chans (s : State) (t : Nat) (f : TwRun → TwRun) : (s.onTw t f).chans = s.chans := rfl
@[simp] theorem onTw_groups (s : State) (t : Nat) (f : TwRun → TwRun) : (s.onTw t f).groups = s.groups := rfl
@[simp] theorem onTw_ports (s : State) (t : Nat) (f : TwRun → TwRun) : (s.onTw t f).ports = s.ports := rfl
@[simp] theorem onTw_irons (s : State) (t : Nat) (f : TwRun → TwRun) : (s.onTw t f).irons = s.irons := rfl
@[simp] theorem onTw_flat (s : State) (t : Nat) (f : TwRun → TwRun) : (s.onTw t f).flat = s.flat := rfl
@[simp] theorem onTw_engine (s : State) (t : Nat) (f : TwRun → TwRun) : (s.onTw t f).engine = s.engine := rfl
@[simp] theorem onTw_senses (s : State) (t : Nat) (f : TwRun → TwRun) : (s.onTw t f).senses = s.senses := rfl
@[simp] theorem onTw_dets (s : State) (t : Nat) (f : TwRun → TwRun) : (s.onTw t f).dets = s.dets := rfl
@[simp] theorem onTw_presses (s : State) (t : Nat) (f : TwRun → TwRun) : (s.onTw t f).presses = s.presses := rfl
@[simp] theorem onTw_shelf (s : State) (t : Nat) (f : TwRun → TwRun) : (s.onTw t f).shelf = s.shelf := rfl
@[simp] theorem onTw_strings (s : State) (t : Nat) (f : TwRun → TwRun) : (s.onTw t f).strings = s.strings := rfl
@[simp] theorem onTw_feeds (s : State) (t : Nat) (f : TwRun → TwRun) : (s.onTw t f).feeds = s.feeds := rfl
@[simp] theorem onTw_models (s : State) (t : Nat) (f : TwRun → TwRun) : (s.onTw t f).models = s.models := rfl
@[simp] theorem onTw_rails (s : State) (t : Nat) (f : TwRun → TwRun) : (s.onTw t f).rails = s.rails := rfl
@[simp] theorem onTw_orders (s : State) (t : Nat) (f : TwRun → TwRun) : (s.onTw t f).orders = s.orders := rfl
@[simp] theorem onTw_seq (s : State) (t : Nat) (f : TwRun → TwRun) : (s.onTw t f).seq = s.seq := rfl
@[simp] theorem onTw_fuses (s : State) (t : Nat) (f : TwRun → TwRun) : (s.onTw t f).fuses = s.fuses := rfl
@[simp] theorem onTw_sensors (s : State) (t : Nat) (f : TwRun → TwRun) : (s.onTw t f).sensors = s.sensors := rfl
@[simp] theorem onTw_lint (s : State) (t : Nat) (f : TwRun → TwRun) : (s.onTw t f).lint = s.lint := rfl
@[simp] theorem onTw_score (s : State) (t : Nat) (f : TwRun → TwRun) : (s.onTw t f).score = s.score := rfl
@[simp] theorem onTw_boot (s : State) (t : Nat) (f : TwRun → TwRun) : (s.onTw t f).boot = s.boot := rfl
@[simp] theorem onTw_bootRec (s : State) (t : Nat) (f : TwRun → TwRun) : (s.onTw t f).bootRec = s.bootRec := rfl
@[simp] theorem onTw_slots (s : State) (t : Nat) (f : TwRun → TwRun) : (s.onTw t f).slots = s.slots := rfl
@[simp] theorem onTw_patch (s : State) (t : Nat) (f : TwRun → TwRun) : (s.onTw t f).patch = s.patch := rfl
@[simp] theorem onTw_image (s : State) (t : Nat) (f : TwRun → TwRun) : (s.onTw t f).image = s.image := rfl
@[simp] theorem onTw_safeSet (s : State) (t : Nat) (f : TwRun → TwRun) : (s.onTw t f).safeSet = s.safeSet := rfl
@[simp] theorem onTw_working (s : State) (t : Nat) (f : TwRun → TwRun) : (s.onTw t f).working = s.working := rfl
@[simp] theorem onTw_presence (s : State) (t : Nat) (f : TwRun → TwRun) : (s.onTw t f).presence = s.presence := rfl
@[simp] theorem onTw_tamper (s : State) (t : Nat) (f : TwRun → TwRun) : (s.onTw t f).tamper = s.tamper := rfl
@[simp] theorem onTw_seats (s : State) (t : Nat) (f : TwRun → TwRun) : (s.onTw t f).seats = s.seats := rfl
@[simp] theorem onTw_t1s (s : State) (t : Nat) (f : TwRun → TwRun) : (s.onTw t f).t1s = s.t1s := rfl
@[simp] theorem onTw_cans (s : State) (t : Nat) (f : TwRun → TwRun) : (s.onTw t f).cans = s.cans := rfl
@[simp] theorem onTw_tts (s : State) (t : Nat) (f : TwRun → TwRun) : (s.onTw t f).tts = s.tts := rfl
@[simp] theorem onTw_ptp (s : State) (t : Nat) (f : TwRun → TwRun) : (s.onTw t f).ptp = s.ptp := rfl
@[simp] theorem onTw_ptpAdj (s : State) (t : Nat) (f : TwRun → TwRun) : (s.onTw t f).ptpAdj = s.ptpAdj := rfl
@[simp] theorem onTw_commits (s : State) (t : Nat) (f : TwRun → TwRun) : (s.onTw t f).commits = s.commits := rfl
@[simp] theorem onTw_hardwareRun (s : State) (t : Nat) (f : TwRun → TwRun) : (s.onTw t f).hardwareRun = s.hardwareRun := rfl
@[simp] theorem onTw_alive (s : State) (t : Nat) (f : TwRun → TwRun) : (s.onTw t f).alive = s.alive := rfl
@[simp] theorem onTw_draws (s : State) (t : Nat) (f : TwRun → TwRun) : (s.onTw t f).draws = s.draws := rfl

theorem tw_onTw (s : State) (t : Nat) (f : TwRun → TwRun) (h : t < 4) : (s.onTw t f).tw t = f (s.tw t) :=
  vget_vmod_self _ _ _ _ h

theorem tw_onTw_ne (s : State) (t : Nat) (f : TwRun → TwRun) (j : Nat) (h : j ≠ t) : (s.onTw t f).tw j = s.tw j :=
  vget_vmod_ne _ _ _ _ _ h

/-! ### onSensor -/

@[simp] theorem onSensor_pending (s : State) (n : Nat) (f : SensorRun → SensorRun) : (s.onSensor n f).pending = s.pending := rfl
@[simp] theorem onSensor_out (s : State) (n : Nat) (f : SensorRun → SensorRun) : (s.onSensor n f).out = s.out := rfl
@[simp] theorem onSensor_clock (s : State) (n : Nat) (f : SensorRun → SensorRun) : (s.onSensor n f).clock = s.clock := rfl
@[simp] theorem onSensor_tb (s : State) (n : Nat) (f : SensorRun → SensorRun) : (s.onSensor n f).tb = s.tb := rfl
@[simp] theorem onSensor_active (s : State) (n : Nat) (f : SensorRun → SensorRun) : (s.onSensor n f).active = s.active := rfl
@[simp] theorem onSensor_staged (s : State) (n : Nat) (f : SensorRun → SensorRun) : (s.onSensor n f).staged = s.staged := rfl
@[simp] theorem onSensor_cfg (s : State) (n : Nat) (f : SensorRun → SensorRun) : (s.onSensor n f).cfg = s.cfg := rfl
@[simp] theorem onSensor_chans (s : State) (n : Nat) (f : SensorRun → SensorRun) : (s.onSensor n f).chans = s.chans := rfl
@[simp] theorem onSensor_groups (s : State) (n : Nat) (f : SensorRun → SensorRun) : (s.onSensor n f).groups = s.groups := rfl
@[simp] theorem onSensor_ports (s : State) (n : Nat) (f : SensorRun → SensorRun) : (s.onSensor n f).ports = s.ports := rfl
@[simp] theorem onSensor_irons (s : State) (n : Nat) (f : SensorRun → SensorRun) : (s.onSensor n f).irons = s.irons := rfl
@[simp] theorem onSensor_flat (s : State) (n : Nat) (f : SensorRun → SensorRun) : (s.onSensor n f).flat = s.flat := rfl
@[simp] theorem onSensor_engine (s : State) (n : Nat) (f : SensorRun → SensorRun) : (s.onSensor n f).engine = s.engine := rfl
@[simp] theorem onSensor_senses (s : State) (n : Nat) (f : SensorRun → SensorRun) : (s.onSensor n f).senses = s.senses := rfl
@[simp] theorem onSensor_dets (s : State) (n : Nat) (f : SensorRun → SensorRun) : (s.onSensor n f).dets = s.dets := rfl
@[simp] theorem onSensor_presses (s : State) (n : Nat) (f : SensorRun → SensorRun) : (s.onSensor n f).presses = s.presses := rfl
@[simp] theorem onSensor_shelf (s : State) (n : Nat) (f : SensorRun → SensorRun) : (s.onSensor n f).shelf = s.shelf := rfl
@[simp] theorem onSensor_strings (s : State) (n : Nat) (f : SensorRun → SensorRun) : (s.onSensor n f).strings = s.strings := rfl
@[simp] theorem onSensor_feeds (s : State) (n : Nat) (f : SensorRun → SensorRun) : (s.onSensor n f).feeds = s.feeds := rfl
@[simp] theorem onSensor_models (s : State) (n : Nat) (f : SensorRun → SensorRun) : (s.onSensor n f).models = s.models := rfl
@[simp] theorem onSensor_rails (s : State) (n : Nat) (f : SensorRun → SensorRun) : (s.onSensor n f).rails = s.rails := rfl
@[simp] theorem onSensor_orders (s : State) (n : Nat) (f : SensorRun → SensorRun) : (s.onSensor n f).orders = s.orders := rfl
@[simp] theorem onSensor_seq (s : State) (n : Nat) (f : SensorRun → SensorRun) : (s.onSensor n f).seq = s.seq := rfl
@[simp] theorem onSensor_fuses (s : State) (n : Nat) (f : SensorRun → SensorRun) : (s.onSensor n f).fuses = s.fuses := rfl
@[simp] theorem onSensor_tws (s : State) (n : Nat) (f : SensorRun → SensorRun) : (s.onSensor n f).tws = s.tws := rfl
@[simp] theorem onSensor_lint (s : State) (n : Nat) (f : SensorRun → SensorRun) : (s.onSensor n f).lint = s.lint := rfl
@[simp] theorem onSensor_score (s : State) (n : Nat) (f : SensorRun → SensorRun) : (s.onSensor n f).score = s.score := rfl
@[simp] theorem onSensor_boot (s : State) (n : Nat) (f : SensorRun → SensorRun) : (s.onSensor n f).boot = s.boot := rfl
@[simp] theorem onSensor_bootRec (s : State) (n : Nat) (f : SensorRun → SensorRun) : (s.onSensor n f).bootRec = s.bootRec := rfl
@[simp] theorem onSensor_slots (s : State) (n : Nat) (f : SensorRun → SensorRun) : (s.onSensor n f).slots = s.slots := rfl
@[simp] theorem onSensor_patch (s : State) (n : Nat) (f : SensorRun → SensorRun) : (s.onSensor n f).patch = s.patch := rfl
@[simp] theorem onSensor_image (s : State) (n : Nat) (f : SensorRun → SensorRun) : (s.onSensor n f).image = s.image := rfl
@[simp] theorem onSensor_safeSet (s : State) (n : Nat) (f : SensorRun → SensorRun) : (s.onSensor n f).safeSet = s.safeSet := rfl
@[simp] theorem onSensor_working (s : State) (n : Nat) (f : SensorRun → SensorRun) : (s.onSensor n f).working = s.working := rfl
@[simp] theorem onSensor_presence (s : State) (n : Nat) (f : SensorRun → SensorRun) : (s.onSensor n f).presence = s.presence := rfl
@[simp] theorem onSensor_tamper (s : State) (n : Nat) (f : SensorRun → SensorRun) : (s.onSensor n f).tamper = s.tamper := rfl
@[simp] theorem onSensor_seats (s : State) (n : Nat) (f : SensorRun → SensorRun) : (s.onSensor n f).seats = s.seats := rfl
@[simp] theorem onSensor_t1s (s : State) (n : Nat) (f : SensorRun → SensorRun) : (s.onSensor n f).t1s = s.t1s := rfl
@[simp] theorem onSensor_cans (s : State) (n : Nat) (f : SensorRun → SensorRun) : (s.onSensor n f).cans = s.cans := rfl
@[simp] theorem onSensor_tts (s : State) (n : Nat) (f : SensorRun → SensorRun) : (s.onSensor n f).tts = s.tts := rfl
@[simp] theorem onSensor_ptp (s : State) (n : Nat) (f : SensorRun → SensorRun) : (s.onSensor n f).ptp = s.ptp := rfl
@[simp] theorem onSensor_ptpAdj (s : State) (n : Nat) (f : SensorRun → SensorRun) : (s.onSensor n f).ptpAdj = s.ptpAdj := rfl
@[simp] theorem onSensor_commits (s : State) (n : Nat) (f : SensorRun → SensorRun) : (s.onSensor n f).commits = s.commits := rfl
@[simp] theorem onSensor_hardwareRun (s : State) (n : Nat) (f : SensorRun → SensorRun) : (s.onSensor n f).hardwareRun = s.hardwareRun := rfl
@[simp] theorem onSensor_alive (s : State) (n : Nat) (f : SensorRun → SensorRun) : (s.onSensor n f).alive = s.alive := rfl
@[simp] theorem onSensor_draws (s : State) (n : Nat) (f : SensorRun → SensorRun) : (s.onSensor n f).draws = s.draws := rfl

/-! ### onSlot -/

@[simp] theorem onSlot_pending (s : State) (k : Nat) (f : SlotImage → SlotImage) : (s.onSlot k f).pending = s.pending := rfl
@[simp] theorem onSlot_out (s : State) (k : Nat) (f : SlotImage → SlotImage) : (s.onSlot k f).out = s.out := rfl
@[simp] theorem onSlot_clock (s : State) (k : Nat) (f : SlotImage → SlotImage) : (s.onSlot k f).clock = s.clock := rfl
@[simp] theorem onSlot_tb (s : State) (k : Nat) (f : SlotImage → SlotImage) : (s.onSlot k f).tb = s.tb := rfl
@[simp] theorem onSlot_active (s : State) (k : Nat) (f : SlotImage → SlotImage) : (s.onSlot k f).active = s.active := rfl
@[simp] theorem onSlot_staged (s : State) (k : Nat) (f : SlotImage → SlotImage) : (s.onSlot k f).staged = s.staged := rfl
@[simp] theorem onSlot_cfg (s : State) (k : Nat) (f : SlotImage → SlotImage) : (s.onSlot k f).cfg = s.cfg := rfl
@[simp] theorem onSlot_chans (s : State) (k : Nat) (f : SlotImage → SlotImage) : (s.onSlot k f).chans = s.chans := rfl
@[simp] theorem onSlot_groups (s : State) (k : Nat) (f : SlotImage → SlotImage) : (s.onSlot k f).groups = s.groups := rfl
@[simp] theorem onSlot_ports (s : State) (k : Nat) (f : SlotImage → SlotImage) : (s.onSlot k f).ports = s.ports := rfl
@[simp] theorem onSlot_irons (s : State) (k : Nat) (f : SlotImage → SlotImage) : (s.onSlot k f).irons = s.irons := rfl
@[simp] theorem onSlot_flat (s : State) (k : Nat) (f : SlotImage → SlotImage) : (s.onSlot k f).flat = s.flat := rfl
@[simp] theorem onSlot_engine (s : State) (k : Nat) (f : SlotImage → SlotImage) : (s.onSlot k f).engine = s.engine := rfl
@[simp] theorem onSlot_senses (s : State) (k : Nat) (f : SlotImage → SlotImage) : (s.onSlot k f).senses = s.senses := rfl
@[simp] theorem onSlot_dets (s : State) (k : Nat) (f : SlotImage → SlotImage) : (s.onSlot k f).dets = s.dets := rfl
@[simp] theorem onSlot_presses (s : State) (k : Nat) (f : SlotImage → SlotImage) : (s.onSlot k f).presses = s.presses := rfl
@[simp] theorem onSlot_shelf (s : State) (k : Nat) (f : SlotImage → SlotImage) : (s.onSlot k f).shelf = s.shelf := rfl
@[simp] theorem onSlot_strings (s : State) (k : Nat) (f : SlotImage → SlotImage) : (s.onSlot k f).strings = s.strings := rfl
@[simp] theorem onSlot_feeds (s : State) (k : Nat) (f : SlotImage → SlotImage) : (s.onSlot k f).feeds = s.feeds := rfl
@[simp] theorem onSlot_models (s : State) (k : Nat) (f : SlotImage → SlotImage) : (s.onSlot k f).models = s.models := rfl
@[simp] theorem onSlot_rails (s : State) (k : Nat) (f : SlotImage → SlotImage) : (s.onSlot k f).rails = s.rails := rfl
@[simp] theorem onSlot_orders (s : State) (k : Nat) (f : SlotImage → SlotImage) : (s.onSlot k f).orders = s.orders := rfl
@[simp] theorem onSlot_seq (s : State) (k : Nat) (f : SlotImage → SlotImage) : (s.onSlot k f).seq = s.seq := rfl
@[simp] theorem onSlot_fuses (s : State) (k : Nat) (f : SlotImage → SlotImage) : (s.onSlot k f).fuses = s.fuses := rfl
@[simp] theorem onSlot_tws (s : State) (k : Nat) (f : SlotImage → SlotImage) : (s.onSlot k f).tws = s.tws := rfl
@[simp] theorem onSlot_sensors (s : State) (k : Nat) (f : SlotImage → SlotImage) : (s.onSlot k f).sensors = s.sensors := rfl
@[simp] theorem onSlot_lint (s : State) (k : Nat) (f : SlotImage → SlotImage) : (s.onSlot k f).lint = s.lint := rfl
@[simp] theorem onSlot_score (s : State) (k : Nat) (f : SlotImage → SlotImage) : (s.onSlot k f).score = s.score := rfl
@[simp] theorem onSlot_boot (s : State) (k : Nat) (f : SlotImage → SlotImage) : (s.onSlot k f).boot = s.boot := rfl
@[simp] theorem onSlot_bootRec (s : State) (k : Nat) (f : SlotImage → SlotImage) : (s.onSlot k f).bootRec = s.bootRec := rfl
@[simp] theorem onSlot_patch (s : State) (k : Nat) (f : SlotImage → SlotImage) : (s.onSlot k f).patch = s.patch := rfl
@[simp] theorem onSlot_image (s : State) (k : Nat) (f : SlotImage → SlotImage) : (s.onSlot k f).image = s.image := rfl
@[simp] theorem onSlot_safeSet (s : State) (k : Nat) (f : SlotImage → SlotImage) : (s.onSlot k f).safeSet = s.safeSet := rfl
@[simp] theorem onSlot_working (s : State) (k : Nat) (f : SlotImage → SlotImage) : (s.onSlot k f).working = s.working := rfl
@[simp] theorem onSlot_presence (s : State) (k : Nat) (f : SlotImage → SlotImage) : (s.onSlot k f).presence = s.presence := rfl
@[simp] theorem onSlot_tamper (s : State) (k : Nat) (f : SlotImage → SlotImage) : (s.onSlot k f).tamper = s.tamper := rfl
@[simp] theorem onSlot_seats (s : State) (k : Nat) (f : SlotImage → SlotImage) : (s.onSlot k f).seats = s.seats := rfl
@[simp] theorem onSlot_t1s (s : State) (k : Nat) (f : SlotImage → SlotImage) : (s.onSlot k f).t1s = s.t1s := rfl
@[simp] theorem onSlot_cans (s : State) (k : Nat) (f : SlotImage → SlotImage) : (s.onSlot k f).cans = s.cans := rfl
@[simp] theorem onSlot_tts (s : State) (k : Nat) (f : SlotImage → SlotImage) : (s.onSlot k f).tts = s.tts := rfl
@[simp] theorem onSlot_ptp (s : State) (k : Nat) (f : SlotImage → SlotImage) : (s.onSlot k f).ptp = s.ptp := rfl
@[simp] theorem onSlot_ptpAdj (s : State) (k : Nat) (f : SlotImage → SlotImage) : (s.onSlot k f).ptpAdj = s.ptpAdj := rfl
@[simp] theorem onSlot_commits (s : State) (k : Nat) (f : SlotImage → SlotImage) : (s.onSlot k f).commits = s.commits := rfl
@[simp] theorem onSlot_hardwareRun (s : State) (k : Nat) (f : SlotImage → SlotImage) : (s.onSlot k f).hardwareRun = s.hardwareRun := rfl
@[simp] theorem onSlot_alive (s : State) (k : Nat) (f : SlotImage → SlotImage) : (s.onSlot k f).alive = s.alive := rfl
@[simp] theorem onSlot_draws (s : State) (k : Nat) (f : SlotImage → SlotImage) : (s.onSlot k f).draws = s.draws := rfl

theorem slotImg_onSlot (s : State) (k : Nat) (f : SlotImage → SlotImage) (h : k < 2) : (s.onSlot k f).slotImg k = f (s.slotImg k) :=
  vget_vmod_self _ _ _ _ h

theorem slotImg_onSlot_ne (s : State) (k : Nat) (f : SlotImage → SlotImage) (j : Nat) (h : j ≠ k) : (s.onSlot k f).slotImg j = s.slotImg j :=
  vget_vmod_ne _ _ _ _ _ h

/-! ### onPatch -/

@[simp] theorem onPatch_pending (s : State) (f : LoadRun → LoadRun) : (s.onPatch f).pending = s.pending := rfl
@[simp] theorem onPatch_out (s : State) (f : LoadRun → LoadRun) : (s.onPatch f).out = s.out := rfl
@[simp] theorem onPatch_clock (s : State) (f : LoadRun → LoadRun) : (s.onPatch f).clock = s.clock := rfl
@[simp] theorem onPatch_tb (s : State) (f : LoadRun → LoadRun) : (s.onPatch f).tb = s.tb := rfl
@[simp] theorem onPatch_active (s : State) (f : LoadRun → LoadRun) : (s.onPatch f).active = s.active := rfl
@[simp] theorem onPatch_staged (s : State) (f : LoadRun → LoadRun) : (s.onPatch f).staged = s.staged := rfl
@[simp] theorem onPatch_cfg (s : State) (f : LoadRun → LoadRun) : (s.onPatch f).cfg = s.cfg := rfl
@[simp] theorem onPatch_chans (s : State) (f : LoadRun → LoadRun) : (s.onPatch f).chans = s.chans := rfl
@[simp] theorem onPatch_groups (s : State) (f : LoadRun → LoadRun) : (s.onPatch f).groups = s.groups := rfl
@[simp] theorem onPatch_ports (s : State) (f : LoadRun → LoadRun) : (s.onPatch f).ports = s.ports := rfl
@[simp] theorem onPatch_irons (s : State) (f : LoadRun → LoadRun) : (s.onPatch f).irons = s.irons := rfl
@[simp] theorem onPatch_flat (s : State) (f : LoadRun → LoadRun) : (s.onPatch f).flat = s.flat := rfl
@[simp] theorem onPatch_engine (s : State) (f : LoadRun → LoadRun) : (s.onPatch f).engine = s.engine := rfl
@[simp] theorem onPatch_senses (s : State) (f : LoadRun → LoadRun) : (s.onPatch f).senses = s.senses := rfl
@[simp] theorem onPatch_dets (s : State) (f : LoadRun → LoadRun) : (s.onPatch f).dets = s.dets := rfl
@[simp] theorem onPatch_presses (s : State) (f : LoadRun → LoadRun) : (s.onPatch f).presses = s.presses := rfl
@[simp] theorem onPatch_shelf (s : State) (f : LoadRun → LoadRun) : (s.onPatch f).shelf = s.shelf := rfl
@[simp] theorem onPatch_strings (s : State) (f : LoadRun → LoadRun) : (s.onPatch f).strings = s.strings := rfl
@[simp] theorem onPatch_feeds (s : State) (f : LoadRun → LoadRun) : (s.onPatch f).feeds = s.feeds := rfl
@[simp] theorem onPatch_models (s : State) (f : LoadRun → LoadRun) : (s.onPatch f).models = s.models := rfl
@[simp] theorem onPatch_rails (s : State) (f : LoadRun → LoadRun) : (s.onPatch f).rails = s.rails := rfl
@[simp] theorem onPatch_orders (s : State) (f : LoadRun → LoadRun) : (s.onPatch f).orders = s.orders := rfl
@[simp] theorem onPatch_seq (s : State) (f : LoadRun → LoadRun) : (s.onPatch f).seq = s.seq := rfl
@[simp] theorem onPatch_fuses (s : State) (f : LoadRun → LoadRun) : (s.onPatch f).fuses = s.fuses := rfl
@[simp] theorem onPatch_tws (s : State) (f : LoadRun → LoadRun) : (s.onPatch f).tws = s.tws := rfl
@[simp] theorem onPatch_sensors (s : State) (f : LoadRun → LoadRun) : (s.onPatch f).sensors = s.sensors := rfl
@[simp] theorem onPatch_lint (s : State) (f : LoadRun → LoadRun) : (s.onPatch f).lint = s.lint := rfl
@[simp] theorem onPatch_score (s : State) (f : LoadRun → LoadRun) : (s.onPatch f).score = s.score := rfl
@[simp] theorem onPatch_boot (s : State) (f : LoadRun → LoadRun) : (s.onPatch f).boot = s.boot := rfl
@[simp] theorem onPatch_bootRec (s : State) (f : LoadRun → LoadRun) : (s.onPatch f).bootRec = s.bootRec := rfl
@[simp] theorem onPatch_slots (s : State) (f : LoadRun → LoadRun) : (s.onPatch f).slots = s.slots := rfl
@[simp] theorem onPatch_image (s : State) (f : LoadRun → LoadRun) : (s.onPatch f).image = s.image := rfl
@[simp] theorem onPatch_safeSet (s : State) (f : LoadRun → LoadRun) : (s.onPatch f).safeSet = s.safeSet := rfl
@[simp] theorem onPatch_working (s : State) (f : LoadRun → LoadRun) : (s.onPatch f).working = s.working := rfl
@[simp] theorem onPatch_presence (s : State) (f : LoadRun → LoadRun) : (s.onPatch f).presence = s.presence := rfl
@[simp] theorem onPatch_tamper (s : State) (f : LoadRun → LoadRun) : (s.onPatch f).tamper = s.tamper := rfl
@[simp] theorem onPatch_seats (s : State) (f : LoadRun → LoadRun) : (s.onPatch f).seats = s.seats := rfl
@[simp] theorem onPatch_t1s (s : State) (f : LoadRun → LoadRun) : (s.onPatch f).t1s = s.t1s := rfl
@[simp] theorem onPatch_cans (s : State) (f : LoadRun → LoadRun) : (s.onPatch f).cans = s.cans := rfl
@[simp] theorem onPatch_tts (s : State) (f : LoadRun → LoadRun) : (s.onPatch f).tts = s.tts := rfl
@[simp] theorem onPatch_ptp (s : State) (f : LoadRun → LoadRun) : (s.onPatch f).ptp = s.ptp := rfl
@[simp] theorem onPatch_ptpAdj (s : State) (f : LoadRun → LoadRun) : (s.onPatch f).ptpAdj = s.ptpAdj := rfl
@[simp] theorem onPatch_commits (s : State) (f : LoadRun → LoadRun) : (s.onPatch f).commits = s.commits := rfl
@[simp] theorem onPatch_hardwareRun (s : State) (f : LoadRun → LoadRun) : (s.onPatch f).hardwareRun = s.hardwareRun := rfl
@[simp] theorem onPatch_alive (s : State) (f : LoadRun → LoadRun) : (s.onPatch f).alive = s.alive := rfl
@[simp] theorem onPatch_draws (s : State) (f : LoadRun → LoadRun) : (s.onPatch f).draws = s.draws := rfl

/-! ### onImage -/

@[simp] theorem onImage_pending (s : State) (f : LoadRun → LoadRun) : (s.onImage f).pending = s.pending := rfl
@[simp] theorem onImage_out (s : State) (f : LoadRun → LoadRun) : (s.onImage f).out = s.out := rfl
@[simp] theorem onImage_clock (s : State) (f : LoadRun → LoadRun) : (s.onImage f).clock = s.clock := rfl
@[simp] theorem onImage_tb (s : State) (f : LoadRun → LoadRun) : (s.onImage f).tb = s.tb := rfl
@[simp] theorem onImage_active (s : State) (f : LoadRun → LoadRun) : (s.onImage f).active = s.active := rfl
@[simp] theorem onImage_staged (s : State) (f : LoadRun → LoadRun) : (s.onImage f).staged = s.staged := rfl
@[simp] theorem onImage_cfg (s : State) (f : LoadRun → LoadRun) : (s.onImage f).cfg = s.cfg := rfl
@[simp] theorem onImage_chans (s : State) (f : LoadRun → LoadRun) : (s.onImage f).chans = s.chans := rfl
@[simp] theorem onImage_groups (s : State) (f : LoadRun → LoadRun) : (s.onImage f).groups = s.groups := rfl
@[simp] theorem onImage_ports (s : State) (f : LoadRun → LoadRun) : (s.onImage f).ports = s.ports := rfl
@[simp] theorem onImage_irons (s : State) (f : LoadRun → LoadRun) : (s.onImage f).irons = s.irons := rfl
@[simp] theorem onImage_flat (s : State) (f : LoadRun → LoadRun) : (s.onImage f).flat = s.flat := rfl
@[simp] theorem onImage_engine (s : State) (f : LoadRun → LoadRun) : (s.onImage f).engine = s.engine := rfl
@[simp] theorem onImage_senses (s : State) (f : LoadRun → LoadRun) : (s.onImage f).senses = s.senses := rfl
@[simp] theorem onImage_dets (s : State) (f : LoadRun → LoadRun) : (s.onImage f).dets = s.dets := rfl
@[simp] theorem onImage_presses (s : State) (f : LoadRun → LoadRun) : (s.onImage f).presses = s.presses := rfl
@[simp] theorem onImage_shelf (s : State) (f : LoadRun → LoadRun) : (s.onImage f).shelf = s.shelf := rfl
@[simp] theorem onImage_strings (s : State) (f : LoadRun → LoadRun) : (s.onImage f).strings = s.strings := rfl
@[simp] theorem onImage_feeds (s : State) (f : LoadRun → LoadRun) : (s.onImage f).feeds = s.feeds := rfl
@[simp] theorem onImage_models (s : State) (f : LoadRun → LoadRun) : (s.onImage f).models = s.models := rfl
@[simp] theorem onImage_rails (s : State) (f : LoadRun → LoadRun) : (s.onImage f).rails = s.rails := rfl
@[simp] theorem onImage_orders (s : State) (f : LoadRun → LoadRun) : (s.onImage f).orders = s.orders := rfl
@[simp] theorem onImage_seq (s : State) (f : LoadRun → LoadRun) : (s.onImage f).seq = s.seq := rfl
@[simp] theorem onImage_fuses (s : State) (f : LoadRun → LoadRun) : (s.onImage f).fuses = s.fuses := rfl
@[simp] theorem onImage_tws (s : State) (f : LoadRun → LoadRun) : (s.onImage f).tws = s.tws := rfl
@[simp] theorem onImage_sensors (s : State) (f : LoadRun → LoadRun) : (s.onImage f).sensors = s.sensors := rfl
@[simp] theorem onImage_lint (s : State) (f : LoadRun → LoadRun) : (s.onImage f).lint = s.lint := rfl
@[simp] theorem onImage_score (s : State) (f : LoadRun → LoadRun) : (s.onImage f).score = s.score := rfl
@[simp] theorem onImage_boot (s : State) (f : LoadRun → LoadRun) : (s.onImage f).boot = s.boot := rfl
@[simp] theorem onImage_bootRec (s : State) (f : LoadRun → LoadRun) : (s.onImage f).bootRec = s.bootRec := rfl
@[simp] theorem onImage_slots (s : State) (f : LoadRun → LoadRun) : (s.onImage f).slots = s.slots := rfl
@[simp] theorem onImage_patch (s : State) (f : LoadRun → LoadRun) : (s.onImage f).patch = s.patch := rfl
@[simp] theorem onImage_safeSet (s : State) (f : LoadRun → LoadRun) : (s.onImage f).safeSet = s.safeSet := rfl
@[simp] theorem onImage_working (s : State) (f : LoadRun → LoadRun) : (s.onImage f).working = s.working := rfl
@[simp] theorem onImage_presence (s : State) (f : LoadRun → LoadRun) : (s.onImage f).presence = s.presence := rfl
@[simp] theorem onImage_tamper (s : State) (f : LoadRun → LoadRun) : (s.onImage f).tamper = s.tamper := rfl
@[simp] theorem onImage_seats (s : State) (f : LoadRun → LoadRun) : (s.onImage f).seats = s.seats := rfl
@[simp] theorem onImage_t1s (s : State) (f : LoadRun → LoadRun) : (s.onImage f).t1s = s.t1s := rfl
@[simp] theorem onImage_cans (s : State) (f : LoadRun → LoadRun) : (s.onImage f).cans = s.cans := rfl
@[simp] theorem onImage_tts (s : State) (f : LoadRun → LoadRun) : (s.onImage f).tts = s.tts := rfl
@[simp] theorem onImage_ptp (s : State) (f : LoadRun → LoadRun) : (s.onImage f).ptp = s.ptp := rfl
@[simp] theorem onImage_ptpAdj (s : State) (f : LoadRun → LoadRun) : (s.onImage f).ptpAdj = s.ptpAdj := rfl
@[simp] theorem onImage_commits (s : State) (f : LoadRun → LoadRun) : (s.onImage f).commits = s.commits := rfl
@[simp] theorem onImage_hardwareRun (s : State) (f : LoadRun → LoadRun) : (s.onImage f).hardwareRun = s.hardwareRun := rfl
@[simp] theorem onImage_alive (s : State) (f : LoadRun → LoadRun) : (s.onImage f).alive = s.alive := rfl
@[simp] theorem onImage_draws (s : State) (f : LoadRun → LoadRun) : (s.onImage f).draws = s.draws := rfl

/-! ### onSeat -/

@[simp] theorem onSeat_pending (s : State) (k : Nat) (f : SeatRun → SeatRun) : (s.onSeat k f).pending = s.pending := rfl
@[simp] theorem onSeat_out (s : State) (k : Nat) (f : SeatRun → SeatRun) : (s.onSeat k f).out = s.out := rfl
@[simp] theorem onSeat_clock (s : State) (k : Nat) (f : SeatRun → SeatRun) : (s.onSeat k f).clock = s.clock := rfl
@[simp] theorem onSeat_tb (s : State) (k : Nat) (f : SeatRun → SeatRun) : (s.onSeat k f).tb = s.tb := rfl
@[simp] theorem onSeat_active (s : State) (k : Nat) (f : SeatRun → SeatRun) : (s.onSeat k f).active = s.active := rfl
@[simp] theorem onSeat_staged (s : State) (k : Nat) (f : SeatRun → SeatRun) : (s.onSeat k f).staged = s.staged := rfl
@[simp] theorem onSeat_cfg (s : State) (k : Nat) (f : SeatRun → SeatRun) : (s.onSeat k f).cfg = s.cfg := rfl
@[simp] theorem onSeat_chans (s : State) (k : Nat) (f : SeatRun → SeatRun) : (s.onSeat k f).chans = s.chans := rfl
@[simp] theorem onSeat_groups (s : State) (k : Nat) (f : SeatRun → SeatRun) : (s.onSeat k f).groups = s.groups := rfl
@[simp] theorem onSeat_ports (s : State) (k : Nat) (f : SeatRun → SeatRun) : (s.onSeat k f).ports = s.ports := rfl
@[simp] theorem onSeat_irons (s : State) (k : Nat) (f : SeatRun → SeatRun) : (s.onSeat k f).irons = s.irons := rfl
@[simp] theorem onSeat_flat (s : State) (k : Nat) (f : SeatRun → SeatRun) : (s.onSeat k f).flat = s.flat := rfl
@[simp] theorem onSeat_engine (s : State) (k : Nat) (f : SeatRun → SeatRun) : (s.onSeat k f).engine = s.engine := rfl
@[simp] theorem onSeat_senses (s : State) (k : Nat) (f : SeatRun → SeatRun) : (s.onSeat k f).senses = s.senses := rfl
@[simp] theorem onSeat_dets (s : State) (k : Nat) (f : SeatRun → SeatRun) : (s.onSeat k f).dets = s.dets := rfl
@[simp] theorem onSeat_presses (s : State) (k : Nat) (f : SeatRun → SeatRun) : (s.onSeat k f).presses = s.presses := rfl
@[simp] theorem onSeat_shelf (s : State) (k : Nat) (f : SeatRun → SeatRun) : (s.onSeat k f).shelf = s.shelf := rfl
@[simp] theorem onSeat_strings (s : State) (k : Nat) (f : SeatRun → SeatRun) : (s.onSeat k f).strings = s.strings := rfl
@[simp] theorem onSeat_feeds (s : State) (k : Nat) (f : SeatRun → SeatRun) : (s.onSeat k f).feeds = s.feeds := rfl
@[simp] theorem onSeat_models (s : State) (k : Nat) (f : SeatRun → SeatRun) : (s.onSeat k f).models = s.models := rfl
@[simp] theorem onSeat_rails (s : State) (k : Nat) (f : SeatRun → SeatRun) : (s.onSeat k f).rails = s.rails := rfl
@[simp] theorem onSeat_orders (s : State) (k : Nat) (f : SeatRun → SeatRun) : (s.onSeat k f).orders = s.orders := rfl
@[simp] theorem onSeat_seq (s : State) (k : Nat) (f : SeatRun → SeatRun) : (s.onSeat k f).seq = s.seq := rfl
@[simp] theorem onSeat_fuses (s : State) (k : Nat) (f : SeatRun → SeatRun) : (s.onSeat k f).fuses = s.fuses := rfl
@[simp] theorem onSeat_tws (s : State) (k : Nat) (f : SeatRun → SeatRun) : (s.onSeat k f).tws = s.tws := rfl
@[simp] theorem onSeat_sensors (s : State) (k : Nat) (f : SeatRun → SeatRun) : (s.onSeat k f).sensors = s.sensors := rfl
@[simp] theorem onSeat_lint (s : State) (k : Nat) (f : SeatRun → SeatRun) : (s.onSeat k f).lint = s.lint := rfl
@[simp] theorem onSeat_score (s : State) (k : Nat) (f : SeatRun → SeatRun) : (s.onSeat k f).score = s.score := rfl
@[simp] theorem onSeat_boot (s : State) (k : Nat) (f : SeatRun → SeatRun) : (s.onSeat k f).boot = s.boot := rfl
@[simp] theorem onSeat_bootRec (s : State) (k : Nat) (f : SeatRun → SeatRun) : (s.onSeat k f).bootRec = s.bootRec := rfl
@[simp] theorem onSeat_slots (s : State) (k : Nat) (f : SeatRun → SeatRun) : (s.onSeat k f).slots = s.slots := rfl
@[simp] theorem onSeat_patch (s : State) (k : Nat) (f : SeatRun → SeatRun) : (s.onSeat k f).patch = s.patch := rfl
@[simp] theorem onSeat_image (s : State) (k : Nat) (f : SeatRun → SeatRun) : (s.onSeat k f).image = s.image := rfl
@[simp] theorem onSeat_safeSet (s : State) (k : Nat) (f : SeatRun → SeatRun) : (s.onSeat k f).safeSet = s.safeSet := rfl
@[simp] theorem onSeat_working (s : State) (k : Nat) (f : SeatRun → SeatRun) : (s.onSeat k f).working = s.working := rfl
@[simp] theorem onSeat_presence (s : State) (k : Nat) (f : SeatRun → SeatRun) : (s.onSeat k f).presence = s.presence := rfl
@[simp] theorem onSeat_tamper (s : State) (k : Nat) (f : SeatRun → SeatRun) : (s.onSeat k f).tamper = s.tamper := rfl
@[simp] theorem onSeat_t1s (s : State) (k : Nat) (f : SeatRun → SeatRun) : (s.onSeat k f).t1s = s.t1s := rfl
@[simp] theorem onSeat_cans (s : State) (k : Nat) (f : SeatRun → SeatRun) : (s.onSeat k f).cans = s.cans := rfl
@[simp] theorem onSeat_tts (s : State) (k : Nat) (f : SeatRun → SeatRun) : (s.onSeat k f).tts = s.tts := rfl
@[simp] theorem onSeat_ptp (s : State) (k : Nat) (f : SeatRun → SeatRun) : (s.onSeat k f).ptp = s.ptp := rfl
@[simp] theorem onSeat_ptpAdj (s : State) (k : Nat) (f : SeatRun → SeatRun) : (s.onSeat k f).ptpAdj = s.ptpAdj := rfl
@[simp] theorem onSeat_commits (s : State) (k : Nat) (f : SeatRun → SeatRun) : (s.onSeat k f).commits = s.commits := rfl
@[simp] theorem onSeat_hardwareRun (s : State) (k : Nat) (f : SeatRun → SeatRun) : (s.onSeat k f).hardwareRun = s.hardwareRun := rfl
@[simp] theorem onSeat_alive (s : State) (k : Nat) (f : SeatRun → SeatRun) : (s.onSeat k f).alive = s.alive := rfl
@[simp] theorem onSeat_draws (s : State) (k : Nat) (f : SeatRun → SeatRun) : (s.onSeat k f).draws = s.draws := rfl

theorem seat_onSeat (s : State) (k : Nat) (f : SeatRun → SeatRun) (h : k < 8) : (s.onSeat k f).seat k = f (s.seat k) :=
  vget_vmod_self _ _ _ _ h

theorem seat_onSeat_ne (s : State) (k : Nat) (f : SeatRun → SeatRun) (j : Nat) (h : j ≠ k) : (s.onSeat k f).seat j = s.seat j :=
  vget_vmod_ne _ _ _ _ _ h

/-! ### onBoot -/

@[simp] theorem onBoot_pending (s : State) (f : BootRun → BootRun) : (s.onBoot f).pending = s.pending := rfl
@[simp] theorem onBoot_out (s : State) (f : BootRun → BootRun) : (s.onBoot f).out = s.out := rfl
@[simp] theorem onBoot_clock (s : State) (f : BootRun → BootRun) : (s.onBoot f).clock = s.clock := rfl
@[simp] theorem onBoot_tb (s : State) (f : BootRun → BootRun) : (s.onBoot f).tb = s.tb := rfl
@[simp] theorem onBoot_active (s : State) (f : BootRun → BootRun) : (s.onBoot f).active = s.active := rfl
@[simp] theorem onBoot_staged (s : State) (f : BootRun → BootRun) : (s.onBoot f).staged = s.staged := rfl
@[simp] theorem onBoot_cfg (s : State) (f : BootRun → BootRun) : (s.onBoot f).cfg = s.cfg := rfl
@[simp] theorem onBoot_chans (s : State) (f : BootRun → BootRun) : (s.onBoot f).chans = s.chans := rfl
@[simp] theorem onBoot_groups (s : State) (f : BootRun → BootRun) : (s.onBoot f).groups = s.groups := rfl
@[simp] theorem onBoot_ports (s : State) (f : BootRun → BootRun) : (s.onBoot f).ports = s.ports := rfl
@[simp] theorem onBoot_irons (s : State) (f : BootRun → BootRun) : (s.onBoot f).irons = s.irons := rfl
@[simp] theorem onBoot_flat (s : State) (f : BootRun → BootRun) : (s.onBoot f).flat = s.flat := rfl
@[simp] theorem onBoot_engine (s : State) (f : BootRun → BootRun) : (s.onBoot f).engine = s.engine := rfl
@[simp] theorem onBoot_senses (s : State) (f : BootRun → BootRun) : (s.onBoot f).senses = s.senses := rfl
@[simp] theorem onBoot_dets (s : State) (f : BootRun → BootRun) : (s.onBoot f).dets = s.dets := rfl
@[simp] theorem onBoot_presses (s : State) (f : BootRun → BootRun) : (s.onBoot f).presses = s.presses := rfl
@[simp] theorem onBoot_shelf (s : State) (f : BootRun → BootRun) : (s.onBoot f).shelf = s.shelf := rfl
@[simp] theorem onBoot_strings (s : State) (f : BootRun → BootRun) : (s.onBoot f).strings = s.strings := rfl
@[simp] theorem onBoot_feeds (s : State) (f : BootRun → BootRun) : (s.onBoot f).feeds = s.feeds := rfl
@[simp] theorem onBoot_models (s : State) (f : BootRun → BootRun) : (s.onBoot f).models = s.models := rfl
@[simp] theorem onBoot_rails (s : State) (f : BootRun → BootRun) : (s.onBoot f).rails = s.rails := rfl
@[simp] theorem onBoot_orders (s : State) (f : BootRun → BootRun) : (s.onBoot f).orders = s.orders := rfl
@[simp] theorem onBoot_seq (s : State) (f : BootRun → BootRun) : (s.onBoot f).seq = s.seq := rfl
@[simp] theorem onBoot_fuses (s : State) (f : BootRun → BootRun) : (s.onBoot f).fuses = s.fuses := rfl
@[simp] theorem onBoot_tws (s : State) (f : BootRun → BootRun) : (s.onBoot f).tws = s.tws := rfl
@[simp] theorem onBoot_sensors (s : State) (f : BootRun → BootRun) : (s.onBoot f).sensors = s.sensors := rfl
@[simp] theorem onBoot_lint (s : State) (f : BootRun → BootRun) : (s.onBoot f).lint = s.lint := rfl
@[simp] theorem onBoot_score (s : State) (f : BootRun → BootRun) : (s.onBoot f).score = s.score := rfl
@[simp] theorem onBoot_bootRec (s : State) (f : BootRun → BootRun) : (s.onBoot f).bootRec = s.bootRec := rfl
@[simp] theorem onBoot_slots (s : State) (f : BootRun → BootRun) : (s.onBoot f).slots = s.slots := rfl
@[simp] theorem onBoot_patch (s : State) (f : BootRun → BootRun) : (s.onBoot f).patch = s.patch := rfl
@[simp] theorem onBoot_image (s : State) (f : BootRun → BootRun) : (s.onBoot f).image = s.image := rfl
@[simp] theorem onBoot_safeSet (s : State) (f : BootRun → BootRun) : (s.onBoot f).safeSet = s.safeSet := rfl
@[simp] theorem onBoot_working (s : State) (f : BootRun → BootRun) : (s.onBoot f).working = s.working := rfl
@[simp] theorem onBoot_presence (s : State) (f : BootRun → BootRun) : (s.onBoot f).presence = s.presence := rfl
@[simp] theorem onBoot_tamper (s : State) (f : BootRun → BootRun) : (s.onBoot f).tamper = s.tamper := rfl
@[simp] theorem onBoot_seats (s : State) (f : BootRun → BootRun) : (s.onBoot f).seats = s.seats := rfl
@[simp] theorem onBoot_t1s (s : State) (f : BootRun → BootRun) : (s.onBoot f).t1s = s.t1s := rfl
@[simp] theorem onBoot_cans (s : State) (f : BootRun → BootRun) : (s.onBoot f).cans = s.cans := rfl
@[simp] theorem onBoot_tts (s : State) (f : BootRun → BootRun) : (s.onBoot f).tts = s.tts := rfl
@[simp] theorem onBoot_ptp (s : State) (f : BootRun → BootRun) : (s.onBoot f).ptp = s.ptp := rfl
@[simp] theorem onBoot_ptpAdj (s : State) (f : BootRun → BootRun) : (s.onBoot f).ptpAdj = s.ptpAdj := rfl
@[simp] theorem onBoot_commits (s : State) (f : BootRun → BootRun) : (s.onBoot f).commits = s.commits := rfl
@[simp] theorem onBoot_hardwareRun (s : State) (f : BootRun → BootRun) : (s.onBoot f).hardwareRun = s.hardwareRun := rfl
@[simp] theorem onBoot_alive (s : State) (f : BootRun → BootRun) : (s.onBoot f).alive = s.alive := rfl
@[simp] theorem onBoot_draws (s : State) (f : BootRun → BootRun) : (s.onBoot f).draws = s.draws := rfl

/-! ### onT1s -/

@[simp] theorem onT1s_pending (s : State) (t : Nat) (f : T1sRun → T1sRun) : (s.onT1s t f).pending = s.pending := rfl
@[simp] theorem onT1s_out (s : State) (t : Nat) (f : T1sRun → T1sRun) : (s.onT1s t f).out = s.out := rfl
@[simp] theorem onT1s_clock (s : State) (t : Nat) (f : T1sRun → T1sRun) : (s.onT1s t f).clock = s.clock := rfl
@[simp] theorem onT1s_tb (s : State) (t : Nat) (f : T1sRun → T1sRun) : (s.onT1s t f).tb = s.tb := rfl
@[simp] theorem onT1s_active (s : State) (t : Nat) (f : T1sRun → T1sRun) : (s.onT1s t f).active = s.active := rfl
@[simp] theorem onT1s_staged (s : State) (t : Nat) (f : T1sRun → T1sRun) : (s.onT1s t f).staged = s.staged := rfl
@[simp] theorem onT1s_cfg (s : State) (t : Nat) (f : T1sRun → T1sRun) : (s.onT1s t f).cfg = s.cfg := rfl
@[simp] theorem onT1s_chans (s : State) (t : Nat) (f : T1sRun → T1sRun) : (s.onT1s t f).chans = s.chans := rfl
@[simp] theorem onT1s_groups (s : State) (t : Nat) (f : T1sRun → T1sRun) : (s.onT1s t f).groups = s.groups := rfl
@[simp] theorem onT1s_ports (s : State) (t : Nat) (f : T1sRun → T1sRun) : (s.onT1s t f).ports = s.ports := rfl
@[simp] theorem onT1s_irons (s : State) (t : Nat) (f : T1sRun → T1sRun) : (s.onT1s t f).irons = s.irons := rfl
@[simp] theorem onT1s_flat (s : State) (t : Nat) (f : T1sRun → T1sRun) : (s.onT1s t f).flat = s.flat := rfl
@[simp] theorem onT1s_engine (s : State) (t : Nat) (f : T1sRun → T1sRun) : (s.onT1s t f).engine = s.engine := rfl
@[simp] theorem onT1s_senses (s : State) (t : Nat) (f : T1sRun → T1sRun) : (s.onT1s t f).senses = s.senses := rfl
@[simp] theorem onT1s_dets (s : State) (t : Nat) (f : T1sRun → T1sRun) : (s.onT1s t f).dets = s.dets := rfl
@[simp] theorem onT1s_presses (s : State) (t : Nat) (f : T1sRun → T1sRun) : (s.onT1s t f).presses = s.presses := rfl
@[simp] theorem onT1s_shelf (s : State) (t : Nat) (f : T1sRun → T1sRun) : (s.onT1s t f).shelf = s.shelf := rfl
@[simp] theorem onT1s_strings (s : State) (t : Nat) (f : T1sRun → T1sRun) : (s.onT1s t f).strings = s.strings := rfl
@[simp] theorem onT1s_feeds (s : State) (t : Nat) (f : T1sRun → T1sRun) : (s.onT1s t f).feeds = s.feeds := rfl
@[simp] theorem onT1s_models (s : State) (t : Nat) (f : T1sRun → T1sRun) : (s.onT1s t f).models = s.models := rfl
@[simp] theorem onT1s_rails (s : State) (t : Nat) (f : T1sRun → T1sRun) : (s.onT1s t f).rails = s.rails := rfl
@[simp] theorem onT1s_orders (s : State) (t : Nat) (f : T1sRun → T1sRun) : (s.onT1s t f).orders = s.orders := rfl
@[simp] theorem onT1s_seq (s : State) (t : Nat) (f : T1sRun → T1sRun) : (s.onT1s t f).seq = s.seq := rfl
@[simp] theorem onT1s_fuses (s : State) (t : Nat) (f : T1sRun → T1sRun) : (s.onT1s t f).fuses = s.fuses := rfl
@[simp] theorem onT1s_tws (s : State) (t : Nat) (f : T1sRun → T1sRun) : (s.onT1s t f).tws = s.tws := rfl
@[simp] theorem onT1s_sensors (s : State) (t : Nat) (f : T1sRun → T1sRun) : (s.onT1s t f).sensors = s.sensors := rfl
@[simp] theorem onT1s_lint (s : State) (t : Nat) (f : T1sRun → T1sRun) : (s.onT1s t f).lint = s.lint := rfl
@[simp] theorem onT1s_score (s : State) (t : Nat) (f : T1sRun → T1sRun) : (s.onT1s t f).score = s.score := rfl
@[simp] theorem onT1s_boot (s : State) (t : Nat) (f : T1sRun → T1sRun) : (s.onT1s t f).boot = s.boot := rfl
@[simp] theorem onT1s_bootRec (s : State) (t : Nat) (f : T1sRun → T1sRun) : (s.onT1s t f).bootRec = s.bootRec := rfl
@[simp] theorem onT1s_slots (s : State) (t : Nat) (f : T1sRun → T1sRun) : (s.onT1s t f).slots = s.slots := rfl
@[simp] theorem onT1s_patch (s : State) (t : Nat) (f : T1sRun → T1sRun) : (s.onT1s t f).patch = s.patch := rfl
@[simp] theorem onT1s_image (s : State) (t : Nat) (f : T1sRun → T1sRun) : (s.onT1s t f).image = s.image := rfl
@[simp] theorem onT1s_safeSet (s : State) (t : Nat) (f : T1sRun → T1sRun) : (s.onT1s t f).safeSet = s.safeSet := rfl
@[simp] theorem onT1s_working (s : State) (t : Nat) (f : T1sRun → T1sRun) : (s.onT1s t f).working = s.working := rfl
@[simp] theorem onT1s_presence (s : State) (t : Nat) (f : T1sRun → T1sRun) : (s.onT1s t f).presence = s.presence := rfl
@[simp] theorem onT1s_tamper (s : State) (t : Nat) (f : T1sRun → T1sRun) : (s.onT1s t f).tamper = s.tamper := rfl
@[simp] theorem onT1s_seats (s : State) (t : Nat) (f : T1sRun → T1sRun) : (s.onT1s t f).seats = s.seats := rfl
@[simp] theorem onT1s_cans (s : State) (t : Nat) (f : T1sRun → T1sRun) : (s.onT1s t f).cans = s.cans := rfl
@[simp] theorem onT1s_tts (s : State) (t : Nat) (f : T1sRun → T1sRun) : (s.onT1s t f).tts = s.tts := rfl
@[simp] theorem onT1s_ptp (s : State) (t : Nat) (f : T1sRun → T1sRun) : (s.onT1s t f).ptp = s.ptp := rfl
@[simp] theorem onT1s_ptpAdj (s : State) (t : Nat) (f : T1sRun → T1sRun) : (s.onT1s t f).ptpAdj = s.ptpAdj := rfl
@[simp] theorem onT1s_commits (s : State) (t : Nat) (f : T1sRun → T1sRun) : (s.onT1s t f).commits = s.commits := rfl
@[simp] theorem onT1s_hardwareRun (s : State) (t : Nat) (f : T1sRun → T1sRun) : (s.onT1s t f).hardwareRun = s.hardwareRun := rfl
@[simp] theorem onT1s_alive (s : State) (t : Nat) (f : T1sRun → T1sRun) : (s.onT1s t f).alive = s.alive := rfl
@[simp] theorem onT1s_draws (s : State) (t : Nat) (f : T1sRun → T1sRun) : (s.onT1s t f).draws = s.draws := rfl

/-! ### onCan -/

@[simp] theorem onCan_pending (s : State) (c : Nat) (f : CanRun → CanRun) : (s.onCan c f).pending = s.pending := rfl
@[simp] theorem onCan_out (s : State) (c : Nat) (f : CanRun → CanRun) : (s.onCan c f).out = s.out := rfl
@[simp] theorem onCan_clock (s : State) (c : Nat) (f : CanRun → CanRun) : (s.onCan c f).clock = s.clock := rfl
@[simp] theorem onCan_tb (s : State) (c : Nat) (f : CanRun → CanRun) : (s.onCan c f).tb = s.tb := rfl
@[simp] theorem onCan_active (s : State) (c : Nat) (f : CanRun → CanRun) : (s.onCan c f).active = s.active := rfl
@[simp] theorem onCan_staged (s : State) (c : Nat) (f : CanRun → CanRun) : (s.onCan c f).staged = s.staged := rfl
@[simp] theorem onCan_cfg (s : State) (c : Nat) (f : CanRun → CanRun) : (s.onCan c f).cfg = s.cfg := rfl
@[simp] theorem onCan_chans (s : State) (c : Nat) (f : CanRun → CanRun) : (s.onCan c f).chans = s.chans := rfl
@[simp] theorem onCan_groups (s : State) (c : Nat) (f : CanRun → CanRun) : (s.onCan c f).groups = s.groups := rfl
@[simp] theorem onCan_ports (s : State) (c : Nat) (f : CanRun → CanRun) : (s.onCan c f).ports = s.ports := rfl
@[simp] theorem onCan_irons (s : State) (c : Nat) (f : CanRun → CanRun) : (s.onCan c f).irons = s.irons := rfl
@[simp] theorem onCan_flat (s : State) (c : Nat) (f : CanRun → CanRun) : (s.onCan c f).flat = s.flat := rfl
@[simp] theorem onCan_engine (s : State) (c : Nat) (f : CanRun → CanRun) : (s.onCan c f).engine = s.engine := rfl
@[simp] theorem onCan_senses (s : State) (c : Nat) (f : CanRun → CanRun) : (s.onCan c f).senses = s.senses := rfl
@[simp] theorem onCan_dets (s : State) (c : Nat) (f : CanRun → CanRun) : (s.onCan c f).dets = s.dets := rfl
@[simp] theorem onCan_presses (s : State) (c : Nat) (f : CanRun → CanRun) : (s.onCan c f).presses = s.presses := rfl
@[simp] theorem onCan_shelf (s : State) (c : Nat) (f : CanRun → CanRun) : (s.onCan c f).shelf = s.shelf := rfl
@[simp] theorem onCan_strings (s : State) (c : Nat) (f : CanRun → CanRun) : (s.onCan c f).strings = s.strings := rfl
@[simp] theorem onCan_feeds (s : State) (c : Nat) (f : CanRun → CanRun) : (s.onCan c f).feeds = s.feeds := rfl
@[simp] theorem onCan_models (s : State) (c : Nat) (f : CanRun → CanRun) : (s.onCan c f).models = s.models := rfl
@[simp] theorem onCan_rails (s : State) (c : Nat) (f : CanRun → CanRun) : (s.onCan c f).rails = s.rails := rfl
@[simp] theorem onCan_orders (s : State) (c : Nat) (f : CanRun → CanRun) : (s.onCan c f).orders = s.orders := rfl
@[simp] theorem onCan_seq (s : State) (c : Nat) (f : CanRun → CanRun) : (s.onCan c f).seq = s.seq := rfl
@[simp] theorem onCan_fuses (s : State) (c : Nat) (f : CanRun → CanRun) : (s.onCan c f).fuses = s.fuses := rfl
@[simp] theorem onCan_tws (s : State) (c : Nat) (f : CanRun → CanRun) : (s.onCan c f).tws = s.tws := rfl
@[simp] theorem onCan_sensors (s : State) (c : Nat) (f : CanRun → CanRun) : (s.onCan c f).sensors = s.sensors := rfl
@[simp] theorem onCan_lint (s : State) (c : Nat) (f : CanRun → CanRun) : (s.onCan c f).lint = s.lint := rfl
@[simp] theorem onCan_score (s : State) (c : Nat) (f : CanRun → CanRun) : (s.onCan c f).score = s.score := rfl
@[simp] theorem onCan_boot (s : State) (c : Nat) (f : CanRun → CanRun) : (s.onCan c f).boot = s.boot := rfl
@[simp] theorem onCan_bootRec (s : State) (c : Nat) (f : CanRun → CanRun) : (s.onCan c f).bootRec = s.bootRec := rfl
@[simp] theorem onCan_slots (s : State) (c : Nat) (f : CanRun → CanRun) : (s.onCan c f).slots = s.slots := rfl
@[simp] theorem onCan_patch (s : State) (c : Nat) (f : CanRun → CanRun) : (s.onCan c f).patch = s.patch := rfl
@[simp] theorem onCan_image (s : State) (c : Nat) (f : CanRun → CanRun) : (s.onCan c f).image = s.image := rfl
@[simp] theorem onCan_safeSet (s : State) (c : Nat) (f : CanRun → CanRun) : (s.onCan c f).safeSet = s.safeSet := rfl
@[simp] theorem onCan_working (s : State) (c : Nat) (f : CanRun → CanRun) : (s.onCan c f).working = s.working := rfl
@[simp] theorem onCan_presence (s : State) (c : Nat) (f : CanRun → CanRun) : (s.onCan c f).presence = s.presence := rfl
@[simp] theorem onCan_tamper (s : State) (c : Nat) (f : CanRun → CanRun) : (s.onCan c f).tamper = s.tamper := rfl
@[simp] theorem onCan_seats (s : State) (c : Nat) (f : CanRun → CanRun) : (s.onCan c f).seats = s.seats := rfl
@[simp] theorem onCan_t1s (s : State) (c : Nat) (f : CanRun → CanRun) : (s.onCan c f).t1s = s.t1s := rfl
@[simp] theorem onCan_tts (s : State) (c : Nat) (f : CanRun → CanRun) : (s.onCan c f).tts = s.tts := rfl
@[simp] theorem onCan_ptp (s : State) (c : Nat) (f : CanRun → CanRun) : (s.onCan c f).ptp = s.ptp := rfl
@[simp] theorem onCan_ptpAdj (s : State) (c : Nat) (f : CanRun → CanRun) : (s.onCan c f).ptpAdj = s.ptpAdj := rfl
@[simp] theorem onCan_commits (s : State) (c : Nat) (f : CanRun → CanRun) : (s.onCan c f).commits = s.commits := rfl
@[simp] theorem onCan_hardwareRun (s : State) (c : Nat) (f : CanRun → CanRun) : (s.onCan c f).hardwareRun = s.hardwareRun := rfl
@[simp] theorem onCan_alive (s : State) (c : Nat) (f : CanRun → CanRun) : (s.onCan c f).alive = s.alive := rfl
@[simp] theorem onCan_draws (s : State) (c : Nat) (f : CanRun → CanRun) : (s.onCan c f).draws = s.draws := rfl

/-! ### onPtp -/

@[simp] theorem onPtp_pending (s : State) (f : PtpRun → PtpRun) : (s.onPtp f).pending = s.pending := rfl
@[simp] theorem onPtp_out (s : State) (f : PtpRun → PtpRun) : (s.onPtp f).out = s.out := rfl
@[simp] theorem onPtp_clock (s : State) (f : PtpRun → PtpRun) : (s.onPtp f).clock = s.clock := rfl
@[simp] theorem onPtp_tb (s : State) (f : PtpRun → PtpRun) : (s.onPtp f).tb = s.tb := rfl
@[simp] theorem onPtp_active (s : State) (f : PtpRun → PtpRun) : (s.onPtp f).active = s.active := rfl
@[simp] theorem onPtp_staged (s : State) (f : PtpRun → PtpRun) : (s.onPtp f).staged = s.staged := rfl
@[simp] theorem onPtp_cfg (s : State) (f : PtpRun → PtpRun) : (s.onPtp f).cfg = s.cfg := rfl
@[simp] theorem onPtp_chans (s : State) (f : PtpRun → PtpRun) : (s.onPtp f).chans = s.chans := rfl
@[simp] theorem onPtp_groups (s : State) (f : PtpRun → PtpRun) : (s.onPtp f).groups = s.groups := rfl
@[simp] theorem onPtp_ports (s : State) (f : PtpRun → PtpRun) : (s.onPtp f).ports = s.ports := rfl
@[simp] theorem onPtp_irons (s : State) (f : PtpRun → PtpRun) : (s.onPtp f).irons = s.irons := rfl
@[simp] theorem onPtp_flat (s : State) (f : PtpRun → PtpRun) : (s.onPtp f).flat = s.flat := rfl
@[simp] theorem onPtp_engine (s : State) (f : PtpRun → PtpRun) : (s.onPtp f).engine = s.engine := rfl
@[simp] theorem onPtp_senses (s : State) (f : PtpRun → PtpRun) : (s.onPtp f).senses = s.senses := rfl
@[simp] theorem onPtp_dets (s : State) (f : PtpRun → PtpRun) : (s.onPtp f).dets = s.dets := rfl
@[simp] theorem onPtp_presses (s : State) (f : PtpRun → PtpRun) : (s.onPtp f).presses = s.presses := rfl
@[simp] theorem onPtp_shelf (s : State) (f : PtpRun → PtpRun) : (s.onPtp f).shelf = s.shelf := rfl
@[simp] theorem onPtp_strings (s : State) (f : PtpRun → PtpRun) : (s.onPtp f).strings = s.strings := rfl
@[simp] theorem onPtp_feeds (s : State) (f : PtpRun → PtpRun) : (s.onPtp f).feeds = s.feeds := rfl
@[simp] theorem onPtp_models (s : State) (f : PtpRun → PtpRun) : (s.onPtp f).models = s.models := rfl
@[simp] theorem onPtp_rails (s : State) (f : PtpRun → PtpRun) : (s.onPtp f).rails = s.rails := rfl
@[simp] theorem onPtp_orders (s : State) (f : PtpRun → PtpRun) : (s.onPtp f).orders = s.orders := rfl
@[simp] theorem onPtp_seq (s : State) (f : PtpRun → PtpRun) : (s.onPtp f).seq = s.seq := rfl
@[simp] theorem onPtp_fuses (s : State) (f : PtpRun → PtpRun) : (s.onPtp f).fuses = s.fuses := rfl
@[simp] theorem onPtp_tws (s : State) (f : PtpRun → PtpRun) : (s.onPtp f).tws = s.tws := rfl
@[simp] theorem onPtp_sensors (s : State) (f : PtpRun → PtpRun) : (s.onPtp f).sensors = s.sensors := rfl
@[simp] theorem onPtp_lint (s : State) (f : PtpRun → PtpRun) : (s.onPtp f).lint = s.lint := rfl
@[simp] theorem onPtp_score (s : State) (f : PtpRun → PtpRun) : (s.onPtp f).score = s.score := rfl
@[simp] theorem onPtp_boot (s : State) (f : PtpRun → PtpRun) : (s.onPtp f).boot = s.boot := rfl
@[simp] theorem onPtp_bootRec (s : State) (f : PtpRun → PtpRun) : (s.onPtp f).bootRec = s.bootRec := rfl
@[simp] theorem onPtp_slots (s : State) (f : PtpRun → PtpRun) : (s.onPtp f).slots = s.slots := rfl
@[simp] theorem onPtp_patch (s : State) (f : PtpRun → PtpRun) : (s.onPtp f).patch = s.patch := rfl
@[simp] theorem onPtp_image (s : State) (f : PtpRun → PtpRun) : (s.onPtp f).image = s.image := rfl
@[simp] theorem onPtp_safeSet (s : State) (f : PtpRun → PtpRun) : (s.onPtp f).safeSet = s.safeSet := rfl
@[simp] theorem onPtp_working (s : State) (f : PtpRun → PtpRun) : (s.onPtp f).working = s.working := rfl
@[simp] theorem onPtp_presence (s : State) (f : PtpRun → PtpRun) : (s.onPtp f).presence = s.presence := rfl
@[simp] theorem onPtp_tamper (s : State) (f : PtpRun → PtpRun) : (s.onPtp f).tamper = s.tamper := rfl
@[simp] theorem onPtp_seats (s : State) (f : PtpRun → PtpRun) : (s.onPtp f).seats = s.seats := rfl
@[simp] theorem onPtp_t1s (s : State) (f : PtpRun → PtpRun) : (s.onPtp f).t1s = s.t1s := rfl
@[simp] theorem onPtp_cans (s : State) (f : PtpRun → PtpRun) : (s.onPtp f).cans = s.cans := rfl
@[simp] theorem onPtp_tts (s : State) (f : PtpRun → PtpRun) : (s.onPtp f).tts = s.tts := rfl
@[simp] theorem onPtp_ptpAdj (s : State) (f : PtpRun → PtpRun) : (s.onPtp f).ptpAdj = s.ptpAdj := rfl
@[simp] theorem onPtp_commits (s : State) (f : PtpRun → PtpRun) : (s.onPtp f).commits = s.commits := rfl
@[simp] theorem onPtp_hardwareRun (s : State) (f : PtpRun → PtpRun) : (s.onPtp f).hardwareRun = s.hardwareRun := rfl
@[simp] theorem onPtp_alive (s : State) (f : PtpRun → PtpRun) : (s.onPtp f).alive = s.alive := rfl
@[simp] theorem onPtp_draws (s : State) (f : PtpRun → PtpRun) : (s.onPtp f).draws = s.draws := rfl

end Machine.State
end Sys2Proof
end

