-- ==== Sys2Proof/Laws/WriteFoot.lean ====
section
/-!
SUPPORT. The footprint of a request, by its kind, and of a WRITE, by the object that it writes.
-/
namespace Sys2Proof.Machine
set_option Elab.async false

theorem Part.within_left (ps qs : List Part) : Part.within ps (ps ++ qs) = true := by
  simp [Part.within, List.all_eq_true]; intro p hp; exact .inl hp

theorem Part.within_self (ps : List Part) : Part.within ps ps = true := by
  simp only [Part.within, List.all_eq_true, List.contains_iff_mem]
  exact fun _ h => h

theorem Part.within_right {ps qs : List Part} (h : Part.within ps qs = true) (rs : List Part) : Part.within ps (rs ++ qs) = true := by
  simp only [Part.within, List.all_eq_true, List.contains_iff_mem, List.mem_append] at *
  exact fun p hp => .inr (h p hp)

/-- The footprint of a WRITE to an object, its change record apart. -/
def objParts (x : Obj) : List Part := .score :: (kindParts x.row.kind ++ commandParts x.fam)

theorem objParts_kind (x : Obj) : Part.within (.score :: kindParts x.row.kind) (objParts x) = true :=
  Part.within_left (.score :: kindParts x.row.kind) (commandParts x.fam)

theorem objParts_command (x : Obj) : Part.within (.score :: commandParts x.fam) (objParts x) = true := by
  simp only [objParts, Part.within, List.all_eq_true, List.contains_iff_mem, List.mem_append, List.mem_cons]
  rintro p (rfl | hp)
  · exact .inl rfl
  · exact .inr (.inr hp)

theorem State.command_within (s : State) (k : Nat) (x : Obj) (v : Int) :
    OkOnly (.score :: commandParts x.fam) s (State.command s k x v) := by
  obtain ⟨fam, unit, off, sub, row⟩ := x
  unfold State.command
  dsimp only
  split <;> simp only [commandParts]
  · exact (State.askGroup_only _ _ _).step rfl (.refl _ _)
  · exact (State.askIron_only _ _ _).step rfl (.refl _ _)
  · exact .ok ((State.excursionClear_only _).step rfl (.refl _ _))
  · exact (State.askString_only _ _ _).step rfl (.refl _ _)
  · exact (State.askFeed_only _ _ _).step rfl (.refl _ _)
  · exact (State.askOrder_only _ _ _).step rfl (.refl _ _)
  · exact .ok ((State.clearWord_only _ _ _).step rfl (.refl _ _))
  · exact .ok ((State.endSafe_only _).step rfl (.refl _ _))
  · exact .ok ((set_score_only _ _).step rfl (.refl _ _))
  · exact (State.askCapture_only _ _ _).step rfl (.refl _ _)
  · exact .ok ((State.onCapture_only _ _ _).step rfl (.refl _ _))
  · exact (State.askSeat_only _ _ _).step rfl (.refl _ _)
  · exact (State.askSafeSet_only _).step rfl (.refl _ _)
  · refine OkOnly.map (fun u => (State.noRefusals_only u).mono rfl) ?_
    split
    · exact (State.patchVerify_only _ _).step rfl (.refl _ _)
    · split
      · exact State.slotWrite_only ((State.patchApply_only _ _).step rfl (.refl _ _))
      · exact (State.patchDiscard_only _ _).step rfl (.refl _ _)
  · refine OkOnly.map (fun u => (State.noRefusals_only u).mono rfl) ?_
    split
    · exact State.slotWrite_only ((State.imageWrite_only _ _).step rfl (.refl _ _))
    · exact (State.imageDiscard_only _ _).step rfl (.refl _ _)
  · exact .ok ((State.onFuses_only _ _).step rfl (.refl _ _))
  · split
    · exact .error
    · exact .ok ((State.fuseBegin_only _ _ _).step rfl (.refl _ _))
  · exact .ok ((State.onFuses_only _ _).step rfl (.refl _ _))
  · exact (State.askFuse_only _ _ _).step rfl (.refl _ _)
  · split
    · exact .ok ((State.ownerSet_only _ _).step rfl (.refl _ _))
    · split
      · exact .error
      · exact .ok ((State.ownerRelease_only _ _).step rfl (.refl _ _))
  · exact .ok ((State.windowEnd_only _ _).step rfl (.refl _ _))
  · split
    · exact .ok ((State.sealArm_only _ _).step rfl (.refl _ _))
    · exact .error
  · split
    · exact .ok ((State.twRecover_only _ _).step rfl (.refl _ _))
    · exact .error
  · exact .ok (.refl _ _)

theorem State.writeValue_within (s : State) (k : Nat) (h : HostId) (x : Obj) (v : Int) :
    OkOnly (objParts x) s (State.writeValue s k h x v) := by
  have hk := objParts_kind x
  unfold State.writeValue
  extract_lets _ _
  split <;> rename_i e <;> rw [e] at hk <;> simp only [kindParts] at hk
  · exact (State.writeStaged_only _ _ _ _ _).step (Part.within_trans rfl hk) (.refl _ _)
  · exact (State.writeImmediate_only _ _ _ _ _).step (Part.within_trans rfl hk) (.refl _ _)
  · exact (State.writeWaiting_only _ _ _ _ _).step (Part.within_trans rfl hk) (.refl _ _)
  · exact (State.writeWaiting_only _ _ _ _ _).step (Part.within_trans rfl hk) (.refl _ _)
  · exact (State.writeReply_only _ _ _ _ _).step (Part.within_trans rfl hk) (.refl _ _)
  · exact (State.writeStored_only _ _ _ _ _).step (Part.within_trans rfl hk) (.refl _ _)
  · exact (State.writeStored_only _ _ _ _ _).step (Part.within_trans rfl hk) (.refl _ _)
  · have hc := objParts_command x
    split
    · rename_i r
      have r : x.fam = .rights := by simpa using r
      simp only [r, commandParts] at hc
      exact (State.writeStored_only _ _ _ _ _).step (Part.within_trans rfl hc) (.refl _ _)
    · split
      · exact .error
      · refine (State.command_within _ _ _ _).step hc ?_
        exact (State.logWrite_only _ _ _ _ _ _).mono (Part.within_trans rfl hk)

theorem State.writeDomain_within (s : State) (k : Nat) (h : HostId) (x : Obj) (offset : Nat) (bs : List Byte) :
    OkOnly (objParts x) s (State.writeDomain s k h x offset bs) := by
  have hc := objParts_command x
  unfold State.writeDomain
  split <;> rename_i e <;> try rw [e] at hc; simp only [commandParts] at hc
  · exact (State.patchPiece_only _ _ _ _).step (Part.within_trans rfl hc) ((State.logWrite_only _ _ _ _ _ _).mono (Part.within_trans rfl hc))
  · exact (State.imagePiece_only _ _ _ _).step (Part.within_trans rfl hc) ((State.logWrite_only _ _ _ _ _ _).mono (Part.within_trans rfl hc))
  · split
    · exact .error
    · exact .ok ((State.commitReceive_only _ _ _).step (Part.within_trans rfl hc) ((State.logWrite_only _ _ _ _ _ _).mono (Part.within_trans rfl hc)))
  · split
    · exact .error
    · exact (State.writeSignals_only _ _ _ _ _).step (Part.within_trans rfl hc) (.refl _ _)
  · exact .error

theorem State.hostWrite_within (s : State) (k : Nat) (h : HostId) (x : Obj) (offset : Nat) (bs : List Byte) :
    OkOnly (objParts x) s (State.hostWrite s k h x offset bs) := by
  unfold State.hostWrite
  split
  · exact State.writeDomain_within _ _ _ _ _ _
  · split
    · exact .error
    · exact State.writeValue_within _ _ _ _ _

theorem State.refusalMark_within (s : State) (x : Obj) (v : Int) (status : Nat) :
    OnlyChanges (objParts x) s (State.refusalMark s x v status) := by
  have hc := objParts_command x
  unfold State.refusalMark
  split <;> rename_i e _ <;> try rw [e] at hc; simp only [commandParts] at hc
  · exact (State.loadRefused_only _ _ _).mono (Part.within_trans rfl hc)
  · exact (State.loadRefused_only _ _ _).mono (Part.within_trans rfl hc)
  · exact (State.detectIf_only _ _ _ _).mono (Part.within_trans rfl hc)
  · exact .ite ((set_safeSet_only _ _).mono (Part.within_trans rfl hc)) (.refl _ _)
  · exact .refl _ _

theorem State.afterReply_within (s : State) (x : Obj) (v : Int)
    (h : (x.row.kind == .reply || x.fam == .resets) = true) : OnlyChanges (objParts x) s (State.afterReply s x v) := by
  have hk := objParts_kind x
  have hc := objParts_command x
  unfold State.afterReply
  split
  · rename_i r
    have r : x.fam = .resets := by simpa using r
    simp only [r, commandParts] at hc
    exact (State.warmReset_only _ _).mono (Part.within_trans rfl hc)
  · rename_i r
    have e : x.row.kind = .reply := by simpa [r] using h
    rw [e] at hk
    simp only [kindParts] at hk
    split
    · exact .refl _ _
    · extract_lets t
      have ht : OnlyChanges (objParts x) s t := (set_cfg_only _ _).mono (Part.within_trans rfl hk)
      split
      · exact (State.closeTransport_only _ _ _).step (Part.within_trans rfl hk) ht
      · exact (State.closeTransport_only _ _ _).step (Part.within_trans rfl hk) ht
      · exact (State.closeTransport_only _ _ _).step (Part.within_trans rfl hk) ht
      · exact (set_ptp_only _ _).step (Part.within_trans rfl hk) ht
      · exact ht

theorem State.doWrite_within (s : State) (h : Hdr) (index sub : Nat) (e : Expect) (offset : Nat) (bs : List Byte) :
    AnswerOnly (writeFoot index sub) s (State.doWrite s h index sub e offset bs) := by
  have obj (x : Obj) (hx : anyObject? index sub = some x) : writeFoot index sub = objParts x := by
    simp only [writeFoot, hx, objParts]
  have found (x : Obj) (hx : s.writeCheck h.seat index sub e bs = .ok x) : anyObject? index sub = some x := by
    unfold State.writeCheck at hx
    extract_lets at hx
    split at hx
    · cases hx
    · repeat' split at hx
      all_goals first | (cases hx; done) | (injection hx with hx; subst hx; assumption)
  unfold State.doWrite
  split
  · refine .intro ?_ (fun u1 => .refl _ _)
    split
    · rename_i x hx
      rw [obj x hx]
      exact .ite (State.refusalMark_within _ _ _ _) (.refl _ _)
    · exact .refl _ _
  · rename_i x hx
    rw [obj x (found x hx)]
    split
    · exact .intro (State.refusalMark_within _ _ _ _) (fun _ => .refl _ _)
    · rename_i t ht
      have ht := (State.hostWrite_within _ _ _ _ _ _).of ht
      split
      · exact .intro ht (fun _ => .refl _ _)
      · exact .intro ht (fun _ => .refl _ _)

/-- The write that waits for the response to a WRITE touches what the object decides. -/
theorem State.doWrite_effect (s u : State) (h : Hdr) (index sub : Nat) (e : Expect) (offset : Nat) (bs : List Byte) :
    OnlyChanges (writeFoot index sub) u (State.takeEffect u (State.doWrite s h index sub e offset bs).effect) := by
  have obj (x : Obj) (hx : anyObject? index sub = some x) : writeFoot index sub = objParts x := by
    simp only [writeFoot, hx, objParts]
  have found (x : Obj) (hx : s.writeCheck h.seat index sub e bs = .ok x) : anyObject? index sub = some x := by
    unfold State.writeCheck at hx
    extract_lets at hx
    split at hx
    · cases hx
    · repeat' split at hx
      all_goals first | (cases hx; done) | (injection hx with hx; subst hx; assumption)
  unfold State.doWrite
  split
  · exact .refl _ _
  · rename_i x hx
    split
    · exact .refl _ _
    · split
      · rename_i c
        simp only [State.takeEffect, found x hx, obj x (found x hx)]
        exact State.afterReply_within _ _ _ c
      · exact .refl _ _

/-! ### Requests -/

/-- What a request may touch beside the transports, the seats and the target ports. -/
def reqParts : Req → List Part
  | .identify | .keepalive | .subscribe .. | .unsubscribe _ => []
  | .openSeat _ _ => [.cfg, .score, .commits, .draws]
  | .closeSeat => [.cfg, .score, .commits]
  | .read .. | .readMulti _ | .steward .. => [.score]
  | .write index sub _ _ _ => writeFoot index sub

theorem State.serve_within (s : State) (h : Hdr) (r : Req) : AnswerOnly (deskParts ++ reqParts r) s (State.serve s h r) := by
  unfold State.serve
  split
  · exact .intro (.refl _ _) (fun _ => .refl _ _)
  · split
    · exact (State.doClose_only _ _).step rfl (.refl _ _)
    · exact .intro (.refl _ _) (fun _ => .refl _ _)
    · exact (State.doRead_only _ _ _ _ _ _ _).step rfl (.refl _ _)
    · exact (State.doWrite_within _ _ _ _ _ _ _).step (Part.within_right (Part.within_self _) _) (.refl _ _)
    · exact (State.doReadMulti_only _ _ _).step rfl (.refl _ _)
    · exact (State.doSteward_only _ _ _ _ _).step rfl (.refl _ _)
    · exact (State.doSubscribe_only _ _ _ _ _ _).step rfl (.refl _ _)
    · exact (State.doUnsubscribe_only _ _ _).step rfl (.refl _ _)
    · exact .intro (.refl _ _) (fun _ => .refl _ _)
    · exact .intro (.refl _ _) (fun _ => .refl _ _)

/-- What waits for the response to a request touches what its operation may touch. -/
theorem State.serve_effect (s u : State) (h : Hdr) (r : Req) :
    OnlyChanges (deskParts ++ reqParts r) u (State.takeEffect u (State.serve s h r).effect) := by
  have none {ps : List Part} {a : Answer} (e : a.effect = Option.none) : OnlyChanges ps u (State.takeEffect u a.effect) := by
    rw [e]; exact .refl _ _
  unfold State.serve
  split
  · exact .refl _ _
  · split
    · exact .refl _ _
    · exact .refl _ _
    · exact none (by unfold State.doRead; split; rfl; extract_lets; repeat' split <;> try rfl)
    · exact (State.doWrite_effect _ _ _ _ _ _ _ _).mono (Part.within_right (Part.within_self _) _)
    · exact none (by unfold State.doReadMulti; extract_lets; split; split <;> rfl)
    · exact none (by unfold State.doSteward; extract_lets; repeat' split <;> try rfl)
    · exact none (by unfold State.doSubscribe; extract_lets; repeat' split <;> try rfl)
    · exact .refl _ _
    · exact .refl _ _
    · exact .refl _ _

theorem State.processOpen_within (s : State) (h : Hdr) (r : Req) :
    OnlyChanges (deskParts ++ reqParts r) s (State.processOpen s h r) := by
  have w : Part.within deskParts (deskParts ++ reqParts r) = true := Part.within_left _ _
  unfold State.processOpen
  split
  · exact (State.send_only _ _ _).mono (Part.within_trans rfl w)
  · extract_lets s1
    have hs1 : OnlyChanges (deskParts ++ reqParts r) s s1 := (State.onSeat_only _ _ _).mono (Part.within_trans rfl w)
    clear_value s1
    split
    · exact (State.turnAway_only _ _ _ _).mono (Part.within_trans rfl w)
    · exact State.finish_only w ((State.serve_within _ _ _).step (Part.within_self _) hs1) (fun u => State.serve_effect _ u _ _)

theorem State.processFree_within (s : State) (h : Hdr) (r : Req) :
    OnlyChanges (deskParts ++ reqParts r) s (State.processFree s h r) := by
  unfold State.processFree
  refine .ite ((State.turnAway_only _ _ _ _).mono (Part.within_trans rfl (Part.within_left deskParts _))) ?_
  split
  · exact .step (State.send_only _ _ _) rfl ((State.doOpen_only _ _ _ _).1.mono rfl)
  · exact .step (State.send_only _ _ _) (Part.within_trans rfl (Part.within_left deskParts _)) (.refl _ _)

/-- A request changes the transports, the seats, the target ports and what its operation may change. -/
theorem State.request_within (s : State) (h : Hdr) (r : Req) :
    OnlyChanges (deskParts ++ reqParts r) s (State.request s h r) := by
  have w : Part.within deskParts (deskParts ++ reqParts r) = true := Part.within_left _ _
  unfold State.request State.process
  extract_lets free mine s1
  have hs1 : OnlyChanges (deskParts ++ reqParts r) s s1 :=
    .ite ((State.onSeat_only _ _ _).mono (Part.within_trans rfl w)) (.refl _ _)
  clear_value s1
  have away (u : State) (st : Nat) : OnlyChanges (deskParts ++ reqParts r) u (u.turnAway h r.op st) :=
    (State.turnAway_only _ _ _ _).mono (Part.within_trans rfl w)
  refine .ite (.refl _ _) (.ite (hs1.trans (away _ _)) (.ite (hs1.trans (away _ _)) (.ite ?_ (.ite ?_ (hs1.trans (away _ _))))))
  · exact hs1.trans (State.processFree_within _ _ _)
  · exact hs1.trans (State.processOpen_within _ _ _)

theorem State.writeRequest_within (s : State) (h : Hdr) (e : Expect) (index sub : Nat) (v : Int) :
    OnlyChanges (deskParts ++ writeFoot index sub) s (State.writeRequest s h e index sub v) :=
  State.request_within s h (.write index sub e 0 _)

theorem State.hostPut_within (s : State) (h : Hdr) (e : Expect) (f : Family) (unit off sub : Nat) (v : Int) :
    OnlyChanges (deskParts ++ writeFoot (f.index unit off) sub) s (State.hostPut s h e f unit off sub v) :=
  .ite (State.writeRequest_within _ _ _ _ _ _) (.refl _ _)

theorem State.hostLoad_within (s : State) (h : Hdr) (e : Expect) (index sub offset : Nat) (bs : List Byte) :
    OnlyChanges (deskParts ++ writeFoot index sub) s (State.hostLoad s h e index sub offset bs) :=
  State.request_within s h (.write index sub e offset bs)

/-! ### Requests whose family is known -/

/-- The footprint of a WRITE to one sub-entry of a family, whatever its unit. -/
def rowFoot (f : Family) (off sub : Nat) : List Part :=
  match f.rows.find? (fun r => r.off == off && decide (r.lo ≤ sub) && decide (sub ≤ r.hi)) with
  | some r => .score :: (kindParts r.kind ++ commandParts f)
  | none => []

theorem writeFoot_row {f : Family} {unit off sub index : Nat} (hl : locate index = some (f, unit, off))
    (hf : f ≠ .vendor) (hs : sub ≠ 0) : writeFoot index sub = rowFoot f off sub := by
  have hf : (f == Family.vendor) = false := by simpa using hf
  simp only [writeFoot, anyObject?, object?, hl, hf, Bool.false_eq_true, if_false, rowFoot, hs]
  generalize List.find? (fun r : Row => r.off == off && decide (r.lo ≤ sub) && decide (sub ≤ r.hi)) f.rows = found
  cases found <;> rfl

theorem State.hostPut_row {qs : List Part} {s : State} {h : Hdr} {e : Expect} {f : Family} {unit off sub : Nat} {v : Int}
    (hf : f ≠ .vendor) (hs : sub ≠ 0) (w : Part.within (deskParts ++ rowFoot f off sub) qs = true) :
    OnlyChanges qs s (State.hostPut s h e f unit off sub v) := by
  unfold State.hostPut
  split
  · rename_i hl
    have hl : locate (f.index unit off) = some (f, unit, off) := by simpa using hl
    have k := State.writeRequest_within s h e (f.index unit off) sub v
    rw [writeFoot_row hl hf hs] at k
    exact k.mono w
  · exact .refl _ _

theorem State.ask_row {qs : List Part} {s : State} {o : Source} {f : Family} {unit off sub : Nat} {v : Int}
    {g : State → State} (hf : f ≠ .vendor) (hs : sub ≠ 0) (w : Part.within (deskParts ++ rowFoot f off sub) qs = true)
    (k : ∀ u, OnlyChanges qs u (g u)) : OnlyChanges qs s (State.ask s o f unit off sub v g) := by
  unfold State.ask
  split
  · exact State.hostPut_row hf hs w
  · exact k _

end Sys2Proof.Machine
end

