-- ==== Sys2Proof/Laws/Host.lean ====
section
/-!
SUPPORT. What a request that is taken does, and what an accepted WRITE of a command object does.
-/
namespace Sys2Proof.Machine
set_option Elab.async false

theorem vmod_vmod {α : Type} {n : Nat} (v : Vector α n) (i : Nat) (f g : α → α) :
    vmod (vmod v i f) i g = vmod v i (fun x => g (f x)) := by
  unfold vmod; split <;> simp

/-- An operation other than IDENTIFY and OPEN. -/
def Req.inSeat : Req → Bool
  | .identify | .openSeat .. => false
  | _ => true

theorem Req.op_inSeat {r : Req} (h : r.inSeat = true) : (r.op == 0x01 || r.op == 0x02) = false := by
  cases r <;> simp_all [Req.inSeat, Req.op]

theorem State.onSeat_onSeat (s : State) (k : Nat) (f g : SeatRun → SeatRun) :
    (s.onSeat k f).onSeat k g = s.onSeat k (fun r => g (f r)) := by
  simp only [State.onSeat, vmod_vmod]

theorem Taken.session_eq {s : State} {h : Hdr} (t : Taken s h) : (s.seat h.seat).session = h.session := by
  have := t.session; simp [State.sessionOk] at this; exact this.2

theorem Taken.opened {s : State} {h : Hdr} (t : Taken s h) : (s.seat h.seat).phase = .opened := by
  have := t.session; simp [State.sessionOk] at this; exact this.1

/-- A request that is taken has its operation performed, and its response leaves. -/
theorem State.request_taken {s : State} {h : Hdr} {r : Req} (t : Taken s h) (f : r.inSeat = true) (ok : r.ok = true)
    (fits : r.size ≤ limitOf h.host) :
    (s.fresh.running fun u => u.request h r) = finish h r.op ((s.arrived h).serve h r) := by
  have hs : s.fresh.sessionOk h.seat h.session = true := t.session
  have hb : s.fresh.boot.phase = .serving := t.serving
  have hserves : s.fresh.serves h.host = true := by simp [State.serves, hb]
  have hrep : (s.seat h.seat).replay.find? (fun x => x.tag == h.tag) = none := by
    rw [List.find?_eq_none]; intro x hx; simpa using t.tag x hx
  have hsz : ¬ limitOf h.host < r.size := by omega
  have e : (s.fresh.onSeat h.seat (fun x => { x with leaseAt := s.clock.up, latest := (h.host, h.mark) })).seat h.seat =
      { s.seat h.seat with leaseAt := s.clock.up, latest := (h.host, h.mark) } := seat_onSeat _ _ _ t.seat
  have fc : s.fresh.clock = s.clock := rfl
  simp only [State.running, hb, State.request, State.process, hserves, ok, hs, Req.op_inSeat f, hsz, fc]
  have hu (f : SeatRun → SeatRun) : ¬ 8 ≤ (s.fresh.onSeat h.seat f).unanswered h.seat := by
    have := t.room.2; show ¬ 8 ≤ s.unanswered h.seat; omega
  have c3 : ¬ h.host.code = 3 := by have := t.transport; omega
  simp [State.processOpen, t.room.1, hu, e, hrep, onSeat_onSeat, State.arrived, c3]

/-- The object of a sub-entry of a family whose unit exists. -/
theorem object_row {f : Family} {unit off sub : Nat} {row : Row} (hl : locate (f.index unit off) = some (f, unit, off))
    (hf : f ≠ .vendor) (hr : f.rows.find? (fun r => r.off == off && decide (r.lo ≤ sub) && decide (sub ≤ r.hi)) = some row) :
    anyObject? (f.index unit off) sub = some ⟨f, unit, off, sub, row⟩ := by
  have hf : (f == Family.vendor) = false := by simpa using hf
  simp [anyObject?, object?, hl, hf, hr]

theorem State.writeCheck_obj {s : State} {k index sub : Nat} {e : Expect} {bs : List Byte} {x y : Obj}
    (h : s.writeCheck k index sub e bs = .ok x)
    (hy : anyObject? index sub = some y) : x = y := by
  unfold State.writeCheck at h
  extract_lets at h
  rw [hy] at h
  dsimp only at h
  repeat' split at h
  all_goals first | (cases h; done) | (injection h with h; exact h.symm)

theorem State.steward_arrived (s : State) (h : Hdr) (index sub : Nat) : (s.arrived h).steward index sub = s.steward index sub := by
  unfold State.steward
  congr 2
  funext k
  by_cases e : k = h.seat
  · subst e
    by_cases hk : h.seat < 8
    · rw [State.arrived, seat_onSeat _ _ _ hk]; rfl
    · have : (s.arrived h).seats = s.seats := by simp [State.arrived, State.onSeat, vmod, hk, State.fresh]
      simp [State.seat, this]
  · rw [State.arrived, seat_onSeat_ne _ _ _ _ e]; rfl

theorem State.cls_arrived (s : State) (h : Hdr) (k : Nat) : ((s.arrived h).seat k).cls = (s.seat k).cls := by
  by_cases e : k = h.seat
  · subst e
    by_cases hk : h.seat < 8
    · rw [State.arrived, seat_onSeat _ _ _ hk]; rfl
    · have : (s.arrived h).seats = s.seats := by simp [State.arrived, State.onSeat, vmod, hk, State.fresh]
      simp [State.seat, this]
  · rw [State.arrived, seat_onSeat_ne _ _ _ _ e]; rfl

theorem State.writeCheck_arrived (s : State) (h : Hdr) (k index sub : Nat) (e : Expect) (bs : List Byte) :
    (s.arrived h).writeCheck k index sub e bs = s.writeCheck k index sub e bs := by
  have m : (s.arrived h).mayWrite k index sub = s.mayWrite k index sub := by
    simp only [State.mayWrite, State.hasRight, State.cls_arrived]; rfl
  unfold State.writeCheck
  simp only [m, State.steward_arrived]
  rfl

theorem AnsweredWith.answered {t : State} {h : Hdr} {op : Nat} {body : List Byte} (a : AnsweredWith t h op body) :
    Answered t h op 0 := ⟨_, a, rfl, rfl, rfl, rfl, rfl, rfl, rfl⟩

theorem State.arrived_ok {s : State} {h : Hdr} (tk : Taken s h) : (s.arrived h).sessionOk h.seat h.session = true := by
  simp only [State.sessionOk, State.arrived]
  rw [State.seat_onSeat _ _ _ tk.seat]
  exact tk.session

theorem State.arrived_only (s : State) (h : Hdr) : OnlyChanges [.sent, .seats] s (s.arrived h) :=
  ((State.fresh_only s).mono rfl).trans ((State.onSeat_only _ _ _).mono rfl)

/-- A change of one seat leaves in every seat whatever the change leaves. -/
theorem State.seat_onSeat_same {α : Type} (s : State) (k : Nat) (f : SeatRun → SeatRun) (p : SeatRun → α)
    (hf : ∀ r, p (f r) = p r) (j : Nat) : p ((s.onSeat k f).seat j) = p (s.seat j) := by
  by_cases e : j = k
  · subst e
    by_cases hk : j < 8
    · rw [State.seat_onSeat _ _ _ hk, hf]
    · have : (s.onSeat j f).seats = s.seats := by simp [State.onSeat, vmod, hk]
      simp [State.seat, this]
  · rw [State.seat_onSeat_ne _ _ _ _ e]

/-- What a response leaves of a seat. -/
def SeatRun.rest (r : SeatRun) :=
  (r.phase, r.cls, r.host, r.session, r.lease, r.leaseAt, r.lastClose, r.subs, r.stews, r.notices, r.nseq)

/-- An answer with status 0 leaves as such; then what waited for it acts. -/
theorem finish_answer {h : Hdr} {op : Nat} {u : State} {body : List Byte} {f : State → State}
    (ok : u.sessionOk h.seat h.session = true) (c : h.host.code = 1 ∨ h.host.code = 2)
    (len : 12 + body.length ≤ limitOf h.host) :
    ∃ w, OnlyChanges [.sent, .seats] u w ∧ AnsweredWith w h op body ∧ w.sessionOk h.seat h.session = true ∧
      (∀ k, (w.seat k).rest = (u.seat k).rest) ∧
      State.finish h op { state := u, body := body, after := f } = f w := by
  have c3 : ¬ h.host.code = 3 := by omega
  let r := State.makeReply h op 0 0 h.session body
  let u1 := u.onSeat h.seat (fun x => { x with replay := (r :: x.replay).take 16 })
  have hr : r = { host := h.host, mark := h.mark, op := op + 0x80, seat := h.seat, session := h.session, tag := h.tag
                  status := 0, reason := 0, body := body } := by
    simp [r, State.makeReply]; omega
  have same : ∀ k, (u1.seat k).rest = (u.seat k).rest := State.seat_onSeat_same u h.seat _ SeatRun.rest (fun _ => rfl)
  refine ⟨{ u1 with out := u1.out ++ u1.replySent r }, ?_, ?_, ?_, same, ?_⟩
  · exact (set_out_only _ _).step rfl ((State.onSeat_only _ _ _).mono rfl)
  · rw [AnsweredWith, ← hr]; simp [State.replySent]
  · have e := same h.seat
    simp only [SeatRun.rest, Prod.mk.injEq] at e
    simp only [State.sessionOk] at ok ⊢
    show ((u1.seat h.seat).phase == _ && (u1.seat h.seat).session == _) = true
    rw [e.1, e.2.2.2.1]; exact ok
  · have hr : r.host.code = h.host.code := rfl
    simp [State.finish, ok, c3, State.send, u1, r, hr, State.takeEffect]

/-- A request that is taken and done: what the operation leaves, its response, and what waits for the response. -/
theorem State.request_done {s : State} {h : Hdr} {r : Req} {u : State} {body : List Byte} {f : State → State} (t : Taken s h)
    (e : r.inSeat = true) (ok : r.ok = true) (fits : r.size ≤ limitOf h.host)
    (sv : (s.arrived h).serve h r = { state := u, body := body, after := f })
    (hs : u.sessionOk h.seat h.session = true) (len : 12 + body.length ≤ limitOf h.host) :
    ∃ w, OnlyChanges [.sent, .seats] u w ∧ AnsweredWith w h r.op body ∧ w.sessionOk h.seat h.session = true ∧
      (∀ k, (w.seat k).rest = (u.seat k).rest) ∧ (s.fresh.running fun u => u.request h r) = f w := by
  rw [State.request_taken t e ok fits, sv]
  exact finish_answer hs t.transport len

/-- What a WRITE of a command object does when it is admitted and its value lies in the range of its table: a change
record, then the command; if the command is taken, the response leaves. -/
theorem State.put_done {s : State} {h : Hdr} {e : Expect} {f : Family} {unit off sub : Nat} {v : Int} {row : Row} {n : Nat}
    (ad : Admitted s h e (f.index unit off) sub (row.ty.encode v)) (hl : locate (f.index unit off) = some (f, unit, off))
    (hf : f ≠ .vendor) (hr : f.rows.find? (fun r => r.off == off && decide (r.lo ≤ sub) && decide (sub ≤ r.hi)) = some row)
    (hk : row.kind = .plain) (h1 : f ≠ .rights) (h2 : f ≠ .resets) (h3 : f = .image → sub = 2 → v ≠ 2)
    (hn : row.ty.size = some n) (hlen : (row.ty.encode v).length = n) (hn8 : n ≤ 8)
    (hv : row.ty.decode (row.ty.encode v) = v) (hin : rowOk ⟨f, unit, off, sub, row⟩ v = true) :
    ∃ u, OnlyChanges [.score] (s.arrived h) u ∧
      ∀ t, u.command h.seat ⟨f, unit, off, sub, row⟩ v = .ok t → t.sessionOk h.seat h.session = true →
        ∃ w, s.fresh.running (fun s => s.hostPut h e f unit off sub v) = w ∧ OnlyChanges [.sent, .seats] t w ∧ Accepted w h ∧
          ∀ k, (w.seat k).rest = (t.seat k).rest := by
  let x : Obj := ⟨f, unit, off, sub, row⟩
  have ho : anyObject? (f.index unit off) sub = some x := object_row hl hf hr
  obtain ⟨y, hy⟩ := ad.checks
  obtain rfl := State.writeCheck_obj hy ho
  have hwv : ∃ old, (s.arrived h).writeValue h.seat h.host x v =
      ((s.arrived h).logWrite h.seat h.host x (row.ty.encode old) (row.ty.encode v)).command h.seat x v := by
    have hi : (f == Family.image && sub == 2 && v == 2) = false := by
      cases hq : (f == Family.image && sub == 2 && v == 2) <;> simp_all
    have hrt : (f == Family.rights) = false := by simpa using h1
    exact ⟨_, by simp only [State.writeValue, x, hk, hrt, hin, hi]; rfl⟩
  obtain ⟨old, hwv⟩ := hwv
  refine ⟨(s.arrived h).logWrite h.seat h.host x (row.ty.encode old) (row.ty.encode v), State.logWrite_only _ _ _ _ _ _, ?_⟩
  intro t ht hs
  have c3 : ¬ h.host.code = 3 := by have := ad.taken.transport; omega
  have hreq := State.request_taken (r := .write (f.index unit off) sub e 0 (row.ty.encode v)) ad.taken rfl (by
      cases e with
      | none => rfl
      | some p => simpa [Req.ok] using ad.port p.1 p.2 rfl) (by simp [Req.size, limitOf, c3, hlen]; omega)
  have hput : s.fresh.running (fun s => s.hostPut h e f unit off sub v) =
      s.fresh.running (fun s => s.request h (.write (f.index unit off) sub e 0 (row.ty.encode v))) := by
    congr 1; funext s; simp [State.hostPut, hl, State.writeRequest, ho, x]
  have hserve : (s.arrived h).serve h (.write (f.index unit off) sub e 0 (row.ty.encode v)) = { state := t } := by
    have hb : (s.arrived h).boot.phase = .serving := ad.taken.serving
    have hw : (s.arrived h).hostWrite h.seat h.host x 0 (row.ty.encode v) = .ok t := by
      simp only [State.hostWrite, x, hn, hlen, hv]
      simpa using hwv.trans ht
    have h2' : (f == Family.resets) = false := by simpa using h2
    have hk' : (x.row.kind == EffectKind.reply || x.fam == Family.resets) = false := by simp [x, hk, h2']
    simp only [State.serve, hb, State.doWrite, State.writeCheck_arrived, hy, hw, hk', Req.op]
    rfl
  obtain ⟨w, hw1, hw2, _, hw4, hw5⟩ := finish_answer (op := 0x11) (body := []) (f := id) hs ad.taken.transport
    (by simp [limitOf, c3])
  refine ⟨w, ?_, hw1, hw2.answered, hw4⟩
  rw [hput, hreq, hserve]
  exact hw5

end Sys2Proof.Machine
end

