-- ==== Sys2Proof/WellFormed.lean ====
section
/-!
DEFINITION. Well-formed commands: every number names a unit that the part has, and every field fits the width that its
message or frame gives it. Well-formedness says nothing of values: a value out of its object's range is well-formed, and
the part refuses it.
-/
namespace Sys2Proof
set_option Elab.async false
open Machine

/-- A number below a bound. -/
def unitWf (n k : Nat) : Bool := decide (k < n)

/-- Octets that a message can carry. -/
def octetsWf (bs : List Byte) : Bool := decide (bs.length ≤ 65535)

/-- A value of type I32. -/
def i32Wf (v : Int) : Bool := decide (-2147483648 ≤ v) && decide (v ≤ 2147483647)

/-- A lint source that the part has (Table 11-3). -/
def sourceWf (src : Nat) : Bool := decide (src ≤ 418) || (decide (448 ≤ src) && decide (src ≤ 460))

/-- A cause of a warm reset (Table 16-2). -/
def causeWf (cause : Nat) : Bool := decide (0x10 ≤ cause) && decide (cause ≤ 0x16)

/-- An expected epoch: its port field is one octet. -/
def expectWf (e : Expect) : Bool := match e with | some x => unitWf 256 x.1 | none => true

namespace Machine

/-- A host address: a transport code and a port of it. -/
def HostId.wf (h : HostId) : Bool := decide (1 ≤ h.code) && unitWf 4 h.code && unitWf 2 h.port && unitWf (2 ^ 64) h.addr

/-- A header as its transport hands it over (Table 12-5). -/
def Hdr.wf (h : Hdr) : Bool := h.host.wf && unitWf 65536 h.mark && unitWf 8 h.seat && unitWf 65536 h.tag

def Source.wf (o : Source) : Bool := match o with | .host h e => h.wf && expectWf e | .block => true

def Datagram.wf (x : Datagram) : Bool :=
  unitWf 2 x.port && unitWf (2 ^ 64) x.source && unitWf 65536 x.srcPort && unitWf 65536 x.dstPort && octetsWf x.octets

/-- A CAN frame: one of three error states of its controller, at most 64 octets, at most 8 in a classical frame. -/
def CanFrame.wf (x : CanFrame) : Bool := unitWf 2 x.ctrl && unitWf 3 x.errors && decide (x.octets.length ≤ (if x.fd then 64 else 8))

def PtpIn.wf (x : PtpIn) : Bool := unitWf 2 x.port && unitWf 2 x.transport && unitWf 256 x.domain

def SampleIn.wf (x : SampleIn) : Bool :=
  x.residues.all (fun r => unitWf 128 r.1) && x.irons.residues.all (unitWf 16) && x.irons.taps.all (fun t => unitWf 16 t.1)

/-- An uplink frame has 24 octets (R164). -/
def UplinkIn.wf (x : UplinkIn) : Bool := x.octets.length == 24

end Machine

/-- A command is well-formed. -/
def Instr.wf (i : Instr) : Bool :=
  match i with
  | .identify h => h.wf
  | .openSeat h cls lease => h.wf && unitWf 256 cls && unitWf 65536 lease
  | .closeSeat h => h.wf
  | .keepalive h => h.wf
  | .read h index sub _ offset maxLen => h.wf && unitWf 65536 index && unitWf 256 sub && unitWf (2 ^ 32) offset && unitWf 65536 maxLen
  | .write h index sub expect offset value => h.wf && unitWf 65536 index && unitWf 256 sub && expectWf expect && unitWf (2 ^ 32) offset && octetsWf value
  | .readMulti h entries => h.wf && entries.all (fun e => unitWf 65536 e.1 && unitWf 256 e.2.1)
  | .stewardAcquire h index sub => h.wf && unitWf 65536 index && unitWf 256 sub
  | .stewardRelease h index sub => h.wf && unitWf 65536 index && unitWf 256 sub
  | .stewardQuery h index sub => h.wf && unitWf 65536 index && unitWf 256 sub
  | .stewardTakeOver h index sub => h.wf && unitWf 65536 index && unitWf 256 sub
  | .subscribe h index sub _ interval => h.wf && unitWf 65536 index && unitWf 256 sub && unitWf (2 ^ 32) interval
  | .unsubscribe h num => h.wf && unitWf 256 num
  | .notifyPeriodic seat num _ => unitWf 8 seat && unitWf 256 num
  | .notifyOnChange seat num _ => unitWf 8 seat && unitWf 256 num
  | .udpDatagram x => x.wf
  | .canSegment x => x.wf
  | .canSegmentTimeout c seat mark => unitWf 2 c && unitWf 8 seat && unitWf 256 mark
  | .canBusOffRecovery c => unitWf 2 c
  | .ptpMessage x => x.wf
  | .seatLeaseExpire seat => unitWf 8 seat
  | .orphanLeaseExpire seat => unitWf 8 seat
  | .seatForceClose h seat => h.wf && unitWf 8 seat
  | .rightsWordWrite h area _ => h.wf && decide (1 ≤ area) && unitWf 25 area
  | .combinedSubentryWrite h index sub value => h.wf && unitWf 65536 index && unitWf 256 sub && i32Wf value
  | .transportConfigWrite h index sub expect value => h.wf && unitWf 65536 index && unitWf 256 sub && expectWf expect && unitWf (2 ^ 32) value
  | .ptpConfigWrite h expect _ => h.wf && expectWf expect
  | .commitList h expect octets => h.wf && expectWf expect && octetsWf octets
  | .safeSetCapture h expect value => h.wf && expectWf expect && unitWf 256 value
  | .groupStart o g => o.wf && unitWf 32 g
  | .groupStop o g => o.wf && unitWf 32 g
  | .groupClear o g => o.wf && unitWf 32 g
  | .groupSample g x => unitWf 32 g && x.wf
  | .softStartTimeout g => unitWf 32 g
  | .groupRetryTimer g => unitWf 32 g
  | .shareTrimAtLimit p => unitWf 48 p
  | .derateRelease g => unitWf 32 g
  | .lockResume g => unitWf 32 g
  | .lockAtLimit p k => unitWf 48 p && unitWf 4 k
  | .ironPeriodEstimate i _ _ => unitWf 16 i
  | .ironClearMemory o i => o.wf && unitWf 16 i
  | .ironRelease o i => o.wf && unitWf 16 i
  | .supportModeExit g => unitWf 32 g
  | .uplinkFrame p x => unitWf 48 p && x.wf
  | .arrivalDeadline g x =>
    unitWf 32 g && (match x.lone with | some p => unitWf 48 p | none => true) && x.idles.all (fun i => unitWf 48 i.1)
  | .uplinkSymbolLock p => unitWf 48 p
  | .assignTimeout p => unitWf 48 p
  | .configuringFail p => unitWf 48 p
  | .lostRetrain p => unitWf 48 p
  | .senseConversion n code => unitWf 32 n && decide (-32768 ≤ code) && decide (code < 32768)
  | .excursionClear h expect => h.wf && expectWf expect
  | .pressDetectorTrip n => unitWf 8 n
  | .detectorRearm n => unitWf 8 n
  | .pressBurstClose k => unitWf 4 k
  | .syncinEdge _ ps => unitWf 600000 ps
  | .thrHoldExpire z => unitWf 16 z
  | .feedStart o z => o.wf && unitWf 16 z
  | .feedStop o z => o.wf && unitWf 16 z
  | .feedClear o z => o.wf && unitWf 16 z
  | .feedClearCaptures o z => o.wf && unitWf 16 z
  | .overcurrentTrip z => unitWf 16 z
  | .seatDebounceDone z => unitWf 16 z
  | .preChargeTimeout z => unitWf 16 z
  | .overlapEnd z => unitWf 16 z
  | .mainGateFault z => unitWf 16 z
  | .feedRetryTimer z => unitWf 16 z
  | .feedOnTimer z => unitWf 16 z
  | .seatingFault z => unitWf 16 z
  | .termination k => unitWf 8 k
  | .rechargeTimer k => unitWf 8 k
  | .emptyAnchor k => unitWf 8 k
  | .stringClearFlags o k => o.wf && unitWf 8 k
  | .stringRestoreCNom o k => o.wf && unitWf 8 k
  | .modelInputsInvalid m => unitWf 65 m
  | .inletUnavailable m => unitWf 65 m
  | .orderUp o k => o.wf && unitWf 4 k
  | .orderDown o k => o.wf && unitWf 4 k
  | .orderClear o k => o.wf && unitWf 4 k
  | .railDelayExpire r => unitWf 32 r
  | .railGood r => unitWf 32 r
  | .railPgTimeout r => unitWf 32 r
  | .runningRailFault r => unitWf 32 r
  | .resetStretchEnd r => unitWf 32 r
  | .railDischarged r => unitWf 32 r
  | .railDischargeTimeout r => unitWf 32 r
  | .lintOccurrence extra => (match extra with | some e => sourceWf e.1 && unitWf 16 e.2 | none => true)
  | .lintClear h w _ => h.wf && unitWf 16 w
  | .safeStateEnd h expect => h.wf && expectWf expect
  | .recordWindowRead h offset maxLen => h.wf && unitWf (2 ^ 32) offset && unitWf 65536 maxLen
  | .captureArm h expect c => h.wf && expectWf expect && unitWf 8 c
  | .captureTrigger o c => o.wf && unitWf 8 c
  | .captureDisarm h expect c => h.wf && expectWf expect && unitWf 8 c
  | .captureSample c => unitWf 8 c
  | .captureWindowFull c => unitWf 8 c
  | .captureSaved c => unitWf 8 c
  | .patchPiece h expect offset octets => h.wf && expectWf expect && unitWf (2 ^ 32) offset && octetsWf octets
  | .patchVerify h expect => h.wf && expectWf expect
  | .patchApply h expect => h.wf && expectWf expect
  | .patchDiscard h expect => h.wf && expectWf expect
  | .imagePiece h expect offset octets => h.wf && expectWf expect && unitWf (2 ^ 32) offset && octetsWf octets
  | .imageWrite h expect => h.wf && expectWf expect
  | .imageDiscard h expect => h.wf && expectWf expect
  | .fuseRead h expect => h.wf && expectWf expect
  | .fuseMarginRead h expect => h.wf && expectWf expect
  | .fuseMarginSweep weak => weak.all (fun e => unitWf 256 e.1)
  | .baste h expect => h.wf && expectWf expect
  | .stitch h expect => h.wf && expectWf expect
  | .ownerLockSet h expect => h.wf && expectWf expect
  | .ownerLockRelease h expect => h.wf && expectWf expect
  | .presenceEnd h expect => h.wf && expectWf expect
  | .sealArm h expect => h.wf && expectWf expect
  | .twBusRecovery h expect t => h.wf && expectWf expect && unitWf 4 t
  | .sensorPoll n _ _ => unitWf 16 n
  | .twTransactionComplete t _ => unitWf 4 t
  | .twSclTimeout t => unitWf 4 t
  | .twStuckRetry t => unitWf 4 t
  | .oapWrite t _ x _ => unitWf 2 t && octetsWf x.octets
  | .oapRead x => unitWf 2 x.port
  | .page t x => unitWf 2 t && (match x with | .write octets _ => octetsWf octets | .read _ => true)
  | .clearFaults t _ => unitWf 2 t
  | .capability x => unitWf 2 x.port
  | .voutMode x => unitWf 2 x.port
  | .statusByte x => unitWf 2 x.port
  | .statusWord x => unitWf 2 x.port
  | .statusCml x => unitWf 2 x.port
  | .readVin x => unitWf 2 x.port
  | .readVout x => unitWf 2 x.port
  | .readIout x => unitWf 2 x.port
  | .readTemperature1 x => unitWf 2 x.port
  | .readPout x => unitWf 2 x.port
  | .readPin x => unitWf 2 x.port
  | .pmbusRevision x => unitWf 2 x.port
  | .mfrId x => unitWf 2 x.port
  | .mfrModel x => unitWf 2 x.port
  | .mfrRevision x => unitWf 2 x.port
  | .mfrSerial x => unitWf 2 x.port
  | .targetWriteAbort t => unitWf 2 t
  | .targetSclTimeout t _ => unitWf 2 t
  | .hostNotify x => unitWf 2 x.port
  | .hostNotifyRepeat x => unitWf 2 x.port
  | .resetCommand h expect => h.wf && expectWf expect
  | .warmReset cause => causeWf cause
  | .pllLock _ _ weak => weak.all (fun e => unitWf 256 e.1)
  | .twRecoveryEnd t _ => unitWf 4 t
  | .identifyDelayedReply port => unitWf 2 port
  | .ptpAnnounceTimeout => true
  | .ptpOffsetStep => true
  | .markWriteTakesEffect => true
  | .tapWriteTakesEffect => true
  | .immediateWriteApply => true
  | .changeHoldoffExpire => true
  | .commitProcess => true
  | .commitSwap => true
  | .safeSetCaptureDone => true
  | .spareLaneTest _ => true
  | .inputLossClear => true
  | .downlinkSlot _ => true
  | .excursionEpisodeClose => true
  | .syncinLost => true
  | .syncHoldExpire => true
  | .timebaseGlideDone => true
  | .hangTimePublish => true
  | .shedSequencerTick => true
  | .shedDwellExpire => true
  | .shedWarnExpire => true
  | .shedGapExpire => true
  | .restoreGapExpire => true
  | .capTick => true
  | .zoneGrant => true
  | .feedTick _ => true
  | .stringTick _ => true
  | .countCheckpoint => true
  | .modelStep _ => true
  | .sequencerTick _ => true
  | .episodeQuietClose => true
  | .episodeMaxClose => true
  | .snapshotWrite _ => true
  | .patchApplyDone => true
  | .imageWriteDone => true
  | .slotWriteConditionStop => true
  | .fuseReadDone _ _ => true
  | .stitchDone _ _ => true
  | .presenceWindowOpen => true
  | .presenceWindowExpire => true
  | .jumperFitted => true
  | .jumperRemoved => true
  | .sealCheck _ => true
  | .powerOnReset => true
  | .vddAoLoss => true
  | .resetNAssert => true
  | .watchdogExpire => true
  | .firmwareResetRequest _ => true
  | .startTimerExpire => true
  | .pllLossOfLock => true
  | .warmResetEnd _ => true
  | .slotVerified => true
  | .startedCheckpoint => true
  | .benchExitButton => true
  | .benchExitTrial => true
  | .powerFailWarning cut => match cut with | some n => decide (1 ≤ n) && decide (n ≤ 7) | none => true
  | .aoOscMeasure _ => true
  | .taggedMark => true
  | .watchdogService => true
  | .aliveToggle => true
  | .syncoutEdge _ => true

end Sys2Proof
end

