-- ==== Sys2Proof/Laws/PerInstr.lean ====
section
/-!
SUPPORT. Laws of every command, one lemma for each constructor.
-/
namespace Sys2Proof
set_option Elab.async false
open Machine

/-- The header of the host that sent the command, where a host sent it. -/
def Instr.header? (i : Instr) : Option Hdr :=
  match i with
  | .identify h | .openSeat h _ _ | .closeSeat h | .keepalive h | .read h _ _ _ _ _ | .write h _ _ _ _ _ | .readMulti h _
  | .stewardAcquire h _ _ | .stewardRelease h _ _ | .stewardQuery h _ _ | .stewardTakeOver h _ _ | .subscribe h _ _ _ _
  | .unsubscribe h _ | .seatForceClose h _ | .rightsWordWrite h _ _ | .combinedSubentryWrite h _ _ _
  | .transportConfigWrite h _ _ _ _ | .ptpConfigWrite h _ _ | .commitList h _ _ | .safeSetCapture h _ _ | .excursionClear h _
  | .lintClear h _ _ | .safeStateEnd h _ | .recordWindowRead h _ _ | .captureArm h _ _ | .captureDisarm h _ _
  | .patchPiece h _ _ _ | .patchVerify h _ | .patchApply h _ | .patchDiscard h _ | .imagePiece h _ _ _ | .imageWrite h _
  | .imageDiscard h _ | .fuseRead h _ | .fuseMarginRead h _ | .baste h _ | .stitch h _ | .ownerLockSet h _
  | .ownerLockRelease h _ | .presenceEnd h _ | .sealArm h _ | .twBusRecovery h _ _ | .resetCommand h _ => some h
  | .groupStart (.host h _) _ | .groupStop (.host h _) _ | .groupClear (.host h _) _ | .ironClearMemory (.host h _) _
  | .ironRelease (.host h _) _ | .feedStart (.host h _) _ | .feedStop (.host h _) _ | .feedClear (.host h _) _
  | .feedClearCaptures (.host h _) _ | .stringClearFlags (.host h _) _ | .stringRestoreCNom (.host h _) _
  | .orderUp (.host h _) _ | .orderDown (.host h _) _ | .orderClear (.host h _) _ | .captureTrigger (.host h _) _ => some h
  | _ => none

namespace Laws.Header

/-- The header of a well-formed command is well-formed: its host, message number, seat and tag lie in their ranges. -/
def Statement (i : Instr) : Prop := i.wf = true → ∀ h, i.header? = some h → h.wf = true

theorem identify (h : Hdr) : Statement (.identify h) := fun w x e => by cases e; revert w; simp +contextual [Instr.wf]
theorem openSeat (h : Hdr) (cls lease : Nat) : Statement (.openSeat h cls lease) :=
  fun w x e => by cases e; revert w; simp +contextual [Instr.wf]
theorem closeSeat (h : Hdr) : Statement (.closeSeat h) := fun w x e => by cases e; revert w; simp +contextual [Instr.wf]
theorem keepalive (h : Hdr) : Statement (.keepalive h) := fun w x e => by cases e; revert w; simp +contextual [Instr.wf]
theorem read (h : Hdr) (index sub : Nat) (active : Bool) (offset maxLen : Nat) :
    Statement (.read h index sub active offset maxLen) :=
  fun w x e => by cases e; revert w; simp +contextual [Instr.wf]
theorem write (h : Hdr) (index sub : Nat) (expect : Expect) (offset : Nat) (value : List Byte) :
    Statement (.write h index sub expect offset value) :=
  fun w x e => by cases e; revert w; simp +contextual [Instr.wf]
theorem readMulti (h : Hdr) (entries : List (Nat × Nat × Bool)) : Statement (.readMulti h entries) :=
  fun w x e => by cases e; revert w; simp +contextual [Instr.wf]
theorem stewardAcquire (h : Hdr) (index sub : Nat) : Statement (.stewardAcquire h index sub) :=
  fun w x e => by cases e; revert w; simp +contextual [Instr.wf]
theorem stewardRelease (h : Hdr) (index sub : Nat) : Statement (.stewardRelease h index sub) :=
  fun w x e => by cases e; revert w; simp +contextual [Instr.wf]
theorem stewardQuery (h : Hdr) (index sub : Nat) : Statement (.stewardQuery h index sub) :=
  fun w x e => by cases e; revert w; simp +contextual [Instr.wf]
theorem stewardTakeOver (h : Hdr) (index sub : Nat) : Statement (.stewardTakeOver h index sub) :=
  fun w x e => by cases e; revert w; simp +contextual [Instr.wf]
theorem subscribe (h : Hdr) (index sub : Nat) (periodic : Bool) (interval : Nat) :
    Statement (.subscribe h index sub periodic interval) :=
  fun w x e => by cases e; revert w; simp +contextual [Instr.wf]
theorem unsubscribe (h : Hdr) (num : Nat) : Statement (.unsubscribe h num) :=
  fun w x e => by cases e; revert w; simp +contextual [Instr.wf]
theorem notifyPeriodic (seat num drain : Nat) : Statement (.notifyPeriodic seat num drain) := fun _ _ e => by cases e
theorem notifyOnChange (seat num drain : Nat) : Statement (.notifyOnChange seat num drain) := fun _ _ e => by cases e
theorem udpDatagram (x : Datagram) : Statement (.udpDatagram x) := fun _ _ e => by cases e
theorem canSegment (x : CanFrame) : Statement (.canSegment x) := fun _ _ e => by cases e
theorem canSegmentTimeout (c seat mark : Nat) : Statement (.canSegmentTimeout c seat mark) := fun _ _ e => by cases e
theorem canBusOffRecovery (c : Nat) : Statement (.canBusOffRecovery c) := fun _ _ e => by cases e
theorem ptpMessage (x : PtpIn) : Statement (.ptpMessage x) := fun _ _ e => by cases e
theorem ptpAnnounceTimeout : Statement (.ptpAnnounceTimeout) := fun _ _ e => by cases e
theorem ptpOffsetStep : Statement (.ptpOffsetStep) := fun _ _ e => by cases e
theorem seatLeaseExpire (seat : Nat) : Statement (.seatLeaseExpire seat) := fun _ _ e => by cases e
theorem orphanLeaseExpire (seat : Nat) : Statement (.orphanLeaseExpire seat) := fun _ _ e => by cases e
theorem seatForceClose (h : Hdr) (seat : Nat) : Statement (.seatForceClose h seat) :=
  fun w x e => by cases e; revert w; simp +contextual [Instr.wf]
theorem rightsWordWrite (h : Hdr) (area : Nat) (value : Byte) : Statement (.rightsWordWrite h area value) :=
  fun w x e => by cases e; revert w; simp +contextual [Instr.wf]
theorem combinedSubentryWrite (h : Hdr) (index sub : Nat) (value : Int) :
    Statement (.combinedSubentryWrite h index sub value) :=
  fun w x e => by cases e; revert w; simp +contextual [Instr.wf]
theorem transportConfigWrite (h : Hdr) (index sub : Nat) (expect : Expect) (value : Nat) :
    Statement (.transportConfigWrite h index sub expect value) :=
  fun w x e => by cases e; revert w; simp +contextual [Instr.wf]
theorem ptpConfigWrite (h : Hdr) (expect : Expect) (value : Word) : Statement (.ptpConfigWrite h expect value) :=
  fun w x e => by cases e; revert w; simp +contextual [Instr.wf]
theorem markWriteTakesEffect : Statement (.markWriteTakesEffect) := fun _ _ e => by cases e
theorem tapWriteTakesEffect : Statement (.tapWriteTakesEffect) := fun _ _ e => by cases e
theorem immediateWriteApply : Statement (.immediateWriteApply) := fun _ _ e => by cases e
theorem changeHoldoffExpire : Statement (.changeHoldoffExpire) := fun _ _ e => by cases e
theorem commitList (h : Hdr) (expect : Expect) (octets : List Byte) : Statement (.commitList h expect octets) :=
  fun w x e => by cases e; revert w; simp +contextual [Instr.wf]
theorem commitProcess : Statement (.commitProcess) := fun _ _ e => by cases e
theorem commitSwap : Statement (.commitSwap) := fun _ _ e => by cases e
theorem safeSetCapture (h : Hdr) (expect : Expect) (value : Nat) : Statement (.safeSetCapture h expect value) :=
  fun w x e => by cases e; revert w; simp +contextual [Instr.wf]
theorem safeSetCaptureDone : Statement (.safeSetCaptureDone) := fun _ _ e => by cases e
theorem groupStart (o : Source) (g : Nat) : Statement (.groupStart o g) :=
  fun w x e => by
  cases o with
  | host => cases e; revert w; simp +contextual [Instr.wf, Source.wf]
  | block => cases e
theorem groupStop (o : Source) (g : Nat) : Statement (.groupStop o g) :=
  fun w x e => by
  cases o with
  | host => cases e; revert w; simp +contextual [Instr.wf, Source.wf]
  | block => cases e
theorem groupClear (o : Source) (g : Nat) : Statement (.groupClear o g) :=
  fun w x e => by
  cases o with
  | host => cases e; revert w; simp +contextual [Instr.wf, Source.wf]
  | block => cases e
theorem groupSample (g : Nat) (x : SampleIn) : Statement (.groupSample g x) := fun _ _ e => by cases e
theorem softStartTimeout (g : Nat) : Statement (.softStartTimeout g) := fun _ _ e => by cases e
theorem groupRetryTimer (g : Nat) : Statement (.groupRetryTimer g) := fun _ _ e => by cases e
theorem spareLaneTest (pass : Bool) : Statement (.spareLaneTest pass) := fun _ _ e => by cases e
theorem shareTrimAtLimit (p : Nat) : Statement (.shareTrimAtLimit p) := fun _ _ e => by cases e
theorem derateRelease (g : Nat) : Statement (.derateRelease g) := fun _ _ e => by cases e
theorem lockResume (g : Nat) : Statement (.lockResume g) := fun _ _ e => by cases e
theorem lockAtLimit (p k : Nat) : Statement (.lockAtLimit p k) := fun _ _ e => by cases e
theorem ironPeriodEstimate (k candidate peak : Nat) : Statement (.ironPeriodEstimate k candidate peak) :=
  fun _ _ e => by cases e
theorem ironClearMemory (o : Source) (k : Nat) : Statement (.ironClearMemory o k) :=
  fun w x e => by
  cases o with
  | host => cases e; revert w; simp +contextual [Instr.wf, Source.wf]
  | block => cases e
theorem ironRelease (o : Source) (k : Nat) : Statement (.ironRelease o k) :=
  fun w x e => by
  cases o with
  | host => cases e; revert w; simp +contextual [Instr.wf, Source.wf]
  | block => cases e
theorem inputLossClear : Statement (.inputLossClear) := fun _ _ e => by cases e
theorem supportModeExit (g : Nat) : Statement (.supportModeExit g) := fun _ _ e => by cases e
theorem uplinkFrame (p : Nat) (x : UplinkIn) : Statement (.uplinkFrame p x) := fun _ _ e => by cases e
theorem arrivalDeadline (g : Nat) (x : DeadlineIn) : Statement (.arrivalDeadline g x) := fun _ _ e => by cases e
theorem downlinkSlot (n : Nat) : Statement (.downlinkSlot n) := fun _ _ e => by cases e
theorem uplinkSymbolLock (p : Nat) : Statement (.uplinkSymbolLock p) := fun _ _ e => by cases e
theorem assignTimeout (p : Nat) : Statement (.assignTimeout p) := fun _ _ e => by cases e
theorem configuringFail (p : Nat) : Statement (.configuringFail p) := fun _ _ e => by cases e
theorem lostRetrain (p : Nat) : Statement (.lostRetrain p) := fun _ _ e => by cases e
theorem senseConversion (n : Nat) (code : Int) : Statement (.senseConversion n code) := fun _ _ e => by cases e
theorem excursionEpisodeClose : Statement (.excursionEpisodeClose) := fun _ _ e => by cases e
theorem excursionClear (h : Hdr) (expect : Expect) : Statement (.excursionClear h expect) :=
  fun w x e => by cases e; revert w; simp +contextual [Instr.wf]
theorem pressDetectorTrip (n : Nat) : Statement (.pressDetectorTrip n) := fun _ _ e => by cases e
theorem detectorRearm (n : Nat) : Statement (.detectorRearm n) := fun _ _ e => by cases e
theorem pressBurstClose (k : Nat) : Statement (.pressBurstClose k) := fun _ _ e => by cases e
theorem syncinEdge (falling : Bool) (ps : Nat) : Statement (.syncinEdge falling ps) := fun _ _ e => by cases e
theorem syncinLost : Statement (.syncinLost) := fun _ _ e => by cases e
theorem syncHoldExpire : Statement (.syncHoldExpire) := fun _ _ e => by cases e
theorem timebaseGlideDone : Statement (.timebaseGlideDone) := fun _ _ e => by cases e
theorem hangTimePublish : Statement (.hangTimePublish) := fun _ _ e => by cases e
theorem shedSequencerTick : Statement (.shedSequencerTick) := fun _ _ e => by cases e
theorem shedDwellExpire : Statement (.shedDwellExpire) := fun _ _ e => by cases e
theorem shedWarnExpire : Statement (.shedWarnExpire) := fun _ _ e => by cases e
theorem shedGapExpire : Statement (.shedGapExpire) := fun _ _ e => by cases e
theorem restoreGapExpire : Statement (.restoreGapExpire) := fun _ _ e => by cases e
theorem capTick : Statement (.capTick) := fun _ _ e => by cases e
theorem zoneGrant : Statement (.zoneGrant) := fun _ _ e => by cases e
theorem thrHoldExpire (z : Nat) : Statement (.thrHoldExpire z) := fun _ _ e => by cases e
theorem feedStart (o : Source) (z : Nat) : Statement (.feedStart o z) :=
  fun w x e => by
  cases o with
  | host => cases e; revert w; simp +contextual [Instr.wf, Source.wf]
  | block => cases e
theorem feedStop (o : Source) (z : Nat) : Statement (.feedStop o z) :=
  fun w x e => by
  cases o with
  | host => cases e; revert w; simp +contextual [Instr.wf, Source.wf]
  | block => cases e
theorem feedClear (o : Source) (z : Nat) : Statement (.feedClear o z) :=
  fun w x e => by
  cases o with
  | host => cases e; revert w; simp +contextual [Instr.wf, Source.wf]
  | block => cases e
theorem feedClearCaptures (o : Source) (z : Nat) : Statement (.feedClearCaptures o z) :=
  fun w x e => by
  cases o with
  | host => cases e; revert w; simp +contextual [Instr.wf, Source.wf]
  | block => cases e
theorem feedTick (x : Vector FeedIn 16) : Statement (.feedTick x) := fun _ _ e => by cases e
theorem overcurrentTrip (z : Nat) : Statement (.overcurrentTrip z) := fun _ _ e => by cases e
theorem seatDebounceDone (z : Nat) : Statement (.seatDebounceDone z) := fun _ _ e => by cases e
theorem preChargeTimeout (z : Nat) : Statement (.preChargeTimeout z) := fun _ _ e => by cases e
theorem overlapEnd (z : Nat) : Statement (.overlapEnd z) := fun _ _ e => by cases e
theorem mainGateFault (z : Nat) : Statement (.mainGateFault z) := fun _ _ e => by cases e
theorem feedRetryTimer (z : Nat) : Statement (.feedRetryTimer z) := fun _ _ e => by cases e
theorem feedOnTimer (z : Nat) : Statement (.feedOnTimer z) := fun _ _ e => by cases e
theorem seatingFault (z : Nat) : Statement (.seatingFault z) := fun _ _ e => by cases e
theorem stringTick (x : Vector StringIn 8) : Statement (.stringTick x) := fun _ _ e => by cases e
theorem termination (k : Nat) : Statement (.termination k) := fun _ _ e => by cases e
theorem rechargeTimer (k : Nat) : Statement (.rechargeTimer k) := fun _ _ e => by cases e
theorem emptyAnchor (k : Nat) : Statement (.emptyAnchor k) := fun _ _ e => by cases e
theorem countCheckpoint : Statement (.countCheckpoint) := fun _ _ e => by cases e
theorem stringClearFlags (o : Source) (k : Nat) : Statement (.stringClearFlags o k) :=
  fun w x e => by
  cases o with
  | host => cases e; revert w; simp +contextual [Instr.wf, Source.wf]
  | block => cases e
theorem stringRestoreCNom (o : Source) (k : Nat) : Statement (.stringRestoreCNom o k) :=
  fun w x e => by
  cases o with
  | host => cases e; revert w; simp +contextual [Instr.wf, Source.wf]
  | block => cases e
theorem modelStep (x : ChipIn) : Statement (.modelStep x) := fun _ _ e => by cases e
theorem modelInputsInvalid (m : Nat) : Statement (.modelInputsInvalid m) := fun _ _ e => by cases e
theorem inletUnavailable (m : Nat) : Statement (.inletUnavailable m) := fun _ _ e => by cases e
theorem orderUp (o : Source) (k : Nat) : Statement (.orderUp o k) :=
  fun w x e => by
  cases o with
  | host => cases e; revert w; simp +contextual [Instr.wf, Source.wf]
  | block => cases e
theorem orderDown (o : Source) (k : Nat) : Statement (.orderDown o k) :=
  fun w x e => by
  cases o with
  | host => cases e; revert w; simp +contextual [Instr.wf, Source.wf]
  | block => cases e
theorem orderClear (o : Source) (k : Nat) : Statement (.orderClear o k) :=
  fun w x e => by
  cases o with
  | host => cases e; revert w; simp +contextual [Instr.wf, Source.wf]
  | block => cases e
theorem sequencerTick (pgin : Word) : Statement (.sequencerTick pgin) := fun _ _ e => by cases e
theorem railDelayExpire (r : Nat) : Statement (.railDelayExpire r) := fun _ _ e => by cases e
theorem railGood (r : Nat) : Statement (.railGood r) := fun _ _ e => by cases e
theorem railPgTimeout (r : Nat) : Statement (.railPgTimeout r) := fun _ _ e => by cases e
theorem runningRailFault (r : Nat) : Statement (.runningRailFault r) := fun _ _ e => by cases e
theorem resetStretchEnd (r : Nat) : Statement (.resetStretchEnd r) := fun _ _ e => by cases e
theorem railDischarged (r : Nat) : Statement (.railDischarged r) := fun _ _ e => by cases e
theorem railDischargeTimeout (r : Nat) : Statement (.railDischargeTimeout r) := fun _ _ e => by cases e
theorem lintOccurrence (extra : Option (Nat × Nat)) : Statement (.lintOccurrence extra) := fun _ _ e => by cases e
theorem episodeQuietClose : Statement (.episodeQuietClose) := fun _ _ e => by cases e
theorem episodeMaxClose : Statement (.episodeMaxClose) := fun _ _ e => by cases e
theorem snapshotWrite (closing : Bool) : Statement (.snapshotWrite closing) := fun _ _ e => by cases e
theorem lintClear (h : Hdr) (w : Nat) (mask : Word) : Statement (.lintClear h w mask) :=
  fun w x e => by cases e; revert w; simp +contextual [Instr.wf]
theorem safeStateEnd (h : Hdr) (expect : Expect) : Statement (.safeStateEnd h expect) :=
  fun w x e => by cases e; revert w; simp +contextual [Instr.wf]
theorem recordWindowRead (h : Hdr) (offset maxLen : Nat) : Statement (.recordWindowRead h offset maxLen) :=
  fun w x e => by cases e; revert w; simp +contextual [Instr.wf]
theorem captureArm (h : Hdr) (expect : Expect) (c : Nat) : Statement (.captureArm h expect c) :=
  fun w x e => by cases e; revert w; simp +contextual [Instr.wf]
theorem captureTrigger (o : Source) (c : Nat) : Statement (.captureTrigger o c) :=
  fun w x e => by
  cases o with
  | host => cases e; revert w; simp +contextual [Instr.wf, Source.wf]
  | block => cases e
theorem captureDisarm (h : Hdr) (expect : Expect) (c : Nat) : Statement (.captureDisarm h expect c) :=
  fun w x e => by cases e; revert w; simp +contextual [Instr.wf]
theorem captureSample (c : Nat) : Statement (.captureSample c) := fun _ _ e => by cases e
theorem captureWindowFull (c : Nat) : Statement (.captureWindowFull c) := fun _ _ e => by cases e
theorem captureSaved (c : Nat) : Statement (.captureSaved c) := fun _ _ e => by cases e
theorem patchPiece (h : Hdr) (expect : Expect) (offset : Nat) (octets : List Byte) :
    Statement (.patchPiece h expect offset octets) :=
  fun w x e => by cases e; revert w; simp +contextual [Instr.wf]
theorem patchVerify (h : Hdr) (expect : Expect) : Statement (.patchVerify h expect) :=
  fun w x e => by cases e; revert w; simp +contextual [Instr.wf]
theorem patchApply (h : Hdr) (expect : Expect) : Statement (.patchApply h expect) :=
  fun w x e => by cases e; revert w; simp +contextual [Instr.wf]
theorem patchApplyDone : Statement (.patchApplyDone) := fun _ _ e => by cases e
theorem patchDiscard (h : Hdr) (expect : Expect) : Statement (.patchDiscard h expect) :=
  fun w x e => by cases e; revert w; simp +contextual [Instr.wf]
theorem imagePiece (h : Hdr) (expect : Expect) (offset : Nat) (octets : List Byte) :
    Statement (.imagePiece h expect offset octets) :=
  fun w x e => by cases e; revert w; simp +contextual [Instr.wf]
theorem imageWrite (h : Hdr) (expect : Expect) : Statement (.imageWrite h expect) :=
  fun w x e => by cases e; revert w; simp +contextual [Instr.wf]
theorem imageWriteDone : Statement (.imageWriteDone) := fun _ _ e => by cases e
theorem imageDiscard (h : Hdr) (expect : Expect) : Statement (.imageDiscard h expect) :=
  fun w x e => by cases e; revert w; simp +contextual [Instr.wf]
theorem slotWriteConditionStop : Statement (.slotWriteConditionStop) := fun _ _ e => by cases e
theorem fuseRead (h : Hdr) (expect : Expect) : Statement (.fuseRead h expect) :=
  fun w x e => by cases e; revert w; simp +contextual [Instr.wf]
theorem fuseMarginRead (h : Hdr) (expect : Expect) : Statement (.fuseMarginRead h expect) :=
  fun w x e => by cases e; revert w; simp +contextual [Instr.wf]
theorem fuseReadDone (missN missT : Word) : Statement (.fuseReadDone missN missT) := fun _ _ e => by cases e
theorem fuseMarginSweep (weak : List (Nat × Word × Word)) : Statement (.fuseMarginSweep weak) := fun _ _ e => by cases e
theorem baste (h : Hdr) (expect : Expect) : Statement (.baste h expect) :=
  fun w x e => by cases e; revert w; simp +contextual [Instr.wf]
theorem stitch (h : Hdr) (expect : Expect) : Statement (.stitch h expect) :=
  fun w x e => by cases e; revert w; simp +contextual [Instr.wf]
theorem stitchDone (missN missT : Word) : Statement (.stitchDone missN missT) := fun _ _ e => by cases e
theorem ownerLockSet (h : Hdr) (expect : Expect) : Statement (.ownerLockSet h expect) :=
  fun w x e => by cases e; revert w; simp +contextual [Instr.wf]
theorem ownerLockRelease (h : Hdr) (expect : Expect) : Statement (.ownerLockRelease h expect) :=
  fun w x e => by cases e; revert w; simp +contextual [Instr.wf]
theorem presenceWindowOpen : Statement (.presenceWindowOpen) := fun _ _ e => by cases e
theorem presenceWindowExpire : Statement (.presenceWindowExpire) := fun _ _ e => by cases e
theorem presenceEnd (h : Hdr) (expect : Expect) : Statement (.presenceEnd h expect) :=
  fun w x e => by cases e; revert w; simp +contextual [Instr.wf]
theorem jumperFitted : Statement (.jumperFitted) := fun _ _ e => by cases e
theorem jumperRemoved : Statement (.jumperRemoved) := fun _ _ e => by cases e
theorem sealArm (h : Hdr) (expect : Expect) : Statement (.sealArm h expect) :=
  fun w x e => by cases e; revert w; simp +contextual [Instr.wf]
theorem sealCheck (equal : Bool) : Statement (.sealCheck equal) := fun _ _ e => by cases e
theorem twBusRecovery (h : Hdr) (expect : Expect) (t : Nat) : Statement (.twBusRecovery h expect t) :=
  fun w x e => by cases e; revert w; simp +contextual [Instr.wf]
theorem sensorPoll (n : Nat) (scl sda : Bool) : Statement (.sensorPoll n scl sda) := fun _ _ e => by cases e
theorem twTransactionComplete (t : Nat) (x : TwResult) : Statement (.twTransactionComplete t x) := fun _ _ e => by cases e
theorem twSclTimeout (t : Nat) : Statement (.twSclTimeout t) := fun _ _ e => by cases e
theorem twStuckRetry (t : Nat) : Statement (.twStuckRetry t) := fun _ _ e => by cases e
theorem oapWrite (t : Nat) (busy : Bool) (x : BlockIn) (pec : Option Byte) : Statement (.oapWrite t busy x pec) :=
  fun _ _ e => by cases e
theorem oapRead (x : ReadIn) : Statement (.oapRead x) := fun _ _ e => by cases e
theorem page (t : Nat) (x : PageIn) : Statement (.page t x) := fun _ _ e => by cases e
theorem clearFaults (t : Nat) (pec : Option Byte) : Statement (.clearFaults t pec) := fun _ _ e => by cases e
theorem capability (x : ReadIn) : Statement (.capability x) := fun _ _ e => by cases e
theorem voutMode (x : ReadIn) : Statement (.voutMode x) := fun _ _ e => by cases e
theorem statusByte (x : ReadIn) : Statement (.statusByte x) := fun _ _ e => by cases e
theorem statusWord (x : ReadIn) : Statement (.statusWord x) := fun _ _ e => by cases e
theorem statusCml (x : ReadIn) : Statement (.statusCml x) := fun _ _ e => by cases e
theorem readVin (x : ReadIn) : Statement (.readVin x) := fun _ _ e => by cases e
theorem readVout (x : ReadIn) : Statement (.readVout x) := fun _ _ e => by cases e
theorem readIout (x : ReadIn) : Statement (.readIout x) := fun _ _ e => by cases e
theorem readTemperature1 (x : ReadIn) : Statement (.readTemperature1 x) := fun _ _ e => by cases e
theorem readPout (x : ReadIn) : Statement (.readPout x) := fun _ _ e => by cases e
theorem readPin (x : ReadIn) : Statement (.readPin x) := fun _ _ e => by cases e
theorem pmbusRevision (x : ReadIn) : Statement (.pmbusRevision x) := fun _ _ e => by cases e
theorem mfrId (x : ReadIn) : Statement (.mfrId x) := fun _ _ e => by cases e
theorem mfrModel (x : ReadIn) : Statement (.mfrModel x) := fun _ _ e => by cases e
theorem mfrRevision (x : ReadIn) : Statement (.mfrRevision x) := fun _ _ e => by cases e
theorem mfrSerial (x : ReadIn) : Statement (.mfrSerial x) := fun _ _ e => by cases e
theorem targetWriteAbort (t : Nat) : Statement (.targetWriteAbort t) := fun _ _ e => by cases e
theorem targetSclTimeout (t : Nat) (writing : Bool) : Statement (.targetSclTimeout t writing) := fun _ _ e => by cases e
theorem hostNotify (x : NotifyIn) : Statement (.hostNotify x) := fun _ _ e => by cases e
theorem hostNotifyRepeat (x : NotifyIn) : Statement (.hostNotifyRepeat x) := fun _ _ e => by cases e
theorem powerOnReset : Statement (.powerOnReset) := fun _ _ e => by cases e
theorem vddAoLoss : Statement (.vddAoLoss) := fun _ _ e => by cases e
theorem resetNAssert : Statement .resetNAssert := fun _ _ e => by cases e
theorem watchdogExpire : Statement (.watchdogExpire) := fun _ _ e => by cases e
theorem resetCommand (h : Hdr) (expect : Expect) : Statement (.resetCommand h expect) :=
  fun w x e => by cases e; revert w; simp +contextual [Instr.wf]
theorem firmwareResetRequest (migration : Bool) : Statement (.firmwareResetRequest migration) := fun _ _ e => by cases e
theorem startTimerExpire : Statement (.startTimerExpire) := fun _ _ e => by cases e
theorem pllLossOfLock : Statement (.pllLossOfLock) := fun _ _ e => by cases e
theorem warmReset (cause : Nat) : Statement (.warmReset cause) := fun _ _ e => by cases e
theorem warmResetEnd (x : HoldIn) : Statement (.warmResetEnd x) := fun _ _ e => by cases e
theorem pllLock (locked : Bool) (refin : Nat) (weak : List (Nat × Word)) : Statement (.pllLock locked refin weak) :=
  fun _ _ e => by cases e
theorem slotVerified : Statement (.slotVerified) := fun _ _ e => by cases e
theorem startedCheckpoint : Statement (.startedCheckpoint) := fun _ _ e => by cases e
theorem benchExitButton : Statement (.benchExitButton) := fun _ _ e => by cases e
theorem benchExitTrial : Statement (.benchExitTrial) := fun _ _ e => by cases e
theorem powerFailWarning (cut : Option Nat) : Statement (.powerFailWarning cut) := fun _ _ e => by cases e
theorem aoOscMeasure (hz : Nat) : Statement (.aoOscMeasure hz) := fun _ _ e => by cases e
theorem taggedMark : Statement (.taggedMark) := fun _ _ e => by cases e
theorem twRecoveryEnd (t : Nat) (sda : List Bool) : Statement (.twRecoveryEnd t sda) := fun _ _ e => by cases e
theorem watchdogService : Statement (.watchdogService) := fun _ _ e => by cases e
theorem aliveToggle : Statement (.aliveToggle) := fun _ _ e => by cases e
theorem syncoutEdge (rise : Bool) : Statement (.syncoutEdge rise) := fun _ _ e => by cases e
theorem identifyDelayedReply (port : Nat) : Statement (.identifyDelayedReply port) := fun _ _ e => by cases e

end Laws.Header
end Sys2Proof
end

