-- ==== Sys2Proof/Machine/Pins.lean ====
section
/-!
DEFINITION. Levels of the output pins that follow from the state (R277, R359, R453, R454, R463); LKn_TX, SYNCOUT, the feed
gates and ALIVE are fields of the state, FDn_THR is `State.thrPin`.
-/
namespace Sys2Proof.Machine
set_option Elab.async false

namespace State

/-- EN r: high impedance until the configuration is loaded (R277, Table 16-4). -/
def enPin (s : State) (r : Nat) : Option Bool := if s.seq.driven then some (s.enLevel r) else none

/-- RSTO j: high impedance until the configuration is loaded (R277, Table 16-4). -/
def rstoPin (s : State) (j : Nat) : Option Bool := if s.seq.driven then some (s.rstoLevel j) else none

/-- SAFE_N pulls low while safe state holds and is released otherwise (R463). -/
def safePin (s : State) : Option Bool := if s.lint.safe then some false else none

/-- CANc_STB is low while the controller serves OAP, in normal running or in bench mode, and high otherwise (R463). -/
def canStandby (s : State) (c : Nat) : Bool :=
  !((s.boot.phase == .serving || s.boot.phase == .bench) && bitAt (s.canWord c) 0)

/-- SEAL_A: the output of the sequence (R359). -/
def sealPin (s : State) : Bool := bitAt s.tamper.seq 0

/-- What LKn_TX carries in the present slot: electrical idle in reset, and until hardware-run or the serving firmware runs the
links (Table 16-4). -/
def linkPin (s : State) (p : Nat) : Option SlotContent :=
  if s.boot.phase == .held || !s.linksRun then none else some (s.port p).tx

end State
end Sys2Proof.Machine
end

