-- ==== Sys2Proof/Tests/Slice0.lean ====
section
/-!
SUPPORT. The model's own tests: the spec's worked examples, refused ill-formed commands, and for every statement with
hypotheses a concrete state that meets them.
-/
namespace Sys2Proof.Tests
open Machine
set_option Elab.async false

/-! ### Helpers -/

/-- A part that serves, 10 s after its start, with the service jumper fitted. -/
def live : State := { State.reset with
  boot := { phase := .serving, powerOn := false, locked := true, checkpoint := true }
  score := { firmware := true }
  clock := { grid := 20000000, slots := 20000000, up := 4000000000, shelf := 4000000000 }
  presence := { jumper := true } }

/-- A host on UDP with seat 0 of class 2 and session 7. -/
def udp : HostId := { code := 1, port := 0, addr := 1 }
def hdr : Hdr := { host := udp, mark := 47730, seat := 0, session := 7, tag := 5 }
def openSeat0 : SeatRun := { phase := .opened, cls := 2, host := udp, session := 7, lease := 100, leaseAt := 4000000000 }

/-- The part with seat 0 open, which holds a stewardship. -/
def desk (s : State) (index sub : Nat) : State :=
  { s with seats := Vector.ofFn (fun k => if k.val = 0 then { openSeat0 with stews := [(index, sub)] } else {}) }

/-- `Taken`, `Admitted` and `AdmittedPut` as evaluated checks. -/
def taken (s : State) (h : Hdr) : Bool :=
  s.boot.phase == .serving && decide (h.seat < 8) && s.sessionOk h.seat h.session && (h.host.code == 1 || h.host.code == 2) &&
  !h.toAll && (!h.busy && decide (s.unanswered h.seat < 8)) && (s.seat h.seat).replay.all (fun x => x.tag != h.tag)
def admits (s : State) (h : Hdr) (e : Expect) (index sub : Nat) (bs : List Byte) : Bool :=
  taken s h && (match e with | some x => decide (x.1 < 48) | none => true) &&
  (match s.writeCheck h.seat index sub e bs with | .ok _ => true | .error _ => false)
def admitsPut (s : State) (h : Hdr) (e : Expect) (index sub : Nat) (v : Int) : Bool := admits s h e index sub (putOctets index sub v)

theorem taken_ok {s : State} {h : Hdr} (t : taken s h = true) : Taken s h := by
  simp only [taken, Bool.and_eq_true, beq_iff_eq, decide_eq_true_eq, Bool.or_eq_true, Bool.not_eq_true', List.all_eq_true,
    bne_iff_ne] at t
  obtain ⟨⟨⟨⟨⟨⟨a, b⟩, c⟩, d⟩, e⟩, f⟩, g⟩ := t
  exact ⟨a, b, c, d, e, f, g⟩

theorem admits_ok {s : State} {h : Hdr} {e : Expect} {index sub : Nat} {bs : List Byte} (t : admits s h e index sub bs = true) :
    Admitted s h e index sub bs := by
  simp only [admits, Bool.and_eq_true] at t
  obtain ⟨⟨a, b⟩, c⟩ := t
  refine ⟨taken_ok a, ?_, ?_⟩
  · rintro p x rfl; simpa using b
  · cases hx : s.writeCheck h.seat index sub e bs with
    | ok x => exact ⟨x, rfl⟩
    | error y => simp [hx] at c

theorem admitsPut_ok {s : State} {h : Hdr} {e : Expect} {index sub : Nat} {v : Int} (t : admitsPut s h e index sub v = true) :
    AdmittedPut s h e index sub v := admits_ok t

theorem test_adm : AdmittedPut (desk live (Family.feed.index 3 2) 1) hdr none (Family.feed.index 3 2) 1 1 :=
  admitsPut_ok (by decide +kernel)

/-! ### Worked examples of the manual -/

/-- The state after a command. -/
def after (c : Instr) (s : State) : State := match Machine.exec c s with | .next t => t | _ => State.reset

/-- One sample of arithmetic of chapter 2: an error of 10 mV with IN_FS 8,000 mV, b0 = 489,173, and the ramp of Table 02-2. -/
theorem test_error_and_rounding : errQ23 (65536 * 54000) 53990 8000 false = 10486 ∧ accToQ23 (489173 * 10486) = 1223 := by decide
theorem test_ramp : rampMove (65536 * 52800) (65536 * 53500) 2000 2 = 65536 * 52802 ∧
    rampMove (65536 * 53499) (65536 * 53500) 2000 2 = 65536 * 53500 := by decide
/-- 250,000 Hz gives INC 0x2000_0000 (chapter 3); 54.0 V through a divider of 30:1 is 1.8 V at the pins. -/
theorem test_inc : incOf 250000 = 0x20000000 := by decide
theorem test_pins : pinUv { div := 30000 } 54000 = 1800000 := by decide

/-- Table 05-18: the uplink frame of SP0 with its CRC, and what the TF4812 reads from it. -/
def table0518 : UplinkIn :=
  { octets := [0xBC, 0x41, 0x13, 0xA4, 0x34, 0xF8, 0x35, 0x2A, 0, 0, 0, 0, 0x69, 0x76, 0x9C, 0x40, 0x00, 0x60, 0x01, 0xEA, 0x13, 0x88, 0xCB, 0x57],
    arrival := 50000, last := 300000 }
/-- SP0 with two phases and role epoch 1, trained, at G = 0x3A4. -/
def sp0 : State := { live with
  clock := { live.clock with grid := 0x3A4 }
  active := { live.active with ports := vmod live.active.ports 0 (fun b => { b with cfg := 0x00010130 })
                               groups := vmod live.active.groups 0 (fun b => { b with core := { b.core with cfg := 0x01000000 } }) }
  ports := vmod live.ports 0 (fun r => { r with link := .trained, epoch := 1 }) }
theorem test_uplink_frame : let t := after (.uplinkFrame 0 table0518) sp0
    t.iout 0 = 271700 ∧ (t.port 0).up.vout = 53996 ∧ (t.port 0).up.vin = 400000 ∧ (t.port 0).up.line = 5000 := by decide +kernel
/-- Table 05-19: the command frame of the next slot. -/
theorem test_downlink_frame : { sp0 with clock := { sp0.clock with grid := 0x3A5 } }.downFrame 1 1
    ([0x6978EC, 0x6978EE, 0, 0].flatMap (fun w : Nat => beBytes 3 w)) none =
    [0x10, 0x13, 0xA5, 0x69, 0x78, 0xEC, 0x69, 0x78, 0xEE, 0, 0, 0, 0, 0, 0, 0, 0, 0x98, 0xB1] := by decide +kernel

/-- Chapter 7: −1,000,000 native units on a 100 µΩ shunt are −100 mC in one tick. -/
theorem test_string_charge : (({} : StringRun).count {} { native := -1000000, bsv := 52000 }).a = -100 ∧
    (({} : StringRun).count {} { native := -1000000, bsv := 52000 }).current = -100000 := by decide
/-- Chapter 10: 357.93 W at 271.6 A and 400 V with K0 = 30,000, K2 = 1,500 and K3 = 2,000. -/
theorem test_model_loss : lossOf { k0 := 30000, k2 := 1500, k3 := 2000 }
    { v := 400000, nV := 1, iAbs := 271600, iSq := 271600 * 271600, nI := 1 } / 10000 = 35792 := by decide

/-- Table 12-20: S2's cap write on CAN FD, its response, and the request in force from the next 100 µs mark on. -/
def table1220 : CanFrame :=
  { ctrl := 0, ident := 0x08340780,
    octets := [0x01, 0x11, 0x02, 0x00, 0x00, 0x00, 0x31, 0x5A, 0x07, 0x00, 0x10, 0x00, 0x00, 0x21, 0x03, 0x00, 0xFF, 0x00, 0x00, 0x00,
               0x00, 0x00, 0x00, 0x00, 0x00, 0xE2, 0x04, 0x00, 0x00, 0x00, 0x00, 0x00] }
def capSession : State := { live with
  cfg := { live.cfg with cans := vmod live.cfg.cans 0 (fun c => { c with word := 0x03002101 }) }
  seats := vmod live.seats 2 (fun _ => { openSeat0 with cls := 1, host := { code := 2, port := 0 }, session := 0x5A31 }) }
theorem test_can_write : let t := after (.canSegment table1220) capSession
    vget (after .markWriteTakesEffect { t with clock := { t.clock with grid := 20000200, slots := 20000200 } }).cfg.capShelf 2 0 = 320000 ∧
    t.out.any (fun o => match o with
      | .reply r => r.host == { code := 2, port := 0 } && r.mark == 7 &&
          r.octets == [0x01, 0x91, 0x02, 0x00, 0x00, 0x00, 0x31, 0x5A, 0x07, 0x00, 0x00, 0x00]
      | _ => false) = true := by decide +kernel

/-- Table 15-5: READ_VOUT over TT0 with 54,000 mV on SN0: 0x6C00, PEC 0xF8. -/
theorem test_read_vout : (after (.readVout ⟨0, true⟩) { live with senses := vmod live.senses 0 (fun r => { r with y := 54000 }) }).out =
    [Sent.target 0 [0x00, 0x6C, 0xF8]] := by decide +kernel

/-- The changes that the witnesses make to one unit. -/
def seat (s : State) (k : Nat) (r : SeatRun) : State := s.onSeat k (fun _ => r)

/-! ### Witnesses: the queue, the invariant, footprints -/

theorem witness_StepRunsTheFrontCommand : live.pending = [] := rfl

/-- A part with an open seat, a stewardship and a subscription has the invariant. -/
def busy : State := seat live 7 { openSeat0 with
  stews := [(0x3002, 1)], subs := [{ num := 31, index := 0x1000, sub := 1, periodic := true, interval := 10000, sentAt := 0, last := [] }] }

theorem witness_EveryStepKeepsInv : busy.Inv ∧ ∃ t, Machine.step { busy with pending := [.jumperRemoved] } = .next t := by
  refine ⟨⟨?_, ?_, ?_⟩, _, rfl⟩
  · intro k hk
    interval_cases k <;>
      first
      | exact ⟨by decide, by decide, by decide, by decide, by decide, fun _ => by decide, fun h => absurd h (by decide)⟩
      | exact ⟨by decide, by decide, by decide, by decide, by decide, fun h => absurd h (by decide), fun _ => by decide⟩
  · intro j k p hj hk
    interval_cases j <;> interval_cases k <;> simp [busy, seat, live, State.seat, State.onSeat, State.reset, vmod, vget]
  · intro t ht; interval_cases t <;> decide

theorem witness_EveryCommandStaysInItsFootprint : ∃ t, Machine.exec .jumperFitted State.reset = .next t := ⟨_, rfl⟩
theorem witness_FusesOnlyBurn : ∃ t, Machine.step { live with pending := [.sealCheck false] } = .next t := ⟨_, rfl⟩
theorem witness_NothingRunsInReset : onLogicDie .capTick = true ∧ State.reset.boot.phase = .held := by decide
theorem witness_LocateInvertsIndex : (Family.twPort, 0xA000, 1, 4, 0) ∈ dictionaryMap ∧ 3 < 4 ∧ 0 ≤ 0 := by decide +kernel

/-! ### Witnesses: seats and requests -/

theorem witness_SeatRequestsComplete :
    (live.boot.phase = .serving ∧ (live.seat 7).phase = .free ∧ live.openOk 7 2 udp = true ∧ 10 ≤ 2550) ∧
    Taken (desk live 0x1100 1) hdr :=
  ⟨by decide +kernel, taken_ok (by decide +kernel)⟩

theorem witness_ReadsComplete : Taken (desk live 0x1100 1) hdr ∧
    (∃ x, (desk live 0x1100 1).readCheck 0 0x1000 5 = .ok x ∧ x.row.ty.size.isSome = true) ∧
    (∃ x, (desk live 0x1100 1).readCheck 0 0x1000 2 = .ok x ∧ x.row.ty.size = none ∧ x.fam ≠ .window ∧
      0 ≤ (((desk live 0x1100 1).arrived hdr).octets 0 false x).length) ∧
    (12 + ([(0x1000, 1, false)].flatMap (multiEntry ((desk live 0x1100 1).arrived hdr) 0)).length ≤ limitOf udp) ∧
    ∃ x, (desk live 0x1100 1).readCheck 0 0x8802 1 = .ok x ∧ 0 ≤ (((desk live 0x1100 1).window 0).flatMap Record.octets).length :=
  ⟨taken_ok (by decide +kernel), ⟨_, rfl, by decide +kernel⟩, ⟨_, rfl, by decide +kernel⟩, by decide +kernel, _, rfl, Nat.zero_le _⟩

theorem witness_StewardshipsComplete : Taken (desk live 0x2040 1) hdr ∧ (locate 0x2040).isSome = true ∧
    (anyObject? 0x2040 1).isSome = true ∧ State.stewardSubs 0x2040 1 ≠ [] ∧ State.stewardSubs 0x2040 255 ≠ [] ∧
    (let s := desk live 0x2040 1
     s.hasRight (s.seat 0).cls 0x2040 true = true ∧ s.acquireOk 0 0x2040 (State.stewardSubs 0x2040 255) = true ∧
     s.grantFits 0 0x2040 (State.stewardSubs 0x2040 255) = true ∧ s.releaseOk 0 0x2040 (State.stewardSubs 0x2040 1) = true ∧
     (s.seat 0).cls = 2 ∧ s.present = true) :=
  ⟨taken_ok (by decide +kernel), by decide +kernel⟩

def hdr7 : Hdr := { hdr with seat := 7 }
theorem witness_SubscriptionsComplete : Taken busy hdr7 ∧ busy.busOff hdr7.host = false ∧
    [(0x1000, 1), (0x1107, 255)].all (fun i =>
      let xs := if i.2 = 255 then objectsOf i.1 else (anyObject? i.1 i.2).toList
      (locate i.1).isSome && !xs.isEmpty && busy.mayReadAll 7 i.1 i.2 &&
        xs.all (fun x => x.row.ty != .domain && (i.2 == 255 || x.row.acc != .wo))) = true ∧
    (List.range 32).find? (fun n => (busy.subscription? 7 n).isNone) = some 0 ∧
    ∃ x, busy.subscription? 7 31 = some x ∧ x.periodic = true ∧ x.interval ≤ elapsedAo busy x.sentAt :=
  ⟨taken_ok (by decide +kernel), by decide +kernel, by decide +kernel, by decide +kernel, _, rfl, by decide +kernel⟩

/-- A lease of 10 s that ends at this instant. -/
def late (p : SeatPhase) : State := seat live 7 { openSeat0 with phase := p, leaseAt := 0 }
theorem witness_SeatsClose : ((late .opened).seat 7).phase = .opened ∧ (late .opened).leaseOver 7 = true ∧
    ((late .orphaned).seat 7).phase = .orphaned ∧ (late .orphaned).leaseOver 7 = true ∧
    AdmittedPut (seat (desk live (Family.seat.index 7 0) 12) 7 { openSeat0 with session := 9 }) hdr none (Family.seat.index 7 0) 12 1 :=
  ⟨by decide, by decide, by decide, by decide, admitsPut_ok (by decide +kernel)⟩

theorem witness_HostSettingsTakeEffect : AdmittedPut (desk live 0x1120 24) hdr none 0x1120 24 0x0F ∧
    live.bootRec.ownerLock = false ∧
    (∃ x, anyObject? 0x1120 24 = some x ∧ ((desk live 0x1120 24).arrived hdr).settingRefused x 0x0F = none) ∧
    AdmittedPut (desk live 0x1201 1) hdr none 0x1201 1 0x02080001 ∧
    (∃ x, anyObject? 0x1201 1 = some x ∧ ((desk live 0x1201 1).arrived hdr).settingRefused x 0x02080001 = none ∧
      0x02080001 < 2 ^ (8 * x.row.ty.size.getD 0) ∧ (desk live 0x1201 1).cfg.get? x.fam x.unit x.off x.sub ≠ some 0x02080001) ∧
    AdmittedPut (desk live 0x1300 2) hdr none 0x1300 2 1 ∧
    ∃ x, anyObject? 0x1300 2 = some x ∧ ((desk live 0x1300 2).arrived hdr).settingRefused x 1 = none ∧
      (desk live 0x1300 2).cfg.ptpWord ≠ 1 :=
  ⟨admitsPut_ok (by decide +kernel), rfl, ⟨_, rfl, by decide +kernel⟩, admitsPut_ok (by decide +kernel),
    ⟨_, rfl, by decide +kernel⟩, admitsPut_ok (by decide +kernel), _, rfl, by decide +kernel⟩

/-- Channel 127 in an armed commit. -/
def frozen127 : State := { desk live 0x47F0 2 with commits :=
    { armed := some { list := { seat := 0, ticket := 0, octets := [] }, blocks := [127], swapAt := 30000000, period := 2 } } }
/-- The value hypotheses of a write, for the object at an index. -/
def fits (index sub n : Nat) (v : Int) : Bool :=
  match anyObject? index sub with
  | some x => x.row.ty.size == some n && (x.row.ty.encode v).length == n && x.row.ty.decode (x.row.ty.encode v) == v
  | none => false

theorem witness_WritesAct :
    (AdmittedPut (desk live 0x47F0 2) hdr none 0x47F0 2 0x1000 ∧ fits 0x47F0 2 2 0x1000 = true ∧
      ∃ x, anyObject? 0x47F0 2 = some x ∧ x.row.kind = .staged ∧ (desk live 0x47F0 2).frozen ((x.fam.block? x.unit).getD 0) = false ∧
        lockedMask x.fam x.off x.sub = 0) ∧
    (AdmittedPut frozen127 hdr none 0x47F0 2 0x1000 ∧
      ∃ x, anyObject? 0x47F0 2 = some x ∧ frozen127.frozen ((x.fam.block? x.unit).getD 0) = true) ∧
    (AdmittedPut (desk live 0x7804 1) hdr none 0x7804 1 (-4000) ∧ fits 0x7804 1 2 (-4000) = true ∧
      ∃ x, anyObject? 0x7804 1 = some x ∧ x.row.kind = .immediate ∧ rowOk x (-4000) = true ∧ x.fam ≠ .channel) ∧
    (AdmittedPut (desk live 0x5000 2) hdr none 0x5000 2 10 ∧
      ∃ x, anyObject? 0x5000 2 = some x ∧ x.row.kind = .mark ∧ x.fam ≠ .rail ∧ x.fam ≠ .capture ∧
        ((desk live 0x5000 2).arrived hdr).settingRefused x 10 = none) ∧
    (AdmittedPut (desk live 0x2040 1) hdr none 0x2040 1 0 ∧ fits 0x2040 1 4 0 = true ∧
      ∃ x, anyObject? 0x2040 1 = some x ∧ x.row.kind = .tap ∧ ((desk live 0x2040 1).arrived hdr).settingRefused x 0 = none) ∧
    AdmittedPut (desk live 0x211F 1) hdr none 0x211F 1 2147483647 ∧ fits 0x211F 1 4 2147483647 = true :=
  ⟨⟨admitsPut_ok (by decide +kernel), by decide +kernel, _, rfl, by decide +kernel⟩,
    ⟨admitsPut_ok (by decide +kernel), _, rfl, by decide +kernel⟩,
    ⟨admitsPut_ok (by decide +kernel), by decide +kernel, _, rfl, by decide +kernel⟩,
    ⟨admitsPut_ok (by decide +kernel), _, rfl, by decide +kernel⟩,
    ⟨admitsPut_ok (by decide +kernel), by decide +kernel, _, rfl, by decide +kernel⟩,
    admitsPut_ok (by decide +kernel), by decide +kernel⟩

theorem witness_ExpectedEpochIsCompared : Admitted (desk live 0x35E0 1) hdr none 0x35E0 1 [0] ∧
    24 + [(0 : Byte)].length ≤ limitOf udp ∧ ((desk live 0x35E0 1).port 47).epoch ≠ 1 :=
  ⟨admits_ok (by decide +kernel), by decide +kernel⟩

/-! ### Witnesses: transports, time, commits -/

/-- A KEEPALIVE of seat 0, session 7, tag 5. -/
def keepalive : List Byte := [0x01, 0x04, 0, 0, 0, 0, 7, 0, 5, 0, 0, 0]
def datagram (bs : List Byte) : Datagram := { port := 0, source := 1, srcPort := 47730, dstPort := 47730, octets := bs }
theorem witness_DatagramsArrive : live.boot.phase = .serving ∧ bitAt (live.t1sWord 0) 0 = true ∧ live.udpPort 0 = 47730 ∧
    (datagram (keepalive.take 11)).octets.length < 12 ∧ Taken (desk live 0x1100 1) hdr ∧
    (datagram keepalive).octets = [0x01, 0x04, BitVec.ofNat 8 hdr.seat, 0, 0, 0] ++ leBytes 2 hdr.session.toNat ++ leBytes 2 hdr.tag ++ [0, 0] :=
  ⟨rfl, by decide +kernel, by decide +kernel, by decide, taken_ok (by decide +kernel), by decide +kernel⟩
def reply0 : Reply := { host := udp, mark := 1, op := 0x81, seat := 0, status := 0, reason := 0, session := 0, tag := 0, body := [] }
def multicast : State := live.onT1s 1 (fun r => { r with delayed := [reply0] })
theorem witness_DatagramsArrive_delayed : (vget multicast.t1s 1 {}).delayed = [reply0] := by decide +kernel

/-- Segment 0 of message 9 of seat `k` to node 1 on controller 0, which is enabled there; `last` is the LAST bit. -/
def canOn : State := { live with cfg := { live.cfg with cans := vmod live.cfg.cans 0 (fun c => { c with word := 0x01002101 }) } }
def frame (last : Bool) (bs : List Byte) : CanFrame :=
  { ctrl := 0, ident := BitVec.ofNat 29 (4 * 2 ^ 25 + 1 * 2 ^ 20 + 9 * 2 ^ 8 + (if last then 128 else 0)), octets := bs }
def canHdr : Hdr := { host := { code := 2, port := 0 }, mark := 9, seat := 0, session := 7, tag := 5 }
theorem witness_CanFramesArrive : bitAt (canOn.canWord 0) 0 = true ∧ bitsOf (frame true []).ident 28 25 = 4 ∧
    bitsOf (frame true []).ident 24 20 = bitsOf (canOn.canWord 0) 28 24 ∧ bitsOf (frame true []).ident 6 0 = 0 ∧
    canOn.partial? 0 0 9 = none ∧ (frame true []).errors < 2 ∧ (vget canOn.cans 0 {}).errorState ≠ 2 ∧ (List.replicate 64 (0 : Byte)).length = 64 ∧ bitAt (frame false []).ident 7 = false ∧
    bitAt (frame true []).ident 7 = true ∧ bitsOf (frame true []).ident 19 17 = 0 ∧ bitsOf (frame true []).ident 15 8 = 9 ∧
    taken (desk canOn 0x1100 1) canHdr = true := by decide +kernel
def half : CanPartial := { seat := 7, mark := 255, segs := 1, octets := [], at' := 0 }
def partials : State := live.onCan 1 (fun r => { r with partials := [half] })
theorem witness_CanFramesArrive_leave : 15 < 16 ∧ 31 < 32 ∧ 7 < 8 ∧ 255 < 256 ∧
    (List.replicate 1280 (0 : Byte)).length ≤ 1280 ∧ 64 * 19 < (List.replicate 1280 (0 : Byte)).length := by decide +kernel
/-- Controller 0 in bus-off. -/
def busOff0 : State := canOn.onCan 0 (fun r => { r with errorState := 2 })
theorem witness_CanFramesArrive_errors : bitAt (busOff0.canWord 0) 0 = true ∧ (vget busOff0.cans 0 {}).errorState = 2 ∧
    2 ≤ ({ frame true [] with errors := 2 } : CanFrame).errors := by decide +kernel
theorem witness_CanFramesArrive_timeout : partials.partial? 1 7 255 = some half ∧ 400 * 50000 < partials.clock.up - half.at' := by
  decide +kernel

/-- PTP over UDP on port 0, domain 0. -/
def ptp (r : PtpRun) : State :=
  { live with ptp := r, cfg := { live.cfg with ptpWord := 5, t1s := vmod live.cfg.t1s 0 (fun c => { c with word := 0xFF080001 }) } }
def hear (b : PtpBody) : PtpIn := { port := 0, transport := 1, domain := 0, body := b }
theorem witness_ClockFollowsItsTimeTransmitter :
    (ptp { phase := .listening }).ptpHears (hear (.announce 1 [] 2000000)) = true ∧
    (1, 3998000000) ∈ (ptp { foreign := [(1, 3998000000)] }).ptp.foreign ∧
    elapsedAo (ptp {}) 3998000000 ≤ 4 * 2000000 ∧ State.better [1] [2] = true ∧ State.better [2] [1] = false ∧
    (ptp { phase := .locked }).ptpHears (hear (.sync 0 3 false 0 1000000)) = true ∧
    (ptp { phase := .uncalibrated }).ptpHears (hear (.sync 0 3 false 0 1000001)) = true ∧
    (ptp { phase := .locked, sync := some (3, 9) }).ptpHears (hear (.followUp 0 3 0)) = true ∧
    (ptp { phase := .locked, request := some 4 }).ptpHears (hear (.delayResp 0 4 0 0)) = true ∧
    3 * 2000000 ≤ elapsedAo (ptp {}) 0 ∧ elapsedAo (ptp {}) 3999000000 < 3 * 2000000 ∧
    (ptp { phase := .locked, farFrom := some 0 }).ptp.farFrom = some 0 ∧
    10000000 ≤ elapsedAo (ptp { phase := .locked, farFrom := some 0 }) 0 := by decide +kernel

/-- Blocks: group 31 and feed 15, in a list of seat 0 that waits, or that is armed for this instant. -/
def blocks : List Nat := [0x101F, 0x300F]
def listOf (bs : List Byte) : CommitList := { seat := 0, ticket := 0, octets := bs }
def listed (bs : List Byte) : State := { desk live 0x20F0 1 with commits := { queue := [listOf bs] } }
def armed (at' : Nat) : State :=
  { desk live 0x20F0 1 with commits := { armed := some { list := listOf [], blocks := blocks, swapAt := at', period := 2 } } }
theorem witness_CommitsAndCaptures_list : Admitted (desk live 0x20F0 1) hdr none 0x20F0 1 [0x1F, 0x10] ∧
    24 + ([0x1F, 0x10] : List Byte).length ≤ limitOf udp :=
  ⟨admits_ok (by decide +kernel), by decide +kernel⟩
theorem witness_CommitsAndCaptures_queue : parseList [] = none ∧
    (parseList [0x1F, 0x10, 0x0F, 0x30]).isSome = true ∧
    (listed []).commits.armed = none ∧ ((listed []).seat 0).ticket = (listOf []).ticket ∧
    (armed 20000000).commits.armed.isSome = true ∧ 20000000 ≤ (armed 20000000).clock.grid ∧
    ((armed 20000000).clock.grid - 20000000) % 2 = 0 ∧ (armed 20000001).clock.grid < 20000001 ∧
    ((armed 20000000).seat 0).ticket = 0 := by decide +kernel

/-- A capture of the safe set that is being written into copy A. -/
def capturing : State := { desk live 0 0 with safeSet :=
    { writing := some true, copyA := some { seq := 1, banks := {}, cfg := {}, hwMode := 0, groups := 0, feeds := 0, orders := 0, cEff := 0 } } }
theorem witness_CommitsAndCaptures : AdmittedPut (desk live (Family.safeSet.index 0 0) 2) hdr none (Family.safeSet.index 0 0) 2 1 ∧
    (desk live 0 0).commits.armed = none ∧
    (∀ w, w < 16 → (desk live 0 0).shadowOf (96 + w) = vget (desk live 0 0).fuses.burned (96 + w) 0) ∧
    capturing.boot.phase ≠ .held ∧ capturing.safeSet.writing = some true ∧ capturing.safeSet.copyA.isSome = true :=
  ⟨admitsPut_ok (by decide +kernel), rfl, by decide +kernel, by decide +kernel⟩

/-- Writes that wait since an instant before their mark, tap boundary or boundary: a setting, a zone word, the signal list of
capture 7, a flattening setting, a feed field and an inlet of model 64; and a held change. -/
def waitsFor (index sub : Nat) : Waiting := { index := index, sub := sub, value := 5, list := [1, 2], at' := 0 }
def markWaits (w : Waiting) : State := { live with commits := { marks := [w] } }
def tapWaits (w : Waiting) : State := { live with flat := { taps := 1 }, commits := { taps := [w] } }
def immWaits (w : Waiting) : State :=
  { live with commits := { imm := [w] }, models := vmod live.models 64 (fun r => { r with hostNew := some 9 }) }
theorem witness_WaitingWritesTakeEffect :
    [waitsFor 0x5000 2, waitsFor (Family.zone.index 15 0) 1, waitsFor (Family.capture.index 7 0) 2].all (fun w =>
      (markWaits w).commits.marks.filter (fun w => (markWaits w).markPassed w.at') == [w] && (object? w.index w.sub).isSome) = true ∧
    (object? (Family.zone.index 15 0) 1).any (fun x => x.fam == .zone && x.unit == 15) = true ∧
    (object? (Family.capture.index 7 0) 2).any (fun x => x.fam == .capture && x.sub == 2 && x.unit == 7) = true ∧
    (object? 0x5000 2).any (fun x => x.fam != .zone && x.fam != .capture) = true ∧
    (tapWaits (waitsFor 0x2040 1)).commits.taps.filter (fun w => decide (w.at' < 1)) = [waitsFor 0x2040 1] ∧
    (object? 0x2040 1).any (fun x => x.fam == .flat) = true ∧
    [waitsFor 0x7804 1, waitsFor (Family.soakModel.index 64 4) 1].all (fun w =>
      (immWaits w).commits.imm.filter (immWaits w).boundaryPassed == [w] && (object? w.index w.sub).isSome) = true ∧
    ((immWaits (waitsFor 0x7804 1)).model 64).hostNew = some 9 := by decide +kernel
def held1 : ChangeHold := { index := 0x7804, sub := 1, origin := [], lastAt := 0, count := 2, old := [0], new := [1], len := 1, time := 7, episode := 0 }
def holding : State := { live with score := { live.score with holds := [held1] } }
theorem witness_WaitingWritesTakeEffect_holds : holding.fw = true ∧ holding.score.stopped = false ∧
    holding.score.holds.filter holding.holdDue = [held1] ∧ held1.count ≠ 0 := by decide +kernel

/-! ### Ill-formed commands are refused -/

/-- Commands by the number they carry, with the bound that the number must lie below. -/
def bounded : List (Nat × List (Nat → Instr)) := [
  (256, [
    (.openSeat hdr · 0), (.read hdr 0 · false 0 0), (.write hdr 0 · none 0 []), (.stewardAcquire hdr 0 ·),
    (.stewardRelease hdr 0 ·), (.stewardQuery hdr 0 ·), (.stewardTakeOver hdr 0 ·), (.subscribe hdr 0 · false 0),
    (.unsubscribe hdr ·), (.notifyPeriodic 0 · 0), (.notifyOnChange 0 · 0), (.canSegmentTimeout 0 0 ·),
    (.combinedSubentryWrite hdr 0 · 0), (.transportConfigWrite hdr 0 · none 0), (.safeSetCapture hdr none ·)]),
  (65536, [
    (.openSeat hdr 0 ·), (.read hdr · 0 false 0 0), (.read hdr 0 0 false 0 ·), (.write hdr · 0 none 0 []),
    (.stewardAcquire hdr · 0), (.stewardRelease hdr · 0), (.stewardQuery hdr · 0), (.stewardTakeOver hdr · 0),
    (.subscribe hdr · 0 false 0), (.combinedSubentryWrite hdr · 0 0), (.transportConfigWrite hdr · 0 none 0),
    (.recordWindowRead hdr 0 ·)]),
  ((2 ^ 32), [
    (.read hdr 0 0 false · 0), (.write hdr 0 0 none · []), (.subscribe hdr 0 0 false ·),
    (.transportConfigWrite hdr 0 0 none ·), (.recordWindowRead hdr · 0), (.patchPiece hdr none · []),
    (.imagePiece hdr none · [])]),
  (8, [
    (.notifyPeriodic · 0 0), (.notifyOnChange · 0 0), (.canSegmentTimeout 0 · 0), (.seatLeaseExpire ·), (.orphanLeaseExpire ·),
    (.seatForceClose hdr ·), (.pressDetectorTrip ·), (.detectorRearm ·), (.termination ·), (.rechargeTimer ·),
    (.emptyAnchor ·), (.stringClearFlags .block ·), (.stringRestoreCNom .block ·), (.captureArm hdr none ·),
    (.captureTrigger .block ·), (.captureDisarm hdr none ·), (.captureSample ·), (.captureWindowFull ·), (.captureSaved ·)]),
  (2, [
    (.canSegmentTimeout · 0 0), (.canBusOffRecovery ·), (.oapWrite · false { count := 0, octets := [] } none),
    (.oapRead ⟨·, true⟩), (.page · (.read true)), (.clearFaults · none), (.capability ⟨·, true⟩), (.voutMode ⟨·, true⟩),
    (.statusByte ⟨·, true⟩), (.statusWord ⟨·, true⟩), (.statusCml ⟨·, true⟩), (.readVin ⟨·, true⟩), (.readVout ⟨·, true⟩), (.readIout ⟨·, true⟩),
    (.readTemperature1 ⟨·, true⟩), (.readPout ⟨·, true⟩), (.readPin ⟨·, true⟩), (.pmbusRevision ⟨·, true⟩), (.mfrId ⟨·, true⟩),
    (.mfrModel ⟨·, true⟩), (.mfrRevision ⟨·, true⟩), (.mfrSerial ⟨·, true⟩), (.targetWriteAbort ·), (.targetSclTimeout · false), (.hostNotify ⟨·, false⟩),
    (.hostNotifyRepeat ⟨·, true⟩), (.identifyDelayedReply ·)]),
  (25, [
    (.rightsWordWrite hdr · 0)]),
  (32, [
    (.groupStart .block ·), (.groupStop .block ·), (.groupClear .block ·), (.groupSample · {}), (.softStartTimeout ·),
    (.groupRetryTimer ·), (.derateRelease ·), (.lockResume ·), (.supportModeExit ·), (.arrivalDeadline · {}),
    (.senseConversion · 0), (.railDelayExpire ·), (.railGood ·), (.railPgTimeout ·), (.runningRailFault ·),
    (.resetStretchEnd ·), (.railDischarged ·), (.railDischargeTimeout ·)]),
  (48, [
    (.shareTrimAtLimit ·), (.lockAtLimit · 0), (.uplinkSymbolLock ·), (.assignTimeout ·), (.configuringFail ·), (.lostRetrain ·)]),
  (4, [
    (.lockAtLimit 0 ·), (.pressBurstClose ·), (.orderUp .block ·), (.orderDown .block ·), (.orderClear .block ·),
    (.twBusRecovery hdr none ·), (.twSclTimeout ·), (.twStuckRetry ·), (.twRecoveryEnd · [])]),
  (16, [
    (.ironPeriodEstimate · 0 0), (.ironClearMemory .block ·), (.ironRelease .block ·), (.thrHoldExpire ·),
    (.feedStart .block ·), (.feedStop .block ·), (.feedClear .block ·), (.feedClearCaptures .block ·), (.overcurrentTrip ·),
    (.seatDebounceDone ·), (.preChargeTimeout ·), (.overlapEnd ·), (.mainGateFault ·), (.feedRetryTimer ·), (.feedOnTimer ·),
    (.seatingFault ·), (.lintClear hdr · 0), (.sensorPoll · false false)]),
  (600000, [
    (.syncinEdge false ·)]),
  (65, [
    (.modelInputsInvalid ·), (.inletUnavailable ·)])]
theorem test_bounds : bounded.all (fun x => x.2.all (fun f => !(f x.1).wf && (f (x.1 - 1)).wf)) = true := by decide +kernel

/-- Commands that carry a header, and headers with one field out of its range. -/
def headed : List (Hdr → Instr) := [
  (.identify ·), (.openSeat · 0 0), (.closeSeat ·), (.keepalive ·), (.read · 0 0 false 0 0), (.write · 0 0 none 0 []),
  (.stewardAcquire · 0 0), (.stewardRelease · 0 0), (.stewardQuery · 0 0), (.stewardTakeOver · 0 0),
  (.subscribe · 0 0 false 0), (.unsubscribe · 0), (.seatForceClose · 0), (.rightsWordWrite · 1 0),
  (.combinedSubentryWrite · 0 0 0), (.transportConfigWrite · 0 0 none 0), (.ptpConfigWrite · none 0), (.commitList · none []),
  (.safeSetCapture · none 0), (.excursionClear · none), (.lintClear · 0 0), (.safeStateEnd · none), (.recordWindowRead · 0 0),
  (.captureArm · none 0), (.captureDisarm · none 0), (.patchPiece · none 0 []), (.patchVerify · none), (.patchApply · none),
  (.patchDiscard · none), (.imagePiece · none 0 []), (.imageWrite · none), (.imageDiscard · none), (.fuseRead · none),
  (.fuseMarginRead · none), (.baste · none), (.stitch · none), (.ownerLockSet · none), (.ownerLockRelease · none),
  (.presenceEnd · none), (.sealArm · none), (.twBusRecovery · none 0), (.resetCommand · none)]
def badHeaders : List Hdr := [{ hdr with host := { udp with code := 0 } }, { hdr with host := { udp with code := 4 } },
  { hdr with host := { udp with port := 2 } }, { hdr with host := { udp with addr := 2 ^ 64 } }, { hdr with mark := 65536 },
  { hdr with seat := 8 }, { hdr with tag := 65536 }]
theorem test_headers : headed.all (fun f => (f hdr).wf && badHeaders.all (fun h => !(f h).wf)) = true := by decide +kernel

/-- The other checks, one ill-formed command each. -/
def illFormed : List Instr := [
  .groupStart (.host { hdr with seat := 8 } none) 0, .groupStart (.host hdr (some (256, 0))) 0, .baste hdr (some (256, 0)),
  .write hdr 0 0 none 0 (List.replicate 65536 0), .readMulti hdr [(65536, 0, false)], .readMulti hdr [(0, 256, false)],
  .rightsWordWrite hdr 0 0, .rightsWordWrite hdr 25 0, .combinedSubentryWrite hdr 0 0 2147483648,
  .combinedSubentryWrite hdr 0 0 (-2147483649), .senseConversion 0 32768, .senseConversion 0 (-32769), .warmReset 0x0F, .warmReset 0x17,
  .lintOccurrence (some (419, 0)), .lintOccurrence (some (461, 0)), .lintOccurrence (some (0, 16)), .arrivalDeadline 0 { lone := some 48 }, .arrivalDeadline 0 { idles := [(48, 0)] },
  .page 0 (.write (List.replicate 65536 0) none), .oapWrite 0 false { count := 0, octets := List.replicate 65536 0 } none,
  .udpDatagram { datagram [] with port := 2 }, .udpDatagram { datagram [] with source := 2 ^ 64 },
  .udpDatagram { datagram [] with srcPort := 65536 }, .udpDatagram { datagram [] with dstPort := 65536 },
  .canSegment { frame true [] with ctrl := 2 }, .canSegment { frame true [] with errors := 3 }, .canSegment { frame true (List.replicate 65 0) with ctrl := 0 },
  .canSegment { frame true (List.replicate 9 0) with fd := false }, .ptpMessage { hear .other with port := 2 },
  .ptpMessage { hear .other with transport := 2 }, .ptpMessage { hear .other with domain := 256 },
  .groupSample 0 { residues := [(128, false)] }, .groupSample 0 { irons := { residues := [16] } },
  .groupSample 0 { irons := { taps := [(16, 0)] } }, .uplinkFrame 0 { octets := [], arrival := 0, last := 0 },
  .fuseMarginSweep [(256, 0, 0)], .pllLock true 2500 [(256, 0)]]
theorem test_illFormed : illFormed.all (fun i => !i.wf) = true := by decide +kernel

/-! ### Witnesses: groups, engine, irons -/

/-- The part with group 31 on ports 0 and 47 (rectifiers of four phases, trained), its primary channel 5. -/
def group31 : GroupBank := { core := { cfg := 0x01000500, ports := 0x800000000001 } }
def port31 : PortBank := { cfg := 0x1F0103F0 }
def onGroup31 (r : GroupRun) : State := { live with
  active := { live.active with
    groups := vmod live.active.groups 31 (fun _ => group31)
    ports := vmod (vmod live.active.ports 0 (fun _ => port31)) 47 (fun _ => port31)
    chans := vmod live.active.chans 5 (fun b => { b with cfg := 0x1F000001, src := 0x301F, setpoint := 54000 }) }
  groups := vmod live.groups 31 (fun _ => r)
  ports := vmod (vmod live.ports 0 (fun _ => { link := .trained })) 47 (fun _ => { link := .trained }) }

theorem witness_GroupsStartAndStop_requests :
    [1, 2, 3].all (fun v => admitsPut (desk (onGroup31 {}) (Family.loopGroup.index 31 4) 1) hdr none (Family.loopGroup.index 31 4) 1 v) = true ∧
    (onGroup31 {}).boot.phase ≠ .held ∧ (onGroup31 {}).lint.safe = false ∧ (onGroup31 {}).groupHeld 31 = false ∧
    ((onGroup31 {}).group 31).phase ≠ .latched ∧ (onGroup31 { phase := .fallback }).fitsLanes = true := by decide +kernel
/-- Ports 0 and 47 of the group without a trained link. -/
def untrained (r : GroupRun) : State := { onGroup31 r with ports := live.ports }
theorem witness_GroupsStartAndStop :
    (onGroup31 {}).onGrid ((onGroup31 {}).groupB 31).k = true ∧
    { onGroup31 {} with clock := { grid := 20000001 } }.onGrid ((onGroup31 {}).groupB 31).k = false ∧
    (onGroup31 {}).due ((onGroup31 {}).group 31).fallReq = false ∧
    (onGroup31 { phase := .run, stopReq := some 19999999 }).due (some 19999999) = true ∧
    (onGroup31 {}).portsOf 31 = [0, 47] ∧ (untrained { startReq := some 0 }).due ((untrained { startReq := some 0 }).group 31).stopReq = false ∧
    (untrained { startReq := some 0 }).due (some 0) = true ∧ (untrained { startReq := some 0 }).groupHeld 31 = false ∧
    (untrained { startReq := some 0 }).startHeld 31 = false ∧
    ((untrained {}).portsOf 31).all (fun p => ((untrained {}).port p).link != .trained && ((untrained {}).port p).link != .lost) = true ∧
    0 < ((untrained {}).groupB 31).core.ssTimeout ∧
    ((onGroup31 { phase := .latched, clearReq := some 5 }).group 31).phase = .latched ∧ (onGroup31 {}).due (some 5) = true := by
  decide +kernel
/-- A due start of the group with its ports trained. -/
def starting31 : State := onGroup31 { startReq := some 0 }
theorem witness_GroupsStartAndStop_trained : starting31.due (starting31.group 31).stopReq = false ∧ starting31.due (some 0) = true ∧
    (starting31.group 31).phase = .stopped ∧ starting31.lint.safe = false ∧ starting31.groupHeld 31 = false ∧
    starting31.startHeld 31 = false ∧ (starting31.chan (starting31.poolPrimary 31)).pool.at? ≠ some starting31.clock.grid ∧
    0 < (starting31.groupB 31).core.ssTimeout ∧ (starting31.port 47).link = .trained := by decide +kernel
/-- Soft start since G = 0 with a number of retries gone; 10 s have passed. -/
theorem witness_GroupsStartAndStop_times : ((onGroup31 { phase := .softStart, retry := 2 }).groupB 31).core.ssTimeout ≤
      elapsedUs (onGroup31 { phase := .softStart, retry := 2 }) 0 ∧
    (onGroup31 { phase := .softStart, retry := 2 }).softStartOk 31 = false ∧
    2 < ((onGroup31 {}).groupB 31).core.retryMax ∧ ¬ 3 < ((onGroup31 {}).groupB 31).core.retryMax ∧
    (onGroup31 { phase := .softStart, retry := 3 }).softStartOk 31 = false ∧
    ((onGroup31 {}).groupB 31).core.retryInterval ≤ elapsedUs (onGroup31 { phase := .retryWait }) 0 := by decide +kernel

/-- A sample without an error. -/
def quiet : SampleIn := {}
theorem witness_GroupSampleCommandsItsPorts : quiet.residues = [] ∧ quiet.selector = false ∧ quiet.irons.residues = [] ∧
    quiet.irons.taps = [] ∧ (onGroup31 { phase := .run }).onGrid ((onGroup31 {}).groupB 31).k = true ∧
    (onGroup31 { phase := .run }).due none = false ∧ ((onGroup31 { phase := .run }).group 31).phase = .run ∧
    ((onGroup31 { phase := .run }).chan ((onGroup31 { phase := .run }).poolPrimary 31)).pool.at? ≠ some 20000000 ∧
    (onGroup31 { phase := .run }).livePorts 31 = [0, 47] ∧ ((onGroup31 { phase := .run }).port 47).out = false ∧
    { onGroup31 { phase := .run } with ports := live.ports }.livePorts 31 = [] ∧
    ((onGroup31 { phase := .fallback }).group 31).phase = .fallback := by decide +kernel

/-- Group 31 in run with a second channel, 6. -/
def competing : State :=
  let s := onGroup31 { phase := .run }
  let b : Banks := { s.active with chans := vmod s.active.chans 6 (fun b => { b with cfg := 0x1F000001, src := 0x101F, setpoint := 50000 }) }
  { s with active := b }
theorem witness_GroupSampleCommandsItsPorts_channels : Evaluates competing 31 5 ∧ Evaluates competing 31 6 ∧
    (competing.group 31).phase = .run ∧ competing.livePorts 31 ≠ [] ∧ (competing.chan 6).fresh = false ∧ (competing.chanB 6).kind = 0 ∧
    srcKind (competing.chanB 5).src = 3 ∧ srcNum (competing.chanB 5).src < 32 ∧
    (∀ i, i < 16 → competing.ironGroup i ≠ 31 ∧ (competing.ironB i).target ≠ competing.poolPrimary 31) ∧
    competing.stringOf 31 = none ∧ (competing.group 31).takeoverDue = false ∧ competing.poolOf 31 = [31] ∧
    (competing.group 31).downCount = 0 ∧ (competing.group 31).served = 255 := by
  refine ⟨Or.inr (by decide +kernel), Or.inl (by decide +kernel), ?_⟩
  decide +kernel

theorem witness_SelectionAndTracking : ([(127, 5), (3, 5)] : List (Nat × Int)) ≠ [] ∧
    ({ uMin := -3 } : ChannelBank).uMin ≤ 7 ∧ (-3 : Int) ≤ 7 ∧ (0 : Int) ≤ 2 := by decide

/-- Group 31 in run; port 47 with its share trim and the lock of phase 3 at a limit since slot 0; the group's lock suspended after
20 quiet samples; channel 5 has lost since slot 0; channel 6 is the share channel. -/
def limits : State :=
  let s := onGroup31 { phase := .run, lock := { suspended := true, quiet := 20 } }
  let b : Banks := { s.active with chans := vmod s.active.chans 6 (fun b => { b with cfg := 0x1F010001 }) }
  (({ s with active := b }.onPort 47 (fun r => { r with
    share := { trim := 50000, limFrom := some 0 }, locks := vmod r.locks 3 (fun _ => { limFrom := some 0 }) })).onChan 5
      (fun r => { r with lostFrom := some 0 }))
theorem witness_EngineSupervision : live.boot.phase ≠ .held ∧ live.engine.carried = 255 ∧ bitAt live.engine.retired 16 = false ∧
    (limits.port 47).share.limFrom = some 0 ∧ limits.counts 31 47 = true ∧ (vget (limits.port 47).locks 3 {}).limFrom = some 0 ∧
    (limits.groupB 31).modul.lockResume ≤ (limits.group 31).lock.quiet ∧
    5 ∈ limits.chansOf 31 ∧ (limits.chan 5).lostFrom = some 0 ∧
    ((limits.onChan 5 (fun r => { r with derating := true })).chan 5).derating = true ∧ 10000 ≤ elapsedUs limits 0 ∧
    (limits.portB 47).group = 31 ∧ elapsedUs limits 20000000 < 10000 := by decide +kernel

/-- Iron 15 on group 31 with PSRC 1 and two candidates. -/
def onIron15 (r : IronRun) : State := { live with
  active := { live.active with irons := vmod live.active.irons 15 (fun b => { b with cfg := 0x1F000101 }) }
  irons := vmod live.irons 15 (fun _ => r) }
theorem witness_IronCommandsComplete :
    [1, 2].all (fun v => admitsPut (desk (onIron15 { phase := .frozen, w := 9, mem := [(3, 4)] }) (Family.iron.index 15 2) 1) hdr none (Family.iron.index 15 2) 1 v) = true ∧
    ((onIron15 { phase := .frozen }).iron 15).phase = .frozen ∧ (onIron15 {}).fw = true ∧ ((onIron15 {}).ironB 15).psrc = 1 ∧
    ((onIron15 {}).ironB 15).estMin ≤ 100000000 ∧ 100000000 ≤ ((onIron15 {}).ironB 15).estMax ∧
    ((onIron15 { cands := [100500000, 100400000] }).iron 15).cands = [100500000, 100400000] := by decide +kernel
/-- Iron 15 on channel 5 of group 31, with both commands due. -/
def ordered15 : State :=
  let s := onGroup31 { phase := .run }
  { s with active := { s.active with irons := vmod s.active.irons 15 (fun b => { b with cfg := 0x05000001 }) }
           irons := vmod s.irons 15 (fun _ => { phase := .frozen, clearReq := some 5, releaseReq := some 5, mem := [(3, 4)] }) }
theorem witness_IronCommandsComplete_boundary : ordered15.ironGroup 15 = 31 ∧ ordered15.onGrid (ordered15.groupB 31).k = true ∧
    ordered15.due (ordered15.iron 15).clearReq = true ∧ ordered15.due (ordered15.iron 15).releaseReq = true ∧
    (ordered15.iron 15).phase = .frozen ∧ (ordered15.ironB 15).function ≠ 2 ∧
    ¬ (onIron15 {}).ironGroup 15 < 32 := by decide +kernel

/-! ### Witnesses: input loss, the shelf, sense inputs, the timebase -/

/-- Group 31 as a battery group with string 7, channel 5 excluded, loss declared with d = 0 since G = 0. -/
def battery31 : State :=
  let s := onGroup31 { phase := .run, support := true, exitFrom := some 0, takeoverDue := true, s := 77 }
  let b : PortBank := { cfg := 0x1F0203F0 }
  { s with
    active := { s.active with ports := vmod (vmod s.active.ports 0 (fun _ => b)) 47 (fun _ => b)
                              strings := vmod s.active.strings 7 (fun b => { b with cfg := 0x06FF0003, ports := 0x800000000001 }) }
    chans := vmod s.chans 5 (fun r => { r with excluded := true }) }
def clearing : State := battery31.onShelf (fun r => { r with loss := { r.loss with declared := true, zeroFrom := some 0 } })
theorem witness_InputLossEnds : clearing.shelf.loss.declared = true ∧ clearing.shelf.loss.zeroFrom = some 0 ∧
    clearing.cfg.loss.inputQual ≤ elapsedUs clearing 0 ∧ 31 ∈ clearing.batteryGroups ∧ 5 ∈ clearing.chansOf 31 ∧
    (clearing.chan 5).excluded = true ∧ battery31.stringCtrl 31 = some 7 ∧ battery31.supportOver 31 7 = true ∧
    (battery31.strB 7).chargeCh = 6 ∧ battery31.poolOf 31 = [31] := by decide +kernel

/-- Feed 15 of rank 15, on or shed; the sequencer in a state since G = 0, with d at 0 or 1. -/
def shedAt (ph : ShedPhase) (d : Nat) (decl shed : Bool) : State :=
  let s := { live with
    active := { live.active with feeds := vmod live.active.feeds 15 (fun b => { b with zone := { b.zone with shedRank := 15 } }) }
    feeds := vmod live.feeds 15 (fun r => { r with phase := if shed then .off else .on, shed := shed }) }
  s.onShelf (fun r => { r with loss := { r.loss with declared := decl, dNum := d }, shed := { phase := ph, rank := 15 } })
theorem witness_ShedSequencerFollowsItsTable : (shedAt .idle 1 true false).shelf.loss.declared = true ∧
    (shedAt .watch 1 true false).lossHigh = true ∧ (shedAt .watch 1 true false).busLow = true ∧
    (shedAt .watch 1 true false).nextRank = some 15 ∧ (shedAt .watch 0 true false).lossHigh = false ∧
    (shedAt .dwell 1 true false).shedWaited (shedAt .dwell 1 true false).cfg.shed.shedDwell = true ∧
    (shedAt .warn 1 true false).shedWaited (shedAt .warn 1 true false).cfg.shed.shedWarn = true ∧
    (shedAt .gap 1 true false).shedWaited (shedAt .gap 1 true false).cfg.shed.shedGap = true ∧
    (shedAt .dwell 1 true false).shedOn 15 = true ∧ (shedAt .paused 0 false true).topShed = some 15 ∧
    (shedAt .restoring 0 false true).shedWaited (shedAt .restoring 0 false true).cfg.shed.restoreGap = true := by
  decide +kernel

/-- Feed 15 on with grant weight 1 or 0, its FDn_THR active since G = 0; without the firmware for the second clause. -/
def granted (w : Nat) : State := { live with
  active := { live.active with feeds := vmod live.active.feeds 15 (fun b => { b with zone := { b.zone with grantWeight := w } }) }
  feeds := vmod live.feeds 15 (fun r => { r with phase := .on, grant := 5, thr := { active := true } }) }
theorem witness_CapsAndGrantsAreComputed : (granted 1).fw = true ∧ (granted 1).onGrid 2000 = true ∧
    { granted 1 with clock := { grid := 20000001 } }.onGrid 2000 = false ∧ ((granted 1).feed 15).phase = .on ∧ 10000 ≤ elapsedUs (granted 1) 0 ∧
    { granted 1 with hardwareRun := true }.fw = false ∧
    ((granted 0).feedB 15).zone.grantWeight = 0 ∧ ((granted 1).feedB 15).zone.grantWeight = 1 ∧ ((granted 1).feed 14).phase = .off ∧
    ((granted 1).feedB 14).zone.grantWeight = 1 ∧ (granted 1).overGrant 15 = false ∧ ((granted 1).feed 15).thr.warned = false ∧
    (granted 1).feedThrottled 15 = false ∧ ((granted 1).feedB 15).zone.thrForce = false := by decide +kernel

theorem witness_ConversionScalesItsCode : live.boot.phase ≠ .held ∧ srcKind 0x101F = 1 ∧ srcNum 0x101F = 31 := by decide

/-- Detector 7 on set 3 with a true qualifier; bus record open since G = 0; a burst of set 3 in progress. -/
def pressing (r : DetectorRun) : State :=
  let s := { live with cfg := { live.cfg with dets := vmod live.cfg.dets 7 (fun c => { c with cfg := 0x31 }) }
                       dets := vmod live.dets 7 (fun _ => r)
                       presses := vmod live.presses 3 (fun r => { r with burstOpen := true, lastAt := some 0, burst := 3 }) }
  s.onShelf (fun r => { r with exc := { r.exc with opn := true, largest := 9 } })
theorem witness_PressDetectorsAct : (pressing {}).shelf.exc.opn = true ∧ 10000 ≤ elapsedUs (pressing {}) (pressing {}).shelf.exc.lastAt ∧
    admitsPut (desk (pressing {}) (Family.bus.index 0 0) 9) hdr none (Family.bus.index 0 0) 9 1 = true ∧
    ((pressing { phase := .armed, qualifier := true }).det 7).phase = .armed ∧ ((pressing {}).detC 7).en = true ∧
    ((pressing {}).detC 7).set = 3 ∧ ((pressing { phase := .fired, aboveFrom := some 19999998 }).det 7).aboveFrom = some 19999998 ∧ 2 ≤ live.clock.slots - 19999998 ∧
    ((pressing {}).press 3).burstOpen = true ∧ ((pressing {}).press 3).lastAt = some 0 ∧
    ((pressing {}).psetC 3).holdoff ≤ elapsedUs (pressing {}) 0 ∧ 3 < ((pressing {}).psetC 3).burstMax ∧
    elapsedUs (pressing {}) 20000000 < ((pressing {}).psetC 3).holdoff ∧ ((pressing {}).psetC 3).burstMax ≤ 8 := by decide +kernel
/-- The last launch of set 3 just now; and a set with port 47 of the running group 31. -/
def pressed : State :=
  let s := pressing { phase := .armed, qualifier := true }
  let g := onGroup31 { phase := .run }
  { s with active := g.active, groups := g.groups, ports := g.ports
           cfg := { s.cfg with psets := vmod s.cfg.psets 3 (fun c => { c with mask := 0x800000000000 }) } }
theorem witness_PressDetectorsAct_ports : pressed.pressPorts 3 = [47] ∧ (pressed.det 7).qualifier = true ∧
    0 ∉ pressed.pressPorts 3 := by decide +kernel

/-- SYNC_MODE 1 with edges of 500 kHz / 20 (the defaults), the last edge one period ago. -/
def syncing (tb : TimebaseRun) : State := { live with
  tb := tb, cfg := { live.cfg with timebase := { cfg := 0x141405 } } }
def lastEdge : Nat := 4000000000 * 2500 - 10000000
theorem witness_TimebaseFollowsItsTable :
    (false = (syncing {}).cfg.timebase.syncinPol) ∧ (syncing {}).cfg.timebase.syncMode = true ∧
    (syncing { lastRise := some lastEdge }).edgeValid (4000000000 * 2500 + 0 - lastEdge) = true ∧
    (syncing { lastRise := some (lastEdge + 400000) }).edgeValid (4000000000 * 2500 + 400000 - (lastEdge + 400000)) = true ∧
    (syncing { lastRise := some 0 }).edgeValid (4000000000 * 2500 + 0 - 0) = false ∧
    ((syncing {}).phaseError 0).natAbs ≤ 20000 ∧ 200000 < ((syncing {}).phaseError 400000).natAbs ∧
    4 * (syncing {}).syncPeriod ≤ (syncing {}).clock.up * 2500 - 1 ∧ (syncing {}).cfg.timebase.syncHold ≤ elapsedAo (syncing {}) 0 ∧
    (syncing {}).cfg.timebase.syncoutEn = true ∧ (syncing {}).cfg.timebase.syncoutOffset = 0 ∧
    (syncing {}).clock.grid % (syncing {}).cfg.timebase.syncoutDiv = 0 ∧ 1 ≤ (syncing {}).cfg.timebase.syncoutDiv ∧
    live.cfg.timebase.syncoutEn = false ∧ live.cfg.timebase.syncMode = false ∧ (syncing {}).linksRun = true ∧
    State.reset.linksRun = false := by decide +kernel
/-- A waiting write of the timebase word: SYNC_MODE 0, or another SYNCIN_DIV. -/
def retimed (v : Nat) (ph : TimebasePhase) : State :=
  { syncing { phase := ph } with commits := { marks := [{ index := 0x5000, sub := 1, value := v, list := [], at' := 0 }] } }
theorem witness_TimebaseFollowsItsTable_settings : (retimed 0x141404 .locked).cfg.timebase.syncMode = true ∧
    [0x141404, 0x141505].all (fun v => let s := retimed v .locked
      s.commits.marks.filter (fun w => s.markPassed w.at') == s.commits.marks && s.commits.marks.length == 1 &&
        (object? 0x5000 1).any (fun x => x.fam == .timebase)) = true ∧
    ((retimed 0x141404 .locked).cfg.put .timebase 0 1 0x141404).timebase.syncMode = false ∧
    ((retimed 0x141505 .locked).cfg.put .timebase 0 1 0x141505).timebase.syncinDiv ≠ (retimed 0 .locked).cfg.timebase.syncinDiv := by
  decide +kernel

/-! ### Witnesses: links -/

/-- Port 47 of group 31 in run; `r` is its link. -/
def link (r : PortRun) : State := { (onGroup31 { phase := .run }) with ports := vmod live.ports 47 (fun _ => r) }
/-- An uplink frame of the present sample with its CRC: kind, item, octets 4 to 21. -/
def upFrame (s : State) (kind item : Nat) (body : List Byte) (arrival : Int) : UplinkIn :=
  let bs := [BitVec.ofNat 8 (16 * kind + item)] ++ beBytes 2 (s.sampleInstant 47 % 4096) ++ body
  { octets := 0xBC :: bs ++ beBytes 2 (crc16 bs).toNat, arrival := arrival, last := 300000 }
/-- Octets 4 to 21 with V_OUT 27,000 × 2 mV, V_IN 40,000 × 10 mV and item value `v`. -/
def body (v : Nat) : List Byte :=
  [0x12, 0x34, 0x56, 0x78, 0x00, 0xF8, 0, 0] ++ beBytes 2 27000 ++ beBytes 2 40000 ++ [0, 0, 0, 0] ++ beBytes 2 v
def words : List (BitVec 24) := [1, 2, 3, 4]
theorem witness_SlotsCarryCommands : State.reset.boot.phase = .held ∧ live.boot.phase ≠ .held ∧ live.boot.aoLost = false ∧
    (after .vddAoLoss live).boot.aoLost = true ∧
    ((link { stopDue := true }).port 47).stopDue = true ∧ ((link { link := .lost }).port 47).link = .lost ∧
    ((link { link := .training, assignDue := true }).port 47).assignDue = true ∧ ((link {}).portB 47).group = 31 ∧
    State.commandSlot ((link {}).clock.grid + 1) ((link {}).portK 47) = true ∧ (link {}).evaluated 31 = true ∧
    ((link { link := .trained, cmd := some (20000001, words) }).port 47).cmd = some ((link {}).clock.grid + 1, words) ∧
    (link { link := .down, symLock := true }).linksRun = true ∧ 20000 ≤ (link { failedAt := some 0 }).clock.slots - 0 ∧
    words.length = 4 ∧ ((link { link := .trained }).port 47).piece < 4 := by decide +kernel
theorem witness_LinksTrain : (link {}).boot.phase = .serving ∧ 10000 ≤ elapsedUs (link { failedAt := some 0 }) 0 ∧
    100 ≤ elapsedUs (link { link := .training, assigns := 8 }) ((link { link := .training }).port 47).since ∧
    (link { link := .configuring, rounds := 3, readyAt := some 0 }).roundOver 47 = true ∧
    1000 ≤ elapsedUs (link { link := .lost }) ((link { link := .lost }).port 47).since := by decide +kernel
/-- The same frame with the flags STALE and FALLBACK, whose SEQ no longer counts. -/
def flagged (flags : Byte) : UplinkIn :=
  upFrame { link {} with clock := { grid := 19999960 } } 4 3 ((body 0).take 12 ++ [flags] ++ (body 0).drop 13) 90000
theorem witness_UplinkFramesAreRead_flags : (flagged 0xC0).broken = false ∧ bitAt (flagged 0xC0).status 7 = true ∧
    bitAt (flagged 0xC0).status 6 = true ∧ (flagged 0xC0).epoch = ((link {}).port 47).epoch.toNat % 16 ∧
    (link {}).uplinkBad 47 (flagged 0xC0) = false ∧ (link {}).uplinkBad 47 (flagged 0x40) = true ∧
    [1, 2, 3, 7].all (fun k => bitAt (flagged 0xCE).status k) = true ∧ (link {}).uplinkBad 47 (flagged 0xCE) = false ∧
    (link {}).evaluated ((link {}).portB 47).group = true ∧ ((link { link := .lost }).port 47).flagged = 0 := by decide +kernel
theorem witness_UplinkFramesAreRead :
    (link {}).uplinkBad 47 (upFrame (link {}) 4 3 (body 0) 50000) = false ∧
    (link {}).uplinkBad 47 { upFrame (link {}) 4 3 (body 0) 50000 with codeError := true } = true ∧
    (upFrame (link {}) 5 0 (body 0) 77500).kind = 5 ∧ 10 < roundDiv ((77500 : Int) - 50000) 2500 ∧
    roundDiv ((75000 : Int) - 50000) 2500 ≤ 10 ∧
    (upFrame (link {}) 4 2 (body ((({} : ParamTable).digest).toNat)) 50000).u16 20 = (({} : ParamTable).digest).toNat ∧
    (upFrame (link {}) 4 2 (body 0) 50000).item = 2 ∧
    State.capsLack ((0x123456780000F8 : Dword).setWidth 8) ((link {}).groupB 31).mode ((link {}).portB 47).phases true = false ∧
    (link { link := .trained }).inWindow 47 (upFrame (link {}) 4 3 (body 0) 60000) = true ∧
    ((link { link := .trained }).inWindow 47 (upFrame (link {}) 4 3 (body 0) 60001) ||
      bitAt (upFrame (link {}) 4 3 (body 0) 60001).status 7) = false := by decide +kernel
theorem witness_DeadlinesAndMarks : 47 ∈ (link {}).portsOf 31 ∧ ((link { link := .trained, miss := 2 }).port 47).miss = 2 ∧
    ((link { link := .trained, got := true }).port 47).got = true ∧ ((link { link := .trained, silent := 3 }).port 47).silent = 3 ∧
    ((link { link := .trained, silent := 3 }).port 47).seen = false ∧ ([] : List (Nat × Nat)).lookup 47 = none ∧
    [((47 : Nat), (8 : Nat))].lookup 47 = some 8 ∧
    (clearing.shelf.loss.declared = true) ∧ live.shelf.loss.declared = false ∧ live.lossHigh = false ∧
    (live.onShelf (fun r => { r with loss := { r.loss with dNum := 1 } })).lossHigh = true := by decide +kernel
/-- Port 47 and group 31 with one change at its mark and one that waits. -/
def marked : State := ((link { nexts := [({ rateK := 7 }, 20000000), (({} : ParamTable), 20000200)] }).onGroup 31
  (fun r => { r with incNexts := [(5, 20000000), (6, 20000200)] }))
theorem witness_DeadlinesAndMarks_marks : (marked.port 47).nexts = [] ++ ({ rateK := 7 }, 20000000) :: [(({} : ParamTable), 20000200)] ∧
    20000000 ≤ marked.clock.grid ∧ marked.clock.grid < 20000200 ∧
    (marked.group 31).incNexts = [] ++ (5, 20000000) :: [(6, 20000200)] ∧ (marked.port 46).nexts = [] ∧
    (marked.group 30).incNexts = [] := by decide +kernel

/-! ### Witnesses: feeds, strings, models, orders -/

def feed15 (r : FeedRun) : State := { live with feeds := vmod live.feeds 15 (fun _ => r) }
/-- Readings of every feed: 54 V, 50 V, 2 mV across the shunt, both pins seated. -/
def reading : FeedIn := { vbus := 54000, vout := 50000, shunt := 2000000, seatL := true, seatS := true }
theorem witness_FeedRequestsComplete :
    [1, 2, 3, 4].all (fun v => admitsPut (desk (feed15 {}) (Family.feed.index 15 2) 1) hdr none (Family.feed.index 15 2) 1 v) = true ∧
    (feed15 {}).lint.safe = false ∧ (feed15 {}).feedHeld 15 = false ∧ ((feed15 { shed := true }).feed 15).phase ≠ .latched ∧
    (feed15 { shed := true }).shelf.loss.declared = false := by decide +kernel
theorem witness_FeedRequestsComplete_ticks :
    (feed15 {}).onGrid 2 = true ∧ (Vector.replicate 16 reading)[(15 : Nat)]? = some reading ∧
    (feed15 { startReq := some 0 }).stopDue 15 = none ∧ (feed15 { startReq := some 0 }).due (some 0) = true ∧
    (feed15 {}).feedHeld 15 = false ∧ (feed15 { phase := .retryWait, stopReq := some (9, 19999999) }).stopDue 15 = some 9 ∧
    (let r : FeedRun := { phase := .preCharge, since := 20000000, stopReq := some (1, 5) }
     elapsedUs (feed15 r) r.since < ((feed15 r).feedB 15).core.preTimeout ∧
     r.energy + (roundDiv ((reading.vbus - reading.vout) * (reading.vbus - reading.vout)) ((feed15 r).feedB 15).core.rpre).toNat <
       ((feed15 r).feedB 15).core.preEMax * 1000000 ∧ (feed15 r).stopDue 15 = some 1) ∧
    (let b := (feed15 {}).feedB 15
     max 0 ((0 : Int) + (feedCurrent b reading.shunt * feedCurrent b reading.shunt - b.core.iCont * b.core.iCont)) <
       (b.core.i2tLim : Int) * 1000000000000) ∧
    (feed15 { phase := .latched, clearReq := some 3 }).due (some 3) = true ∧
    (feed15 { phase := .retryWait, shedReq := some 3 }).due (some 3) = true := by decide +kernel
/-- Feed 15 On, with a stop and a shed step due: its attempt goes on with the readings. -/
theorem witness_FeedRequestsComplete_goes : AttemptGoesOn (feed15 { phase := .on, stopReq := some (1, 5) }) 15 reading ∧
    AttemptGoesOn (feed15 { phase := .on, shedReq := some 5 }) 15 reading ∧
    reading.seatL = true ∧ reading.seatS = true := by
  refine ⟨?_, ?_, rfl, rfl⟩ <;> exact ⟨by decide +kernel, by decide +kernel, by decide +kernel⟩
theorem witness_FeedEventsFollowTheirTable : (feed15 { phase := .seating, seatedFrom := some 0 }).seatDebounced 15 = true ∧
    (feed15 {}).onGrid 2 = true ∧ (feed15 { phase := .seating }).stopDue 15 = none ∧
    (feed15 { phase := .on, ocTrip := some 5 }).due ((feed15 { phase := .on, ocTrip := some 5 }).feed 15).ocTrip = true ∧
    (feed15 { phase := .on, ocTrip := some 5 }).due ((feed15 { phase := .on, ocTrip := some 5 }).feed 15).shedReq = false ∧
    ((feed15 {}).feedB 15).core.ocLim * ((feed15 {}).feedB 15).core.rsh < 1000 * (150000000 : Int) ∧
    (feed15 { phase := .preCharge }).feedEnds 15 = [4] ∧
    ((feed15 { phase := .on, pcg := true }).feedB 15).core.overlap ≤ elapsedUs (feed15 { phase := .on, pcg := true }) 0 ∧
    (feed15 { phase := .on, dropFrom := some 0 }).mainGateFault 15 = true ∧
    (feed15 { phase := .on, dropFrom := some 0 }).feedEnds 15 = [] ∧
    ((feed15 {}).feedB 15).core.retryInt ≤ elapsedUs (feed15 {}) 0 ∧ ((feed15 {}).feedB 15).retryMax = 3 ∧
    ((feed15 { phase := .on, retry := 2, rd := { seatL := true, seatS := true } }).feed 15).seated ((feed15 {}).feedB 15) = true ∧
    (feed15 { phase := .on }).feedEnds 15 = [] ∧ (feed15 { phase := .on }).mainGateFault 15 = false ∧
    10000000 ≤ elapsedUs (feed15 { phase := .on }) 0 ∧ ((feed15 {}).feedB 15).seatEn = true ∧
    ((feed15 { seatFrom := some 0, rd := { seatS := true } }).feed 15).rd.seatS = true ∧ 10000 ≤ elapsedUs (feed15 {}) 0 := by
  decide +kernel
theorem witness_FeedTickMeasures : (Vector.replicate 16 reading)[(15 : Nat)]? = some reading ∧ live.onGrid 2 = true ∧
    { live with clock := { grid := 20000001 } }.onGrid 2 = false ∧
    ((feed15 { phase := .preCharge, energy := 7 }).feed 15).phase = .preCharge ∧ ((feed15 { phase := .on, x := 9 }).feed 15).phase = .on := by
  decide +kernel

def str7 (f : StringBank → StringBank) (r : StringRun) : State := { live with
  strings := vmod live.strings 7 (fun _ => r), active := { live.active with strings := vmod live.active.strings 7 f } }
theorem witness_StringTickCountsExactly : State.reset.boot.phase = .held ∧ State.reset.boot.aoLost = false ∧ live.onGrid 2000 = true ∧
    (after .vddAoLoss live).boot.aoLost = true ∧
    { live with clock := { grid := 20000001 } }.onGrid 2000 = false ∧
    (Vector.replicate 8 ({ native := -7, bsv := 5 } : StringIn))[(7 : Nat)]? = some { native := -7, bsv := 5 } ∧
    0 < (State.reset.str 7).remDen ∧ 0 < (State.reset.strB 7).shuntR := by decide +kernel
/-- A learning cycle in which 350 kC were counted out of 360 kC of capacity; `a` is the present count. -/
def learned (a : Int) : StringRun :=
  { emptyFrom := some 0, a := a, cycle := some { a0 := 340000000, from' := 0 } }
theorem witness_StringsFollowTheirTable : (str7 (fun b => { b with termT := 10000 }) { termFrom := some 0 }).terminated 7 = true ∧ live.onGrid 2000 = true ∧
    (str7 (fun b => { b with chgTarget := 8000 }) { phase := .float, rechgFrom := some 0, a := 300000000 }).rechargeDue 7 = true ∧
    0 < (({ phase := .float, rechgFrom := some 0, a := 300000000 } : StringRun)).socOver (8000 + 100) ∧
    (str7 id (learned (-10000000))).emptyDue 7 = true ∧ (str7 id (learned 0)).fw = true ∧ (str7 id (learned 0)).score.stopped = false ∧
    10000 * ((340000000 : Int) - (-10000000) - 360000000).natAbs ≤ ((str7 id (learned 0)).strB 7).learnBand * (360000000 : Int).natAbs ∧
    ¬ 10000 * ((340000000 : Int) - 300000000 - 360000000).natAbs ≤ ((str7 id (learned 0)).strB 7).learnBand * (360000000 : Int).natAbs ∧
    (str7 id { emptyFrom := some 0 }).emptyDue 7 = true := by decide +kernel
def slotWrite : SlotWrite := { index := 1, slot := { seq := 1, state := 2 }, from' := 19999901 }
theorem witness_StringsFollowTheirTable_requests :
    let s := str7 id { clearReq := some 5, restoreReq := some 5 }
    s.due (s.str 7).clearReq = true ∧ s.due (s.str 7).restoreReq = true ∧ (s.strB 7).emptyV < 54000 ∧ s.boot.aoLost = false ∧
    s.onGrid 2000 = true ∧ s.due (live.str 7).clearReq = false := by decide +kernel
theorem witness_StringsFollowTheirTable_commands : live.fw = true ∧ live.score.stopped = false ∧ live.present = true ∧
    ((str7 id { checking := some slotWrite, writing := some slotWrite }).str 7).checking = some slotWrite ∧
    100 ≤ live.clock.slots + 1 - slotWrite.from' ∧
    [1, 2].all (fun v => admitsPut (desk (str7 id {}) (Family.batString.index 7 5) 1) hdr none (Family.batString.index 7 5) 1 v) = true := by
  decide +kernel

/-- Model 47 enabled with derate channel 127, a named group (31) and feed (15), in run and on. -/
def model47 (r : ModelRun) : State :=
  let s := onGroup31 { phase := .run }
  { s with
    active := { s.active with models := vmod s.active.models 47 (fun b => { b with cfg := 0x7F000001, sdGroups := 0x80000000 })
                              feeds := vmod s.active.feeds 15 (fun b => { b with core := { b.core with cfg := 0x2F000306 } }) }
    models := vmod s.models 47 (fun _ => r), feeds := vmod s.feeds 15 (fun r => { r with phase := .on }) }
theorem witness_ModelsFollowTheirTables : live.onGrid 2000 = true ∧ ((model47 {}).modelB 47).en = true ∧ ((model47 {}).modelB 46).en = false ∧
    ((model47 {}).modelB 47).derateCh = 127 ∧ ((model47 {}).modelB 64).en = true ∧
    (model47 { invalidFrom := some 0 }).invalidLong 47 = true ∧ ((model47 {}).model 47).phase = .running ∧
    31 ∈ (model47 {}).modelGroups 47 ∧ 15 ∈ (model47 {}).modelFeeds 47 ∧ ((model47 {}).feed 15).phase = .on ∧ ((model47 {}).group 31).phase = .run ∧
    { model47 {} with active := { (model47 {}).active with
        models := vmod (model47 {}).active.models 47 (fun b => { b with cfg := 0x7F010001 }) } }.inletOf 47 = none := by decide +kernel

/-- Rails 0 and 31 in order 3, rail 31 behind rail 0. -/
def rails (o : OrderPhase) (r0 r31 : RailRun) : State := { live with
  cfg := { live.cfg with rails := vmod (vmod live.cfg.rails 0 (fun c => { c with cfg := 0x30000000 })) 31 (fun c => { c with cfg := 0x30000000, preds := 0x80 }) }
  rails := vmod (vmod live.rails 0 (fun _ => r0)) 31 (fun _ => r31)
  orders := vmod live.orders 3 (fun _ => { phase := o }), seq := { tick := 200000, pgin := 0x1 } }
theorem witness_OrderRequestsComplete :
    [1, 2, 3].all (fun v => admitsPut (desk (rails .off {} {}) (Family.order.index 3 0) 1) hdr none (Family.order.index 3 0) 1 v) = true ∧
    (rails .off {} {}).lint.safe = false ∧ (rails .off {} { failed := true }).validOrder 3 = true ∧
    ({ rails .off {} {} with cfg := live.cfg }).validOrder 3 = false := by decide +kernel
/-- Order 3 with an up request and a down request of one slot earlier. -/
def asked (o : OrderPhase) (up down : Option Nat) : State :=
  (rails o {} {}).onOrder 3 (fun r => { r with upReq := up, downReq := down })
theorem witness_OrderRequestsComplete_ticks : (asked .off none none).onGrid 20 = true ∧
    ((asked .off none none).membersOf 3) = [0, 31] ∧
    ((asked .off none none).membersOf 3).all (fun r => ((asked .off none none).rail r).phase == .off) = true ∧
    (asked .off (some 5) none).due ((asked .off (some 5) none).order 3).upReq = true ∧
    (asked .off (some 5) none).due ((asked .off (some 5) none).order 3).downReq = false ∧
    (asked .up (some 5) (some 5)).due ((asked .up (some 5) (some 5)).order 3).downReq = true ∧
    ((asked .up (some 5) (some 5)).order 3).phase = .up ∧
    (asked .off none none).due (some 5) = true ∧ (asked .off none none).due ((asked .off none none).order 3).clearReq = false := by
  decide +kernel
theorem witness_SequencerTickAdvancesRails : live.onGrid 20 = true ∧ { live with clock := { grid := 20000001 } }.onGrid 20 = false ∧
    ((rails .rising { phase := .good } {}).railC 31).order = 3 ∧
    ((rails .rising { phase := .good } {}).railC 31).predList = [0] ∧ (rails .rising { phase := .good } {}).predFlagged 31 = false ∧
    ((rails .rising { phase := .good } {}).rail 31).flagged = false ∧ ((rails .off {} {}).railC 1).order = 7 := by decide +kernel
theorem witness_RailsFollowTheirTable : (rails .rising { phase := .good } { phase := .delay }).predFlagged 31 = false ∧
    ((rails .rising {} {}).order 3).phase ≠ .dropped ∧ ((rails .rising {} {}).order 3).phase ≠ .falling ∧
    ((rails .rising {} {}).railC 31).onDelay ≤ (rails .rising {} {}).seqUs 0 ∧
    (rails .rising {} {}).pgGood 0 = true ∧ (rails .rising {} {}).ranUs (some 0) ((rails .rising {} {}).railC 0).pgDeg = true ∧
    (rails .rising {} {}).pgGood 31 = false ∧ (rails .rising {} {}).ranUs none 100 = false ∧
    ((rails .rising {} {}).railC 31).pgTimeout ≤ (rails .rising {} {}).seqUs 0 ∧
    ((rails .rising {} {}).membersOf 3).any (rails .rising {} {}).runningFault = false ∧
    ((rails .up { phase := .good } {}).railC 0).rstStretch ≤ (rails .up { phase := .good } {}).seqUs 0 ∧
    (rails .up { phase := .good } {}).runningFault 0 = false ∧
    ((rails .falling {} {}).railC 31).disWait ≤ (rails .falling {} {}).seqUs (max 0 0) ∧
    ((rails .falling {} {}).railC 0).disTimeout ≤ (rails .falling {} {}).seqUs 0 ∧
    (rails .up {} { phase := .good, badFrom := some 0 }).runningFault 31 = true := by decide +kernel

/-! ### Witnesses: lint, captures, loads, fuses, presence -/

/-- Source 460 stops group 31 by mask and has SAFE; it was detected with its last cause before this boundary, and with its first
at it. -/
def linted : State := { live with
  cfg := { live.cfg with reacts := vmod live.cfg.reacts 460 (fun _ => { word := 0x113, groups := 0x80000000 }) }
  lint := { live.lint with detected := [{ src := 460, cause := 5, at' := 19999999 }, { src := 460, cause := 0, at' := 20000000 }] } }
theorem witness_LintBoundaryRegistersCauses : vget linted.lint.counts 460 0 ≤ 65535 ∧ (linted.reactC 460).stops = true ∧
    (linted.reactC 460).safe = true ∧
    linted.lint.detected.filter (fun d => decide (d.at' < linted.clock.slots)) = [{ src := 460, cause := 5, at' := 19999999 }] ∧
    linted.clock.slots ≤ 20000000 ∧ 5 < causeCount 460 := by decide +kernel
/-- An open episode since slot 0, quiet, with its buffers latched or free; it is as old as EP_MAX where `age`. -/
def snapshot (n : Nat) : Snapshot := { time := n, episode := 3, octets := List.replicate 8 7 }
def episode (age : Bool) (o c : Option Snapshot) : State := { live with
  lint := { live.lint with episode := { opn := true, number := 3, ageFrom := if age then 0 else 19999999 }
                           causes := vmod live.lint.causes 511 (fun _ => 1), safe := true
                           detected := [{ src := 0, cause := 0, at' := 20000000 }], snapOpen := o, snapClose := c } }
theorem witness_EpisodesAndClearsAct : (episode false none none).lint.episode.opn = true ∧
    (episode false none none).lint.episode.quietFrom ≠ live.clock.slots ∧
    (episode false none none).lint.detected.all (fun d => decide (live.clock.slots ≤ d.at')) = true ∧
    (episode false none none).cfg.episode.epQuiet ≤ elapsedUs (episode false none none) 0 ∧
    (episode false none none).stopsComplete = true ∧
    ¬ (episode false none none).cfg.episode.epMax ≤ elapsedUs (episode false none none) 19999999 ∧
    (episode true none none).lint.episode.ageFrom = 0 ∧
    (onGroup31 { phase := .run }).stopsComplete = true ∧
    { onGroup31 { phase := .run } with lint := { live.lint with episode := { opn := true, groups := 0x80000000 } } }.stopsComplete = false ∧
    (episode false none none).fw = true ∧ (episode false (some (snapshot 1)) (some (snapshot 2))).lint.snapOpen = some (snapshot 1) ∧
    (episode false (some (snapshot 1)) (some (snapshot 2))).lint.snapClose = some (snapshot 2) ∧
    admitsPut (desk (episode false none none) (Family.lintClear.index 0 0) 16) hdr none (Family.lintClear.index 0 0) (15 + 1) 0x80000000 = true ∧
    bitAt (0x80000000 : Word) 31 = true ∧ (episode false none none).stillHolds (32 * 15 + 31) = 0 ∧
    admitsPut (desk (episode false none none) (Family.episode.index 0 0) 9) hdr none (Family.episode.index 0 0) 9 1 = true := by
  decide +kernel

def capture7 (r : CaptureRun) : State := { live with score := { live.score with captures := vmod live.score.captures 7 (fun _ => r) } }
/-- Capture 7 at a rate and with a trigger kind. -/
def captureAt (word : Word) (r : CaptureRun) : State :=
  { capture7 r with cfg := { live.cfg with captures := vmod live.cfg.captures 7 (fun c => { c with word := word }) } }
theorem witness_CapturesFollowTheirTable :
    [1, 3].all (fun v => admitsPut (desk (capture7 {}) (Family.capture.index 7 0) 5) hdr none (Family.capture.index 7 0) 5 v) = true ∧
    admitsPut (desk (capture7 { phase := .armed, window := some [] }) (Family.capture.index 7 0) 5) hdr none (Family.capture.index 7 0) 5 2 = true ∧
    (capture7 {}).canArm 7 = true ∧ ((capture7 { reqs := [(1, 20000000)] }).capture 7).reqs = [(1, 20000000)] ∧
    20000000 ≤ live.clock.slots ∧ (capture7 { reqs := [(1, 20000000)] }).windowsTaken ≤ 2 ∧ ((capture7 { phase := .armed, window := some [] }).capture 7).phase = .armed ∧
    ((capture7 {}).captureC 7).trigKind ≠ 0 ∧ ((captureAt 0 {}).captureC 7).trigKind = 0 ∧
    (capture7 {}).fw = true ∧ (capture7 {}).onGrid (State.crateSlots ((capture7 {}).captureC 7).crate) = true ∧
    { captureAt 0x70100 {} with clock := { grid := 20000001 } }.onGrid (State.crateSlots ((captureAt 0x70100 {}).captureC 7).crate) = false ∧
    3071 < (capture7 {}).captureAfter 7 ∧ (capture7 {}).captureAfter 7 ≤ 3072 ∧
    ((capture7 { phase := .saving, window := some [[1], [2]] }).capture 7).window = some [[1], [2]] ∧ live.score.stopped = false := by
  decide +kernel

/-- A patch that copies the shipped image, with its header (Tables 14-5 and 14-6). -/
def patchOfShipped : List Byte :=
  let ops : List Byte := [1] ++ leBytes 3 257 ++ leBytes 4 0
  let v := leBytes 4 (fwVersion shippedImage)
  let h := leBytes 4 0x3150504C ++ [1, 0, 0, 0] ++ v ++ (shippedImage.drop 28).take 32 ++ v ++ leBytes 4 257 ++ leBytes 4 8 ++
    leBytes 4 (crc32 ops).toNat
  h ++ leBytes 4 (crc32 h).toNat ++ ops
def patching (ph : LoadPhase) (c : List Byte) : State := { live with patch := { phase := ph, content := c } }
def imaging (ph : LoadPhase) (c : List Byte) : State := { live with image := { phase := ph, content := c } }
def pch (s : State) (sub : Nat) : State := desk s (Family.patch.index 0 0) sub
def img (s : State) (sub : Nat) : State := desk s (Family.image.index 0 0) sub
theorem witness_PiecesArrive : 24 + ([1, 2, 3] : List Byte).length ≤ limitOf udp ∧
    admits (pch live 1) hdr none (Family.patch.index 0 0) 1 [1, 2, 3] = true ∧
    admits (img live 1) hdr none (Family.image.index 0 0) 1 [1, 2, 3] = true ∧
    0 < 2 ∧ 2 = (patching .loading [9, 9]).patch.content.length ∧ 2 + 3 ≤ 1048576 ∧ (patching .loading [9, 9]).patch.phase = .loading ∧
    live.bootRec.active < 2 ∧ live.patch.phase = .empty ∧ live.image.phase = .empty ∧
    2 = (imaging .loading [9, 9]).image.content.length := by decide +kernel
theorem witness_LoadCommandsComplete :
    [1, 2, 3].all (fun v => admitsPut (pch (patching .loaded []) 2) hdr none (Family.patch.index 0 0) 2 v) = true ∧
    (pch (patching .verified []) 2).patchApplyOk = true ∧ (pch (patching .verified []) 2).writeConditions = 0 ∧
    [1, 3].all (fun v => admitsPut (img (imaging .loaded []) 2) hdr none (Family.image.index 0 0) 2 v) = true ∧
    (img (imaging .loaded []) 2).imageWriteOk = true ∧ (img (imaging .loaded []) 2).writeConditions = 0 ∧
    (patching .done []).patch.phase = .done ∧ live.bootRec.active < 2 ∧ (patching .busy []).image.phase ≠ .busy ∧
    (imaging .busy []).patch.phase ≠ .busy ∧ live.onGrid 2000 = true ∧
    { patching .busy [] with bootRec := { ownerLock := true } }.writeConditions &&& 0x3F ≠ 0 := by decide +kernel

/-- The fuse desk: word 111, the baste value 5. -/
def fusing (f : FuseRun → FuseRun) : State := { live with fuses := f { live.fuses with addr := 110, baste := 5 } }
theorem witness_FuseOperationsComplete :
    [1, 2].all (fun v => admitsPut (desk (fusing id) (Family.fuse.index 0 0) 2) hdr none (Family.fuse.index 0 0) 2 v) = true ∧
    (fusing id).fuses.busy = none ∧
    [1, 2].all (fun v => admitsPut (desk (fusing id) (Family.fuse.index 0 0) 7) hdr none (Family.fuse.index 0 0) 7 v) = true ∧
    (fusing id).fuseRefused = false ∧ (fusing id).withinCeilings (fusing id).basted = true ∧ (fusing id).stitchRefused = false ∧
    [1, 2].all (fun v => admitsPut (desk live (Family.owner.index 0 0) 2) hdr none (Family.owner.index 0 0) 2 v) = true ∧
    live.ownerFix = false ∧ 40 ≤ elapsedAo live 0 ∧ 80 ≤ elapsedAo live 0 ∧ live.fw = true ∧ live.sweepDue = true ∧
    (fusing (fun f => { f with busy := some (.stitch, 255, 0) })).fuses.busy = some (.stitch, 255, 0) := by decide +kernel

def sealing (r : SealRun) : State := { live with tamper := r, presence := { window := some 0, jumper := true } }
theorem witness_PresenceAndSealAct : (sealing {}).boot.aoLost = false ∧ (sealing {}).presence.window = some 0 ∧ (sealing {}).cfg.presWindow ≤ 600000000 ∧
    { sealing {} with clock := { up := 240000000000 } }.cfg.presWindow ≤ elapsedAo { sealing {} with clock := { up := 240000000000 } } 0 ∧
    admitsPut (desk (sealing {}) (Family.presence.index 0 0) 5) hdr none (Family.presence.index 0 0) 5 1 = true ∧
    admitsPut (desk (sealing { matched := 100 }) (Family.seal.index 0 0) 2) hdr none (Family.seal.index 0 0) 2 1 = true ∧
    (sealing { matched := 100 }).sealReady = true ∧ (sealing { armed := true, differed := 3 }).tamper.differed = 3 := by decide +kernel

/-! ### Witnesses: two-wire ports, PMBus, resets and boot -/

/-- Port 3 with sensor 15 of type 3 (address 72) on it. -/
def tw3 (r : TwRun) : State := { live with
  cfg := { live.cfg with twPorts := vmod live.cfg.twPorts 3 (fun c => { c with en := true })
                         sensors := vmod live.cfg.sensors 15 (fun c => { c with port := 3, stype := 3 }) }
  tws := vmod live.tws 3 (fun _ => r) }
theorem witness_TwoWirePortsFollowTheirTable :
    admitsPut (desk (tw3 { phase := .idle }) (Family.twPort.index 3 0) 6) hdr none (Family.twPort.index 3 0) 6 1 = true ∧
    (tw3 { phase := .idle }).twCommandOk 3 = true ∧ 1000000 ≤ elapsedAo (tw3 { phase := .stuck }) 0 ∧
    ((tw3 { phase := .recovery }).tw 3).phase = .recovery ∧ ((tw3 { phase := .busy, polling := 15 }).tw 3).polling = 15 ∧
    sensorPecOk ((tw3 {}).sensorC 15) 0x34 0xE1 0 = false ∧
    sensorPecOk ((tw3 {}).sensorC 15) 0x34 0xE1 (crc8 [144, sensorRegister 3, 145, 0x34, 0xE1]) = true ∧
    ((tw3 {}).sensorC 15).port = 3 ∧ ((tw3 {}).sensorC 15).stype ≠ 0 ∧ (tw3 {}).fw = true ∧ (tw3 { phase := .idle }).pollDue 15 = true ∧
    ((tw3 { phase := .idle, due := [2, 9] }).tw 3).due.Pairwise (· ≤ ·) ∧
    [[true], List.replicate 9 false ++ [true]].map (fun sda => (sda.take 10).findIdx? id) = [some 0, some 9] ∧
    10 ≤ (List.replicate 10 false).length ∧ ((List.replicate 10 false).take 10).all (· == false) = true := by decide +kernel
/-- R421: a poll that waits starts as the recovery ends; R426: its transaction. -/
theorem test_tw_waiting_poll : (after (.twRecoveryEnd 3 [false, true]) (tw3 { phase := .recovery, due := [15] })).out =
    [.twStop 3 1, .twStart 3 [144, 0x8D] 145 3] := by decide +kernel

/-- Target port 1 enabled on seat 0, which is open on it, with every right. -/
def target (r : TargetRun) (notices : List Notice) : State :=
  let s := desk live 0 0
  { s with cfg := { s.cfg with tts := vmod s.cfg.tts 1 (fun _ => { word := 0x5801 }) }
           seats := vmod s.seats 0 (fun x => { x with latest := ({ code := 3, port := 1 }, 0), notices := notices })
           tts := vmod s.tts 1 (fun _ => r) }
def notice : Notice := { num := 0, ended := false, nseq := 0, time := 0, index := 0x1000, sub := 1, type := 255, data := [], stamp := 5 }
theorem witness_TargetReadsComplete : (target {} []).ttServes 1 = true ∧ (target {} []).ttMay 1 (some 0x8000) = true ∧
    { target {} [] with seats := live.seats, cfg := { (target {} []).cfg with rights := Vector.replicate 24 0 } }.ttMay 1 (some 0x8000) = false ∧
    (fixedReads (target {} []) 1 true).length = 11 ∧ (pageReads (target {} []) 1 false).length = 4 ∧
    (pageReads (target { page := 16 } []) 1 true).length = 4 ∧ State.reset.ttServes 0 = false ∧
    targetOf (.mfrId ⟨0, true⟩) = some 0 := by decide +kernel
theorem witness_StatusWordShowsItsPage : ((target {} []).tt 1).page = 0 ∧ ((target { page := 16 } []).tt 1).page = 15 + 1 := by
  decide +kernel
def queued : Queued := { at' := 5, reply := { reply0 with host := { code := 3, port := 1 } } }
theorem witness_TargetTransfersComplete :
    pecOk [(target {} []).ttW 1, 0x00, 16] (some (crc8 [(target {} []).ttW 1, 0x00, 16])) = true ∧ (target {} []).ttWritable 1 = true ∧
    (16 : Byte).toNat ≤ 16 ∧ (target {} []).ttSeat 1 = 0 ∧ (target {} []).sessionOk 0 7 = true ∧
    ((target {} []).seat 0).replay = [] ∧ (target {} []).ttFull 1 = false ∧
    (target { responses := List.replicate 8 queued } []).ttFull 1 = true ∧ pecOk [(target {} []).ttW 1, 0x00, 16] (some 0) = false ∧
    (target { responses := [queued] } [notice]).ttNotices 1 = [notice] ∧ queued.at' ≤ notice.stamp ∧
    (target { responses := [{ queued with at' := 6 }] } [notice]).ttEmpty 1 = false ∧
    [0x02, 0x01, 0xFF].all (fun c : Byte => ((target {} []).ttTable 1 c.toNat).isNone) = true ∧
    ((target {} []).ttTable 1 0x79).isSome = true ∧
    (anyObject? (Family.resets.index 0 0) 3).any (fun x => x.fam == .resets) = true ∧
    (anyObject? 0x1221 1).any (fun x => x.row.kind == .reply && decide ((0x5802 : Int) < 2 ^ (8 * x.row.ty.size.getD 0))) = true ∧
    100000 ≤ elapsedAo (target { notified := some 0 } []) 0 ∧ (target { notified := some 0, retry := true } [notice]).ttEmpty 1 = false := by
  decide +kernel

theorem witness_WarmResetsHoldThePart : live.boot.phase = .serving ∧ live.cfg.wdtTimeout ≤ elapsedAo live live.boot.served ∧
    2000000 ≤ elapsedAo live live.boot.released ∧
    { live with boot := { phase := .bench }, patch := { phase := .done, inBench := true } }.benchLoaded = true ∧
    live.boot.resetLow = false ∧ { live with boot := { phase := .starting }, bootRec := { stored := 77 } }.imageData ≠ 77 ∧
    admitsPut (desk live (Family.resets.index 0 0) 3) hdr none (Family.resets.index 0 0) 3 1 = true := by decide +kernel
theorem witness_PowerOnResetsClearThePart : (Instr.vddAoLoss = .vddAoLoss ∧ true = true ∧ live.boot.aoLost = false) ∧
    (Instr.powerOnReset = .powerOnReset ∧ true = (after .vddAoLoss live).boot.aoLost) ∧ false = live.boot.aoLost := by decide +kernel
/-- A boot record whose second commit is under way. -/
def committing : State := live.onRec (fun r => { r with count := 2 })
theorem witness_PowerOnResetsClearThePart_commit : live.bootRec.writing = none ∧ committing.bootRec.writing ≠ none ∧
    committing.score.stopped = false := by decide +kernel
/-- R389: a cut commit leaves the older copy in force, a whole one the newer. -/
theorem test_boot_record_copies : (({ committing.bootRec with writing := none } : BootStore).newest.map (·.record.count)) = some 0 ∧
    (committing.bootRec.commitDone.newest.map (·.record.count)) = some 2 := by decide +kernel
/-- Held after a warm reset; in the boot ROM with three failed starts or with none. -/
def held : State := { live with boot := { powerOn := false }, feeds := vmod live.feeds 15 (fun r => { r with mng := true, phase := .on }) }
def inRom (n : Nat) : State := { live with boot := { phase := .rom }, bootRec := { count := n } }
theorem witness_BootReachesService_hold : held.boot.ended = false ∧ held.boot.resetLow = false ∧ 10 ≤ elapsedAo held held.boot.heldFrom ∧
    held.holdOver = false ∧ State.reset.holdOver = true ∧ (after .powerOnReset live).holdOver = false ∧
    { held with boot := { held.boot with ended := true, refKnown := true, reference := 0 } }.holdOver = true ∧
    live.clock.grid % live.commonPeriod State.allBlocks = 0 ∧
    { live with clock := { grid := 20000001 } }.clock.grid % { live with clock := { grid := 20000001 } }.commonPeriod State.allBlocks ≠ 0 := by
  decide +kernel
theorem witness_BootReachesService : held.boot.phase = .held ∧ held.boot.powerOn = false ∧ State.reset.boot.phase = .held ∧
    State.reset.boot.powerOn = true ∧ (inRom 3).loadsStart.bootRec.count = 3 ∧ (inRom 0).loadsStart.bootRec.count ≠ 3 ∧
    (inRom 0).loadsStart.bootRec.trial = 255 ∧ (inRom 0).loadsStart.bootRec.active = 0 ∧
    (held.bootRec.newest.map (·.record)) = some {} := by decide +kernel
/-- The image that slot A ships with verifies (R388). -/
theorem witness_BootReachesService_slot : (inRom 0).loadsStart.startable 0 = true := by decide +kernel
theorem witness_SupplyAndClocksAreWatched : State.reset.boot.phase = .held ∧ live.boot.phase ≠ .held ∧ live.score.stopped = false ∧
    { live with boot := { live.boot with alive := true, served := 4000000000 } }.aliveDue = true ∧
    { live with score := { live.score with recs := [{ time := 0, seq := 0, kind := 0, episode := 0, payload := [] }], writing := 1 } }.score.recs ≠ [] ∧
    { live with bootRec := { attempt := true } }.bootRec.attempt = true ∧ (after .vddAoLoss live).boot.aoLost = true := by
  decide +kernel

end Sys2Proof.Tests
end

section
/-!
SUPPORT. What a WRITE does once it is admitted: its response, and what each kind of object of Table 13-1 does with the
value (R18, R19, R23, R29, R89, R141, R345).
-/
namespace Sys2Proof.Machine
set_option Elab.async false

/-! ### Commands of the logic die -/

theorem inService_eq {s : State} (h : s.boot.phase ≠ .held) (f : State → State) : inService s f = .next (f s.fresh) := by
  have hb : s.fresh.boot.phase ≠ .held := h
  simp [inService, State.running, hb]

theorem byFirmware_eq {s : State} (h : s.boot.phase ≠ .held) (hf : s.fw = true) (f : State → State) :
    byFirmware s f = .next (f s.fresh) := by
  have hb : s.fresh.boot.phase ≠ .held := h
  have hf : s.fresh.fw = true := hf
  simp [byFirmware, State.running, hb, State.withFirmware, hf]

/-- A host that is served directly, on UDP or CAN FD, has the long limit of Table 12-9. -/
theorem Taken.limit {s : State} {h : Hdr} (t : Taken s h) : limitOf h.host = 1232 := by
  have : h.host.code ≠ 3 := by have := t.transport; omega
  simp [limitOf, this]

theorem OnlyChanges.keeps_seat {ps : List Part} {s t : State} (h : OnlyChanges ps s t) (w : Part.seats ∉ ps) (k : Nat) :
    t.seat k = s.seat k := by
  simp only [State.seat, h.keeps_seats w]

theorem State.sessionOk_of_only {ps : List Part} {s t : State} (h : OnlyChanges ps s t) (w : Part.seats ∉ ps) (k : Nat)
    (x : Half) : t.sessionOk k x = s.sessionOk k x := by
  simp only [State.sessionOk, h.keeps_seat w]

/-! ### The response -/

/-- From `t`, the state that an operation leaves, to `w` its response with a status has left; of a seat only the responses
kept for repeats change. -/
structure Responded (h : Hdr) (op status : Nat) (t w : State) : Prop where
  only : OnlyChanges [.sent, .seats] t w
  answered : Answered w h op status
  seat : ∀ {α : Type} (p : SeatRun → α), (∀ r rs, p { r with replay := rs } = p r) → ∀ k, p (w.seat k) = p (t.seat k)

theorem State.finish_responded {h : Hdr} {op status reason : Nat} {t : State}
    (ok : t.sessionOk h.seat h.session = true) (c : h.host.code = 1 ∨ h.host.code = 2) :
    Responded h op status t (State.finish h op { state := t, status := status, reason := reason }) := by
  have c3 : ¬ h.host.code = 3 := by omega
  let r := State.makeReply h op status reason h.session []
  let t1 := t.onSeat h.seat (fun x => { x with replay := (r :: x.replay).take 16 })
  have hr : r.status = status := by simp [r, State.makeReply, limitOf, c3]
  have hc : r.host.code = h.host.code := rfl
  have e : State.finish h op { state := t, status := status, reason := reason } =
      { t1 with out := t1.out ++ t1.replySent r } := by
    simp [State.finish, ok, c3, State.send, t1, r, hc, State.takeEffect]
  rw [e]
  exact {
    only := (set_out_only _ _).step rfl ((State.onSeat_only _ _ _).mono rfl)
    answered := ⟨r, by simp [State.replySent], rfl, rfl, rfl, rfl, rfl, rfl, hr⟩
    seat := fun p hp => State.seat_onSeat_same t h.seat _ p (fun x => hp x _) }

theorem State.request_responded {s t : State} {h : Hdr} {r : Req} {status reason : Nat} (tk : Taken s h)
    (f : r.inSeat = true) (ok : r.ok = true) (fits : r.size ≤ limitOf h.host)
    (sv : (s.arrived h).serve h r = { state := t, status := status, reason := reason })
    (hs : t.sessionOk h.seat h.session = true) :
    Responded h r.op status t (s.fresh.running fun u => u.request h r) := by
  rw [State.request_taken tk f ok fits, sv]
  exact State.finish_responded hs tk.transport

/-! ### The checks of a WRITE -/

/-- The check of the expected epoch (R18, R346). -/
def State.epochCheck (s : State) (e : Expect) (x : Obj) : Except Nat Obj :=
  match e with
  | some (p, epoch) =>
    if (s.port p).epoch != epoch then .error 0x0B
    else if s.rolePending p then .error 0x0C else .ok x
  | none => .ok x

/-- The expected epoch is checked last: a WRITE with one passes the checks of a WRITE without, then its own. -/
theorem State.writeCheck_epoch_last (s : State) (k index sub : Nat) (e : Expect) (bs : List Byte) :
    s.writeCheck k index sub e bs = (s.writeCheck k index sub none bs).bind (s.epochCheck e) := by
  unfold State.writeCheck
  extract_lets bench
  cases anyObject? index sub with
  | none => rfl
  | some x =>
    dsimp only
    iterate 6 (split; · rfl)
    rfl

/-- The epoch that a WRITE expects is not the port's (R18). -/
theorem State.writeCheck_other_epoch {s : State} {k index sub p : Nat} {epoch : Half} {bs : List Byte} {x : Obj}
    (h : s.writeCheck k index sub none bs = .ok x) (he : (s.port p).epoch ≠ epoch) :
    s.writeCheck k index sub (some (p, epoch)) bs = .error 0x0B := by
  rw [State.writeCheck_epoch_last, h]
  simp [Except.bind, State.epochCheck, he]

theorem State.writeCheck_without_epoch {s : State} {k index sub : Nat} {e : Expect} {bs : List Byte} {x : Obj}
    (h : s.writeCheck k index sub e bs = .ok x) : ∃ y, s.writeCheck k index sub none bs = .ok y := by
  rw [State.writeCheck_epoch_last] at h
  cases hy : s.writeCheck k index sub none bs with
  | error r => rw [hy] at h; cases h
  | ok y => exact ⟨y, rfl⟩

/-- A WRITE that passes the checks does not write a count, and writes the seat's own sub-entry of a combined object
(R343, R345, R367). -/
theorem State.writeCheck_sub {s : State} {k index sub : Nat} {bs : List Byte} {x : Obj}
    (h : s.writeCheck k index sub none bs = .ok x) : x.sub ≠ 0 ∧ (x.row.pol = .cmbMin → sub = k + 1) := by
  unfold State.writeCheck at h
  extract_lets at h
  cases hy : anyObject? index sub with
  | none => simp [hy] at h
  | some y =>
    simp only [hy] at h
    iterate 6 (split at h; · cases h)
    injection h with h
    subst h
    simp_all

/-! ### Objects of the dictionary -/

/-- An object lies where its index says, in the table of its family unless it is a count or a vendor's. -/
theorem anyObject_located {index sub : Nat} {x : Obj} (hx : anyObject? index sub = some x) :
    x.sub = sub ∧ locate index = some (x.fam, x.unit, x.off) ∧
      (x.row ∈ x.fam.rows ∨ (x.row.kind = .plain ∧ (x.sub = 0 ∨ x.fam = .vendor))) := by
  unfold anyObject? at hx
  split at hx
  · rename_i y hy
    obtain rfl : y = x := by injection hx
    unfold object? at hy
    split at hy
    · cases hy
    · rename_i f u o hl
      split at hy
      · rename_i hf
        split at hy
        · injection hy with hy
          subst hy
          exact ⟨rfl, hl, .inr ⟨rfl, .inr (by simpa using hf)⟩⟩
        · cases hy
      · obtain ⟨r, hr, rfl⟩ := Option.map_eq_some_iff.mp hy
        exact ⟨rfl, hl, .inl (List.mem_of_find?_eq_some hr)⟩
  · split at hx
    · rename_i h0
      obtain ⟨l, hl, rfl⟩ := Option.map_eq_some_iff.mp hx
      exact ⟨h0.symm, hl, .inr ⟨rfl, .inl rfl⟩⟩
    · cases hx

theorem Family.rows_tap {f : Family} {r : Row} (hr : r ∈ f.rows) (hk : r.kind = .tap) : f = .flat := by
  have all : ∀ r ∈ f.rows, r.kind = .tap → f = .flat := by cases f <;> decide
  exact all r hr hk

theorem Family.rows_resets {r : Row} (hr : r ∈ Family.resets.rows) : r.kind = .plain := by
  have all : ∀ r ∈ Family.resets.rows, r.kind = .plain := by decide
  exact all r hr

theorem anyObject_tap {index sub : Nat} {x : Obj} (hx : anyObject? index sub = some x) (hk : x.row.kind = .tap) :
    x.fam = .flat := by
  obtain ⟨-, -, hr | ⟨hp, -⟩⟩ := anyObject_located hx
  · exact Family.rows_tap hr hk
  · rw [hk] at hp; cases hp

theorem anyObject_not_resets {index sub : Nat} {x : Obj} (hx : anyObject? index sub = some x) (hk : x.row.kind ≠ .plain) :
    x.fam ≠ .resets := by
  obtain ⟨-, -, hr | ⟨hp, -⟩⟩ := anyObject_located hx
  · intro hf
    rw [hf] at hr
    exact hk (Family.rows_resets hr)
  · exact absurd hp hk

/-- The combined objects: the shelf input cap and the zone caps (R345). -/
theorem locate_combined {index : Nat} (h : index = 0x2100 ∨ (0x2110 ≤ index ∧ index < 0x2120)) :
    ∃ f u, (f = .capShelf ∨ f = .capZone) ∧ locate index = some (f, u, 0) ∧ f.index u 0 = index := by
  rcases h with rfl | ⟨h1, h2⟩
  · exact ⟨.capShelf, 0, .inl rfl, by decide, by decide⟩
  · obtain ⟨u, rfl⟩ : ∃ u, index = 0x2110 + u := ⟨index - 0x2110, by omega⟩
    have hu : u < 16 := by omega
    refine ⟨.capZone, u, .inr rfl, ?_, ?_⟩
    · interval_cases u <;> decide
    · interval_cases u <;> decide

/-! ### An admitted WRITE -/

theorem size_le_eight {ty : ObjType} {n : Nat} (h : ty.size = some n) : n ≤ 8 := by
  cases ty <;> simp [ObjType.size] at h <;> omega

theorem Req.ok_write {e : Expect} {index sub offset : Nat} {bs : List Byte}
    (hp : ∀ p x, e = some (p, x) → p < 48) : (Req.write index sub e offset bs).ok = true := by
  cases e with
  | none => rfl
  | some p => simpa [Req.ok] using hp p.1 p.2 rfl

/-- An admitted WRITE whose operation leaves `t` is answered with status 0. -/
theorem Admitted.write_responded {s t : State} {h : Hdr} {e : Expect} {index sub : Nat} {bs : List Byte} {x : Obj}
    (ad : Admitted s h e index sub bs) (hx : anyObject? index sub = some x) (fits : 24 + bs.length ≤ limitOf h.host)
    (hk : x.row.kind ≠ .reply) (hf : x.fam ≠ .resets)
    (hw : (s.arrived h).hostWrite h.seat h.host x 0 bs = .ok t) (hs : t.sessionOk h.seat h.session = true) :
    Responded h 0x11 0 t (s.fresh.running fun u => u.request h (.write index sub e 0 bs)) := by
  obtain ⟨y, hy⟩ := ad.checks
  obtain rfl := State.writeCheck_obj hy hx
  refine State.request_responded (reason := 0) ad.taken rfl (Req.ok_write ad.port) fits ?_ hs
  have hb : (s.arrived h).boot.phase = .serving := ad.taken.serving
  simp [State.serve, hb, State.doWrite, State.writeCheck_arrived, hy, hw, hk, hf]

/-- A WRITE that one of the checks of R337 from the object to the epoch refuses changes nothing; R404 and R376 mark the
refusal for lack of presence, status 0x06, alone. -/
theorem Taken.write_refused {s : State} {h : Hdr} {e : Expect} {index sub status : Nat} {bs : List Byte}
    (tk : Taken s h) (hp : ∀ p x, e = some (p, x) → p < 48) (fits : 24 + bs.length ≤ limitOf h.host)
    (hc : s.writeCheck h.seat index sub e bs = .error status) (h6 : status ≠ 0x06) :
    Responded h 0x11 status (s.arrived h) (s.fresh.running fun u => u.request h (.write index sub e 0 bs)) := by
  refine State.request_responded (reason := 0) tk rfl (Req.ok_write hp) fits ?_ (State.arrived_ok tk)
  have hb : (s.arrived h).boot.phase = .serving := tk.serving
  simp only [State.serve, hb, State.doWrite, State.writeCheck_arrived, hc, h6]
  cases anyObject? index sub <;> rfl

/-! ### The expected epoch -/

/-- Settles O16: the expected epoch is the last check of a WRITE, and the only one that looks at a port. -/
theorem expectedEpochIsCompared : Obligations.ExpectedEpochIsCompared := by
  unfold Obligations.ExpectedEpochIsCompared
  refine ⟨?_, fun _ _ _ _ _ _ => rfl⟩
  intro s h index sub p epoch bs ad hp fits he
  obtain ⟨x, hx⟩ := ad.checks
  have resp := ad.taken.write_refused (e := some (p, epoch)) (by rintro q y ⟨⟩; exact hp) fits
    (State.writeCheck_other_epoch hx he) (by decide)
  exact ⟨_, rfl, resp.answered, (State.arrived_only s h).trans resp.only⟩

/-! ### Values by the kind of their object -/

/-- A waiting write is one of a value to an object. -/
def Waiting.IsFor (w : Waiting) (x : Obj) (v : Int) : Prop :=
  w.index = x.fam.index x.unit x.off ∧ w.sub = x.sub ∧ w.value = v

theorem State.hostWrite_number {s : State} {k : Nat} {h : HostId} {x : Obj} {n : Nat} {v : Int}
    (hn : x.row.ty.size = some n) (hl : (x.row.ty.encode v).length = n) (hv : x.row.ty.decode (x.row.ty.encode v) = v) :
    s.hostWrite k h x 0 (x.row.ty.encode v) = s.writeValue k h x v := by
  simp [State.hostWrite, hn, hl, hv]

section
variable {s : State} {k : Nat} {h : HostId} {x : Obj} {v : Int}

/-- A staged field of a bank that no commit has frozen (R19). -/
theorem State.writeStaged_pending (hm : lockedMask x.fam x.off x.sub = 0)
    (hf : s.frozen ((x.fam.block? x.unit).getD 0) = false) :
    ∃ t, s.writeStaged k h x v = .ok t ∧ t.staged = s.staged.put x.fam x.unit x.off x.sub v ∧
      OnlyChanges [.staged, .score] s t := by
  simp only [State.writeStaged, hm, hf, Nat.and_zero, bne_self_eq_false, Bool.false_and, Bool.false_eq_true, if_false]
  refine ⟨_, rfl, (State.logWrite_only _ _ _ _ _ _).keeps_staged (by decide), ?_⟩
  exact (State.logWrite_only _ _ _ _ _ _).step rfl ((set_staged_only _ _).mono rfl)

/-- A staged field of a bank that an armed commit has frozen is held (R29). -/
theorem State.writeStaged_held (hm : lockedMask x.fam x.off x.sub = 0)
    (hf : s.frozen ((x.fam.block? x.unit).getD 0) = true) :
    ∃ w : Waiting, s.writeStaged k h x v = .ok { s with commits := { s.commits with held := s.commits.held ++ [w] } } ∧
      w.IsFor x v := by
  simp only [State.writeStaged, hm, hf, Nat.and_zero, bne_self_eq_false, Bool.false_and, Bool.false_eq_true, if_false, if_true]
  exact ⟨_, rfl, rfl, rfl, rfl⟩

/-- An immediate field reaches the pending bank and waits for its boundary (R23). -/
theorem State.writeImmediate_done (hc : x.fam ≠ .channel) (hr : rowOk x v = true) :
    ∃ t w, s.writeImmediate k h x v = .ok t ∧ t.staged = s.staged.put x.fam x.unit x.off x.sub v ∧
      t.commits.imm = s.commits.imm ++ [w] ∧ w.IsFor x v ∧ OnlyChanges [.staged, .models, .score, .commits] s t := by
  have hc : (x.fam == .channel) = false := by simpa using hc
  let w : Waiting := { index := x.fam.index x.unit x.off, sub := x.sub, value := v, at' := s.clock.grid }
  have hw : ∃ t, s.writeImmediate k h x v = .ok t ∧ t.staged = s.staged.put x.fam x.unit x.off x.sub v ∧
      t.commits.imm = s.commits.imm ++ [w] := by
    simp only [State.writeImmediate, hc, hr, Bool.false_and, Bool.not_true, Bool.false_eq_true, if_false]
    refine ⟨_, rfl, ?_, ?_⟩
    · rw [(State.logWrite_only _ _ _ _ _ _).keeps_staged (by decide)]
      split <;> rfl
    · rw [(State.logWrite_only _ _ _ _ _ _).keeps_commits (by decide)]
      split <;> rfl
  obtain ⟨t, ht, h1, h2⟩ := hw
  exact ⟨t, w, ht, h1, h2, ⟨rfl, rfl, rfl⟩, State.writeImmediate_only _ _ _ _ _ t ht⟩

/-- A setting waits for its tap or its mark (R89, R141). -/
theorem State.writeWaiting_done (h1 : x.fam ≠ .rail) (h2 : x.fam ≠ .capture) (hr : s.settingRefused x v = none) :
    ∃ t w, s.writeWaiting k h x v = .ok t ∧ w.IsFor x v ∧
      t.commits = if x.row.kind = .tap then { s.commits with taps := s.commits.taps ++ [w] }
        else { s.commits with marks := s.commits.marks ++ [w] } := by
  simp only [State.writeWaiting, hr, beq_iff_eq, h1, h2, Bool.and_eq_true, false_and, if_false]
  refine ⟨_, { index := x.fam.index x.unit x.off, sub := x.sub, value := v
               at' := if x.row.kind = .tap then s.flat.taps else s.clock.grid }, rfl, ⟨rfl, rfl, rfl⟩, ?_⟩
  exact (State.logWrite_only _ _ _ _ _ _).keeps_commits (by decide)

end

/-- An admitted WRITE of a number to an object with a kind, whose operation leaves `t`, is answered with status 0. -/
theorem AdmittedPut.responded {s t : State} {h : Hdr} {e : Expect} {index sub n : Nat} {v : Int} {x : Obj} {ps : List Part}
    (ad : AdmittedPut s h e index sub v) (hx : anyObject? index sub = some x) (hn : x.row.ty.size = some n)
    (hl : (x.row.ty.encode v).length = n) (hv : x.row.ty.decode (x.row.ty.encode v) = v)
    (hk : x.row.kind ≠ .plain) (hr : x.row.kind ≠ .reply)
    (hw : (s.arrived h).writeValue h.seat h.host x v = .ok t) (only : OnlyChanges ps (s.arrived h) t) (hs : Part.seats ∉ ps) :
    Responded h 0x11 0 t (s.fresh.running fun u => u.request h (.write index sub e 0 (x.row.ty.encode v))) := by
  have ad : Admitted s h e index sub (x.row.ty.encode v) := by simpa only [AdmittedPut, putOctets, hx] using ad
  refine ad.write_responded hx ?_ hr (anyObject_not_resets hx hk) ?_ ?_
  · have := size_le_eight hn
    rw [ad.taken.limit, hl]; omega
  · rw [State.hostWrite_number hn hl hv, hw]
  · rw [State.sessionOk_of_only only hs, State.arrived_ok ad.taken]

/-! ### The kinds of Table 13-1 -/

section
variable {s : State} {h : Hdr} {e : Expect} {index sub n : Nat} {v : Int} {x : Obj}
  (ad : AdmittedPut s h e index sub v) (hx : anyObject? index sub = some x) (hn : x.row.ty.size = some n)
  (hl : (x.row.ty.encode v).length = n) (hv : x.row.ty.decode (x.row.ty.encode v) = v)
include ad hx hn hl hv

theorem AdmittedPut.staged_pending (hk : x.row.kind = .staged) (hf : s.frozen ((x.fam.block? x.unit).getD 0) = false)
    (hm : lockedMask x.fam x.off x.sub = 0) :
    ∃ t, Machine.exec (.write h index sub e 0 (x.row.ty.encode v)) s = .next t ∧ Accepted t h ∧
      t.staged = s.staged.put x.fam x.unit x.off x.sub v ∧ t.active = s.active ∧
      OnlyChanges [.sent, .seats, .staged, .score] s t := by
  obtain ⟨t, ht, hst, only⟩ :=
    State.writeStaged_pending (s := s.arrived h) (k := h.seat) (h := h.host) (v := v) hm hf
  have resp := ad.responded hx hn hl hv (by simp [hk]) (by simp [hk]) (by simp only [State.writeValue, hk, ht]) only (by decide)
  have whole : OnlyChanges [.sent, .seats, .staged, .score] s _ :=
    ((State.arrived_only s h).mono rfl).trans ((only.mono rfl).trans (resp.only.mono rfl))
  exact ⟨_, rfl, resp.answered, (resp.only.keeps_staged (by decide)).trans hst, whole.keeps_active (by decide), whole⟩

theorem AdmittedPut.staged_held (hk : x.row.kind = .staged) (hf : s.frozen ((x.fam.block? x.unit).getD 0) = true)
    (hm : lockedMask x.fam x.off x.sub = 0) :
    ∃ t w, Machine.exec (.write h index sub e 0 (x.row.ty.encode v)) s = .next t ∧ Accepted t h ∧
      t.staged = s.staged ∧ t.active = s.active ∧ t.commits = { s.commits with held := s.commits.held ++ [w] } ∧
      w.IsFor x v ∧ OnlyChanges [.sent, .seats, .commits] s t := by
  obtain ⟨w, ht, hw⟩ := State.writeStaged_held (s := s.arrived h) (k := h.seat) (h := h.host) (v := v) hm hf
  have only := set_commits_only (s.arrived h) { s.commits with held := s.commits.held ++ [w] }
  have resp := ad.responded hx hn hl hv (by simp [hk]) (by simp [hk]) (by simp only [State.writeValue, hk, ht]; rfl) only
    (by decide)
  have whole : OnlyChanges [.sent, .seats, .commits] s _ :=
    ((State.arrived_only s h).mono rfl).trans ((only.mono rfl).trans (resp.only.mono rfl))
  exact ⟨_, w, rfl, resp.answered, whole.keeps_staged (by decide), whole.keeps_active (by decide),
    resp.only.keeps_commits (by decide), hw, whole⟩

theorem AdmittedPut.immediate_waits (hk : x.row.kind = .immediate) (hr : rowOk x v = true) (hc : x.fam ≠ .channel) :
    ∃ t w, Machine.exec (.write h index sub e 0 (x.row.ty.encode v)) s = .next t ∧ Accepted t h ∧
      t.staged = s.staged.put x.fam x.unit x.off x.sub v ∧ t.active = s.active ∧
      t.commits.imm = s.commits.imm ++ [w] ∧ w.IsFor x v := by
  obtain ⟨t, w, ht, hst, him, hw, only⟩ :=
    State.writeImmediate_done (s := s.arrived h) (k := h.seat) (h := h.host) hc hr
  have resp := ad.responded hx hn hl hv (by simp [hk]) (by simp [hk]) (by simp only [State.writeValue, hk, ht]) only (by decide)
  exact ⟨_, w, rfl, resp.answered, (resp.only.keeps_staged (by decide)).trans hst,
    (resp.only.keeps_active (by decide)).trans (only.keeps_active (by decide)),
    (congrArg CommitRun.imm (resp.only.keeps_commits (by decide))).trans him, hw⟩

/-- A setting that waits: the WRITE answers, and `t`, where it waits, differs from the state before in little. -/
theorem AdmittedPut.waiting_responded (hk : x.row.kind = .mark ∨ x.row.kind = .tap) {t : State}
    (ht : (s.arrived h).writeWaiting h.seat h.host x v = .ok t) :
    ∃ u, Machine.exec (.write h index sub e 0 (x.row.ty.encode v)) s = .next u ∧ Accepted u h ∧ u.commits = t.commits ∧
      OnlyChanges [.sent, .seats, .commits, .score] s u := by
  have only := State.writeWaiting_only _ _ _ _ _ t ht
  have hp : x.row.kind ≠ .plain ∧ x.row.kind ≠ .reply := by rcases hk with hk | hk <;> simp [hk]
  have hw : (s.arrived h).writeValue h.seat h.host x v = .ok t := by
    rcases hk with hk | hk <;> simp only [State.writeValue, hk, ht]
  have resp := ad.responded hx hn hl hv hp.1 hp.2 hw only (by decide)
  exact ⟨_, rfl, resp.answered, resp.only.keeps_commits (by decide),
    ((State.arrived_only s h).mono rfl).trans ((only.mono rfl).trans (resp.only.mono rfl))⟩

theorem AdmittedPut.mark_waits (hk : x.row.kind = .mark) (h1 : x.fam ≠ .rail) (h2 : x.fam ≠ .capture)
    (hr : (s.arrived h).settingRefused x v = none) :
    ∃ t w, Machine.exec (.write h index sub e 0 (x.row.ty.encode v)) s = .next t ∧ Accepted t h ∧
      t.commits.marks = s.commits.marks ++ [w] ∧ w.IsFor x v ∧ OnlyChanges [.sent, .seats, .commits, .score] s t := by
  obtain ⟨t, w, ht, hw, hm⟩ := State.writeWaiting_done (k := h.seat) (h := h.host) h1 h2 hr
  obtain ⟨u, hu, ha, hc, only⟩ := ad.waiting_responded hx hn hl hv (.inl hk) ht
  exact ⟨u, w, hu, ha, by simp [hc, hm, hk, State.arrived, State.fresh], hw, only⟩

theorem AdmittedPut.tap_waits (hk : x.row.kind = .tap) (hr : (s.arrived h).settingRefused x v = none) :
    ∃ t w, Machine.exec (.write h index sub e 0 (x.row.ty.encode v)) s = .next t ∧ Accepted t h ∧
      t.commits.taps = s.commits.taps ++ [w] ∧ w.IsFor x v ∧ OnlyChanges [.sent, .seats, .commits, .score] s t := by
  have hf := anyObject_tap hx hk
  obtain ⟨t, w, ht, hw, hm⟩ :=
    State.writeWaiting_done (k := h.seat) (h := h.host) (by simp [hf]) (by simp [hf]) hr
  obtain ⟨u, hu, ha, hc, only⟩ := ad.waiting_responded hx hn hl hv (.inr hk) ht
  exact ⟨u, w, hu, ha, by simp [hc, hm, hk, State.arrived, State.fresh], hw, only⟩

end

/-- A WRITE without an expected epoch is admitted where one with an epoch is. -/
theorem AdmittedPut.without_epoch {s : State} {h : Hdr} {e : Expect} {index sub : Nat} {v : Int}
    (ad : AdmittedPut s h e index sub v) : AdmittedPut s h none index sub v := by
  obtain ⟨x, hx⟩ := ad.checks
  exact ⟨ad.taken, fun _ _ h => (by cases h), State.writeCheck_without_epoch hx⟩

/-- The combined objects have one row, of kind Mark (R345). -/
theorem combined_row {f : Family} {r : Row} (hf : f = .capShelf ∨ f = .capZone) (hr : r ∈ f.rows) :
    r = .mk 0 1 8 .i32 .rw .cmbMin .mark 0 2147483647 := by
  rcases hf with rfl | rfl <;> exact List.mem_singleton.mp hr

/-- A combined object that is no count is a sub-entry of that row. -/
theorem combined_object {index sub : Nat} {x : Obj} (hi : index = 0x2100 ∨ (0x2110 ≤ index ∧ index < 0x2120))
    (hx : anyObject? index sub = some x) (h0 : x.sub ≠ 0) :
    (x.fam = .capShelf ∨ x.fam = .capZone) ∧ x.fam.index x.unit x.off = index ∧ x.sub = sub ∧
      x.row = .mk 0 1 8 .i32 .rw .cmbMin .mark 0 2147483647 := by
  obtain ⟨f, u, hf, hl, hix⟩ := locate_combined hi
  obtain ⟨hs, hl', hr⟩ := anyObject_located hx
  have he : (x.fam, x.unit, x.off) = (f, u, 0) := by rw [hl] at hl'; exact (Option.some.inj hl').symm
  obtain ⟨rfl, rfl, ho⟩ : x.fam = f ∧ x.unit = u ∧ x.off = 0 := by simpa using he
  have hv : x.fam ≠ .vendor := by rcases hf with hf | hf <;> simp [hf]
  have hr : x.row ∈ x.fam.rows := hr.resolve_right (fun h => h.2.elim h0 hv)
  exact ⟨hf, by rw [ho, hix], hs, combined_row hf hr⟩

theorem settingRefused_combined {s : State} {x : Obj} {v : Int} (hf : x.fam = .capShelf ∨ x.fam = .capZone)
    (hr : x.row = .mk 0 1 8 .i32 .rw .cmbMin .mark 0 2147483647) (h0 : 0 ≤ v) (h1 : v < 2147483648) :
    s.settingRefused x v = none := by
  have hok : rowOk x v = true := by
    have hle : v ≤ 2147483647 := by omega
    rcases hf with hf | hf <;> simp [rowOk, hr, hf, wordOk, wordMask, h0, hle]
  rcases hf with hf | hf <;> simp [State.settingRefused, hok, hf]

/-- A WRITE to a combined sub-entry waits for its mark (R345). -/
theorem AdmittedPut.combined_waits {s : State} {h : Hdr} {e : Expect} {index sub n : Nat} {v : Int} {x : Obj}
    (ad : AdmittedPut s h e index sub v) (hx : anyObject? index sub = some x) (hn : x.row.ty.size = some n)
    (hl : (x.row.ty.encode v).length = n) (hv : x.row.ty.decode (x.row.ty.encode v) = v)
    (hi : index = 0x2100 ∨ (0x2110 ≤ index ∧ index < 0x2120)) (h0 : 0 ≤ v) (h1 : v < 2147483648) :
    ∃ t w, Machine.exec (.combinedSubentryWrite h index sub v) s = .next t ∧ Accepted t h ∧ sub = h.seat + 1 ∧
      t.commits.marks = s.commits.marks ++ [w] ∧ w.index = index ∧ w.sub = sub ∧ w.value = v := by
  have ad := ad.without_epoch
  obtain ⟨y, hc⟩ := ad.checks
  obtain rfl := State.writeCheck_obj hc hx
  obtain ⟨hsub, hown⟩ := State.writeCheck_sub hc
  obtain ⟨hf, hix, hs, hr⟩ := combined_object hi hx hsub
  obtain ⟨t, w, ht, ha, hm, ⟨hw1, hw2, hw3⟩, -⟩ := ad.mark_waits hx hn hl hv (by rw [hr]) (by rcases hf with hf | hf <;> simp [hf])
    (by rcases hf with hf | hf <;> simp [hf]) (settingRefused_combined hf hr h0 h1)
  have hexec : Machine.exec (.combinedSubentryWrite h index sub v) s =
      Machine.exec (.write h index sub none 0 (y.row.ty.encode v)) s := by
    have hb : (index == 0x2100 || (decide (0x2110 ≤ index) && decide (index < 0x2120))) = true := by simpa using hi
    show inService s _ = inService s _
    simp [State.writeRequest, hx, hb]
  exact ⟨t, w, hexec.trans ht, ha, hown (by rw [hr]), hm, hw1.trans hix, hw2.trans hs, hw3⟩

/-- Settles O15: each kind of object does with an admitted value what Table 13-1 says of it. -/
theorem writesAct : Obligations.WritesAct := by
  unfold Obligations.WritesAct
  intro s h e index sub n v x ad hx hn hl hv
  have held := ad.staged_held hx hn hl hv
  have mark := ad.mark_waits hx hn hl hv
  have tap := ad.tap_waits hx hn hl hv
  simp only [Waiting.IsFor, and_assoc] at held mark tap
  exact ⟨ad.staged_pending hx hn hl hv, held, ad.immediate_waits hx hn hl hv, mark, tap, ad.combined_waits hx hn hl hv⟩

end Sys2Proof.Machine
end

section
/-!
SUPPORT. How writes that wait take effect: settings at their mark or tap, immediate fields at their boundary, change
records when their hold-off has passed (R23, R89, R141, R213, R288, R321, R322).
-/
namespace Sys2Proof.Machine
set_option Elab.async false

/-- What a filter picks, the filter by the opposite leaves out. -/
theorem not_mem_filter_not {α : Type} {l : List α} {p : α → Bool} {a : α} (h : l.filter p = [a]) :
    a ∉ l.filter (fun b => !p b) := by
  have ha : a ∈ l.filter p := h ▸ List.mem_singleton_self a
  simp [(List.mem_filter.mp ha).2]

/-! ### Settings take their values -/

/-- A waiting setting whose value lies in the settings alone: not in the banks of a feed, and no list of signals. -/
def Waiting.InSettings (w : Waiting) : Prop :=
  ∃ x, object? w.index w.sub = some x ∧ x.fam ≠ .zone ∧ (x.fam = .capture → x.sub ≠ 2)

/-- The settings with a waiting write in force. -/
def Settings.withWrite (c : Settings) (w : Waiting) : Settings :=
  match object? w.index w.sub with
  | some x => c.put x.fam x.unit x.sub w.value
  | none => c

theorem Settings.withWrite_object {c : Settings} {w : Waiting} {x : Obj} (hx : object? w.index w.sub = some x) :
    c.withWrite w = c.put x.fam x.unit x.sub w.value := by
  simp only [Settings.withWrite, hx]

theorem State.takeSetting_settings {s : State} {w : Waiting} (hw : w.InSettings) :
    (s.takeSetting w).cfg = s.cfg.withWrite w ∧ OnlyChanges [.tb, .cfg, .dets, .tws, .sensors, .lint] s (s.takeSetting w) := by
  obtain ⟨x, hx, hz, hc⟩ := hw
  have e : s.takeSetting w = State.settingTaken { s with cfg := s.cfg.withWrite w } s.cfg x := by
    simp only [State.takeSetting, Settings.withWrite_object hx, hx, beq_iff_eq, hz, if_false, Bool.and_eq_true]
    rw [if_neg fun h => hc h.1 h.2]
  rw [e]
  exact ⟨(State.settingTaken_only _ _ _).keeps_cfg (by decide),
    (State.settingTaken_only _ _ _).step rfl ((set_cfg_only _ _).mono rfl)⟩

/-- Settings take their values in order of acceptance (R89, R141). -/
theorem State.takeSettings_inOrder {ws : List Waiting} (hw : ∀ w ∈ ws, w.InSettings) (s : State) :
    (ws.foldl State.takeSetting s).cfg = ws.foldl Settings.withWrite s.cfg ∧
      OnlyChanges [.tb, .cfg, .dets, .tws, .sensors, .lint] s (ws.foldl State.takeSetting s) := by
  induction ws generalizing s with
  | nil => exact ⟨rfl, .refl _ _⟩
  | cons w ws ih =>
    obtain ⟨hcfg, only⟩ := State.takeSetting_settings (s := s) (hw w (by simp))
    obtain ⟨hrest, onlyRest⟩ := ih (fun v hv => hw v (by simp [hv])) (s.takeSetting w)
    exact ⟨by simp only [List.foldl_cons, hrest, hcfg], only.trans onlyRest⟩

/-- THR_FORCE takes its value in both banks of its feed (R213). -/
theorem State.takeSetting_zone {s : State} {w : Waiting} {x : Obj} (hx : object? w.index w.sub = some x) (hz : x.fam = .zone) :
    s.takeSetting w = { s with active := s.active.put .zone x.unit 0 x.sub w.value
                               staged := s.staged.put .zone x.unit 0 x.sub w.value } := by
  simp [State.takeSetting, hx, hz]

/-- A list of signals is the capture's (R322). -/
theorem State.takeSetting_signals {s : State} {w : Waiting} {x : Obj} (hx : object? w.index w.sub = some x)
    (hf : x.fam = .capture) (hs : x.sub = 2) (hu : x.unit < 8) {i : Nat} (hi : i < 32) :
    vget (vget (s.takeSetting w).cfg.captures x.unit {}).signals i 0 = w.list.getD i 0 := by
  simp only [State.takeSetting, hx, hf, hs]
  simp [vget_vmod_self _ _ _ _ hu]
  simp [vget, hi]

/-! ### Marks and taps -/

/-- The settings whose mark has come. -/
def State.dueMarks (s : State) : List Waiting := s.commits.marks.filter (fun w => s.markPassed w.at')

/-- The settings whose mark is still to come wait on. -/
def State.leaveMarks (s : State) : State :=
  { s with commits := { s.commits with marks := s.commits.marks.filter (fun w => !s.markPassed w.at') } }

/-- At a mark the due settings take their values; what follows from them lies in the ports and the input loss. -/
theorem State.marksTake_settings (s : State) :
    OnlyChanges [.chans, .ports, .shelf] (s.dueMarks.foldl State.takeSetting s.leaveMarks) s.marksTake := by
  unfold State.marksTake
  refine .step (State.lossEdge_only _) rfl ?_
  exact .ite (.foldl (fun u p => (State.deliverParams_only u p).mono rfl) (.refl _ _)) (.refl _ _)

theorem State.takeSettings_keep_commits (ws : List Waiting) (s : State) :
    (ws.foldl State.takeSetting s).commits = s.commits :=
  (OnlyChanges.foldl (fun u w => State.takeSetting_only u w) (.refl _ s)).keeps_commits (by decide)

theorem State.marksTake_commits (s : State) : s.marksTake.commits = s.leaveMarks.commits := by
  rw [(State.marksTake_settings s).keeps_commits (by decide), State.takeSettings_keep_commits]

theorem State.not_mem_marksTake {s : State} {w : Waiting} (h : s.dueMarks = [w]) : w ∉ s.marksTake.commits.marks := by
  rw [State.marksTake_commits]
  exact not_mem_filter_not (p := fun w : Waiting => s.markPassed w.at') h

theorem markWritesTakeEffect : MarkWritesTakeEffect := by
  refine ⟨?_, ?_⟩
  · intro s hb hall
    have due : ∀ w ∈ s.fresh.dueMarks, w.InSettings := fun w hw => hall w (List.mem_filter.mp hw).1
    obtain ⟨hcfg, only⟩ := State.takeSettings_inOrder due s.fresh.leaveMarks
    have rest := State.marksTake_settings s.fresh
    refine ⟨_, inService_eq hb _, (rest.keeps_active (by decide)).trans (only.keeps_active (by decide)),
      (rest.keeps_staged (by decide)).trans (only.keeps_staged (by decide)), State.marksTake_commits _, ?_⟩
    rw [rest.keeps_cfg (by decide), hcfg]
    rfl
  · intro s w x hb hdue hx
    have hdue : s.fresh.dueMarks = [w] := hdue
    have rest := State.marksTake_settings s.fresh
    rw [hdue] at rest
    refine ⟨_, inService_eq hb _, State.not_mem_marksTake hdue, ?_, ?_, ?_⟩
    · intro hz
      rw [rest.keeps_cfg (by decide), rest.keeps_active (by decide), rest.keeps_staged (by decide), List.foldl_cons,
        State.takeSetting_zone hx hz]
      exact ⟨rfl, rfl, rfl⟩
    · intro hf hs hu i hi
      rw [rest.keeps_cfg (by decide)]
      exact State.takeSetting_signals hx hf hs hu hi
    · intro hz hc
      rw [rest.keeps_cfg (by decide), List.foldl_cons, List.foldl_nil, (State.takeSetting_settings ⟨x, hx, hz, hc⟩).1,
        Settings.withWrite_object hx]
      rfl

/-- A setting of the flattening lies in the settings alone. -/
theorem Waiting.inSettings_flat {w : Waiting} {x : Obj} (hx : object? w.index w.sub = some x) (hf : x.fam = .flat) :
    w.InSettings := ⟨x, hx, by simp [hf], by simp [hf]⟩

/-- The settings whose tap boundary has come. -/
def State.dueTaps (s : State) : List Waiting := s.commits.taps.filter (fun w => decide (w.at' < s.flat.taps))

/-- The settings whose tap boundary is still to come wait on. -/
def State.leaveTaps (s : State) : State :=
  { s with commits := { s.commits with taps := s.commits.taps.filter (fun w => !decide (w.at' < s.flat.taps)) } }

theorem State.tapsTake_settings (s : State) : s.tapsTake = s.dueTaps.foldl State.takeSetting s.leaveTaps := rfl

theorem State.tapsTake_commits (s : State) : s.tapsTake.commits = s.leaveTaps.commits := by
  rw [State.tapsTake_settings, State.takeSettings_keep_commits]

theorem tapWritesTakeEffect : TapWritesTakeEffect := by
  refine ⟨?_, ?_⟩
  · intro s hb hall
    have due : ∀ w ∈ s.fresh.dueTaps, w.InSettings := by
      intro w hw
      obtain ⟨x, hx, hf⟩ := hall w (List.mem_filter.mp hw).1
      exact Waiting.inSettings_flat hx hf
    obtain ⟨hcfg, only⟩ := State.takeSettings_inOrder due s.fresh.leaveTaps
    exact ⟨_, inService_eq hb _, only.keeps_active (by decide), only.keeps_staged (by decide), State.tapsTake_commits _, hcfg⟩
  · intro s w x hb hdue hx hf
    have hdue : s.fresh.dueTaps = [w] := hdue
    refine ⟨_, inService_eq hb _, ?_, ?_⟩
    · rw [State.tapsTake_commits]
      exact not_mem_filter_not (p := fun v : Waiting => decide (v.at' < s.flat.taps)) hdue
    · rw [State.tapsTake_settings, hdue, List.foldl_cons, List.foldl_nil,
        (State.takeSetting_settings (Waiting.inSettings_flat hx hf)).1, Settings.withWrite_object hx, hf]
      rfl

/-! ### Immediate fields -/

/-- The active banks with a waiting write in force. -/
def Banks.withWrite (b : Banks) (w : Waiting) : Banks :=
  match object? w.index w.sub with
  | some x => b.put x.fam x.unit x.off x.sub w.value
  | none => b

/-- The immediate writes whose boundary has come. -/
def State.dueImmediates (s : State) : List Waiting := s.commits.imm.filter s.boundaryPassed

/-- The immediate writes whose boundary is still to come wait on. -/
def State.leaveImmediates (s : State) : State :=
  { s with commits := { s.commits with imm := s.commits.imm.filter (fun w => !s.boundaryPassed w) } }

/-- An inlet written by the host is in force (R288). -/
def ModelRun.inletInForce (r : ModelRun) : ModelRun := { r with hostAt := r.hostNew.or r.hostAt, hostNew := none }

/-- One immediate write reaches the active bank. -/
def State.takeImmediate (s : State) (w : Waiting) : State :=
  match object? w.index w.sub with
  | some x =>
    let t := { s with active := s.active.put x.fam x.unit x.off x.sub w.value }
    if x.fam == .soakModel then t.onModel x.unit ModelRun.inletInForce else t
  | none => s

theorem State.immediatesTake_writes (s : State) :
    s.immediatesTake = s.dueImmediates.foldl State.takeImmediate s.leaveImmediates := rfl

theorem State.takeImmediate_only (s : State) (w : Waiting) : OnlyChanges [.active, .models] s (s.takeImmediate w) := by
  unfold State.takeImmediate
  split
  · exact .ite ((State.onModel_only _ _ _).step rfl ((set_active_only _ _).mono rfl)) ((set_active_only _ _).mono rfl)
  · exact .refl _ _

theorem State.takeImmediate_active (s : State) (w : Waiting) : (s.takeImmediate w).active = s.active.withWrite w := by
  unfold State.takeImmediate Banks.withWrite
  split
  · dsimp only
    split <;> rfl
  · rfl

theorem State.takeImmediates_active (ws : List Waiting) (s : State) :
    (ws.foldl State.takeImmediate s).active = ws.foldl Banks.withWrite s.active := by
  induction ws generalizing s with
  | nil => rfl
  | cons w ws ih => simp only [List.foldl_cons, ih, State.takeImmediate_active]

theorem State.takeImmediates_only (ws : List Waiting) (s : State) :
    OnlyChanges [.active, .models] s (ws.foldl State.takeImmediate s) :=
  .foldl State.takeImmediate_only (.refl _ s)

/-- Without an inlet among them the models stay as they are. -/
theorem State.takeImmediate_models {s : State} {w : Waiting} {x : Obj} (hx : object? w.index w.sub = some x)
    (hf : x.fam ≠ .soakModel) : (s.takeImmediate w).models = s.models := by
  simp [State.takeImmediate, hx, hf]

theorem State.takeImmediate_inlet {s : State} {w : Waiting} {x : Obj} (hx : object? w.index w.sub = some x)
    (hf : x.fam = .soakModel) (hu : x.unit < 65) : ((s.takeImmediate w).model x.unit) = (s.model x.unit).inletInForce := by
  simp only [State.takeImmediate, hx, hf, beq_self_eq_true, if_true]
  exact State.model_onModel _ _ _ hu

theorem State.immediatesTake_commits (s : State) : s.immediatesTake.commits = s.leaveImmediates.commits := by
  rw [State.immediatesTake_writes, (State.takeImmediates_only _ _).keeps_commits (by decide)]

theorem immediateWritesTakeEffect : ImmediateWritesTakeEffect := by
  refine ⟨?_, ?_⟩
  · intro s hb
    exact ⟨_, inService_eq hb _, ((State.fresh_only s).mono rfl).trans ((State.immediatesTake_only _).mono rfl),
      State.immediatesTake_commits _, State.takeImmediates_active s.fresh.dueImmediates s.fresh.leaveImmediates⟩
  · intro s w x hb hdue hx
    have hdue : s.fresh.dueImmediates = [w] := hdue
    have hone : s.fresh.immediatesTake = s.fresh.leaveImmediates.takeImmediate w := by
      rw [State.immediatesTake_writes, hdue]; rfl
    refine ⟨_, inService_eq hb _, ?_, ?_, ?_, ?_⟩
    · rw [State.immediatesTake_commits]
      exact not_mem_filter_not (p := s.fresh.boundaryPassed) hdue
    · rw [hone, State.takeImmediate_active]
      simp only [Banks.withWrite, hx]
      rfl
    · intro hf
      rw [hone, State.takeImmediate_models hx hf]
      rfl
    · intro hf hu at' hn
      have hn : (s.fresh.leaveImmediates.model x.unit).hostNew = some at' := hn
      rw [hone, State.takeImmediate_inlet hx hf hu]
      simp [ModelRun.inletInForce, hn]

/-! ### Held changes -/

theorem State.fw_firmware {s : State} (h : s.fw = true) : s.score.firmware = true := by
  simp only [State.fw, Bool.and_eq_true] at h
  exact h.1

/-- A change record begins its way into the ring (R314, R320). -/
theorem State.changeWrite_records {s : State} (hs : s.score.stopped = false) (hf : s.score.firmware = true)
    (time episode index sub : Nat) (origin : List Byte) (count : Nat) (old new : List Byte) :
    ∃ r, (s.changeWrite time episode index sub origin count old new).score.recs = (r :: s.score.recs).take 65536 ∧
      r.kind = 4 ∧ r.seq = s.score.seq ∧ r.time = time ∧ r.episode = episode ∧
      r.payload.take 3 = leBytes 2 index ++ [BitVec.ofNat 8 sub] := by
  simp only [State.changeWrite, State.recordAt, hs, hf]
  refine ⟨_, rfl, rfl, rfl, rfl, rfl, ?_⟩
  simp [leBytes]

/-- The records of the holds that have run out, one each, and the holds that stay (R321). -/
theorem State.flushHolds_holds (s : State) :
    s.flushHolds.score.holds = s.score.holds.filter (fun h => !s.holdDue h) ++
      ((s.score.holds.filter s.holdDue).filter (fun h => h.count != 0)).map (fun h =>
        { h with count := 0, lastAt := s.clock.slots }) := rfl

theorem State.flushHolds_one {s : State} {h : ChangeHold} (hd : s.score.holds.filter s.holdDue = [h]) (hc : h.count ≠ 0) :
    s.flushHolds.score.recs =
      (s.changeWrite h.time h.episode h.index h.sub h.origin h.count h.old h.new).score.recs := by
  simp only [State.flushHolds, hd, List.foldl_cons, List.foldl_nil, hc, if_false]

theorem heldChangesAreWritten : HeldChangesAreWritten := by
  refine ⟨?_, ?_⟩
  · intro s hb hf
    exact ⟨_, byFirmware_eq hb hf _, ((State.fresh_only s).mono rfl).trans ((State.flushHolds_only _).mono rfl),
      State.flushHolds_holds _⟩
  · intro s h hb hf hs hd hc
    obtain ⟨r, hr, hk⟩ := State.changeWrite_records (s := s.fresh) hs (State.fw_firmware hf) h.time h.episode h.index h.sub
      h.origin h.count h.old h.new
    exact ⟨_, r, byFirmware_eq hb hf _, (State.flushHolds_one (s := s.fresh) hd hc).trans hr, hk⟩

/-- Settles O21: what is due takes effect in the order in which it waits, and waits no longer. -/
theorem waitingWritesTakeEffect : Obligations.WaitingWritesTakeEffect := by
  unfold Obligations.WaitingWritesTakeEffect
  exact ⟨markWritesTakeEffect, tapWritesTakeEffect, immediateWritesTakeEffect, heldChangesAreWritten⟩

end Sys2Proof.Machine
end

section
/-!
SUPPORT. Commit lists from their receipt to the swap, and captures of the safe set (R20, R24, R25, R30, R31, R39, R40).
-/
namespace Sys2Proof.Machine
set_option Elab.async false

/-! ### Receipt of a list -/

/-- The object of the commit list (R24). -/
def commitListObj : Obj := ⟨.commitList, 0, 0, 1, .mk 0 1 1 .domain .wo .opn .plain 0 0⟩

theorem anyObject_commitList : anyObject? 0x20F0 1 = some commitListObj := by decide

/-- A list is received with the seat's next ticket (R30, R31). -/
theorem State.commitReceive_received {s : State} {k : Nat} (hk : k < 8) (bs : List Byte) :
    (s.commitReceive k bs).commits.queue = s.commits.queue ++ [⟨k, ((s.seat k).ticket + 1) % 65536, bs⟩] ∧
      (s.commitReceive k bs).seat k =
        { s.seat k with ticket := ((s.seat k).ticket + 1) % 65536, result := 0, reason := 0, failed := 0 } := by
  let f (r : SeatRun) : SeatRun := { r with ticket := (r.ticket + 1) % 65536, result := 0, reason := 0, failed := 0 }
  have hseat : (s.onSeat k f).seat k = f (s.seat k) := State.seat_onSeat s k f hk
  refine ⟨?_, hseat⟩
  show s.commits.queue ++ [⟨k, ((s.onSeat k f).seat k).ticket, bs⟩] = _
  rw [hseat]

/-- What the receipt of a request leaves of its seat beside lease and counters. -/
theorem State.ticket_arrived {s : State} {h : Hdr} (hk : h.seat < 8) :
    ((s.arrived h).seat h.seat).ticket = (s.seat h.seat).ticket := by
  rw [State.arrived, State.seat_onSeat _ _ _ hk]; rfl

theorem State.hostWrite_commitList (s : State) (k : Nat) (h : HostId) (bs : List Byte) :
    s.hostWrite k h commitListObj 0 bs = .ok ((s.logWrite k h commitListObj [] bs).commitReceive k bs) := rfl

theorem commitListReceived {s : State} {h : Hdr} {e : Expect} {bs : List Byte} (ad : Admitted s h e 0x20F0 1 bs)
    (fits : 24 + bs.length ≤ limitOf h.host) :
    ∃ t, Machine.exec (.commitList h e bs) s = .next t ∧ Accepted t h ∧
      t.commits.queue = s.commits.queue ++ [⟨h.seat, ((s.seat h.seat).ticket + 1) % 65536, bs⟩] ∧
      (t.seat h.seat).ticket = ((s.seat h.seat).ticket + 1) % 65536 ∧ (t.seat h.seat).result = 0 := by
  let u := (s.arrived h).logWrite h.seat h.host commitListObj [] bs
  have log : OnlyChanges [.score] (s.arrived h) u := State.logWrite_only _ _ _ _ _ _
  have hseat : u.seat h.seat = (s.arrived h).seat h.seat := log.keeps_seat (by decide) _
  have hticket : (u.seat h.seat).ticket = (s.seat h.seat).ticket := by rw [hseat, State.ticket_arrived ad.taken.seat]
  obtain ⟨hq, hr⟩ := State.commitReceive_received (s := u) ad.taken.seat bs
  have hs : (u.commitReceive h.seat bs).sessionOk h.seat h.session = true := by
    have := State.arrived_ok ad.taken
    simpa only [State.sessionOk, hr, hseat] using this
  have resp := ad.write_responded anyObject_commitList fits (by decide) (by decide) (State.hostWrite_commitList _ _ _ _) hs
  refine ⟨_, rfl, resp.answered, ?_, ?_, ?_⟩
  · exact (congrArg CommitRun.queue (resp.only.keeps_commits (by decide))).trans
      (hq.trans (by rw [hticket, log.keeps_commits (by decide)]; rfl))
  · exact (resp.seat SeatRun.ticket (fun _ _ => rfl) _).trans (by rw [hr, hticket])
  · exact (resp.seat SeatRun.result (fun _ _ => rfl) _).trans (by rw [hr])

/-! ### Processing -/

/-- The next list has left the queue. -/
def State.dequeued (s : State) (rest : List CommitList) : State := { s with commits := { s.commits with queue := rest } }

/-- A list is refused with a reason and the block that fails (R25, R31). -/
def State.refuseList (s : State) (l : CommitList) (reason failed : Nat) : State :=
  (s.commitShow l 4 reason failed).commitEvent l 4 reason

/-- A list is armed for its swap instant (R25). -/
def State.armList (s : State) (l : CommitList) (ids : List Nat) : State :=
  { s.commitShow l 2 0 0 with commits := { s.commits with
    armed := some ⟨l, s.expandIds ids, s.swapInstant (s.expandIds ids), s.commonPeriod (s.expandIds ids)⟩ } }

theorem State.commitShow_seat {s : State} {l : CommitList} (hk : l.seat < 8) (ht : (s.seat l.seat).ticket = l.ticket)
    (result reason failed : Nat) :
    (s.commitShow l result reason failed).seat l.seat =
      { s.seat l.seat with result := result, reason := reason, failed := failed } := by
  rw [State.commitShow, State.seat_onSeat _ _ _ hk]
  simp [ht]

section
variable {s : State} {l : CommitList} {rest : List CommitList}

theorem State.refuseList_only (s : State) (l : CommitList) (reason failed : Nat) :
    OnlyChanges [.seats, .score] s (s.refuseList l reason failed) :=
  (State.commitEvent_only _ _ _ _).step rfl ((State.commitShow_only _ _ _ _ _).mono rfl)

theorem State.refuseList_seat (hk : l.seat < 8) (ht : (s.seat l.seat).ticket = l.ticket) (reason failed : Nat) :
    (s.refuseList l reason failed).seat l.seat = { s.seat l.seat with result := 4, reason := reason, failed := failed } := by
  have h := State.commitEvent_only (s.commitShow l 4 reason failed) l 4 reason
  rw [State.refuseList, h.keeps_seat (by decide), State.commitShow_seat hk ht]

/-- The list at the head of the queue is refused as malformed, refused by validation, or armed (R25). -/
theorem State.commitProcess_head (ha : s.commits.armed = none) (hq : s.commits.queue = l :: rest) :
    s.commitProcess =
      match parseList l.octets with
      | none => (s.dequeued rest).refuseList l 0x07 0
      | some ids =>
        match (s.dequeued rest).validate ((s.dequeued rest).expandIds ids) with
        | some (reason, b) => (s.dequeued rest).refuseList l reason b
        | none => (s.dequeued rest).armList l ids := by
  unfold State.commitProcess
  split
  · rename_i l' rest' _ hq'
    rw [hq] at hq'
    cases hq'
    rfl
  · rename_i hno
    exact absurd hq (hno l rest ha)

end

/-- Neither the queue nor what the part has sent counts in a validation. -/
theorem State.validate_dequeued (s : State) (rest : List CommitList) (ids : List Nat) :
    (s.fresh.dequeued rest).validate ((s.fresh.dequeued rest).expandIds ids) = s.validate (s.expandIds ids) := rfl

/-- The list at the head of the queue is processed (R25). -/
theorem commitListProcessed {s : State} {l : CommitList} {rest : List CommitList} (hb : s.boot.phase ≠ .held)
    (ha : s.commits.armed = none) (hq : s.commits.queue = l :: rest) (hk : l.seat < 8)
    (ht : (s.seat l.seat).ticket = l.ticket) :
    ∃ t, Machine.exec .commitProcess s = .next t ∧ t.commits.queue = rest ∧ t.active = s.active ∧ t.staged = s.staged ∧
      (parseList l.octets = none → t.commits.armed = none ∧ (t.seat l.seat).result = 4 ∧ (t.seat l.seat).reason = 0x07) ∧
      (∀ ids reason b, parseList l.octets = some ids → s.validate (s.expandIds ids) = some (reason, b) →
        t.commits.armed = none ∧ (t.seat l.seat).result = 4 ∧ (t.seat l.seat).reason = reason ∧ (t.seat l.seat).failed = b) ∧
      (∀ ids, parseList l.octets = some ids → s.validate (s.expandIds ids) = none →
        t.commits.armed = some ⟨l, s.expandIds ids, s.swapInstant (s.expandIds ids), s.commonPeriod (s.expandIds ids)⟩ ∧
          (t.seat l.seat).result = 2) := by
  let u := s.fresh.dequeued rest
  have refused (reason b : Nat) : OnlyChanges [.seats, .score] u (u.refuseList l reason b) := State.refuseList_only _ _ _ _
  have refusedSeat (reason b : Nat) : (u.refuseList l reason b).seat l.seat =
      { s.seat l.seat with result := 4, reason := reason, failed := b } := State.refuseList_seat (s := u) hk ht reason b
  have head := State.commitProcess_head (s := s.fresh) ha hq
  refine ⟨_, inService_eq hb _, ?_⟩
  cases hp : parseList l.octets with
  | none =>
    have hu : s.fresh.commitProcess = u.refuseList l 0x07 0 := by rw [head, hp]
    rw [hu, (refused _ _).keeps_commits (by decide), (refused _ _).keeps_active (by decide),
      (refused _ _).keeps_staged (by decide), refusedSeat]
    exact ⟨rfl, rfl, rfl, fun _ => ⟨ha, rfl, rfl⟩, by simp, by simp⟩
  | some ids =>
    cases hv : s.validate (s.expandIds ids) with
    | some r =>
      have hu : s.fresh.commitProcess = u.refuseList l r.1 r.2 := by
        rw [head, hp]; dsimp only; rw [State.validate_dequeued, hv]
      rw [hu, (refused _ _).keeps_commits (by decide), (refused _ _).keeps_active (by decide),
        (refused _ _).keeps_staged (by decide), refusedSeat]
      refine ⟨rfl, rfl, rfl, by simp, ?_, ?_⟩
      · intro ids' reason b hi hr
        cases hi
        cases hv.symm.trans hr
        exact ⟨ha, rfl, rfl, rfl⟩
      · intro ids' hi hr
        cases hi
        cases hv.symm.trans hr
    | none =>
      have hu : s.fresh.commitProcess = u.armList l ids := by
        rw [head, hp]; dsimp only; rw [State.validate_dequeued, hv]
      rw [hu]
      refine ⟨rfl, rfl, rfl, by simp, ?_, ?_⟩
      · intro ids' reason b hi hr
        cases hi
        cases hv.symm.trans hr
      · intro ids' hi _
        cases hi
        have hs := State.commitShow_seat (s := u) hk ht 2 0 0
        exact ⟨rfl, congrArg SeatRun.result hs⟩

/-! ### The swap -/

/-- The effects of a swap beside the exchange of the banks leave the active banks as exchanged. -/
theorem State.swapBlocks_active (s : State) (ids : List Nat) (host : Bool) : (s.swapBlocks ids host).active = s.merged ids := by
  unfold State.swapBlocks
  extract_lets old s1 ids' s2 s3 s4
  have h2 : s2.active = s1.active := (OnlyChanges.foldl (State.blockSwapped_only old) (.refl _ s1)).keeps_active (by decide)
  have h3 : s3.active = s2.active := (OnlyChanges.foldl State.deliverParams_only (.refl _ s2)).keeps_active (by decide)
  have h4 : s4.active = s3.active := (OnlyChanges.foldl State.deliverInc_only (.refl _ s3)).keeps_active (by decide)
  calc s4.recomputeD.holdDerates.active
      = s4.active := ((State.holdDerates_only _).keeps_active (by decide)).trans ((State.recomputeD_only _).keeps_active (by decide))
    _ = s1.active := h4.trans (h3.trans h2)
    _ = s.merged ids := rfl

theorem State.releaseHeld_commits (s : State) : s.releaseHeld.commits = { s.commits with held := [] } := by
  unfold State.releaseHeld
  extract_lets t
  have ht : t.commits = s.commits := by
    refine (OnlyChanges.foldl (ps := [.staged, .score]) (fun u w => ?_) (.refl _ s)).keeps_commits (by decide)
    split
    · exact (State.changeAt_only _ _ _ _ _ _ _ _).step rfl ((set_staged_only _ _).mono rfl)
    · exact .refl _ _
  exact congrArg (fun c : CommitRun => { c with held := [] }) ht

/-- The commit that has swapped is armed no more, and its blocks are no longer left out. -/
def State.disarmed (s : State) (a : ArmedCommit) : State :=
  { s with commits := { s.commits with armed := none }
           boot := { s.boot with leftOut := s.boot.leftOut.filter (fun id => !a.blocks.contains id) } }

/-- The state from which a swap reports its result (R25, R29, R34). -/
def State.swapped (s : State) (a : ArmedCommit) : State :=
  ((s.swapBlocks a.blocks true).disarmed a).releaseHeld.releaseStarts

/-- An armed commit swaps at its instant and at the common boundaries after it, and at no other (R20, R25). -/
theorem State.commitSwap_waits {s : State} {a : ArmedCommit} (ha : s.commits.armed = some a)
    (hw : s.clock.grid < a.swapAt ∨ (s.clock.grid - a.swapAt) % a.period ≠ 0) : s.commitSwap = s := by
  simp only [State.commitSwap, ha, Bool.or_eq_true, decide_eq_true_eq, bne_iff_ne, hw, if_true]

theorem State.commitSwap_due {s : State} {a : ArmedCommit} (ha : s.commits.armed = some a) (h1 : a.swapAt ≤ s.clock.grid)
    (h2 : (s.clock.grid - a.swapAt) % a.period = 0) :
    s.commitSwap = ((s.swapped a).commitShow a.list 3 0 0).commitEvent a.list 3 0 := by
  have hn : ¬ s.clock.grid < a.swapAt := by omega
  simp only [State.commitSwap, ha, hn, h2, decide_false, bne_self_eq_false, Bool.or_self, Bool.false_eq_true, if_false]
  rfl

theorem State.swapped_commits (s : State) (a : ArmedCommit) :
    (s.swapped a).commits.armed = none ∧ (s.swapped a).commits.held = [] := by
  have h : (s.swapped a).commits = { ((s.swapBlocks a.blocks true).disarmed a).commits with held := [] } :=
    ((State.releaseStarts_only _).keeps_commits (by decide)).trans (State.releaseHeld_commits _)
  rw [h]
  exact ⟨rfl, rfl⟩

/-- What follows the exchange of a swap: the held writes and the held starts. -/
theorem State.swapped_only (s : State) (a : ArmedCommit) :
    OnlyChanges [.groups, .staged, .score, .commits, .boot] (s.swapBlocks a.blocks true) (s.swapped a) :=
  .step (State.releaseStarts_only _) rfl (.step (State.releaseHeld_only _) rfl ((set_boot_commits_only _ _ _).mono rfl))

theorem State.swapped_active (s : State) (a : ArmedCommit) : (s.swapped a).active = s.merged a.blocks :=
  ((State.swapped_only s a).keeps_active (by decide)).trans (State.swapBlocks_active s a.blocks true)

theorem State.seat_swapped (s : State) (a : ArmedCommit) (k : Nat) : (s.swapped a).seat k = s.seat k :=
  ((State.swapped_only s a).keeps_seat (by decide) k).trans ((State.swapBlocks_only s a.blocks true).keeps_seat (by decide) k)

/-- The armed commit swaps (R25, R31). -/
theorem armedCommitSwapped {s : State} {a : ArmedCommit} (hb : s.boot.phase ≠ .held) (ha : s.commits.armed = some a)
    (hk : a.list.seat < 8) (ht : (s.seat a.list.seat).ticket = a.list.ticket) (h1 : a.swapAt ≤ s.clock.grid)
    (h2 : (s.clock.grid - a.swapAt) % a.period = 0) :
    ∃ t, Machine.exec .commitSwap s = .next t ∧ t.commits.armed = none ∧ t.commits.held = [] ∧
      (t.seat a.list.seat).result = 3 ∧ t.active = s.merged a.blocks := by
  let u := s.fresh.swapped a
  have event := State.commitEvent_only (u.commitShow a.list 3 0 0) a.list 3 0
  have shown := State.commitShow_only u a.list 3 0 0
  have hu : u.seat a.list.seat = s.seat a.list.seat := State.seat_swapped s.fresh a _
  have hseat := State.commitShow_seat (s := u) hk (by rw [hu, ht]) 3 0 0
  refine ⟨_, inService_eq hb _, ?_⟩
  rw [State.commitSwap_due (s := s.fresh) ha h1 h2, event.keeps_commits (by decide), event.keeps_active (by decide),
    shown.keeps_commits (by decide), shown.keeps_active (by decide)]
  refine ⟨(State.swapped_commits _ _).1, (State.swapped_commits _ _).2, ?_, State.swapped_active _ _⟩
  rw [event.keeps_seat (by decide), hseat]

theorem commitListsAreHandled : CommitListsAreHandled := by
  refine ⟨fun s h e bs ad fits => commitListReceived ad fits,
    fun s l rest hb ha hq hk ht => commitListProcessed hb ha hq hk ht, fun s a hb ha hk ht => ⟨fun hw => ?_, fun h1 h2 => ?_⟩⟩
  · exact (inService_eq hb _).trans (congrArg _ (State.commitSwap_waits (s := s.fresh) ha hw))
  · exact armedCommitSwapped hb ha hk ht h1 h2

/-! ### The safe set -/

/-- A copy is valid with the CRC over its content, and without a CRC it is not (R39). -/
theorem SafeCopy.valid_unsealed (x : SafeContent) : ({ toSafeContent := x } : SafeCopy).valid = false := rfl

theorem SafeCopy.valid_sealed (c : SafeCopy) :
    ({ c with crc := some (Config.freeSafeCrc c.toSafeContent) } : SafeCopy).valid = true := by
  simp [SafeCopy.valid]

/-- A capture is taken where no commit is armed and the shadows of the ceilings are as burned (R40, R415). -/
theorem State.askSafeSet_done {s : State} (ha : s.commits.armed = none)
    (hf : ∀ w, w < 16 → s.shadowOf (96 + w) = vget s.fuses.burned (96 + w) 0) : s.askSafeSet = .ok s.safeCapture := by
  have hall : (List.range 16).all (fun w => s.shadowOf (96 + w) == vget s.fuses.burned (96 + w) 0) = true := by
    simpa [List.all_eq_true] using hf
  simp only [State.askSafeSet, ha, hall]
  rfl

theorem safeSetCaptured {s : State} {h : Hdr} {e : Expect} (ad : AdmittedPut s h e (Family.safeSet.index 0 0) 2 1)
    (ha : s.commits.armed = none) (hf : ∀ w, w < 16 → s.shadowOf (96 + w) = vget s.fuses.burned (96 + w) 0) :
    ∃ t c, Machine.exec (.safeSetCapture h e 1) s = .next t ∧ Accepted t h ∧ t.safeSet.writing = some s.safeSet.overA ∧
      t.safeSet.status = 1 ∧ c.banks = s.active ∧ c.cfg = s.cfg ∧ c.valid = false ∧
      (if s.safeSet.overA then t.safeSet.copyA = some c ∧ t.safeSet.copyB = s.safeSet.copyB
        else t.safeSet.copyB = some c ∧ t.safeSet.copyA = s.safeSet.copyA) := by
  obtain ⟨u, log, done⟩ := State.put_done (f := .safeSet) (unit := 0) (off := 0) (sub := 2) (v := 1)
    (row := .mk 0 2 2 .bool .wo .stw .plain 1 1) (n := 1) ad (by decide) (by decide) (by decide) rfl (by decide) (by decide)
    (by decide) rfl rfl (by decide) (by decide) (by decide)
  have hset : u.safeSet = s.safeSet := log.keeps_safeSet (by decide)
  have hcap : u.askSafeSet = .ok u.safeCapture := by
    refine State.askSafeSet_done ?_ (fun w hw => ?_)
    · rw [log.keeps_commits (by decide)]; exact ha
    · simp only [State.shadowOf, log.keeps_fuses (by decide)]; exact hf w hw
  have hses : u.safeCapture.sessionOk h.seat h.session = true :=
    (State.sessionOk_of_only (State.safeCapture_only u) (by decide) _ _).trans
      ((State.sessionOk_of_only log (by decide) _ _).trans (State.arrived_ok ad.taken))
  obtain ⟨t, ht, only, hacc, -⟩ := done u.safeCapture hcap hses
  have hexec : Machine.exec (.safeSetCapture h e 1) s = .next t := congrArg _ ht
  refine ⟨t, { toSafeContent := u.safeContent }, hexec, hacc, ?_⟩
  rw [only.keeps_safeSet (by decide), ← hset]
  refine ⟨rfl, rfl, log.keeps_active (by decide), log.keeps_cfg (by decide), SafeCopy.valid_unsealed _, ?_⟩
  cases hA : u.safeSet.overA <;> simp [State.safeCapture, hA]

/-- The CRC of a capture is written into the copy that it fills (R40). -/
theorem State.safeDone_safeSet {s : State} {toA : Bool} (hw : s.safeSet.writing = some toA) :
    s.safeDone.safeSet =
      { copyA := if toA then State.sealed s.safeSet.copyA else s.safeSet.copyA
        copyB := if toA then s.safeSet.copyB else State.sealed s.safeSet.copyB, status := 2, writing := none } := by
  simp only [State.safeDone, hw]

theorem State.sealed_some (c : SafeCopy) :
    State.sealed (some c) = some { c with crc := some (Config.freeSafeCrc c.toSafeContent) } := rfl

theorem safeSetWritten {s : State} {toA : Bool} {c : SafeCopy} (hb : s.boot.phase ≠ .held)
    (hw : s.safeSet.writing = some toA) (hc : (if toA then s.safeSet.copyA else s.safeSet.copyB) = some c) :
    ∃ t d, Machine.exec .safeSetCaptureDone s = .next t ∧ OnlyChanges [.sent, .safeSet] s t ∧ t.safeSet.writing = none ∧
      t.safeSet.status = 2 ∧ d.valid = true ∧ d.seq = c.seq ∧ d.banks = c.banks ∧ d.cfg = c.cfg ∧
      (if toA then t.safeSet.copyA = some d ∧ t.safeSet.copyB = s.safeSet.copyB
        else t.safeSet.copyB = some d ∧ t.safeSet.copyA = s.safeSet.copyA) := by
  have hw' : s.fresh.safeSet.writing = some toA := hw
  refine ⟨_, { c with crc := some (Config.freeSafeCrc c.toSafeContent) }, inService_eq hb _,
    (State.safeDone_only _).step rfl ((State.fresh_only s).mono rfl), ?_⟩
  rw [State.safeDone_safeSet hw']
  refine ⟨rfl, rfl, SafeCopy.valid_sealed c, rfl, rfl, rfl, ?_⟩
  cases toA with
  | false => exact ⟨(congrArg State.sealed hc).trans (State.sealed_some c), rfl⟩
  | true => exact ⟨(congrArg State.sealed hc).trans (State.sealed_some c), rfl⟩

/-- Settles O20: a list is received, then refused or armed, then swapped; a capture is copied, then sealed. -/
theorem commitsAndCaptures : Obligations.CommitsAndCaptures := by
  unfold Obligations.CommitsAndCaptures
  exact ⟨commitListsAreHandled, fun _ _ _ ad ha hf => safeSetCaptured ad ha hf,
    fun _ _ _ hb hw hc => safeSetWritten hb hw hc⟩

end Sys2Proof.Machine
end

section
/-!
SUPPORT. The selection of a sample, and the tracking clamp of the channels that lose it (R54, R55).
-/
namespace Sys2Proof.Machine
set_option Elab.async false

theorem State.lowBall_cons {c d : Nat} {u v : Int} {rest : List (Nat × Int)} (h : State.lowBall rest = some (d, v)) :
    State.lowBall ((c, u) :: rest) = if v < u ∨ (v = u ∧ d < c) then some (d, v) else some (c, u) := by
  simp only [State.lowBall, h]

/-- The lowest of a first proposal and the others is that one, or the lowest of the others where it is lower, or as low and
of a lower-numbered channel. -/
theorem lowestProposalWins : LowestProposalWins := by
  intro us
  induction us with
  | nil => exact fun h => absurd rfl h
  | cons p rest ih =>
    intro _
    obtain ⟨c, u⟩ := p
    cases rest with
    | nil => exact ⟨c, u, rfl, by simp, by simp⟩
    | cons q more =>
      obtain ⟨d, v, hd, hmem, hlow⟩ := ih (by simp)
      rw [State.lowBall_cons hd]
      by_cases hw : v < u ∨ (v = u ∧ d < c)
      · refine ⟨d, v, if_pos hw, List.mem_cons_of_mem _ hmem, fun e w he => ?_⟩
        rcases List.mem_cons.mp he with heq | hin
        · obtain ⟨rfl, rfl⟩ : e = c ∧ w = u := by simpa using heq
          omega
        · exact hlow e w hin
      · refine ⟨c, u, if_neg hw, by simp, fun e w he => ?_⟩
        rcases List.mem_cons.mp he with heq | hin
        · obtain ⟨rfl, rfl⟩ : e = c ∧ w = u := by simpa using heq
          omega
        · have := hlow e w hin
          omega

theorem losersTrackTheWinner : LosersTrackTheWinner := by
  intro b u s margin hu hs hm
  unfold trackOut
  omega

/-- Settles O24: the lowest proposal by induction on the proposals, the clamp by its two bounds. -/
theorem selectionAndTracking : Obligations.SelectionAndTracking := by
  unfold Obligations.SelectionAndTracking
  exact ⟨lowestProposalWins, losersTrackTheWinner⟩

end Sys2Proof.Machine
end

section
/-!
SUPPORT. Reading one unit after operations on units: what a footprint leaves of a unit, what a change of units leaves in each,
and what a run over a list of units does to the unit of one of them.
-/
namespace Sys2Proof.Machine
set_option Elab.async false

/-! ### Footprints and units -/

section
variable {ps : List Part} {s t : State} (h : OnlyChanges ps s t)
include h

theorem OnlyChanges.keeps_chan (w : Part.chans ∉ ps) (c : Nat) : t.chan c = s.chan c := by
  simp only [State.chan, h.keeps_chans w]

theorem OnlyChanges.keeps_group (w : Part.groups ∉ ps) (g : Nat) : t.group g = s.group g := by
  simp only [State.group, h.keeps_groups w]

theorem OnlyChanges.keeps_port (w : Part.ports ∉ ps) (p : Nat) : t.port p = s.port p := by
  simp only [State.port, h.keeps_ports w]

theorem OnlyChanges.keeps_chanB (w : Part.active ∉ ps) (c : Nat) : t.chanB c = s.chanB c := by
  simp only [State.chanB, h.keeps_active w]

theorem OnlyChanges.keeps_groupB (w : Part.active ∉ ps) (g : Nat) : t.groupB g = s.groupB g := by
  simp only [State.groupB, h.keeps_active w]

theorem OnlyChanges.keeps_portB (w : Part.active ∉ ps) (p : Nat) : t.portB p = s.portB p := by
  simp only [State.portB, h.keeps_active w]

theorem OnlyChanges.keeps_chansOf (w : Part.active ∉ ps) (g : Nat) : t.chansOf g = s.chansOf g := by
  simp only [State.chansOf, h.keeps_chanB w]

theorem OnlyChanges.keeps_portsOf (w : Part.active ∉ ps) (g : Nat) : t.portsOf g = s.portsOf g := by
  simp only [State.portsOf, h.keeps_groupB w]

theorem OnlyChanges.keeps_poolOf (w : Part.active ∉ ps) (g : Nat) : t.poolOf g = s.poolOf g := by
  simp only [State.poolOf, h.keeps_groupB w]

theorem OnlyChanges.keeps_poolPrimary (w : Part.active ∉ ps) (g : Nat) : t.poolPrimary g = s.poolPrimary g := by
  simp only [State.poolPrimary, h.keeps_groupB w, h.keeps_poolOf w]

theorem OnlyChanges.keeps_shareChan (w : Part.active ∉ ps) (g : Nat) : t.shareChan g = s.shareChan g := by
  simp only [State.shareChan, h.keeps_chanB w, h.keeps_chansOf w]

theorem OnlyChanges.keeps_due (w : Part.clock ∉ ps) (r : Option Nat) : t.due r = s.due r := by
  simp only [State.due, h.keeps_clock w]

theorem OnlyChanges.keeps_elapsedUs (w : Part.clock ∉ ps) (t0 : Nat) : elapsedUs t t0 = elapsedUs s t0 := by
  simp only [elapsedUs, h.keeps_clock w]

end

/-! ### A change of one unit -/

/-- A change of one unit leaves in every unit whatever the change leaves. -/
theorem vget_vmod_same {α β : Type} {n : Nat} (v : Vector α n) (i : Nat) (d : α) (f : α → α) (p : α → β)
    (hf : ∀ x, p (f x) = p x) (j : Nat) : p (vget (vmod v i f) j d) = p (vget v j d) := by
  by_cases e : j = i
  · subst e
    by_cases hj : j < n
    · rw [vget_vmod_self _ _ _ _ hj, hf]
    · simp [vmod, hj]
  · rw [vget_vmod_ne _ _ _ _ _ e]

theorem State.chan_onChan_same {α : Type} (s : State) (c : Nat) (f : ChannelRun → ChannelRun) (p : ChannelRun → α)
    (hf : ∀ r, p (f r) = p r) (j : Nat) : p ((s.onChan c f).chan j) = p (s.chan j) := vget_vmod_same _ _ _ _ p hf j

theorem State.group_onGroup_same {α : Type} (s : State) (g : Nat) (f : GroupRun → GroupRun) (p : GroupRun → α)
    (hf : ∀ r, p (f r) = p r) (j : Nat) : p ((s.onGroup g f).group j) = p (s.group j) := vget_vmod_same _ _ _ _ p hf j

theorem State.port_onPort_same {α : Type} (s : State) (q : Nat) (f : PortRun → PortRun) (p : PortRun → α)
    (hf : ∀ r, p (f r) = p r) (j : Nat) : p ((s.onPort q f).port j) = p (s.port j) := vget_vmod_same _ _ _ _ p hf j

/-- A change of one group leaves a group as it is, or has changed it. -/
theorem State.group_onGroup_cases (s : State) (g : Nat) (f : GroupRun → GroupRun) (j : Nat) :
    (s.onGroup g f).group j = s.group j ∨ (s.onGroup g f).group j = f (s.group j) := by
  by_cases e : j = g
  · subst e
    by_cases hj : j < 32
    · exact .inr (State.group_onGroup _ _ _ hj)
    · exact .inl (by simp [State.group, State.onGroup, vmod, hj])
  · exact .inl (State.group_onGroup_ne _ _ _ _ e)

/-! ### Runs over a list -/

/-- What every step of a run leaves, the run leaves. -/
theorem foldl_same {σ α β : Type} {f : σ → α → σ} (p : σ → β) (hf : ∀ s a, p (f s a) = p s) (l : List α) (s : σ) :
    p (l.foldl f s) = p s := by
  induction l generalizing s with
  | nil => rfl
  | cons a l ih => rw [List.foldl_cons, ih, hf]

section
variable {α β : Type} {read : State → Nat → β} {f : State → α → State} {key : α → Nat} {ps : List Part}

/-- A run over units other than `j` leaves unit `j`. -/
theorem foldl_unit_of_not_mem (off : ∀ u a j, j ≠ key a → read (f u a) j = read u j) {l : List α} {j : Nat}
    (hj : j ∉ l.map key) (s : State) : read (l.foldl f s) j = read s j := by
  induction l generalizing s with
  | nil => rfl
  | cons a l ih =>
    obtain ⟨ha, hl⟩ : j ≠ key a ∧ j ∉ l.map key := by simpa using hj
    rw [List.foldl_cons, ih hl, off _ _ _ ha]

/-- A run over distinct units does to each what the one step for it does. -/
theorem foldl_unit_of_mem (P : β → Prop) (only : ∀ u a, OnlyChanges ps u (f u a))
    (off : ∀ u a j, j ≠ key a → read (f u a) j = read u j) {l : List α} {a : α} (nd : (l.map key).Nodup) (ha : a ∈ l)
    {s : State} (hit : ∀ u, OnlyChanges ps s u → read u (key a) = read s (key a) → P (read (f u a) (key a))) :
    P (read (l.foldl f s) (key a)) := by
  induction l generalizing s with
  | nil => cases ha
  | cons b l ih =>
    obtain ⟨hb, hl⟩ : key b ∉ l.map key ∧ (l.map key).Nodup := by simpa using nd
    rw [List.foldl_cons]
    rcases List.mem_cons.mp ha with rfl | hin
    · rw [foldl_unit_of_not_mem off hb]
      exact hit s (.refl _ _) rfl
    · have hne : key a ≠ key b := fun e => hb (e ▸ List.mem_map_of_mem hin)
      exact ih hl hin fun u hu hr => hit u ((only s b).trans hu) (hr.trans (off _ _ _ hne))

end

/-! ### The channels and ports of a group -/

theorem State.mem_chansOf {s : State} {g c : Nat} : c ∈ s.chansOf g ↔ c < 128 ∧ (s.chanB c).group = g := by
  simp [State.chansOf, allChans]

theorem State.chansOf_nodup (s : State) (g : Nat) : (s.chansOf g).Nodup := List.nodup_range.filter _

theorem GroupBank.primary_lt (b : GroupBank) : b.primary < 128 := Nat.mod_lt _ (by decide)

theorem State.poolPrimary_lt (s : State) (g : Nat) : s.poolPrimary g < 128 := GroupBank.primary_lt _

theorem setBits_nodup {w : Nat} (x : BitVec w) : (setBits x).Nodup := List.nodup_range.filter _

theorem State.portsOf_nodup (s : State) (g : Nat) : (s.portsOf g).Nodup := setBits_nodup _

end Sys2Proof.Machine
end

section
/-!
SUPPORT. Slow supervision of the engine: the spare lane, the limits of trims and locks, the end of a lock's suspension and of
a derate channel's hold (R72, R104, R105, R187, R296).
-/
namespace Sys2Proof.Machine
set_option Elab.async false

/-- A cause that a block detects registers at the present slot. -/
theorem State.detect_registers (s : State) (src cause : Nat) : Registers (s.detect src cause) src cause :=
  ⟨⟨src, cause, s.clock.slots, none⟩, by simp [State.detect, State.onLint], rfl, rfl, rfl⟩

theorem State.detectIf_true {s : State} {b : Bool} (h : b = true) (src cause : Nat) :
    s.detectIf b src cause = s.detect src cause := by
  rw [State.detectIf, if_pos h]

theorem State.detectIf_false {s : State} {b : Bool} (h : b = false) (src cause : Nat) : s.detectIf b src cause = s := by
  rw [State.detectIf, if_neg (by simp [h])]

/-- The step of a supervision that detects a cause. -/
theorem State.detectIf_detects {s : State} {b : Bool} (h : b = true) (src cause : Nat) :
    OnlyChanges [.sent, .lint] s (s.fresh.detectIf b src cause) ∧ Registers (s.fresh.detectIf b src cause) src cause := by
  rw [State.detectIf_true h]
  exact ⟨(State.detect_only _ _ _).step rfl ((State.fresh_only s).mono rfl), State.detect_registers _ _ _⟩

/-! ### The spare lane (R72) -/

theorem bitAt_or_twoPow_self {w : Nat} (x : BitVec w) {k : Nat} (h : k < w) : bitAt (x ||| BitVec.ofNat w (2 ^ k)) k = true := by
  simp only [bitAt, BitVec.getLsbD_or, BitVec.getLsbD_ofNat, h, Nat.testBit_two_pow_self, decide_true, Bool.and_self,
    Bool.or_true]

/-- The engine with the spare lane retired. -/
def EngineRun.withoutSpare (e : EngineRun) : EngineRun := { e with retired := e.retired ||| BitVec.ofNat 17 (2 ^ 16) }

/-- The spare lane is retired while it carries no work: no channel moves (R72). -/
theorem State.retireLane_spare {s : State} (hc : s.engine.carried = 255) (hr : bitAt s.engine.retired 16 = false) :
    s.retireLane 16 = { s with engine := s.engine.withoutSpare } := by
  simp [State.retireLane, hr, hc, EngineRun.withoutSpare]

theorem State.spareTest_fails {s : State} (hc : s.engine.carried = 255) (hr : bitAt s.engine.retired 16 = false) :
    s.spareTest false = State.detect { s with engine := s.engine.withoutSpare } (srcLane 16) 1 := by
  simp only [State.spareTest, hc, hr, State.retireLane_spare hc hr]
  rfl

theorem State.spareTest_passes (s : State) : s.spareTest true = s := by
  simp only [State.spareTest, Bool.true_or, if_true]

theorem spareLaneIsTested (s : State) (hb : s.boot.phase ≠ .held) (hc : s.engine.carried = 255)
    (hr : bitAt s.engine.retired 16 = false) :
    (∃ t, Machine.exec (.spareLaneTest false) s = .next t ∧ bitAt t.engine.retired 16 = true ∧ t.engine.carried = 255 ∧
      Registers t (srcLane 16) 1 ∧ OnlyChanges [.sent, .engine, .lint] s t) ∧
    Machine.exec (.spareLaneTest true) s = .next { s with out := [] } := by
  refine ⟨⟨_, (inService_eq hb _).trans (congrArg _ (State.spareTest_fails (s := s.fresh) hc hr)), ?_, hc,
    State.detect_registers _ _ _, ?_⟩, (inService_eq hb _).trans (congrArg _ (State.spareTest_passes s.fresh))⟩
  · exact bitAt_or_twoPow_self _ (by decide)
  · exact (State.detect_only _ _ _).step rfl ((set_engine_only _ _).step rfl ((State.fresh_only s).mono rfl))

/-! ### Trims and locks at a limit (R187, R105) -/

theorem shareLimitIsReported (s : State) (p since : Nat) (hb : s.boot.phase ≠ .held)
    (hl : (s.port p).share.limFrom = some since) :
    (10000 ≤ elapsedUs s since → s.counts (s.portB p).group p = true →
      ∃ t, Machine.exec (.shareTrimAtLimit p) s = .next t ∧ OnlyChanges [.sent, .lint] s t ∧
        Registers t (srcGroupLock (s.portB p).group) 1) ∧
    (elapsedUs s since < 10000 → Machine.exec (.shareTrimAtLimit p) s = .next { s with out := [] }) := by
  have hat : s.fresh.shareAtLimit p = (decide (10000 ≤ elapsedUs s since) && s.counts (s.portB p).group p) := by
    show s.shareAtLimit p = _
    simp only [State.shareAtLimit, hl]
  refine ⟨fun h hc => ⟨_, inService_eq hb _, State.detectIf_detects (by rw [hat, hc]; simpa using h) _ _⟩, fun h => ?_⟩
  have hno : s.fresh.shareAtLimit p = false := by simp [hat, h]
  exact (inService_eq hb _).trans (congrArg _ (State.detectIf_false hno _ _))

theorem lockLimitIsReported (s : State) (p k since : Nat) (hb : s.boot.phase ≠ .held)
    (hl : (vget (s.port p).locks k {}).limFrom = some since) :
    (10000 ≤ elapsedUs s since →
      ∃ t, Machine.exec (.lockAtLimit p k) s = .next t ∧ OnlyChanges [.sent, .lint] s t ∧
        Registers t (srcGroupLock (s.portB p).group) 0) ∧
    (elapsedUs s since < 10000 → Machine.exec (.lockAtLimit p k) s = .next { s with out := [] }) := by
  have hat : s.fresh.lockLimit p k = decide (10000 ≤ elapsedUs s since) := by
    show s.lockLimit p k = _
    simp only [State.lockLimit, hl]
  refine ⟨fun h => ⟨_, inService_eq hb _, State.detectIf_detects (by rw [hat]; simpa using h) _ _⟩, fun h => ?_⟩
  have hno : s.fresh.lockLimit p k = false := by simp [hat, h]
  exact (inService_eq hb _).trans (congrArg _ (State.detectIf_false hno _ _))

/-! ### The end of a suspension (R104) -/

theorem lockResumes (s : State) (g : Nat) (hg : g < 32) (hb : s.boot.phase ≠ .held) :
    ((s.groupB g).modul.lockResume ≤ (s.group g).lock.quiet →
      ∃ t, Machine.exec (.lockResume g) s = .next t ∧ OnlyChanges [.sent, .groups] s t ∧
        t.group g = { s.group g with lock := { (s.group g).lock with suspended := false } } ∧
        ∀ j, j ≠ g → t.group j = s.group j) ∧
    ((s.group g).lock.quiet < (s.groupB g).modul.lockResume →
      Machine.exec (.lockResume g) s = .next { s with out := [] }) := by
  constructor
  · intro h
    refine ⟨_, (inService_eq hb _).trans (congrArg _ (if_pos h)), ?_, State.group_onGroup _ _ _ hg,
      fun j hj => State.group_onGroup_ne _ _ _ _ hj⟩
    exact (State.onGroup_only _ _ _).step rfl ((State.fresh_only s).mono rfl)
  · intro h
    exact (inService_eq hb _).trans (congrArg _ (if_neg (Nat.not_le.mpr h)))

/-! ### Derate channels (R296) -/

/-- The step of `derateRelease` for one channel. -/
def State.derateStep (s : State) (c : Nat) : State :=
  match (s.chan c).lostFrom with
  | some t => if (s.chan c).derating && 10000 ≤ elapsedUs s t then
      s.onChan c (fun r => { r with derating := false, lostFrom := none }) else s
  | none => s

theorem State.derateRelease_steps (s : State) (g : Nat) : s.derateRelease g = (s.chansOf g).foldl State.derateStep s := rfl

theorem State.derateStep_only (s : State) (c : Nat) : OnlyChanges [.chans] s (s.derateStep c) := by
  unfold State.derateStep
  split
  · exact .ite (State.onChan_only _ _ _) (.refl _ _)
  · exact .refl _ _

theorem State.derateStep_other (s : State) (c j : Nat) (h : j ≠ c) : (s.derateStep c).chan j = s.chan j := by
  unfold State.derateStep
  split
  · split
    · exact State.chan_onChan_ne _ _ _ _ h
    · rfl
  · rfl

theorem State.derateStep_self {s : State} {c since : Nat} (hc : c < 128) (hl : (s.chan c).lostFrom = some since)
    (hd : (s.chan c).derating = true) :
    (s.derateStep c).chan c =
      if 10000 ≤ elapsedUs s since then { s.chan c with derating := false, lostFrom := none } else s.chan c := by
  simp only [State.derateStep, hl, hd, Bool.true_and, decide_eq_true_eq]
  split
  · exact State.chan_onChan _ _ _ hc
  · rfl

theorem State.derateRelease_chan {s : State} {g c since : Nat} (hc : c ∈ s.chansOf g)
    (hl : (s.chan c).lostFrom = some since) (hd : (s.chan c).derating = true) :
    (s.derateRelease g).chan c =
      if 10000 ≤ elapsedUs s since then { s.chan c with derating := false, lostFrom := none } else s.chan c := by
  rw [State.derateRelease_steps]
  refine foldl_unit_of_mem (key := id) (read := State.chan) (fun r => r = _) State.derateStep_only
    State.derateStep_other (by simpa using s.chansOf_nodup g) hc fun u hu hr => ?_
  have hr : u.chan c = s.chan c := hr
  rw [id, State.derateStep_self (State.mem_chansOf.mp hc).1 (by rw [hr]; exact hl) (by rw [hr]; exact hd), hr,
    hu.keeps_elapsedUs (by decide)]

theorem State.derateRelease_other {s : State} {g j : Nat} (hj : j ∉ s.chansOf g) : (s.derateRelease g).chan j = s.chan j := by
  rw [State.derateRelease_steps]
  exact foldl_unit_of_not_mem (key := id) (read := State.chan) State.derateStep_other (by simpa using hj) s

theorem derateEnds (s : State) (g c since : Nat) (hb : s.boot.phase ≠ .held) (hc : c ∈ s.chansOf g)
    (hl : (s.chan c).lostFrom = some since) (hd : (s.chan c).derating = true) :
    ∃ t, Machine.exec (.derateRelease g) s = .next t ∧ OnlyChanges [.sent, .chans] s t ∧
      (10000 ≤ elapsedUs s since → t.chan c = { s.chan c with derating := false, lostFrom := none }) ∧
      (elapsedUs s since < 10000 → t.chan c = s.chan c) ∧ ∀ j, j ∉ s.chansOf g → t.chan j = s.chan j := by
  have hself := State.derateRelease_chan (s := s.fresh) hc hl hd
  refine ⟨_, inService_eq hb _, (State.derateRelease_only _ _).step rfl ((State.fresh_only s).mono rfl), fun h => ?_, fun h => ?_,
    fun j hj => State.derateRelease_other (s := s.fresh) hj⟩
  · exact hself.trans (if_pos h)
  · exact hself.trans (if_neg (Nat.not_le.mpr h))

/-- Settles O25: each row acts by its condition and leaves the part as it is without it. -/
theorem engineSupervision : Obligations.EngineSupervision := by
  unfold Obligations.EngineSupervision
  exact ⟨spareLaneIsTested, shareLimitIsReported, fun s p k since hb _ hl => lockLimitIsReported s p k since hb hl, lockResumes,
    derateEnds⟩

end Sys2Proof.Machine
end

section
/-!
SUPPORT. Requests to a group, from a host and from a block of the part: each waits for the group's next boundary with the slot
in which it first arose (R62, R479).
-/
namespace Sys2Proof.Machine
set_option Elab.async false

/-- The row of a group's command object (Table 02-10). -/
def groupCommandRow : Row := .mk 4 1 1 .u8 .wo .stw .plain 1 3

theorem locate_groupCommand {g : Nat} (hg : g < 32) : locate (Family.loopGroup.index g 4) = some (.loopGroup, g, 4) := by
  interval_cases g <;> decide

/-- A group's command object is the one of its row. -/
theorem anyObject_groupCommand {g : Nat} (hg : g < 32) :
    anyObject? (Family.loopGroup.index g 4) 1 = some ⟨.loopGroup, g, 4, 1, groupCommandRow⟩ :=
  object_row (locate_groupCommand hg) (by decide) (by decide)

/-- A request of `o` has reached group `g`: it is answered, and in the groups only `g` has changed, by `f`. -/
structure GroupAsked (s t : State) (o : Source) (g : Nat) (f : GroupRun → GroupRun) : Prop where
  reported : Reported t o
  only : OnlyChanges [.sent, .seats, .t1s, .tts, .score, .groups] s t
  self : t.group g = f (s.group g)
  other : ∀ j, j ≠ g → t.group j = s.group j

theorem GroupAsked.keeps_phase {s t : State} {o : Source} {g : Nat} {f : GroupRun → GroupRun} (a : GroupAsked s t o g f)
    (hf : ∀ r, (f r).phase = r.phase) : (t.group g).phase = (s.group g).phase := by
  rw [a.self, hf]

/-- A request that a block raises. -/
theorem groupAsked_block {s : State} {g : Nat} {f : GroupRun → GroupRun} {block : State → State} (hg : g < 32)
    (hb : s.boot.phase ≠ .held) (hblock : block s.fresh = s.fresh.onGroup g f) :
    ∃ t, inService s block = .next t ∧ GroupAsked s t .block g f := by
  refine ⟨_, (inService_eq hb _).trans (congrArg _ hblock), rfl, ?_, State.group_onGroup _ _ _ hg,
    fun j hj => State.group_onGroup_ne _ _ _ _ hj⟩
  exact (State.onGroup_only _ _ _).step rfl ((State.fresh_only s).mono rfl)

/-- A request that a host writes to the group's command object, where the group takes it. -/
theorem groupAsked_host {s : State} {h : Hdr} {e : Expect} {g : Nat} {v : Int} {f : GroupRun → GroupRun} (hg : g < 32)
    (ad : AdmittedPut s h e (Family.loopGroup.index g 4) 1 v) (hv : v = 1 ∨ v = 2 ∨ v = 3)
    (hask : ∀ u, OnlyChanges [.sent, .seats, .score] s u → u.askGroup g v = .ok (u.onGroup g f)) :
    ∃ t, inService s (fun s => s.hostPut h e .loopGroup g 4 1 v) = .next t ∧ GroupAsked s t (.host h e) g f := by
  have ad' : Admitted s h e (Family.loopGroup.index g 4) 1 (groupCommandRow.ty.encode v) := by
    simpa only [AdmittedPut, putOctets, anyObject_groupCommand hg] using ad
  have hok : rowOk ⟨.loopGroup, g, 4, 1, groupCommandRow⟩ v = true := by rcases hv with rfl | rfl | rfl <;> rfl
  obtain ⟨u, log, done⟩ := State.put_done ad' (locate_groupCommand hg) (by decide) (by decide) rfl (by decide) (by decide)
    nofun rfl rfl (by decide) (by rcases hv with rfl | rfl | rfl <;> rfl) hok
  have hu : OnlyChanges [.sent, .seats, .score] s u := ((State.arrived_only s h).mono rfl).trans (log.mono rfl)
  have hses : (u.onGroup g f).sessionOk h.seat h.session = true :=
    (State.sessionOk_of_only log (by decide) _ _).trans (State.arrived_ok ad.taken)
  obtain ⟨t, ht, only, hacc, -⟩ := done _ (hask u hu) hses
  have hgroup (j : Nat) : t.group j = (u.onGroup g f).group j := only.keeps_group (by decide) j
  refine ⟨t, congrArg _ ht, hacc, ?_, ?_, fun j hj => ?_⟩
  · exact (hu.mono rfl).trans (((State.onGroup_only u g f).mono rfl).trans (only.mono rfl))
  · rw [hgroup, State.group_onGroup _ _ _ hg, hu.keeps_group (by decide)]
  · rw [hgroup, State.group_onGroup_ne _ _ _ _ hj, hu.keeps_group (by decide)]

/-! ### What each request leaves in its group -/

/-- A start request waits. -/
def GroupRun.askStart (r : GroupRun) (now : Nat) (host : Bool) : GroupRun :=
  { r with startReq := some (r.startReq.getD now), startHost := host && (r.startReq.isNone || r.startHost) }

/-- A stop request waits. -/
def GroupRun.askStop (r : GroupRun) (now : Nat) : GroupRun :=
  { r with stopReq := some (r.stopReq.getD now), thermalMark := false }

/-- A clear waits. -/
def GroupRun.askClear (r : GroupRun) (now : Nat) : GroupRun :=
  { r with clearReq := some (r.clearReq.getD now), thermalMark := false }

theorem OnlyChanges.keeps_groupHeld {ps : List Part} {s t : State} (h : OnlyChanges ps s t) (wa : Part.active ∉ ps)
    (wm : Part.models ∉ ps) (g : Nat) : t.groupHeld g = s.groupHeld g := by
  have hm (m : Nat) : t.modelGroups m = s.modelGroups m := by
    unfold State.modelGroups State.modelB
    rw [h.keeps_portB wa, h.keeps_active wa]
  simp only [State.groupHeld, State.model, h.keeps_models wm, hm]

theorem OnlyChanges.keeps_fitsLanes {ps : List Part} {s t : State} (h : OnlyChanges ps s t) (wa : Part.active ∉ ps)
    (we : Part.engine ∉ ps) : t.fitsLanes = s.fitsLanes := by
  simp only [State.fitsLanes, h.keeps_active wa, h.keeps_engine we]

/-- A host's start request that Table 02-3 takes. -/
theorem State.askGroup_start {s : State} {g : Nat} (hs : s.lint.safe = false) (hh : s.groupHeld g = false)
    (hl : (s.group g).phase ≠ .latched) (hf : (s.group g).phase = .fallback → s.fitsLanes = true) :
    s.askGroup g 1 = .ok (s.onGroup g (fun r => r.askStart s.clock.slots true)) := by
  have hfit : ((s.group g).phase == .fallback && !s.fitsLanes) = false := by
    by_cases h : (s.group g).phase = .fallback
    · simp [h, hf h]
    · simp [h]
  simp only [State.askGroup, hs, hh, hfit, beq_false_of_ne hl]
  rfl

theorem State.askGroup_stop (s : State) (g : Nat) :
    s.askGroup g 2 = .ok (s.onGroup g (fun r => r.askStop s.clock.slots)) := rfl

theorem State.askGroup_clear (s : State) (g : Nat) :
    s.askGroup g 3 = .ok (s.onGroup g (fun r => r.askClear s.clock.slots)) := rfl

/-- A block's start request that Table 02-3 takes. -/
theorem State.requestGroup_start {s : State} {g : Nat} (hs : s.lint.safe = false) (hh : s.groupHeld g = false) :
    s.requestGroup g = s.onGroup g (fun r => r.askStart s.clock.slots false) := by
  simp only [State.requestGroup, hs, hh, Bool.false_eq_true, if_false]
  rfl

theorem groupStartAsked {s : State} {o : Source} {g : Nat} (hg : g < 32) (ra : Raised s o .loopGroup g 4 1)
    (hs : s.lint.safe = false) (hh : s.groupHeld g = false) (hl : (s.group g).phase ≠ .latched)
    (hf : (s.group g).phase = .fallback → s.fitsLanes = true) :
    ∃ t host, Machine.exec (.groupStart o g) s = .next t ∧ GroupAsked s t o g (fun r => r.askStart s.clock.slots host) := by
  cases o with
  | block =>
    obtain ⟨t, ht, asked⟩ := groupAsked_block (block := fun s => s.requestGroup g) hg ra
      (State.requestGroup_start (s := s.fresh) hs hh)
    exact ⟨t, false, ht, asked⟩
  | host h e =>
    obtain ⟨t, ht, asked⟩ := groupAsked_host hg ra (.inl rfl) (f := fun r => r.askStart s.clock.slots true) fun u hu => by
      have hgroup := hu.keeps_group (by decide) g
      rw [← hu.keeps_clock (by decide)]
      refine State.askGroup_start ?_ ?_ ?_ ?_
      · rw [hu.keeps_lint (by decide), hs]
      · rw [hu.keeps_groupHeld (by decide) (by decide), hh]
      · rw [hgroup]; exact hl
      · rw [hgroup, hu.keeps_fitsLanes (by decide) (by decide)]; exact hf
    exact ⟨t, true, ht, asked⟩

theorem groupStopAsked {s : State} {o : Source} {g : Nat} (hg : g < 32) (ra : Raised s o .loopGroup g 4 2) :
    ∃ t, Machine.exec (.groupStop o g) s = .next t ∧ GroupAsked s t o g (fun r => r.askStop s.clock.slots) := by
  cases o with
  | block => exact groupAsked_block hg ra rfl
  | host h e =>
    exact groupAsked_host hg ra (.inr (.inl rfl)) fun u hu => by
      rw [← hu.keeps_clock (by decide)]
      exact State.askGroup_stop u g

theorem groupClearAsked {s : State} {o : Source} {g : Nat} (hg : g < 32) (ra : Raised s o .loopGroup g 4 3) :
    ∃ t, Machine.exec (.groupClear o g) s = .next t ∧ GroupAsked s t o g (fun r => r.askClear s.clock.slots) := by
  cases o with
  | block => exact groupAsked_block hg ra rfl
  | host h e =>
    exact groupAsked_host hg ra (.inr (.inr rfl)) fun u hu => by
      rw [← hu.keeps_clock (by decide)]
      exact State.askGroup_clear u g

theorem groupRequestsComplete : GroupRequestsComplete := by
  intro s o g hg
  refine ⟨fun ra hs hh hl hf => ?_, fun ra => ?_, fun ra => ?_⟩
  · obtain ⟨t, host, ht, asked⟩ := groupStartAsked hg ra hs hh hl hf
    exact ⟨t, ht, asked.reported, ⟨asked.only, asked.keeps_phase fun _ => rfl, asked.other⟩,
      congrArg GroupRun.startReq asked.self⟩
  · obtain ⟨t, ht, asked⟩ := groupStopAsked hg ra
    exact ⟨t, ht, asked.reported, ⟨asked.only, asked.keeps_phase fun _ => rfl, asked.other⟩,
      congrArg GroupRun.thermalMark asked.self, congrArg GroupRun.stopReq asked.self⟩
  · obtain ⟨t, ht, asked⟩ := groupClearAsked hg ra
    exact ⟨t, ht, asked.reported, ⟨asked.only, asked.keeps_phase fun _ => rfl, asked.other⟩,
      congrArg GroupRun.thermalMark asked.self, congrArg GroupRun.clearReq asked.self⟩

end Sys2Proof.Machine
end

section
/-!
SUPPORT. The stages of a sample boundary of a group, and what each leaves: the requests and timers of Table 02-3, the figures
and irons of the sample, the sample itself, the fault record (R45, R62, R325, R479).
-/
namespace Sys2Proof.Machine
set_option Elab.async false

/-! ### What the stages leave of groups and ports -/

/-- What neither the record of faults nor the means that a sample keeps touch of a group. -/
def GroupRun.core (r : GroupRun) : GroupRun :=
  { r with means := [], faults := 0, faultFrom := .stopped, faultWinner := 255, last := {} }

/-- What the share channel does not touch of a port. -/
def PortRun.sansShare (r : PortRun) : PortRun := { r with share := {} }

/-- Between two states the groups differ in nothing but means and fault records, the ports in nothing but trims. -/
structure State.SameRun (s t : State) : Prop where
  group : ∀ j, (t.group j).core = (s.group j).core
  port : ∀ p, (t.port p).sansShare = (s.port p).sansShare

namespace State.SameRun

theorem refl (s : State) : SameRun s s := ⟨fun _ => rfl, fun _ => rfl⟩

theorem trans {a b c : State} (h : SameRun a b) (k : SameRun b c) : SameRun a c :=
  ⟨fun j => (k.group j).trans (h.group j), fun p => (k.port p).trans (h.port p)⟩

theorem of_only {ps : List Part} {s t : State} (h : OnlyChanges ps s t) (wg : Part.groups ∉ ps) (wp : Part.ports ∉ ps) :
    SameRun s t := ⟨fun j => congrArg _ (h.keeps_group wg j), fun p => congrArg _ (h.keeps_port wp p)⟩

theorem onGroup (s : State) (g : Nat) {f : GroupRun → GroupRun} (hf : ∀ r, (f r).core = r.core) : SameRun s (s.onGroup g f) :=
  ⟨State.group_onGroup_same s g f _ hf, fun _ => rfl⟩

theorem onPort (s : State) (q : Nat) {f : PortRun → PortRun} (hf : ∀ r, (f r).sansShare = r.sansShare) :
    SameRun s (s.onPort q f) := ⟨fun _ => rfl, State.port_onPort_same s q f _ hf⟩

theorem foldl {α : Type} {f : State → α → State} (hf : ∀ s a, SameRun s (f s a)) (l : List α) (s : State) :
    SameRun s (l.foldl f s) :=
  ⟨fun j => foldl_same (fun s => (s.group j).core) (fun s a => (hf s a).group j) l s,
    fun p => foldl_same (fun s => (s.port p).sansShare) (fun s a => (hf s a).port p) l s⟩

theorem keeps {α : Type} {s t : State} (h : SameRun s t) (p : GroupRun → α) (hp : ∀ r : GroupRun, p r.core = p r) (j : Nat) :
    p (t.group j) = p (s.group j) := by
  rw [← hp, h.group, hp]

theorem phase {s t : State} (h : SameRun s t) (j : Nat) : (t.group j).phase = (s.group j).phase :=
  h.keeps GroupRun.phase (fun _ => rfl) j

theorem evaluated {s t : State} (h : SameRun s t) (j : Nat) : t.evaluated j = s.evaluated j := by
  simp only [State.evaluated, h.phase]

end State.SameRun

theorem State.evaluated_iff {s : State} {g : Nat} :
    s.evaluated g = true ↔ (s.group g).phase = .softStart ∨ (s.group g).phase = .run := by
  simp [State.evaluated]

/-! ### The stages of a boundary -/

/-- The requests and the retry timer at a boundary (R62). -/
def State.boundaryTaken (s : State) (g : Nat) (hold : Bool) : State := ((s.moveToSpare g).takeRequests g hold).retryTimer g

/-- Trims, means and iron requests of a boundary. -/
def State.boundaryRefreshed (s : State) (g : Nat) : State :=
  let s := s.dropTrims g
  let s := if s.evaluated g then s.keepMeans g else s
  (allIrons.filter (fun i => s.ironGroup i == g)).foldl ironRequests s

/-- The irons of a group that work at its boundary. -/
def State.boundaryIrons (s : State) (g : Nat) : List Nat := if s.hardwareRun then [] else s.ironsOf g

/-- The string current and the irons before the sample. -/
def State.boundaryReady (s : State) (g k : Nat) (x : SampleIn) : State :=
  let before := if s.hardwareRun then [] else s.ironsBefore g
  let s := match s.stringOf g with
    | some m => s.onStr m (fun r => { r with fast := fastCurrent (s.strB m) k (vget x.natives m 0) })
    | none => s
  before.foldl (fun s i => s.ironBefore i k x.irons) s

/-- The sample of a group that is evaluated; without a live port it has no winner (R62). -/
def State.boundarySample (s : State) (g : Nat) (x : SampleIn) : State :=
  if !(s.evaluated g) then s
  else if (s.livePorts g).isEmpty then (s.onGroup g (fun r => { r with winner := 255, primary := 255 })).softStartTimeout g
  else s.sampleRun g x

/-- The irons after the sample, and the fault record (R128, R325). -/
def State.boundaryClosed (s : State) (g : Nat) (irons : List Nat) (x : SampleIn) : State :=
  let s := if (s.group g).winner == 255 || x.selector then s else irons.foldl (fun s i => s.ironAfter i x.irons) s
  let s := { s with engine := { s.engine with sramFixed := s.engine.sramFixed + x.fixedWords } }
  s.writeLastFault g

theorem State.sampleBoundary_offGrid {s : State} {g : Nat} (h : s.onGrid (s.groupB g).k = false) (hold : Bool) (x : SampleIn) :
    s.sampleBoundary g hold x = s := by
  simp only [State.sampleBoundary, h, Bool.not_false, if_true]

theorem State.sampleBoundary_stages {s : State} {g : Nat} (h : s.onGrid (s.groupB g).k = true) (hold : Bool) (x : SampleIn) :
    s.sampleBoundary g hold x =
      let u := (s.boundaryTaken g hold).boundaryRefreshed g
      ((u.boundaryReady g (s.groupB g).k x).boundarySample g x).boundaryClosed g (u.boundaryIrons g) x := by
  unfold State.sampleBoundary
  exact (if_neg (c := (!s.onGrid (s.groupB g).k) = true) (by simp [h])).trans rfl

/-! ### What each stage leaves -/

theorem State.dropTrims_sameRun (s : State) (g : Nat) : SameRun s (s.dropTrims g) := by
  refine .foldl (fun s p => ?_) _ s
  split
  · exact .refl s
  · exact .onPort s p fun _ => rfl

theorem State.keepMeans_sameRun (s : State) (g : Nat) : SameRun s (s.keepMeans g) := .onGroup s g fun _ => rfl

theorem State.boundaryRefreshed_only (s : State) (g : Nat) : OnlyChanges [.groups, .ports, .irons] s (s.boundaryRefreshed g) := by
  unfold State.boundaryRefreshed
  refine .foldl (fun s i => (State.ironRequests_only s i).mono rfl) (.ite ?_ ?_)
  · exact (State.keepMeans_only _ g).step rfl ((State.dropTrims_only s g).mono rfl)
  · exact (State.dropTrims_only s g).mono rfl

theorem State.boundaryRefreshed_sameRun (s : State) (g : Nat) : SameRun s (s.boundaryRefreshed g) := by
  refine (State.dropTrims_sameRun s g).trans (.trans (b := if (s.dropTrims g).evaluated g then (s.dropTrims g).keepMeans g
    else s.dropTrims g) ?_ ?_)
  · split
    · exact State.keepMeans_sameRun _ g
    · exact .refl _
  · exact .foldl (fun u i => .of_only (State.ironRequests_only u i) (by decide) (by decide)) _ _

theorem State.boundaryReady_only (s : State) (g k : Nat) (x : SampleIn) :
    OnlyChanges [.irons, .flat, .strings, .lint, .draws] s (s.boundaryReady g k x) := by
  unfold State.boundaryReady
  refine .foldl (fun u i => (State.ironBefore_only u i k x.irons).mono rfl) ?_
  split
  · exact (State.onStr_only _ _ _).mono rfl
  · exact .refl _ _

theorem State.writeLastFault_sameRun (s : State) (g : Nat) : SameRun s (s.writeLastFault g) := by
  unfold State.writeLastFault
  split
  · exact .refl s
  · exact .onGroup s g fun _ => rfl

theorem State.boundaryClosed_only (s : State) (g : Nat) (irons : List Nat) (x : SampleIn) :
    OnlyChanges [.groups, .irons, .engine] s (s.boundaryClosed g irons x) := by
  unfold State.boundaryClosed
  refine .step (State.writeLastFault_only _ _) rfl (.step (set_engine_only _ _) rfl (.ite (.refl _ _) ?_))
  exact .foldl (fun u i => (State.ironAfter_only u i _).mono rfl) (.refl _ _)

theorem State.boundaryClosed_sameRun (s : State) (g : Nat) (irons : List Nat) (x : SampleIn) :
    SameRun s (s.boundaryClosed g irons x) := by
  unfold State.boundaryClosed
  extract_lets a _ b
  have ha : OnlyChanges [.irons] s a := .ite (.refl _ _) (.foldl (fun u i => State.ironAfter_only u i _) (.refl _ _))
  have hb : OnlyChanges [.engine] a b := set_engine_only _ _
  exact (SameRun.of_only ha (by decide) (by decide)).trans
    ((SameRun.of_only hb (by decide) (by decide)).trans (State.writeLastFault_sameRun b g))

/-- The state from which a boundary takes its sample. -/
def State.beforeSample (s : State) (g : Nat) (hold : Bool) (x : SampleIn) : State :=
  ((s.boundaryTaken g hold).boundaryRefreshed g).boundaryReady g (s.groupB g).k x

theorem State.beforeSample_only (s : State) (g : Nat) (hold : Bool) (x : SampleIn) :
    OnlyChanges [.groups, .ports, .irons, .flat, .strings, .lint, .draws] (s.boundaryTaken g hold) (s.beforeSample g hold x) :=
  (State.boundaryReady_only _ _ _ _).step rfl ((State.boundaryRefreshed_only _ _).mono rfl)

theorem State.beforeSample_sameRun (s : State) (g : Nat) (hold : Bool) (x : SampleIn) :
    SameRun (s.boundaryTaken g hold) (s.beforeSample g hold x) :=
  (State.boundaryRefreshed_sameRun _ _).trans (.of_only (State.boundaryReady_only _ _ _ _) (by decide) (by decide))

/-- What a boundary leaves of groups and ports is what its sample leaves. -/
theorem State.sampleBoundary_sameRun {s : State} {g : Nat} (h : s.onGrid (s.groupB g).k = true) (hold : Bool) (x : SampleIn) :
    SameRun ((s.beforeSample g hold x).boundarySample g x) (s.sampleBoundary g hold x) := by
  rw [State.sampleBoundary_stages h]
  exact State.boundaryClosed_sameRun _ _ _ _

/-- A boundary of a group that its requests leave unevaluated evaluates nothing (R45). -/
theorem State.sampleBoundary_idle {s : State} {g : Nat} (h : s.onGrid (s.groupB g).k = true) {hold : Bool} (x : SampleIn)
    (hi : (s.boundaryTaken g hold).evaluated g = false) : SameRun (s.boundaryTaken g hold) (s.sampleBoundary g hold x) := by
  have hready := State.beforeSample_sameRun s g hold x
  have hsample : (s.beforeSample g hold x).boundarySample g x = s.beforeSample g hold x := by
    have hv : (s.beforeSample g hold x).evaluated g = false := (hready.evaluated g).trans hi
    simp only [State.boundarySample, hv, Bool.not_false, if_true]
  exact hready.trans (hsample ▸ State.sampleBoundary_sameRun h hold x)

/-! ### The requests of a boundary (Table 02-3) -/

theorem State.retryTimer_of_phase {s : State} {g : Nat} (h : (s.group g).phase ≠ .retryWait) : s.retryTimer g = s := by
  simp [State.retryTimer, h]

theorem State.takeExhausted_of_not_due {s : State} {g : Nat} (h : s.due (s.group g).fallReq = false) :
    s.takeExhausted g = s := by
  simp only [State.takeExhausted, h, Bool.false_eq_true, if_false]

theorem State.takeRequests_none {s : State} {g : Nat} (hold : Bool) (hstop : s.due (s.group g).stopReq = false)
    (hfall : s.due (s.group g).fallReq = false) (hstart : s.due (s.group g).startReq = false)
    (hclear : s.due (s.group g).clearReq = false) : s.takeRequests g hold = s := by
  simp [State.takeRequests, hstop, State.takeExhausted_of_not_due hfall, hstart, hclear]

theorem State.moveToSpare_due (s : State) (g : Nat) (r : Option Nat) : (s.moveToSpare g).due r = s.due r :=
  (State.moveToSpare_only s g).keeps_due (by decide) r

theorem State.moveToSpare_group (s : State) (g j : Nat) : (s.moveToSpare g).group j = s.group j :=
  (State.moveToSpare_only s g).keeps_group (by decide) j

theorem State.moveToSpare_port (s : State) (g p : Nat) : (s.moveToSpare g).port p = s.port p :=
  (State.moveToSpare_only s g).keeps_port (by decide) p

/-- A boundary at which no request is due and no retry waits takes none. -/
theorem State.boundaryTaken_none {s : State} {g : Nat} (hold : Bool) (hstop : s.due (s.group g).stopReq = false)
    (hfall : s.due (s.group g).fallReq = false) (hstart : s.due (s.group g).startReq = false)
    (hclear : s.due (s.group g).clearReq = false) (hph : (s.group g).phase ≠ .retryWait) :
    s.boundaryTaken g hold = s.moveToSpare g := by
  unfold State.boundaryTaken
  rw [State.takeRequests_none hold, State.retryTimer_of_phase]
  all_goals simpa only [State.moveToSpare_due, State.moveToSpare_group]

/-! ### A stop -/

/-- A group that a due stop leaves stopped. -/
def GroupRun.stopped (r : GroupRun) (startDue : Bool) : GroupRun :=
  { r with stopReq := none, heldStart := false, stopFaults := 0, fallReq := none
           startReq := if startDue then none else r.startReq
           phase := .stopped, winner := 255, primary := 255, served := 255 }

theorem State.groupFault_sameRun (s : State) (g c : Nat) : SameRun s (s.groupFault g c) := .onGroup s g fun _ => rfl

/-- A stop symbol is due on every port of the group, and no command (R63). -/
theorem State.stopPorts_port {s : State} {g p : Nat} (hp : p ∈ s.portsOf g) (h48 : p < 48) :
    ((s.stopPorts g).port p).stopDue = true ∧ ((s.stopPorts g).port p).cmd = none := by
  refine foldl_unit_of_mem (key := id) (read := State.port) (fun r => r.stopDue = true ∧ r.cmd = none)
    (fun u q => State.onPort_only u q _) (fun u q j h => State.port_onPort_ne u q _ j h) (by simpa using s.portsOf_nodup g) hp
    fun u _ _ => ?_
  rw [id, State.port_onPort _ _ _ h48]
  exact ⟨rfl, rfl⟩

/-- The fault causes that a stop request brings (R325). -/
def State.stopFaulted (s : State) (g : Nat) (causes : BitVec 6) : State :=
  (setBits causes).foldl (fun s c => s.groupFault g (c + 1)) s

theorem State.stopFaulted_sameRun (s : State) (g : Nat) (causes : BitVec 6) : SameRun s (s.stopFaulted g causes) :=
  .foldl (fun u c => State.groupFault_sameRun u g (c + 1)) _ s

theorem State.stopFaulted_only (s : State) (g : Nat) (causes : BitVec 6) : OnlyChanges [.groups] s (s.stopFaulted g causes) :=
  .foldl (fun u _ => State.groupFault_only u g _) (.refl _ s)

/-- The requests of a group after its stop has been taken. -/
def State.stopCleared (s : State) (g : Nat) : State :=
  s.onGroup g (fun r => { r with stopReq := none, heldStart := false, stopFaults := 0, fallReq := none
                                 startReq := if s.due r.startReq then none else r.startReq })

theorem State.takeStop_running {s : State} {g : Nat}
    (hph : (s.group g).phase = .softStart ∨ (s.group g).phase = .run ∨ (s.group g).phase = .fallback) :
    s.takeStop g = (((s.stopCleared g).stopFaulted g (s.group g).stopFaults).stopPorts g).onGroup g (fun r =>
      { r with phase := .stopped, winner := 255, primary := 255, served := 255 }) := by
  unfold State.takeStop
  rcases hph with h | h | h <;> simp only [h] <;> rfl

theorem State.takeStop_group {s : State} {g : Nat} (hg : g < 32)
    (hph : (s.group g).phase = .softStart ∨ (s.group g).phase = .run ∨ (s.group g).phase = .fallback) :
    ((s.takeStop g).group g).core = ((s.group g).stopped (s.due (s.group g).startReq)).core := by
  have hports := State.stopPorts_only ((s.stopCleared g).stopFaulted g (s.group g).stopFaults) g
  have hfault := (State.stopFaulted_sameRun (s.stopCleared g) g (s.group g).stopFaults).group g
  rw [State.takeStop_running hph, State.group_onGroup _ _ _ hg, hports.keeps_group (by decide)]
  rw [State.stopCleared, State.group_onGroup _ _ _ hg] at hfault
  exact congrArg (fun r : GroupRun => { r with phase := .stopped, winner := 255, primary := 255, served := 255 }) hfault

theorem State.takeStop_other {s : State} {g j : Nat} (hj : j ≠ g)
    (hph : (s.group g).phase = .softStart ∨ (s.group g).phase = .run ∨ (s.group g).phase = .fallback) :
    ((s.takeStop g).group j).core = (s.group j).core := by
  have hports := State.stopPorts_only ((s.stopCleared g).stopFaulted g (s.group g).stopFaults) g
  have hfault := (State.stopFaulted_sameRun (s.stopCleared g) g (s.group g).stopFaults).group j
  rw [State.takeStop_running hph, State.group_onGroup_ne _ _ _ _ hj, hports.keeps_group (by decide), hfault, State.stopCleared,
    State.group_onGroup_ne _ _ _ _ hj]

theorem State.takeStop_port {s : State} {g p : Nat} (hp : p ∈ s.portsOf g) (h48 : p < 48)
    (hph : (s.group g).phase = .softStart ∨ (s.group g).phase = .run ∨ (s.group g).phase = .fallback) :
    ((s.takeStop g).port p).stopDue = true ∧ ((s.takeStop g).port p).cmd = none := by
  rw [State.takeStop_running hph]
  refine State.stopPorts_port ?_ h48
  rw [(State.stopFaulted_only _ g _).keeps_portsOf (by decide), State.stopCleared, (State.onGroup_only s g _).keeps_portsOf (by decide)]
  exact hp

/-! ### A clear -/

theorem State.takeClear_latched {s : State} {g : Nat} (hg : g < 32) (h : (s.group g).phase = .latched) :
    ((s.takeClear g).group g) = { s.group g with clearReq := none, phase := .stopped, retry := 0 } := by
  have hself := State.group_onGroup s g (fun r => { r with clearReq := none }) hg
  have hl : ((s.onGroup g (fun r => { r with clearReq := none })).group g).phase = .latched := by rw [hself]; exact h
  simp only [State.takeClear, hl, beq_self_eq_true, if_true]
  rw [State.group_onGroup _ _ _ hg, hself]

/-- A clear of a group that is not latched is taken without effect. -/
theorem State.takeClear_other {s : State} {g : Nat} (h : (s.group g).phase ≠ .latched) :
    s.takeClear g = s.onGroup g (fun r => { r with clearReq := none }) := by
  have hsame := State.group_onGroup_same s g (fun r => { r with clearReq := none }) GroupRun.phase (fun _ => rfl) g
  have hl : ((s.onGroup g (fun r => { r with clearReq := none })).group g).phase ≠ .latched := by rw [hsame]; exact h
  simp only [State.takeClear, beq_iff_eq, hl, if_false]

end Sys2Proof.Machine
end

section
/-!
SUPPORT. The rows of Table 02-3 at a boundary: a stop, a clear, the entry to soft start, its timeout and its retry (R62, R63).
-/
namespace Sys2Proof.Machine
set_option Elab.async false

theorem State.SameRun.keepsPort {α : Type} {s t : State} (h : SameRun s t) (p : PortRun → α)
    (hp : ∀ r : PortRun, p r.sansShare = p r) (q : Nat) : p (t.port q) = p (s.port q) := by
  rw [← hp, h.port, hp]

theorem Registers.of_only {ps : List Part} {s t : State} {src cause : Nat} (r : Registers s src cause) (h : OnlyChanges ps s t)
    (wl : Part.lint ∉ ps) (wc : Part.clock ∉ ps) : Registers t src cause := by
  simpa only [Registers, h.keeps_lint wl, h.keeps_clock wc] using r

/-! ### A stop at a boundary -/

/-- The start request that waits with a stop is dropped where the boundary would take it (R62). -/
theorem State.due_dropped (s : State) (r : Option Nat) : s.due (if s.due r then none else r) = false := by
  cases h : s.due r
  · exact h
  · rfl

section
variable {s : State} {g : Nat} (hg : g < 32)
  (hph : (s.group g).phase = .softStart ∨ (s.group g).phase = .run ∨ (s.group g).phase = .fallback)
include hg hph

theorem State.takeStop_keeps {α : Type} (p : GroupRun → α) (hp : ∀ r : GroupRun, p r.core = p r) :
    p ((s.takeStop g).group g) = p ((s.group g).stopped (s.due (s.group g).startReq)) := by
  rw [← hp, State.takeStop_group hg hph, hp]

theorem State.takeRequests_stop (hold : Bool) (hdue : s.due (s.group g).stopReq = true) :
    s.takeRequests g hold = if (s.takeStop g).due ((s.takeStop g).group g).clearReq
      then (s.takeStop g).onGroup g (fun r => { r with clearReq := none }) else s.takeStop g := by
  have hstart : (s.takeStop g).due ((s.takeStop g).group g).startReq = false := by
    rw [(State.takeStop_only s g).keeps_due (by decide), State.takeStop_keeps hg hph GroupRun.startReq fun _ => rfl]
    exact s.due_dropped _
  have hph' : ((s.takeStop g).group g).phase ≠ .latched := by
    rw [State.takeStop_keeps hg hph GroupRun.phase fun _ => rfl]; exact nofun
  simp only [State.takeRequests, hdue, if_true, hstart, Bool.false_eq_true, if_false, State.takeClear_other hph']

theorem State.takeRequests_stop_group {α : Type} (hold : Bool) (hdue : s.due (s.group g).stopReq = true) (p : GroupRun → α)
    (hp : ∀ r : GroupRun, p { r with clearReq := none } = p r) (j : Nat) :
    p ((s.takeRequests g hold).group j) = p ((s.takeStop g).group j) := by
  rw [State.takeRequests_stop hg hph hold hdue]
  split
  · exact State.group_onGroup_same _ _ _ p hp j
  · rfl

theorem State.takeRequests_stop_port (hold : Bool) (hdue : s.due (s.group g).stopReq = true) (p : Nat) :
    (s.takeRequests g hold).port p = (s.takeStop g).port p := by
  rw [State.takeRequests_stop hg hph hold hdue]
  split <;> rfl

end

/-- A due stop leaves the group stopped, and drops a start that waits with it (R62, R63). -/
theorem groupStops {s : State} {g : Nat} (x : SampleIn) (hg : g < 32) (hb : s.boot.phase ≠ .held)
    (hgrid : s.onGrid (s.groupB g).k = true) (hdue : s.due (s.group g).stopReq = true)
    (hph : (s.group g).phase = .softStart ∨ (s.group g).phase = .run ∨ (s.group g).phase = .fallback) :
    ∃ t, Machine.exec (.groupSample g x) s = .next t ∧ (t.group g).phase = .stopped ∧ (t.group g).winner = 255 ∧
      (t.group g).stopReq = none ∧ (s.due (s.group g).startReq = true → (t.group g).startReq = none) ∧
      (∀ p ∈ s.portsOf g, p < 48 → (t.port p).stopDue = true ∧ (t.port p).cmd = none) ∧
      ∀ j, j ≠ g → (t.group j).phase = (s.group j).phase := by
  let m := s.fresh.moveToSpare g
  let hold := s.fresh.startHeld g
  have hm : OnlyChanges [.sent, .chans] s m := (State.moveToSpare_only _ g).step rfl ((State.fresh_only s).mono rfl)
  have hgroup (j : Nat) : m.group j = s.group j := hm.keeps_group (by decide) j
  have hphm : (m.group g).phase = .softStart ∨ (m.group g).phase = .run ∨ (m.group g).phase = .fallback := by
    rw [hgroup]; exact hph
  have hduem : m.due (m.group g).stopReq = true := by rw [hgroup, hm.keeps_due (by decide)]; exact hdue
  have hself {α : Type} (p : GroupRun → α) (hc : ∀ r : GroupRun, p r.core = p r)
      (hp : ∀ r : GroupRun, p { r with clearReq := none } = p r) :
      p ((m.takeRequests g hold).group g) = p ((s.group g).stopped (s.due (s.group g).startReq)) := by
    rw [State.takeRequests_stop_group hg hphm hold hduem p hp, State.takeStop_keeps hg hphm p hc, hgroup,
      hm.keeps_due (by decide)]
  have hstopped : ((m.takeRequests g hold).group g).phase = .stopped := hself GroupRun.phase (fun _ => rfl) fun _ => rfl
  have htaken : s.fresh.boundaryTaken g hold = m.takeRequests g hold :=
    State.retryTimer_of_phase (by rw [hstopped]; exact nofun)
  have hidle : (s.fresh.boundaryTaken g hold).evaluated g = false := by
    rw [htaken]; simp only [State.evaluated, hstopped]; rfl
  have same := State.sampleBoundary_idle (s := s.fresh) hgrid x hidle
  rw [htaken] at same
  have hfinal {α : Type} (p : GroupRun → α) (hc : ∀ r : GroupRun, p r.core = p r)
      (hp : ∀ r : GroupRun, p { r with clearReq := none } = p r) :
      p ((s.fresh.sampleBoundary g hold x).group g) = p ((s.group g).stopped (s.due (s.group g).startReq)) :=
    (same.keeps p hc g).trans (hself p hc hp)
  refine ⟨_, inService_eq hb _, hfinal GroupRun.phase (fun _ => rfl) fun _ => rfl,
    hfinal GroupRun.winner (fun _ => rfl) fun _ => rfl, hfinal GroupRun.stopReq (fun _ => rfl) fun _ => rfl, fun hd => ?_,
    fun p hp h48 => ?_, fun j hj => ?_⟩
  · exact (hfinal GroupRun.startReq (fun _ => rfl) fun _ => rfl).trans (if_pos hd)
  · have hport := State.takeStop_port (s := m) (g := g) (by rw [hm.keeps_portsOf (by decide)]; exact hp) h48 hphm
    rw [← State.takeRequests_stop_port hg hphm hold hduem] at hport
    exact ⟨(same.keepsPort PortRun.stopDue (fun _ => rfl) p).trans hport.1,
      (same.keepsPort PortRun.cmd (fun _ => rfl) p).trans hport.2⟩
  · have hother : ((m.takeStop g).group j).phase = (m.group j).phase :=
      (congrArg GroupRun.phase (State.takeStop_other hj hphm) :)
    rw [same.phase, State.takeRequests_stop_group hg hphm hold hduem GroupRun.phase fun _ => rfl, hother, hgroup]

/-! ### A clear at a boundary -/

/-- A due clear takes a latched group to Stopped (Table 02-3). -/
theorem groupClears {s : State} {g : Nat} (x : SampleIn) (hg : g < 32) (hb : s.boot.phase ≠ .held)
    (hgrid : s.onGrid (s.groupB g).k = true) (hfall : s.due (s.group g).fallReq = false)
    (hstop : s.due (s.group g).stopReq = false) (hstart : s.due (s.group g).startReq = false)
    (hdue : s.due (s.group g).clearReq = true) (hph : (s.group g).phase = .latched) :
    ∃ t, Machine.exec (.groupSample g x) s = .next t ∧ (t.group g).phase = .stopped ∧ (t.group g).retry = 0 ∧
      (t.group g).clearReq = none := by
  let m := s.fresh.moveToSpare g
  let hold := s.fresh.startHeld g
  have hm : OnlyChanges [.sent, .chans] s m := (State.moveToSpare_only _ g).step rfl ((State.fresh_only s).mono rfl)
  have hgroup (j : Nat) : m.group j = s.group j := hm.keeps_group (by decide) j
  have hexhausted : m.takeExhausted g = m :=
    State.takeExhausted_of_not_due (by rw [hgroup, hm.keeps_due (by decide)]; exact hfall)
  have hrequests : m.takeRequests g hold = m.takeClear g := by
    simp only [State.takeRequests, hgroup, hm.keeps_due (show Part.clock ∉ [Part.sent, .chans] by decide), hstop, hexhausted,
      hstart, hdue, Bool.false_eq_true, if_false, if_true]
  have hclear := State.takeClear_latched (s := m) hg (by rw [hgroup]; exact hph)
  have htaken : s.fresh.boundaryTaken g hold = m.takeClear g := by
    show (m.takeRequests g hold).retryTimer g = _
    rw [hrequests, State.retryTimer_of_phase (by rw [hclear]; exact nofun)]
  have hidle : (s.fresh.boundaryTaken g hold).evaluated g = false := by
    rw [htaken]; simp only [State.evaluated, hclear]; rfl
  have same := State.sampleBoundary_idle (s := s.fresh) hgrid x hidle
  rw [htaken] at same
  have hfinal {α : Type} (p : GroupRun → α) (hc : ∀ r : GroupRun, p r.core = p r) :
      p ((s.fresh.sampleBoundary g hold x).group g) = p { m.group g with clearReq := none, phase := .stopped, retry := 0 } := by
    rw [same.keeps p hc, hclear]
  exact ⟨_, inService_eq hb _, hfinal GroupRun.phase fun _ => rfl, hfinal GroupRun.retry fun _ => rfl,
    hfinal GroupRun.clearReq fun _ => rfl⟩

/-! ### Entry to soft start -/

/-- A group that enters soft start (R59, Table 02-3). -/
def GroupRun.started (r : GroupRun) (now : Nat) (modeDue support : Bool) : GroupRun :=
  { r with phase := .softStart, ssFrom := now, sampled := false, modeDue := modeDue, support := support, exitFrom := none
           means := [], strikes := 0, turn := 0, served := 255, lock := {}, heldStart := false, fallReq := none }

/-- The ports of a group taken back at its start (R103, R178). -/
def State.takePortsBack (s : State) (g : Nat) : State :=
  (s.portsOf g).foldl (fun s p => s.onPort p (fun r => { r with out := false, locks := Vector.replicate 4 {} })) s

theorem State.takePortsBack_only (s : State) (g : Nat) : OnlyChanges [.ports] s (s.takePortsBack g) :=
  .foldl (fun u p => State.onPort_only u p _) (.refl _ s)

theorem State.enterSoftStart_stages (s : State) (g : Nat) :
    s.enterSoftStart g =
      let a := s.markFresh g
      let b := a.takePortsBack g
      (b.onGroup g (fun r => r.started b.clock.slots (!a.othersRun g) (a.poolSupport g))).recomputeD := rfl

theorem State.enterSoftStart_group {s : State} {g : Nat} (hg : g < 32) :
    ∃ modeDue support, (s.enterSoftStart g).group g = (s.group g).started s.clock.slots modeDue support := by
  let a := s.markFresh g
  let b := a.takePortsBack g
  let c := b.onGroup g (fun r => r.started b.clock.slots (!a.othersRun g) (a.poolSupport g))
  have hb : OnlyChanges [.chans, .ports] s b := (State.takePortsBack_only a g).step rfl ((State.markFresh_only s g).mono rfl)
  have hc : c.recomputeD.group g = c.group g := (State.recomputeD_only c).keeps_group (by decide) g
  refine ⟨!a.othersRun g, a.poolSupport g, ?_⟩
  rw [State.enterSoftStart_stages, hc, State.group_onGroup _ _ _ hg, hb.keeps_group (by decide), hb.keeps_clock (by decide)]

/-- Soft start leaves the links of the ports as they are. -/
theorem State.enterSoftStart_link (s : State) (g p : Nat) : ((s.enterSoftStart g).port p).link = (s.port p).link := by
  let a := s.markFresh g
  let b := a.takePortsBack g
  let c := b.onGroup g (fun r => r.started b.clock.slots (!a.othersRun g) (a.poolSupport g))
  have ha : a.port p = s.port p := (State.markFresh_only s g).keeps_port (by decide) p
  have hb : (b.port p).link = (a.port p).link := by
    refine foldl_same (fun s : State => (s.port p).link) (fun u q => ?_) _ a
    exact State.port_onPort_same u q _ PortRun.link (fun _ => by rfl) p
  have hc : c.recomputeD.port p = c.port p := (State.recomputeD_only c).keeps_port (by decide) p
  rw [State.enterSoftStart_stages, hc, ← ha, ← hb]
  rfl

theorem State.markFresh_pool (s : State) (g c : Nat) : ((s.markFresh g).chan c).pool = (s.chan c).pool := by
  have hset (u : State) (j : Nat) (f : ChannelRun → ChannelRun) (hf : ∀ r, (f r).pool = r.pool) :
      ((u.onChan j f).chan c).pool = (u.chan c).pool := State.chan_onChan_same u j f ChannelRun.pool hf c
  have hfold (l : List Nat) : ((l.foldl (fun s c => s.onChan c (fun r =>
      { r with fresh := true, fill := none, target := none, excluded := false })) s).chan c).pool = (s.chan c).pool :=
    foldl_same (fun u : State => (u.chan c).pool) (fun u j => hset u j _ fun _ => by rfl) l s
  unfold State.markFresh
  extract_lets pc first own a b
  have ha : (a.chan c).pool = (s.chan c).pool := hfold _
  have hb : (b.chan c).pool = (a.chan c).pool := by
    unfold b
    split
    · rfl
    · exact hset a pc _ fun _ => by rfl
  rw [← ha, ← hb]
  split
  · exact hset b pc _ fun _ => by rfl
  · rfl

theorem State.lossEdge_pool (s : State) (c : Nat) : (s.lossEdge.chan c).pool = (s.chan c).pool := by
  have hset (f : State → ChannelRun → ChannelRun) (hf : ∀ u r, (f u r).pool = r.pool) :
      ((s.batteryGroups.foldl (fun s g => s.onChan (s.poolPrimary g) (f s)) s).chan c).pool = (s.chan c).pool :=
    foldl_same (fun u : State => (u.chan c).pool)
      (fun u j => State.chan_onChan_same u _ (f u) ChannelRun.pool (hf u) c) s.batteryGroups s
  unfold State.lossEdge
  split
  · rfl
  · split <;> split
    · exact hset (fun u r => { r with ramp := 65536 * r.y, target := some u.cfg.loss.takeoverV }) fun _ _ => rfl
    · rfl
    · rfl
    · exact hset (fun _ r => { r with target := none }) fun _ _ => rfl

/-- Soft start leaves the sample that the pool primary has had. -/
theorem State.enterSoftStart_pool (s : State) (g c : Nat) : ((s.enterSoftStart g).chan c).pool = (s.chan c).pool := by
  let a := s.markFresh g
  let b := a.takePortsBack g
  let d := b.onGroup g (fun r => r.started b.clock.slots (!a.othersRun g) (a.poolSupport g))
  have hd : d.chan c = a.chan c := (State.takePortsBack_only a g).keeps_chan (by decide) c
  rw [State.enterSoftStart_stages, ← State.markFresh_pool s g, ← hd]
  exact State.lossEdge_pool _ c

/-! ### Timeout and retry of soft start -/

theorem State.stopPorts_group (s : State) (g j : Nat) : (s.stopPorts g).group j = s.group j :=
  (State.stopPorts_only s g).keeps_group (by decide) j

/-- A fault of a group in soft start, reported and its ports stopped. -/
def State.startFailed (s : State) (g code cause : Nat) : State :=
  ((s.groupFault g code).detect (srcGroupStart g) cause).stopPorts g

theorem State.startFailed_only (s : State) (g code cause : Nat) :
    OnlyChanges [.groups, .lint, .ports] s (s.startFailed g code cause) :=
  (State.stopPorts_only _ g).step rfl ((State.detect_only _ _ _).step rfl ((State.groupFault_only s g code).mono rfl))

theorem State.startFailed_group (s : State) (g code cause j : Nat) :
    ((s.startFailed g code cause).group j).core = (s.group j).core := by
  rw [State.startFailed, State.stopPorts_group]
  exact (State.groupFault_sameRun s g code).group j

theorem State.startFailed_registers (s : State) (g code cause : Nat) :
    Registers (s.startFailed g code cause) (srcGroupStart g) cause :=
  Registers.of_only (State.detect_registers _ _ _) (State.stopPorts_only _ g) (by decide) (by decide)

theorem State.startFailed_port {s : State} {g p : Nat} (hp : p ∈ s.portsOf g) (h48 : p < 48) (code cause : Nat) :
    ((s.startFailed g code cause).port p).stopDue = true ∧ ((s.startFailed g code cause).port p).cmd = none := by
  refine State.stopPorts_port ?_ h48
  rw [(State.detect_only _ _ _).keeps_portsOf (by decide), (State.groupFault_only _ _ _).keeps_portsOf (by decide)]
  exact hp

section
variable {s : State} {g : Nat} (hph : (s.group g).phase = .softStart)
  (hto : (s.groupB g).core.ssTimeout ≤ elapsedUs s (s.group g).ssFrom) (hok : s.softStartOk g = false)
include hph hto hok

theorem State.softStartTimeout_retry (hr : (s.group g).retry < (s.groupB g).core.retryMax) :
    s.softStartTimeout g = ((s.startFailed g 2 0).groupOut g .retryWait).onGroup g (fun r =>
      { r with retry := r.retry + 1, retryFrom := (s.startFailed g 2 0).clock.slots }) := by
  simp only [State.softStartTimeout, hph, hto, hok, hr, beq_self_eq_true, decide_true, Bool.not_false, Bool.and_self, if_true]
  rfl

theorem State.softStartTimeout_latch (hr : ¬ (s.group g).retry < (s.groupB g).core.retryMax) :
    s.softStartTimeout g = (s.startFailed g 3 1).groupOut g .latched := by
  simp only [State.softStartTimeout, hph, hto, hok, hr, beq_self_eq_true, decide_true, Bool.not_false, Bool.and_self, if_true,
    if_false]
  rfl

end

/-- Soft start is over at its timeout alone, short of 90 % of its target. -/
theorem State.softStartTimeout_waits {s : State} {g : Nat}
    (h : (s.group g).phase ≠ .softStart ∨ elapsedUs s (s.group g).ssFrom < (s.groupB g).core.ssTimeout) :
    s.softStartTimeout g = s := by
  rcases h with h | h
  · simp [State.softStartTimeout, h]
  · simp [State.softStartTimeout, Nat.not_le.mpr h]

theorem softStartEnds (s : State) (g : Nat) (hg : g < 32) (hb : s.boot.phase ≠ .held) (hgrid : s.onGrid (s.groupB g).k = true)
    (hph : (s.group g).phase = .softStart) (hto : (s.groupB g).core.ssTimeout ≤ elapsedUs s (s.group g).ssFrom)
    (hok : s.softStartOk g = false) :
    ∃ t, Machine.exec (.softStartTimeout g) s = .next t ∧ OnlyChanges [.sent, .groups, .ports, .lint] s t ∧
      (∀ p ∈ s.portsOf g, p < 48 → (t.port p).stopDue = true ∧ (t.port p).cmd = none) ∧
      if (s.group g).retry < (s.groupB g).core.retryMax then
        (t.group g).phase = .retryWait ∧ (t.group g).retry = (s.group g).retry + 1 ∧
          (t.group g).retryFrom = s.clock.slots ∧ Registers t (srcGroupStart g) 0
      else (t.group g).phase = .latched ∧ Registers t (srcGroupStart g) 1 := by
  let e := s.fresh.softStartTimeout g
  have hrow : s.fresh.softStartRow g = e.writeLastFault g := if_pos hgrid
  have only : OnlyChanges [.sent, .groups, .ports, .lint] s e :=
    (State.softStartTimeout_only _ g).step rfl ((State.fresh_only s).mono rfl)
  have hwrite := State.writeLastFault_only e g
  have same := State.writeLastFault_sameRun e g
  refine ⟨_, (inService_eq hb _).trans (congrArg _ hrow), hwrite.step rfl only, ?_⟩
  have hports (code cause : Nat) (he : e.ports = (s.fresh.startFailed g code cause).ports) (p : Nat) (hp : p ∈ s.portsOf g)
      (h48 : p < 48) : ((e.writeLastFault g).port p).stopDue = true ∧ ((e.writeLastFault g).port p).cmd = none := by
    have hport : (e.writeLastFault g).port p = (s.fresh.startFailed g code cause).port p := by
      rw [hwrite.keeps_port (by decide)]
      simp only [State.port, he]
    rw [hport]
    exact State.startFailed_port (s := s.fresh) hp h48 code cause
  by_cases hr : (s.group g).retry < (s.groupB g).core.retryMax
  · have he := State.softStartTimeout_retry (s := s.fresh) hph hto hok hr
    have hgroup : (e.group g).core =
        ({ (s.group g) with phase := .retryWait, winner := 255, primary := 255, fallReq := none
                            retry := (s.group g).retry + 1, retryFrom := s.clock.slots } : GroupRun).core := by
      have hf := State.startFailed_group s.fresh g 2 0 g
      show ((s.fresh.softStartTimeout g).group g).core = _
      rw [he, State.group_onGroup _ _ _ hg, State.groupOut, State.group_onGroup _ _ _ hg,
        (State.startFailed_only s.fresh g 2 0).keeps_clock (by decide)]
      exact congrArg (fun r : GroupRun => { r with
        phase := .retryWait, winner := 255, primary := 255, fallReq := none, retry := r.retry + 1
        retryFrom := s.clock.slots }) hf
    have hfinal {α : Type} (p : GroupRun → α) (hc : ∀ r : GroupRun, p r.core = p r) :=
      (same.keeps p hc g).trans ((hc _).symm.trans ((congrArg p hgroup).trans (hc _)))
    refine ⟨hports 2 0 (by show (s.fresh.softStartTimeout g).ports = _; rw [he]; rfl), ?_⟩
    rw [if_pos hr]
    refine ⟨hfinal GroupRun.phase fun _ => rfl, hfinal GroupRun.retry fun _ => rfl, hfinal GroupRun.retryFrom fun _ => rfl, ?_⟩
    refine Registers.of_only ?_ hwrite (by decide) (by decide)
    show Registers (s.fresh.softStartTimeout g) _ _
    rw [he]
    exact State.startFailed_registers s.fresh g 2 0
  · have he := State.softStartTimeout_latch (s := s.fresh) hph hto hok hr
    refine ⟨hports 3 1 (by show (s.fresh.softStartTimeout g).ports = _; rw [he]; rfl), ?_⟩
    rw [if_neg hr]
    constructor
    · rw [same.phase]
      show ((s.fresh.softStartTimeout g).group g).phase = _
      rw [he, State.groupOut, State.group_onGroup _ _ _ hg]
    · refine Registers.of_only ?_ hwrite (by decide) (by decide)
      show Registers (s.fresh.softStartTimeout g) _ _
      rw [he]
      exact State.startFailed_registers s.fresh g 3 1

theorem State.retryTimer_due {s : State} {g : Nat} (hph : (s.group g).phase = .retryWait)
    (hto : (s.groupB g).core.retryInterval ≤ elapsedUs s (s.group g).retryFrom) : s.retryTimer g = s.enterSoftStart g := by
  simp only [State.retryTimer, hph, hto, beq_self_eq_true, decide_true, Bool.and_self, if_true]

theorem retryStarts (s : State) (g : Nat) (hg : g < 32) (hb : s.boot.phase ≠ .held) (hgrid : s.onGrid (s.groupB g).k = true)
    (hph : (s.group g).phase = .retryWait) (hto : (s.groupB g).core.retryInterval ≤ elapsedUs s (s.group g).retryFrom) :
    ∃ t, Machine.exec (.groupRetryTimer g) s = .next t ∧ (t.group g).phase = .softStart ∧
      (t.group g).ssFrom = s.clock.slots ∧ (t.group g).retry = (s.group g).retry := by
  have hrow : s.fresh.retryRow g = s.fresh.enterSoftStart g := (if_pos hgrid).trans (State.retryTimer_due (s := s.fresh) hph hto)
  obtain ⟨modeDue, support, hstarted⟩ := State.enterSoftStart_group (s := s.fresh) hg
  refine ⟨_, (inService_eq hb _).trans (congrArg _ hrow), ?_⟩
  rw [hstarted]
  exact ⟨rfl, rfl, rfl⟩

theorem softStartTimesOut : SoftStartTimesOut := ⟨softStartEnds, retryStarts⟩

end Sys2Proof.Machine
end

section
/-!
SUPPORT. One sample whose engine shows no error: its stages, what they leave, and that no three-strike condition ends it
(R45, R54, R55, R58, R70).
-/
namespace Sys2Proof.Machine
set_option Elab.async false

/-- A sample without mismatches shows no channel an error (R69). -/
theorem SampleIn.bad_none {x : SampleIn} (hx : x.residues = []) (c : Nat) : x.bad c = none := by
  simp [SampleIn.bad, hx]

/-! ### The stages of a sample -/

/-- What precedes the evaluation of a group's own channels: takeover, cap restart, change of the primary, the pool primary. -/
def State.sampleEntry (s : State) (g : Nat) (x : SampleIn) : State :=
  (((s.takeover g).capRestart g x).primaryChange g).poolEval g x

/-- The proposals of a sample: those of the competing channels, and the pool primary's where it takes part (R188). -/
def State.proposals (s : State) (g : Nat) (us : List (Nat × Int)) : List (Nat × Int) :=
  if s.primaryIn g then ((s.groupB g).primary, (s.chan (s.poolPrimary g)).pool.u) :: us else us

/-- The channels whose strikes end a sample (R70, R189). -/
def State.usedChannels (s : State) (g : Nat) (us : List (Nat × Int)) : List Nat :=
  (if s.primaryOn g then [s.poolPrimary g] else []) ++ (us.map (·.1)).filter (· != (s.groupB g).primary) ++
    ((s.shareChan g).filter (fun c => (s.chanB c).en)).toList

/-- The lowest proposal, or the selected output as it stands. -/
def State.sampleWon (s : State) (g : Nat) (us : List (Nat × Int)) : Nat × Int := (lowBall us).getD (255, (s.group g).s)

/-- Selection and tracking of a sample without a selector mismatch. -/
def State.sampleSelected (s : State) (g : Nat) (us : List (Nat × Int)) : State :=
  ((s.storeSample g us (s.sampleWon g us).2 false).select g (s.sampleWon g us) false).derateRelease g

/-- Share, feed-forward and lock of a sample, before its command codes. -/
def State.sampleForwarded (s : State) (g : Nat) (x : SampleIn) (old : Int) : State :=
  (((s.shareTurn g x).onGroup g (fun r => { r with f := (s.shareTurn g x).feedForward g x.natives })).lockSample g old)

/-- A sample from its evaluation on, up to its command words. -/
def State.sampleCommanded (s : State) (g : Nat) (x : SampleIn) (us : List (Nat × Int)) : State :=
  ((s.sampleSelected g us).sampleForwarded g x (s.group g).s).commandPorts g false

theorem State.sampleRun_stages {s e : State} {g : Nat} {x : SampleIn} {ps : List (Nat × Int)} (hx : x.selector = false)
    (he : (s.sampleEntry g x).evalChannels g x = (e, ps)) :
    s.sampleRun g x =
      let us := e.proposals g ps
      let q := e.sampleCommanded g x us
      let r := if q.threeStrikes g (e.usedChannels g us) ((s.group g).fallReq.isNone && (q.group g).fallReq.isSome)
        then q.enterFallback g else q
      (r.softStartDone g).softStartTimeout g := by
  have hp : (s.sampleEntry g x).poolPrimary g = e.poolPrimary g :=
    ((State.evalChannels_to he).keeps_poolPrimary (by decide) g).symm
  unfold State.sampleRun
  extract_lets was s1 pc
  have hs1 : s1 = s.sampleEntry g x := rfl
  have hpc : pc = e.poolPrimary g := hp
  clear_value s1 pc
  subst hs1 hpc
  rw [he, hx]
  rfl

/-! ### What a sample leaves of every group -/

/-- In every unit that `read` reads two states agree in `p`. -/
def State.UnitsKeep {α β : Type} (read : State → Nat → β) (p : β → α) (s t : State) : Prop := ∀ j, p (read t j) = p (read s j)

/-- In every group two states agree in `p`. -/
abbrev State.GroupsKeep {α : Type} (p : GroupRun → α) : State → State → Prop := State.UnitsKeep State.group p

/-- In every channel two states agree in `p`. -/
abbrev State.ChansKeep {α : Type} (p : ChannelRun → α) : State → State → Prop := State.UnitsKeep State.chan p

/-- In every port two states agree in `p`. -/
abbrev State.PortsKeep {α : Type} (p : PortRun → α) : State → State → Prop := State.UnitsKeep State.port p

namespace State.UnitsKeep

section
variable {α β : Type} {read : State → Nat → β} {p : β → α}

theorem refl (s : State) : UnitsKeep read p s s := fun _ => rfl

theorem trans {a b c : State} (h : UnitsKeep read p a b) (k : UnitsKeep read p b c) : UnitsKeep read p a c :=
  fun j => (k j).trans (h j)

theorem ite {c : Prop} [Decidable c] {s a b : State} (h : UnitsKeep read p s a) (k : UnitsKeep read p s b) :
    UnitsKeep read p s (if c then a else b) := by split <;> assumption

theorem foldl {γ : Type} {f : State → γ → State} (hf : ∀ s a, UnitsKeep read p s (f s a)) (l : List γ) (s : State) :
    UnitsKeep read p s (l.foldl f s) := fun j => foldl_same (fun s => p (read s j)) (fun s a => hf s a j) l s

/-- What depends on `p` alone is kept with it. -/
theorem weaken {γ : Type} {s t : State} (h : UnitsKeep read p s t) (f : α → γ) : UnitsKeep read (fun r => f (p r)) s t :=
  fun j => congrArg f (h j)

end

section
variable {α : Type} {ps : List Part} {s t : State}

theorem groups_of_only {p : GroupRun → α} (h : OnlyChanges ps s t) (w : Part.groups ∉ ps) : GroupsKeep p s t :=
  fun j => congrArg p (h.keeps_group w j)

theorem chans_of_only {p : ChannelRun → α} (h : OnlyChanges ps s t) (w : Part.chans ∉ ps) : ChansKeep p s t :=
  fun j => congrArg p (h.keeps_chan w j)

theorem ports_of_only {p : PortRun → α} (h : OnlyChanges ps s t) (w : Part.ports ∉ ps) : PortsKeep p s t :=
  fun j => congrArg p (h.keeps_port w j)

theorem onGroup {p : GroupRun → α} (s : State) (g : Nat) {f : GroupRun → GroupRun} (hf : ∀ r, p (f r) = p r) :
    GroupsKeep p s (s.onGroup g f) := State.group_onGroup_same s g f p hf

theorem onChan {p : ChannelRun → α} (s : State) (c : Nat) {f : ChannelRun → ChannelRun} (hf : ∀ r, p (f r) = p r) :
    ChansKeep p s (s.onChan c f) := State.chan_onChan_same s c f p hf

theorem onPort {p : PortRun → α} (s : State) (q : Nat) {f : PortRun → PortRun} (hf : ∀ r, p (f r) = p r) :
    PortsKeep p s (s.onPort q f) := State.port_onPort_same s q f p hf

end

end State.UnitsKeep

/-- What a sample without errors leaves of a group: its state and timers, its requests, its means and fault records. -/
def GroupRun.course (r : GroupRun) : GroupRun :=
  { r with takeoverDue := false, support := false, modeDue := false, exitFrom := none, downCount := 0, served := 255
           winner := 255, s := 0, strikes := 0, sampled := false, primary := 255, turn := 0, f := 0, lock := {} }

/-- What share, feed-forward and lock of a sample leave of a group: all but the turn, the term and the lock. -/
def GroupRun.outcome (r : GroupRun) : GroupRun := { r with turn := 0, f := 0, lock := {} }

/-- A sample leaves the course of every group. -/
abbrev State.SameCourse : State → State → Prop := State.GroupsKeep GroupRun.course

/-- Two states agree in the outcome of every group's selection. -/
abbrev State.SameOutcome : State → State → Prop := State.GroupsKeep GroupRun.outcome

theorem State.UnitsKeep.course {s t : State} (h : SameOutcome s t) : SameCourse s t := h.weaken GroupRun.course

theorem State.takeoverGroup_course (s : State) (g : Nat) : SameCourse s (s.takeoverGroup g) := by
  unfold State.takeoverGroup
  extract_lets cs a
  have ha : OnlyChanges [.chans] s a := .foldl (fun u c => State.onChan_only u c _) (.refl _ s)
  exact (UnitsKeep.groups_of_only ha (by decide)).trans (.onGroup a g fun _ => rfl)

theorem State.takeover_course (s : State) (g : Nat) : SameCourse s (s.takeover g) := by
  unfold State.takeover
  extract_lets pc
  split
  · exact .refl s
  · rename_i m ms _
    extract_lets s0 t
    have ht : SameCourse s t := .foldl State.takeoverGroup_course _ s
    exact .ite (ht.trans (.groups_of_only (State.onChan_only _ _ _) (by decide))) ht

theorem State.capRestart_course (s : State) (g : Nat) (x : SampleIn) : SameCourse s (s.capRestart g x) := by
  unfold State.capRestart
  extract_lets n b was t
  have ht : SameCourse s t := .onGroup s g fun _ => rfl
  exact .ite (ht.trans (.groups_of_only (State.onChan_only _ _ _) (by decide))) ht

theorem State.primaryChange_course (s : State) (g : Nat) : SameCourse s (s.primaryChange g) := by
  unfold State.primaryChange
  extract_lets pc r others t
  have ht : SameCourse s t := .ite (.groups_of_only (State.onChan_only _ _ _) (by decide)) (.refl s)
  exact ht.trans (.onGroup t g fun _ => rfl)

theorem State.leaveSupport_course (s : State) (g : Nat) : SameCourse s (s.leaveSupport g) := by
  unfold State.leaveSupport
  refine .foldl (fun u m => ?_) _ s
  refine UnitsKeep.trans (b := match u.stringCtrl m with
    | some k => u.onChan (u.strB k).chargeCh (fun c => { c with fresh := true, fill := some (u.group m).s })
    | none => u) ?_ (.onGroup _ m fun _ => rfl)
  split
  · exact .groups_of_only (State.onChan_only _ _ _) (by decide)
  · exact .refl u

theorem State.chooseMode_course (s : State) (g k : Nat) (y ramp goal : Int) : SameCourse s (s.chooseMode g k y ramp goal) := by
  unfold State.chooseMode
  extract_lets r b pb h from'
  refine .ite (.onGroup s g fun _ => rfl) (.ite (.onGroup s g fun _ => rfl) (.ite ?_ (.ite ?_ (.onGroup s g fun _ => rfl))))
  · refine .ite (UnitsKeep.trans ?_ (.onGroup _ g fun _ => rfl)) (.refl s)
    exact .ite (.groups_of_only (State.onChan_only _ _ _) (by decide)) (.refl s)
  · exact .ite (State.leaveSupport_course s g) (.onGroup s g fun _ => rfl)

theorem State.select_course (s : State) (g : Nat) (won : Nat × Int) (mismatch : Bool) :
    SameCourse s (s.select g won mismatch) := by
  unfold State.select
  refine .ite (.onGroup s g fun _ => rfl) (UnitsKeep.trans (.onGroup s g fun _ => ?_)
    (.groups_of_only (State.markWinner_only _ _ _) (by decide)))
  rfl

theorem State.suspendLock_outcome (s : State) (g : Nat) : SameOutcome s (s.suspendLock g) := by
  unfold State.suspendLock
  extract_lets t
  have ht : SameOutcome s t := .onGroup s g fun _ => rfl
  exact ht.trans (.groups_of_only (.foldl (fun u p => State.onPort_only u p _) (.refl [.ports] t)) (by decide))

theorem State.lockSample_outcome (s : State) (g : Nat) (old : Int) : SameOutcome s (s.lockSample g old) := by
  unfold State.lockSample
  refine .ite (State.suspendLock_outcome s g) (.onGroup s g fun r => ?_)
  split <;> rfl

/-! ### The share channel's turn -/

section
variable {s : State} {g : Nat} {x : SampleIn}

theorem State.onPort_id (s : State) (p : Nat) : s.onPort p (fun r => r) = s := by
  simp [State.onPort, vmod]

/-- The share channel's turn of a sample without errors: the group's turn moves, the share channel and one port take the
result. -/
theorem State.shareTurn_cases (hx : x.residues = []) :
    ((s.shareChan g).filter (fun c => (s.chanB c).en) = none ∨ s.portsOf g = []) ∧ s.shareTurn g x = s ∨
    ∃ c q f h k, s.shareTurn g x = ((s.onGroup g k).onChan c f).onPort q h ∧
      (s.shareChan g).filter (fun c => (s.chanB c).en) = some c ∧ (∀ r : ChannelRun, (f r).strikes = 0) ∧
      (∀ r : PortRun, (h r).sansShare = r.sansShare) ∧ ∀ r : GroupRun, (k r).outcome = r.outcome := by
  unfold State.shareTurn
  split
  · rename_i c p0 ps hc hp
    refine .inr ?_
    extract_lets l q t
    simp only [SampleIn.bad_none hx]
    split
    · exact ⟨c, q, _, fun r => r, _, (State.onPort_id _ q).symm, hc, fun _ => rfl, fun _ => rfl, fun _ => rfl⟩
    · exact ⟨c, q, _, _, _, rfl, hc, fun _ => rfl, fun _ => rfl, fun _ => rfl⟩
  · rename_i hno
    refine .inl ⟨?_, rfl⟩
    cases hc : (s.shareChan g).filter (fun c => (s.chanB c).en) with
    | none => exact .inl rfl
    | some c =>
      cases hp : s.portsOf g with
      | nil => exact .inr rfl
      | cons p0 ps => exact absurd hp (hno c p0 ps hc)

end

end Sys2Proof.Machine
end

section
/-!
SUPPORT. A sample whose engine shows no error, continued: the pool primary, the competing channels, and that no three-strike
condition ends it (R45, R54, R58, R70, R188).
-/
namespace Sys2Proof.Machine
set_option Elab.async false

/-! ### The pool primary -/

/-- The measured value of the pool primary at a sample. -/
def State.poolValue (s : State) (g : Nat) (x : SampleIn) : Int :=
  s.measure (s.poolPrimary g) (s.groupB g).k (s.poolOf g) x.natives

/-- Where the ramp of the pool primary stands at a sample. -/
def State.poolRamp (s : State) (g : Nat) (x : SampleIn) : Int :=
  let b := s.chanB (s.poolPrimary g)
  let r := s.chan (s.poolPrimary g)
  if !b.en then r.ramp else if r.fresh then 65536 * s.poolValue g x else rampMove r.ramp (65536 * r.goal b) b.slew (s.groupB g).k

/-- The mode that a sample chooses for its group (R225). -/
def State.poolChosen (s : State) (g : Nat) (x : SampleIn) : State :=
  match s.stringCtrl g with
  | some k => s.chooseMode g k (s.poolValue g x) (s.poolRamp g x) ((s.chan (s.poolPrimary g)).goal (s.chanB (s.poolPrimary g)))
  | none => s.onGroup g (fun r => { r with support := true, modeDue := false })

/-- A running member of the pool takes the mode of group run state `q` (R225). -/
def State.takeMode (q : GroupRun) (s : State) (m : Nat) : State :=
  if s.evaluated m then
    s.onGroup m (fun r => { r with support := q.support, modeDue := q.modeDue, exitFrom := q.exitFrom }) else s

/-- The mode of a sample in every running member of the pool (R225). -/
def State.poolMode (s : State) (g : Nat) (x : SampleIn) : State :=
  (s.poolOf g).foldl (State.takeMode ((s.poolChosen g x).group g)) (s.poolChosen g x)

/-- The pool primary evaluated for its pool, without an error (R188). -/
def State.poolEvaluated (s : State) (g : Nat) (x : SampleIn) : ChannelRun :=
  let pc := s.poolPrimary g
  let m := s.poolMode g x
  let v := (m.chan pc).eval (s.chanB pc) (s.poolValue g x) (m.groupB g).core.uInit (m.ironTerms pc) (s.groupB g).k false
  { v.1 with poolHold := s.poolValue g x
             pool := { at? := some m.clock.grid, u := v.2, e := v.1.e, before := v.1.h, smax := none, takers := [] } }

theorem State.poolChosen_course (s : State) (g : Nat) (x : SampleIn) : SameCourse s (s.poolChosen g x) := by
  unfold State.poolChosen
  split
  · exact State.chooseMode_course s g _ _ _ _
  · exact .onGroup s g fun _ => rfl

theorem State.poolChosen_only (s : State) (g : Nat) (x : SampleIn) : OnlyChanges [.chans, .groups] s (s.poolChosen g x) := by
  unfold State.poolChosen
  split
  · exact State.chooseMode_only s g _ _ _ _
  · exact (State.onGroup_only s g _).mono rfl

theorem State.takeMode_course (q : GroupRun) (s : State) (m : Nat) : SameCourse s (s.takeMode q m) :=
  .ite (.onGroup s m fun _ => rfl) (.refl s)

theorem State.takeMode_only (q : GroupRun) (s : State) (m : Nat) : OnlyChanges [.groups] s (s.takeMode q m) :=
  .ite (State.onGroup_only s m _) (.refl _ s)

theorem State.takeMode_support {q : GroupRun} {s : State} {g : Nat} (h : (s.group g).support = q.support) (m : Nat) :
    ((s.takeMode q m).group g).support = q.support := by
  unfold State.takeMode
  split
  · rcases State.group_onGroup_cases s m (fun r => { r with
      support := q.support, modeDue := q.modeDue, exitFrom := q.exitFrom }) g with e | e
    · rw [e, h]
    · rw [e]
  · exact h

theorem State.poolMode_course (s : State) (g : Nat) (x : SampleIn) : SameCourse s (s.poolMode g x) :=
  (s.poolChosen_course g x).trans (.foldl (State.takeMode_course _) _ _)

theorem State.poolMode_only (s : State) (g : Nat) (x : SampleIn) : OnlyChanges [.chans, .groups] s (s.poolMode g x) :=
  .foldl (fun u m => (State.takeMode_only _ u m).mono rfl) (s.poolChosen_only g x)

theorem State.poolMode_support (s : State) (g : Nat) (x : SampleIn) :
    ((s.poolMode g x).group g).support = ((s.poolChosen g x).group g).support :=
  List.foldlRecOn (motive := fun u : State => (u.group g).support = ((s.poolChosen g x).group g).support) _ _ rfl
    fun _ h m _ => State.takeMode_support h m

section
variable {s : State} {g : Nat} {x : SampleIn} (hx : x.residues = [])
  (hat : (s.chan (s.poolPrimary g)).pool.at? ≠ some s.clock.grid)
include hx hat

/-- The first sample of a pool at an instant, without an error: in support mode its enabled primary is evaluated, otherwise the
primary alone moves on (R56, R188, R225). -/
theorem State.poolEval_cases :
    (s.chanB (s.poolPrimary g)).en = true ∧ ((s.poolMode g x).group g).support = true ∧
        s.poolEval g x = (s.poolMode g x).onChan (s.poolPrimary g) (fun _ => s.poolEvaluated g x) ∨
      ((s.chanB (s.poolPrimary g)).en = false ∨ ((s.poolMode g x).group g).support = false) ∧
        ∃ f, s.poolEval g x = (s.poolMode g x).onChan (s.poolPrimary g) f := by
  rw [State.poolMode_support]
  unfold State.poolEval
  extract_lets pc ps ms b k y r goal ramp s1 q s2 _ idle isBad last
  have hgo : ¬ (ps.at? == some s.clock.grid && !ps.takers.contains g) = true := by
    have : ps.at? ≠ some s.clock.grid := hat
    simp [this]
  rw [if_neg hgo]
  rcases hen : b.en with _ | _
  · exact .inr ⟨.inl rfl, _, rfl⟩
  · rcases hsup : q.support with _ | _
    · exact .inr ⟨.inr hsup, _, rfl⟩
    · refine .inl ⟨rfl, hsup, ?_⟩
      have hbad : x.bad pc = none := SampleIn.bad_none hx pc
      have his : isBad = false := by simp [isBad, hbad]
      simp only [Bool.not_true, Bool.false_eq_true, if_false, hbad, his]
      rfl

theorem State.poolEval_course : SameCourse s (s.poolEval g x) := by
  rcases State.poolEval_cases hx hat with ⟨-, -, h⟩ | ⟨-, f, h⟩ <;> rw [h]
  all_goals exact (s.poolMode_course g x).trans (.groups_of_only (State.onChan_only _ _ _) (by decide))

theorem State.poolEval_faultless_only : OnlyChanges [.chans, .groups] s (s.poolEval g x) := by
  rcases State.poolEval_cases hx hat with ⟨-, -, h⟩ | ⟨-, f, h⟩ <;> rw [h]
  all_goals exact (State.onChan_only _ _ _).step rfl (s.poolMode_only g x)

/-- A pool primary that takes part in a sample without errors has no strikes (R70). -/
theorem State.poolEval_strikes (hon : (s.poolEval g x).primaryOn g = true) :
    ((s.poolEval g x).chan (s.poolPrimary g)).strikes = 0 := by
  have only := State.poolEval_faultless_only hx hat
  obtain ⟨hsup, hen⟩ : ((s.poolEval g x).group g).support = true ∧ (s.chanB (s.poolPrimary g)).en = true := by
    simpa only [State.primaryOn, only.keeps_poolPrimary (by decide), only.keeps_chanB (by decide), Bool.and_eq_true] using hon
  rcases State.poolEval_cases hx hat with ⟨-, -, h⟩ | ⟨hoff, f, h⟩
  · rw [h, State.chan_onChan _ _ _ (s.poolPrimary_lt g)]
    rfl
  · rw [h] at hsup
    have hsup : ((s.poolMode g x).group g).support = true := hsup
    simp [hen, hsup] at hoff

end

/-! ### The competing channels -/

/-- A competing channel evaluated for a sample of `k` slots without an error, and its proposal (R45). -/
def State.channelEvaluated (s : State) (g k : Nat) (x : SampleIn) (c : Nat) : ChannelRun × Int :=
  (s.chan c).eval (s.chanB c) (s.measure c k [] x.natives) (s.groupB g).core.uInit (s.ironTerms c) k false

/-- One competing channel evaluated and its proposal noted. -/
def State.evalStep (g k : Nat) (x : SampleIn) (a : State × List (Nat × Int)) (c : Nat) : State × List (Nat × Int) :=
  (a.1.onChan c (fun _ => (a.1.channelEvaluated g k x c).1), a.2 ++ [(c, (a.1.channelEvaluated g k x c).2)])

theorem State.evalChannels_steps {x : SampleIn} (hx : x.residues = []) (s : State) (g : Nat) :
    s.evalChannels g x = (s.competitors g).foldl (State.evalStep g (s.groupB g).k x) (s, []) := by
  unfold State.evalChannels
  simp only [SampleIn.bad_none hx]
  rfl

/-- The evaluation of another channel does not count in that of a channel. -/
theorem State.channelEvaluated_onChan {s : State} {c j : Nat} (h : c ≠ j) (f : ChannelRun → ChannelRun) (g k : Nat)
    (x : SampleIn) : (s.onChan j f).channelEvaluated g k x c = s.channelEvaluated g k x c := by
  have hm : (s.onChan j f).measure c k [] x.natives = s.measure c k [] x.natives := by
    simp only [State.measure, State.chan_onChan_ne s j f c h]
    rfl
  simp only [State.channelEvaluated, State.chan_onChan_ne s j f c h, hm]
  rfl

theorem State.competitors_mem {s : State} {g c : Nat} (h : c ∈ s.competitors g) :
    c < 128 ∧ (s.chanB c).group = g ∧ (s.chanB c).kind = 0 ∧ (s.chanB c).en = true ∧ c ≠ (s.groupB g).primary ∧
      (s.chan c).excluded = false := by
  obtain ⟨hc, hp⟩ := List.mem_filter.mp h
  obtain ⟨h128, hgroup⟩ := State.mem_chansOf.mp hc
  simp only [Bool.and_eq_true, beq_iff_eq, bne_iff_ne, Bool.not_eq_true'] at hp
  obtain ⟨⟨⟨⟨hkind, hen⟩, hne⟩, hex⟩, -⟩ := hp
  exact ⟨h128, hgroup, hkind, hen, hne, hex⟩

theorem State.competitors_nodup (s : State) (g : Nat) : (s.competitors g).Nodup := (s.chansOf_nodup g).filter _

/-- A run over distinct channels evaluates each from the figures before the run. -/
theorem State.evalSteps_spec (g k : Nat) (x : SampleIn) (l : List Nat) (nd : l.Nodup) (hl : ∀ c ∈ l, c < 128)
    (a : State × List (Nat × Int)) :
    OnlyChanges [.chans] a.1 (l.foldl (State.evalStep g k x) a).1 ∧
    (∀ c ∈ l, (l.foldl (State.evalStep g k x) a).1.chan c = (a.1.channelEvaluated g k x c).1) ∧
    (∀ j, j ∉ l → (l.foldl (State.evalStep g k x) a).1.chan j = a.1.chan j) ∧
    (l.foldl (State.evalStep g k x) a).2 = a.2 ++ l.map (fun c => (c, (a.1.channelEvaluated g k x c).2)) := by
  induction l generalizing a with
  | nil => exact ⟨.refl _ _, by simp, by simp, by simp⟩
  | cons c l ih =>
    obtain ⟨hc, hnd⟩ := List.nodup_cons.mp nd
    obtain ⟨only, hin, hout, hus⟩ := ih hnd (fun j hj => hl j (List.mem_cons_of_mem _ hj)) (State.evalStep g k x a c)
    have hkeep (j : Nat) (hj : j ∈ l) : (State.evalStep g k x a c).1.channelEvaluated g k x j = a.1.channelEvaluated g k x j :=
      State.channelEvaluated_onChan (fun e : j = c => hc (e ▸ hj)) _ _ _ _
    refine ⟨((State.onChan_only _ _ _).trans only :), fun j hj => ?_, fun j hj => ?_, ?_⟩
    · rcases List.mem_cons.mp hj with rfl | hj
      · rw [List.foldl_cons, hout j hc]
        exact State.chan_onChan _ _ _ (hl j (by simp))
      · rw [List.foldl_cons, hin j hj, hkeep j hj]
    · obtain ⟨hjc, hjl⟩ : j ≠ c ∧ j ∉ l := by simpa using hj
      rw [List.foldl_cons, hout j hjl]
      exact State.chan_onChan_ne _ _ _ _ hjc
    · rw [List.foldl_cons, hus, List.map_cons, List.map_congr_left (fun j hj => by rw [hkeep j hj])]
      simp [State.evalStep]

/-- From `s` the competing channels of a group have been evaluated, which leaves `e` and the proposals `ps`. -/
structure State.ChannelsEvaluated (s e : State) (g : Nat) (x : SampleIn) (ps : List (Nat × Int)) : Prop where
  only : OnlyChanges [.chans] s e
  chan : ∀ c ∈ s.competitors g, e.chan c = (s.channelEvaluated g (s.groupB g).k x c).1
  other : ∀ j, j ∉ s.competitors g → e.chan j = s.chan j
  proposals : ps = (s.competitors g).map (fun c => (c, (s.channelEvaluated g (s.groupB g).k x c).2))

theorem State.evalChannels_evaluated {s e : State} {g : Nat} {x : SampleIn} {ps : List (Nat × Int)} (hx : x.residues = [])
    (he : s.evalChannels g x = (e, ps)) : ChannelsEvaluated s e g x ps := by
  obtain ⟨only, chan, other, proposals⟩ := State.evalSteps_spec g (s.groupB g).k x _ (s.competitors_nodup g)
    (fun c hc => (State.competitors_mem hc).1) (s, [])
  rw [← State.evalChannels_steps hx, he] at only chan other proposals
  exact ⟨only, chan, other, by simpa using proposals⟩

/-- An evaluation without an error leaves no channel a strike that it did not have (R70). -/
theorem State.ChannelsEvaluated.strikes {s e : State} {g : Nat} {x : SampleIn} {ps : List (Nat × Int)}
    (h : ChannelsEvaluated s e g x ps) {c : Nat} (hc : c ∈ s.competitors g ∨ (s.chan c).strikes = 0) :
    (e.chan c).strikes = 0 := by
  by_cases hin : c ∈ s.competitors g
  · rw [h.chan c hin]; rfl
  · rw [h.other c hin]; exact hc.resolve_left hin

end Sys2Proof.Machine
end

section
/-!
SUPPORT. A sample whose engine shows no error, ended: selection, share, lock and commands leave the course of every group, and
no three-strike condition is met (R45, R55, R58, R70, R73).
-/
namespace Sys2Proof.Machine
set_option Elab.async false

/-! ### What precedes the evaluation -/

/-- Takeover, cap restart and change of the primary at a sample. -/
def State.sampleOpened (s : State) (g : Nat) (x : SampleIn) : State := ((s.takeover g).capRestart g x).primaryChange g

theorem State.sampleOpened_only (s : State) (g : Nat) (x : SampleIn) : OnlyChanges [.chans, .groups] s (s.sampleOpened g x) :=
  (State.primaryChange_only _ g).step rfl ((State.capRestart_only _ g x).step rfl (State.takeover_only s g))

theorem State.sampleOpened_course (s : State) (g : Nat) (x : SampleIn) : SameCourse s (s.sampleOpened g x) :=
  ((s.takeover_course g).trans (State.capRestart_course _ g x)).trans (State.primaryChange_course _ g)

theorem State.takeover_pool (s : State) (g : Nat) : ChansKeep ChannelRun.pool s (s.takeover g) := by
  have hgroup (u : State) (m : Nat) : ChansKeep ChannelRun.pool u (u.takeoverGroup m) := by
    unfold State.takeoverGroup
    extract_lets cs a
    have ha : ChansKeep ChannelRun.pool u a := .foldl (fun v c => .onChan v c fun _ => by rfl) _ u
    exact ha.trans (.chans_of_only (State.onGroup_only a m _) (by decide))
  unfold State.takeover
  extract_lets pc
  split
  · exact .refl s
  · rename_i m ms _
    extract_lets s0 t
    have ht : ChansKeep ChannelRun.pool s t := .foldl hgroup _ s
    exact .ite (ht.trans (.onChan t pc fun _ => rfl)) ht

theorem State.capRestart_pool (s : State) (g : Nat) (x : SampleIn) : ChansKeep ChannelRun.pool s (s.capRestart g x) := by
  unfold State.capRestart
  extract_lets n b was t
  have ht : ChansKeep ChannelRun.pool s t := .chans_of_only (State.onGroup_only s g _) (by decide)
  exact .ite (ht.trans (.onChan t _ fun _ => rfl)) ht

theorem State.primaryChange_pool (s : State) (g : Nat) : ChansKeep ChannelRun.pool s (s.primaryChange g) := by
  unfold State.primaryChange
  extract_lets pc r others t
  have ht : ChansKeep ChannelRun.pool s t := .ite (.onChan s pc fun _ => rfl) (.refl s)
  exact ht.trans (.chans_of_only (State.onGroup_only t g _) (by decide))

theorem State.sampleOpened_pool (s : State) (g : Nat) (x : SampleIn) : ChansKeep ChannelRun.pool s (s.sampleOpened g x) :=
  ((s.takeover_pool g).trans (State.capRestart_pool _ g x)).trans (State.primaryChange_pool _ g)

/-- A pool that has not been sampled at this instant has not been when its sample opens. -/
theorem State.sampleOpened_unsampled {s : State} {g : Nat} (hat : (s.chan (s.poolPrimary g)).pool.at? ≠ some s.clock.grid)
    (x : SampleIn) : ((s.sampleOpened g x).chan ((s.sampleOpened g x).poolPrimary g)).pool.at? ≠
      some (s.sampleOpened g x).clock.grid := by
  have only := s.sampleOpened_only g x
  have hpool : ((s.sampleOpened g x).chan (s.poolPrimary g)).pool = (s.chan (s.poolPrimary g)).pool := s.sampleOpened_pool g x _
  rw [only.keeps_poolPrimary (by decide), only.keeps_clock (by decide), hpool]
  exact hat

/-! ### Selection and tracking -/

/-- What the winner's mark and a derate channel's hold do not touch of a channel. -/
def ChannelRun.figures (r : ChannelRun) : ChannelRun := { r with winner := false, derating := false, lostFrom := none }

theorem State.markWinner_figures (s : State) (g w : Nat) : ChansKeep ChannelRun.figures s (s.markWinner g w) := by
  refine .foldl (fun u c => .onChan u c fun r => ?_) _ s
  dsimp only
  split
  · rfl
  · split <;> rfl

theorem State.derateRelease_figures (s : State) (g : Nat) : ChansKeep ChannelRun.figures s (s.derateRelease g) := by
  rw [State.derateRelease_steps]
  refine .foldl (fun u c => ?_) _ s
  unfold State.derateStep
  split
  · exact .ite (.onChan u c fun _ => rfl) (.refl u)
  · exact .refl u

theorem State.storeSample_strikes (s : State) (g : Nat) (us : List (Nat × Int)) (sel : Int) (mismatch : Bool) :
    ChansKeep ChannelRun.strikes s (s.storeSample g us sel mismatch) := by
  unfold State.storeSample
  extract_lets margin pc a b owner
  have ha : ChansKeep ChannelRun.strikes s a := by
    refine .ite (.refl s) (.foldl (fun u cu => ?_) _ s)
    split
    · exact .refl u
    · exact .onChan u cu.1 fun _ => rfl
  have hb : ChansKeep ChannelRun.strikes a b := .onChan a pc fun _ => rfl
  exact .ite (ha.trans hb) ((ha.trans hb).trans (.onChan b pc fun _ => rfl))

theorem State.sampleSelected_only (s : State) (g : Nat) (us : List (Nat × Int)) :
    OnlyChanges [.chans, .groups] s (s.sampleSelected g us) :=
  (State.derateRelease_only _ g).step rfl ((State.select_only _ g _ _).step rfl ((State.storeSample_only s g us _ _).mono rfl))

theorem State.sampleSelected_course (s : State) (g : Nat) (us : List (Nat × Int)) : SameCourse s (s.sampleSelected g us) :=
  (UnitsKeep.groups_of_only (State.storeSample_only s g us _ _) (by decide)).trans
    ((State.select_course _ g _ _).trans (.groups_of_only (State.derateRelease_only _ g) (by decide)))

/-- The channels of a selection after their histories have been stored: winner's marks and derate holds apart. -/
theorem State.sampleSelected_figures (s : State) (g : Nat) (us : List (Nat × Int)) :
    ChansKeep ChannelRun.figures (s.storeSample g us (s.sampleWon g us).2 false) (s.sampleSelected g us) := by
  refine UnitsKeep.trans ?_ (State.derateRelease_figures _ g)
  unfold State.select
  rw [if_neg (by decide)]
  exact UnitsKeep.trans (.chans_of_only (State.onGroup_only _ g _) (by decide)) (State.markWinner_figures _ g _)

theorem State.sampleSelected_strikes (s : State) (g : Nat) (us : List (Nat × Int)) :
    ChansKeep ChannelRun.strikes s (s.sampleSelected g us) :=
  (s.storeSample_strikes g us _ false).trans ((s.sampleSelected_figures g us).weaken ChannelRun.strikes)

/-- The group after a selection (R54, R73). -/
theorem State.sampleSelected_group {s : State} {g : Nat} (hg : g < 32) (us : List (Nat × Int)) :
    ((s.sampleSelected g us).group g).s = (s.sampleWon g us).2 ∧ ((s.sampleSelected g us).group g).winner = (s.sampleWon g us).1 ∧
      ((s.sampleSelected g us).group g).strikes = 0 ∧ ((s.sampleSelected g us).group g).sampled = true := by
  have hselect : ((s.storeSample g us (s.sampleWon g us).2 false).select g (s.sampleWon g us) false).group g =
      (s.sampleSelected g us).group g := ((State.derateRelease_only _ g).keeps_group (by decide) g).symm
  rw [← hselect]
  unfold State.select
  rw [if_neg (by decide), (State.markWinner_only _ _ _).keeps_group (by decide), State.group_onGroup _ _ _ hg]
  exact ⟨rfl, rfl, rfl, rfl⟩

/-! ### Share, feed-forward, lock and commands -/

theorem State.mem_shareChan {s : State} {g c : Nat} (h : s.shareChan g = some c) : c < 128 ∧ (s.chanB c).kind = 1 :=
  ⟨(State.mem_chansOf.mp (List.mem_of_find?_eq_some h)).1, by simpa using List.find?_some h⟩

section
variable {s : State} {g : Nat} {x : SampleIn} (hx : x.residues = [])
include hx

theorem State.shareTurn_faultless_only : OnlyChanges [.chans, .groups, .ports] s (s.shareTurn g x) := by
  rcases State.shareTurn_cases (s := s) (g := g) hx with ⟨-, h⟩ | ⟨c, q, f, h, k, he, -⟩
  · rw [h]; exact .refl _ s
  · rw [he]
    exact (State.onPort_only _ q h).step rfl ((State.onChan_only _ c f).step rfl ((State.onGroup_only s g k).mono rfl))

theorem State.shareTurn_outcome : SameOutcome s (s.shareTurn g x) := by
  rcases State.shareTurn_cases (s := s) (g := g) hx with ⟨-, h⟩ | ⟨c, q, f, h, k, he, -, -, -, hk⟩
  · rw [h]; exact .refl s
  · rw [he]; exact UnitsKeep.onGroup s g hk

theorem State.shareTurn_ports : PortsKeep PortRun.sansShare s (s.shareTurn g x) := by
  rcases State.shareTurn_cases (s := s) (g := g) hx with ⟨-, h⟩ | ⟨c, q, f, h, k, he, -, -, hh, -⟩
  · rw [h]; exact .refl s
  · rw [he]; exact UnitsKeep.onPort _ q hh

/-- The share channel's turn changes no channel that competes. -/
theorem State.shareTurn_other {j : Nat} (hj : (s.chanB j).kind ≠ 1) : (s.shareTurn g x).chan j = s.chan j := by
  rcases State.shareTurn_cases (s := s) (g := g) hx with ⟨-, h⟩ | ⟨c, q, f, h, k, he, hc, -⟩
  · rw [h]
  · obtain ⟨hc, -⟩ := Option.filter_eq_some_iff.mp hc
    have hne : j ≠ c := fun e => hj (e ▸ (State.mem_shareChan hc).2)
    rw [he]
    exact State.chan_onChan_ne _ _ _ _ hne

/-- The share channel's turn without an error leaves no channel a strike that it did not have, and the share channel none
(R70). -/
theorem State.shareTurn_strikes (hp : s.portsOf g ≠ []) {c : Nat}
    (hc : (s.chan c).strikes = 0 ∨ c ∈ ((s.shareChan g).filter (fun c => (s.chanB c).en)).toList) :
    ((s.shareTurn g x).chan c).strikes = 0 := by
  rcases State.shareTurn_cases (s := s) (g := g) hx with ⟨hno, h⟩ | ⟨d, q, f, h, k, he, hd, hf, -⟩
  · rw [h]
    rw [hno.resolve_right hp] at hc
    simpa using hc
  · rw [he]
    show (((s.onGroup g k).onChan d f).chan c).strikes = 0
    by_cases e : c = d
    · subst e
      obtain ⟨hs, -⟩ := Option.filter_eq_some_iff.mp hd
      rw [State.chan_onChan _ _ _ (State.mem_shareChan hs).1, hf]
    · rw [State.chan_onChan_ne _ _ _ _ e]
      rw [hd] at hc
      exact hc.resolve_right (by simpa using e)

theorem State.sampleForwarded_only (old : Int) : OnlyChanges [.chans, .groups, .ports] s (s.sampleForwarded g x old) :=
  (State.lockSample_only _ g old).step rfl ((State.onGroup_only _ g _).step rfl (State.shareTurn_faultless_only hx))

theorem State.sampleForwarded_outcome (old : Int) : SameOutcome s (s.sampleForwarded g x old) := by
  refine (State.shareTurn_outcome (g := g) hx).trans (UnitsKeep.trans ?_ (State.lockSample_outcome _ g old))
  exact UnitsKeep.onGroup _ g fun _ => rfl

end

theorem State.sampleForwarded_chan (s : State) (g : Nat) (x : SampleIn) (old : Int) (c : Nat) :
    (s.sampleForwarded g x old).chan c = (s.shareTurn g x).chan c :=
  (State.lockSample_only _ g old).keeps_chan (by decide) c

/-! ### The sample as a whole -/

section
variable {s e : State} {g : Nat} {x : SampleIn} {ps : List (Nat × Int)} (hx : x.residues = [])
  (hat : (s.chan (s.poolPrimary g)).pool.at? ≠ some s.clock.grid) (he : (s.sampleEntry g x).evalChannels g x = (e, ps))
include hx

theorem State.sampleCommanded_only (us : List (Nat × Int)) :
    OnlyChanges [.chans, .groups, .ports] e (e.sampleCommanded g x us) :=
  (State.commandPorts_only _ g false).step rfl
    ((State.sampleForwarded_only hx _).step rfl ((State.sampleSelected_only e g us).mono rfl))

/-- A sample after its evaluation leaves the course of every group, and of its own group what the selection gives. -/
theorem State.sampleCommanded_outcome (us : List (Nat × Int)) :
    SameOutcome (e.sampleSelected g us) (e.sampleCommanded g x us) :=
  (State.sampleForwarded_outcome hx _).trans (.groups_of_only (State.commandPorts_only _ g false) (by decide))

theorem State.sampleCommanded_course (us : List (Nat × Int)) : SameCourse e (e.sampleCommanded g x us) :=
  (e.sampleSelected_course g us).trans (State.sampleCommanded_outcome hx us).course

theorem State.sampleCommanded_strikes (us : List (Nat × Int)) (hp : e.portsOf g ≠ []) {c : Nat}
    (hc : (e.chan c).strikes = 0 ∨ c ∈ ((e.shareChan g).filter (fun c => (e.chanB c).en)).toList) :
    ((e.sampleCommanded g x us).chan c).strikes = 0 := by
  have only := e.sampleSelected_only g us
  have hchan : (e.sampleCommanded g x us).chan c = ((e.sampleSelected g us).shareTurn g x).chan c :=
    ((State.commandPorts_only _ g false).keeps_chan (by decide) c).trans (State.sampleForwarded_chan _ g x _ c)
  rw [hchan]
  refine State.shareTurn_strikes hx (by rw [only.keeps_portsOf (by decide)]; exact hp) ?_
  rw [only.keeps_shareChan (by decide)]
  simp only [only.keeps_chanB (show Part.active ∉ [Part.chans, Part.groups] by decide)]
  exact hc.imp_left fun h => (e.sampleSelected_strikes g us c).trans h

include hat

theorem State.sampleEntry_only : OnlyChanges [.chans, .groups] s (s.sampleEntry g x) :=
  (State.poolEval_faultless_only hx (State.sampleOpened_unsampled hat x)).step rfl (s.sampleOpened_only g x)

theorem State.sampleEntry_course : SameCourse s (s.sampleEntry g x) :=
  (s.sampleOpened_course g x).trans (State.poolEval_course hx (State.sampleOpened_unsampled hat x))

include he

theorem State.sampleEvaluated_only : OnlyChanges [.chans, .groups] s e :=
  (State.evalChannels_evaluated hx he).only.step rfl (State.sampleEntry_only hx hat)

theorem State.sampleEvaluated_course : SameCourse s e :=
  (State.sampleEntry_course hx hat).trans (.groups_of_only (State.evalChannels_evaluated hx he).only (by decide))

/-- A channel that a sample uses has no strikes after its evaluation, the share channel apart (R70). -/
theorem State.usedChannels_strikes {c : Nat} (hc : c ∈ e.usedChannels g (e.proposals g ps)) :
    (e.chan c).strikes = 0 ∨ c ∈ ((e.shareChan g).filter (fun c => (e.chanB c).en)).toList := by
  have hev := State.evalChannels_evaluated hx he
  rcases List.mem_append.mp hc with hc | hc
  · left
    rcases List.mem_append.mp hc with hc | hc
    · obtain ⟨hon, rfl⟩ : e.primaryOn g = true ∧ c = e.poolPrimary g := by
        split at hc
        · exact ⟨by assumption, by simpa using hc⟩
        · cases hc
      refine hev.strikes (.inr ?_)
      have hon : (s.sampleEntry g x).primaryOn g = true := by
        rw [← hon]
        simp only [State.primaryOn, hev.only.keeps_group (show Part.groups ∉ [Part.chans] by decide),
          hev.only.keeps_chanB (show Part.active ∉ [Part.chans] by decide),
          hev.only.keeps_poolPrimary (show Part.active ∉ [Part.chans] by decide)]
      have hpc : e.poolPrimary g = (s.sampleOpened g x).poolPrimary g :=
        (hev.only.keeps_poolPrimary (by decide) g).trans
          ((State.poolEval_faultless_only hx (State.sampleOpened_unsampled hat x)).keeps_poolPrimary (by decide) g)
      rw [hpc]
      exact State.poolEval_strikes hx (State.sampleOpened_unsampled hat x) hon
    · obtain ⟨hc, hne⟩ := List.mem_filter.mp hc
      refine hev.strikes (.inl ?_)
      have hps : ps.map (·.1) = (s.sampleEntry g x).competitors g := by
        rw [hev.proposals, List.map_map]; exact List.map_id _
      rw [← hps]
      unfold State.proposals at hc
      split at hc
      · rcases List.mem_cons.mp hc with rfl | hc
        · simp at hne
        · exact hc
      · exact hc
  · exact .inr hc

/-- A sample without errors of a group with ports meets no three-strike condition (R70, R71, R73). -/
theorem State.sampleRun_faultless (hs : x.selector = false) (hg : g < 32) (hp : s.portsOf g ≠ []) :
    s.sampleRun g x = ((e.sampleCommanded g x (e.proposals g ps)).softStartDone g).softStartTimeout g := by
  let us := e.proposals g ps
  let q := e.sampleCommanded g x us
  have hcourse : SameCourse s q := (State.sampleEvaluated_course hx hat he).trans (State.sampleCommanded_course hx us)
  have hfall : (q.group g).fallReq = (s.group g).fallReq := (congrArg GroupRun.fallReq (hcourse g) :)
  have hselector : (q.group g).strikes = 0 :=
    (congrArg GroupRun.strikes (State.sampleCommanded_outcome hx us g) :).trans (State.sampleSelected_group hg us).2.2.1
  have hports : e.portsOf g ≠ [] := by rw [(State.sampleEvaluated_only hx hat he).keeps_portsOf (by decide)]; exact hp
  have hused : (e.usedChannels g us).any (fun c => decide (3 ≤ (q.chan c).strikes)) = false := by
    rw [List.any_eq_false]
    intro c hc
    rw [State.sampleCommanded_strikes hx us hports (State.usedChannels_strikes hx hat he hc)]
    decide
  have hno : q.threeStrikes g (e.usedChannels g us) ((s.group g).fallReq.isNone && (q.group g).fallReq.isSome) = false := by
    rw [State.threeStrikes, hused, hselector, hfall]
    cases (s.group g).fallReq <;> rfl
  rw [State.sampleRun_stages hs he]
  show State.softStartTimeout (State.softStartDone (if q.threeStrikes g (e.usedChannels g us) _ then _ else q) g) g = _
  rw [hno, if_neg Bool.false_ne_true]

end

end Sys2Proof.Machine
end

section
/-!
SUPPORT. Samples of soft start and of run: a start at a boundary and its first sample, a sample that commands its ports, and
boundaries that evaluate nothing (R45, R58, R62, R178).
-/
namespace Sys2Proof.Machine
set_option Elab.async false

/-! ### Command words -/

/-- What a sample reads of a port beside its trim, its locks and its commands. -/
structure PortReading where
  link : LinkPhase
  since : Nat
  out : Bool
  up : Uplink
  inputDown : Bool

/-- What a sample reads of a port. -/
def PortRun.reading (r : PortRun) : PortReading := ⟨r.link, r.since, r.out, r.up, r.inputDown⟩

theorem State.live_congr {s t : State} {p : Nat} (ha : t.active = s.active) (hp : (t.port p).reading = (s.port p).reading) :
    t.live p = s.live p := by
  have hlink : (t.port p).link = (s.port p).link := congrArg PortReading.link hp
  have hout : (t.port p).out = (s.port p).out := congrArg PortReading.out hp
  have hport : t.portB p = s.portB p := by rw [State.portB, State.portB, ha]
  rw [State.live, State.live, hlink, hout, hport]

theorem State.leaving_congr {s t : State} {p : Nat} (ha : t.active = s.active) (hc : t.clock = s.clock)
    (hp : (t.port p).reading = (s.port p).reading) : t.leaving p = s.leaving p := by
  have hlink : (t.port p).link = (s.port p).link := congrArg PortReading.link hp
  have hsince : (t.port p).since = (s.port p).since := congrArg PortReading.since hp
  have hout : (t.port p).out = (s.port p).out := congrArg PortReading.out hp
  have hport : t.portB p = s.portB p := by rw [State.portB, State.portB, ha]
  rw [State.leaving, State.leaving, hlink, hsince, hout, hport, hc]

theorem State.shareChan_congr {s t : State} (ha : t.active = s.active) (g : Nat) : t.shareChan g = s.shareChan g := by
  simp only [State.shareChan, State.chansOf, State.chanB, ha]

theorem State.counts_congr {s t : State} {g p : Nat} (ha : t.active = s.active) (hp : (t.port p).reading = (s.port p).reading)
    (hg : (t.group g).phase = (s.group g).phase) (hd : ∀ c, (t.chan c).derating = (s.chan c).derating) :
    t.counts g p = s.counts g p := by
  have hin : (t.port p).inputDown = (s.port p).inputDown := congrArg PortReading.inputDown hp
  have hport : t.portB p = s.portB p := by rw [State.portB, State.portB, ha]
  have hweight : t.shareWeight g p = s.shareWeight g p := by
    simp only [State.shareWeight, State.shareChan_congr ha, State.chanB, ha]
  have hevaluated : t.evaluated g = s.evaluated g := by rw [State.evaluated, State.evaluated, hg]
  have hderated : t.derated g = s.derated g := by simp only [State.derated, State.chansOf, State.chanB, ha, hd]
  rw [State.counts, State.counts, State.live_congr ha hp, hweight, hevaluated, hderated, hport, hin]

/-- The command code of a port (R58). -/
def State.portCode (s : State) (g p : Nat) : Int :=
  commandCode ((s.group g).s + (if (s.shareChan g).isSome then s.trimOf g p else 0) + (s.group g).f)
    (s.groupB g).core.cmdLo (s.groupB g).core.cmdHi

/-- What the command of a port rests on. -/
structure State.SameCommand (s t : State) (g p : Nat) : Prop where
  active : t.active = s.active
  port : (t.port p).reading = (s.port p).reading
  share : (t.port p).share = (s.port p).share
  locks : (t.port p).locks = (s.port p).locks
  phase : (t.group g).phase = (s.group g).phase
  selected : (t.group g).s = (s.group g).s
  term : (t.group g).f = (s.group g).f
  derating : ∀ c, (t.chan c).derating = (s.chan c).derating

theorem State.SameCommand.code {s t : State} {g p : Nat} (h : SameCommand s t g p) : t.portCode g p = s.portCode g p := by
  have hc : t.counts g p = s.counts g p := State.counts_congr h.active h.port h.phase h.derating
  have hbank : t.groupB g = s.groupB g := by rw [State.groupB, State.groupB, h.active]
  rw [State.portCode, State.portCode, State.trimOf, State.trimOf, hc, h.share, h.selected, h.term,
    State.shareChan_congr h.active, hbank]

theorem State.SameCommand.words {s t : State} {g p : Nat} (h : SameCommand s t g p) (code : Int) :
    t.commandWords g p code = s.commandWords g p code := by
  have hbank : t.groupB g = s.groupB g := by rw [State.groupB, State.groupB, h.active]
  have hport : t.portB p = s.portB p := by rw [State.portB, State.portB, h.active]
  rw [State.commandWords, State.commandWords, hbank, hport, h.locks]

theorem State.commandPort_port {s : State} {g p : Nat} (h48 : p < 48) (hout : (s.port p).out = false) :
    (s.commandPort g p).port p = { s.port p with
      code := s.portCode g p, cmd := some (s.clock.grid + 1, s.commandWords g p (s.portCode g p)) } := by
  unfold State.commandPort
  rw [if_neg (by simp [hout])]
  exact State.port_onPort _ _ _ h48

theorem State.commandPort_other (s : State) (g p j : Nat) (h : j ≠ p) : (s.commandPort g p).port j = s.port j := by
  unfold State.commandPort
  split
  · rfl
  · exact State.port_onPort_ne _ _ _ _ h

/-- Every port that is not out of its group gets its code and its command words (R58, R178). -/
theorem State.commandPorts_port {s : State} {g p : Nat} (hp : p ∈ s.portsOf g) (h48 : p < 48) (hout : (s.port p).out = false) :
    (s.commandPorts g false).port p = { s.port p with
      code := s.portCode g p, cmd := some (s.clock.grid + 1, s.commandWords g p (s.portCode g p)) } := by
  refine foldl_unit_of_mem (key := id) (read := State.port) (fun r => r = _) (fun u q => State.commandPort_only u g q)
    (fun u q j h => State.commandPort_other u g q j h) (by simpa using s.portsOf_nodup g) hp fun u hu hr => ?_
  have hr : u.port p = s.port p := hr
  have same : SameCommand s u g p := {
    active := hu.keeps_active (by decide)
    port := by rw [hr]
    share := by rw [hr]
    locks := by rw [hr]
    phase := by rw [hu.keeps_group (by decide)]
    selected := by rw [hu.keeps_group (by decide)]
    term := by rw [hu.keeps_group (by decide)]
    derating := fun c => by rw [hu.keeps_chan (by decide)] }
  show (u.commandPort g p).port p = _
  rw [State.commandPort_port h48 (by rw [hr]; exact hout), same.code, same.words, hr, hu.keeps_clock (by decide)]

theorem State.commandWords_length (s : State) (g p : Nat) (code : Int) : (s.commandWords g p code).length = 4 := by
  simp [State.commandWords]

theorem State.suspendLock_reading (s : State) (g : Nat) : PortsKeep PortRun.reading s (s.suspendLock g) := by
  unfold State.suspendLock
  extract_lets t
  have ht : PortsKeep PortRun.reading s t := .ports_of_only (State.onGroup_only s g _) (by decide)
  exact ht.trans (.foldl (fun u p => .onPort u p fun _ => by rfl) _ t)

theorem State.lockSample_reading (s : State) (g : Nat) (old : Int) : PortsKeep PortRun.reading s (s.lockSample g old) := by
  unfold State.lockSample
  extract_lets
  split
  · exact State.suspendLock_reading s g
  · exact .ports_of_only (State.onGroup_only s g _) (by decide)

theorem State.sampleForwarded_reading {x : SampleIn} (hx : x.residues = []) (s : State) (g : Nat) (old : Int) :
    PortsKeep PortRun.reading s (s.sampleForwarded g x old) := by
  refine ((State.shareTurn_ports (g := g) hx).weaken PortRun.reading).trans (UnitsKeep.trans ?_ (State.lockSample_reading _ g old))
  exact .ports_of_only (State.onGroup_only _ g _) (by decide)

/-! ### Live ports -/

/-- A group none of whose ports is trained or just lost has no live port (R46). -/
theorem State.livePorts_of_links {s : State} {g : Nat}
    (h : ∀ p ∈ s.portsOf g, (s.port p).link ≠ .trained ∧ (s.port p).link ≠ .lost) :
    s.livePorts g = [] := by
  refine List.filter_eq_nil_iff.mpr fun p hp => ?_
  simp [State.live, State.leaving, h p hp]

theorem State.portsOf_of_live {s : State} {g : Nat} (h : s.livePorts g ≠ []) : s.portsOf g ≠ [] := by
  intro e
  simp [State.livePorts, e] at h

/-- Live ports are those of the readings, the membership and the instant (R46). -/
theorem State.livePorts_congr {s t : State} (ha : t.active = s.active) (hc : t.clock = s.clock)
    (hp : PortsKeep PortRun.reading s t) (g : Nat) : t.livePorts g = s.livePorts g := by
  have hports : t.portsOf g = s.portsOf g := by rw [State.portsOf, State.portsOf, State.groupB, State.groupB, ha]
  rw [State.livePorts, State.livePorts, hports]
  exact List.filter_congr fun p _ => by rw [State.live_congr ha (hp p), State.leaving_congr ha hc (hp p)]

/-! ### The sample of a boundary -/

theorem State.softStartDone_group {s : State} {g : Nat} (hg : g < 32) :
    (s.softStartDone g).group g = s.group g ∨
      (s.group g).phase = .softStart ∧ (s.softStartDone g).group g = { s.group g with phase := .run, retry := 0 } := by
  unfold State.softStartDone
  extract_lets
  split
  · rename_i h
    refine .inr ⟨?_, State.group_onGroup _ _ _ hg⟩
    simp only [Bool.and_eq_true, beq_iff_eq] at h
    exact h.1.1
  · exact .inl rfl

theorem State.softStartDone_of_phase {s : State} {g : Nat} (h : (s.group g).phase ≠ .softStart) : s.softStartDone g = s := by
  simp [State.softStartDone, h]

theorem State.boundarySample_silent {s : State} {g : Nat} (x : SampleIn) (hv : s.evaluated g = true) (hl : s.livePorts g = []) :
    s.boundarySample g x = (s.onGroup g (fun r => { r with winner := 255, primary := 255 })).softStartTimeout g := by
  simp only [State.boundarySample, hv, hl, List.isEmpty_nil, Bool.not_true, Bool.false_eq_true, if_false, if_true]

theorem State.boundarySample_live {s : State} {g : Nat} (x : SampleIn) (hv : s.evaluated g = true) (hl : s.livePorts g ≠ []) :
    s.boundarySample g x = s.sampleRun g x := by
  have : (s.livePorts g).isEmpty = false := by simpa using hl
  simp only [State.boundarySample, hv, this, Bool.not_true, Bool.false_eq_true, if_false]

/-- The first sample of a soft start ends in soft start or in run, whose timer and requests are as the start left them. -/
theorem State.boundarySample_starting {s : State} {g : Nat} {x : SampleIn} (hg : g < 32) (hph : (s.group g).phase = .softStart)
    (hfrom : (s.group g).ssFrom = s.clock.slots) (hretry : (s.group g).retry = 0) (hto : 0 < (s.groupB g).core.ssTimeout)
    (hx : x.residues = []) (hs : x.selector = false) (hat : (s.chan (s.poolPrimary g)).pool.at? ≠ some s.clock.grid) :
    let t := s.boundarySample g x
    ((t.group g).phase = .softStart ∨ (t.group g).phase = .run) ∧ (s.livePorts g = [] → (t.group g).phase = .softStart) ∧
      (t.group g).ssFrom = s.clock.slots ∧ (t.group g).retry = 0 ∧ (t.group g).startReq = (s.group g).startReq := by
  have hv : s.evaluated g = true := State.evaluated_iff.mpr (.inl hph)
  have hwaits {u : State} (hu : (u.group g).ssFrom = s.clock.slots) (hc : u.clock = s.clock) (ha : u.active = s.active) :
      u.softStartTimeout g = u := by
    refine State.softStartTimeout_waits (.inr ?_)
    simp only [elapsedUs, hu, hc, Nat.sub_self, State.groupB, ha]
    exact hto
  by_cases hl : s.livePorts g = []
  · have hself := State.group_onGroup s g (fun r => { r with winner := 255, primary := 255 }) hg
    have ht : s.boundarySample g x = s.onGroup g (fun r => { r with winner := 255, primary := 255 }) :=
      (State.boundarySample_silent x hv hl).trans (hwaits (by rw [hself]; exact hfrom) rfl rfl)
    rw [ht]
    dsimp only
    rw [hself]
    exact ⟨.inl hph, fun _ => hph, hfrom, hretry, rfl⟩
  · rcases he : (s.sampleEntry g x).evalChannels g x with ⟨e, ps⟩
    let q := e.sampleCommanded g x (e.proposals g ps)
    have only : OnlyChanges [.chans, .groups, .ports] s q :=
      (State.sampleCommanded_only hx _).step rfl ((State.sampleEvaluated_only hx hat he).mono rfl)
    have hcourse : SameCourse s q := (State.sampleEvaluated_course hx hat he).trans (State.sampleCommanded_course hx _)
    have hfromq : (q.group g).ssFrom = s.clock.slots := (congrArg GroupRun.ssFrom (hcourse g) :).trans hfrom
    have hphq : (q.group g).phase = .softStart := (congrArg GroupRun.phase (hcourse g) :).trans hph
    have hretryq : (q.group g).retry = 0 := (congrArg GroupRun.retry (hcourse g) :).trans hretry
    have hstartq : (q.group g).startReq = (s.group g).startReq := (congrArg GroupRun.startReq (hcourse g) :)
    have hdone := State.softStartDone_group (s := q) hg
    have onlyDone := State.softStartDone_only q g
    have hfromd : ((q.softStartDone g).group g).ssFrom = s.clock.slots := by
      rcases hdone with h | ⟨-, h⟩ <;> rw [h] <;> exact hfromq
    have ht : s.boundarySample g x = q.softStartDone g := by
      rw [State.boundarySample_live x hv hl, State.sampleRun_faultless hx hat he hs hg (State.portsOf_of_live hl)]
      refine hwaits hfromd ?_ ?_
      · rw [onlyDone.keeps_clock (by decide), only.keeps_clock (by decide)]
      · rw [onlyDone.keeps_active (by decide), only.keeps_active (by decide)]
    rw [ht]
    refine ⟨?_, fun h => absurd h hl, hfromd, ?_, ?_⟩
    · rcases hdone with h | ⟨-, h⟩ <;> rw [h]
      · exact .inl hphq
      · exact .inr rfl
    · rcases hdone with h | ⟨-, h⟩ <;> rw [h]
      exact hretryq
    · rcases hdone with h | ⟨-, h⟩ <;> rw [h] <;> exact hstartq

/-- A sample of a running group is its evaluation, selection and commands; the group stays in run. -/
theorem State.boundarySample_running {s e : State} {g : Nat} {x : SampleIn} {ps : List (Nat × Int)} (hg : g < 32)
    (hph : (s.group g).phase = .run) (hl : s.livePorts g ≠ []) (hx : x.residues = []) (hs : x.selector = false)
    (hat : (s.chan (s.poolPrimary g)).pool.at? ≠ some s.clock.grid) (he : (s.sampleEntry g x).evalChannels g x = (e, ps)) :
    s.boundarySample g x = e.sampleCommanded g x (e.proposals g ps) := by
  have hcourse : SameCourse s (e.sampleCommanded g x (e.proposals g ps)) :=
    (State.sampleEvaluated_course hx hat he).trans (State.sampleCommanded_course hx _)
  have hphq : ((e.sampleCommanded g x (e.proposals g ps)).group g).phase = .run :=
    (congrArg GroupRun.phase (hcourse g) :).trans hph
  rw [State.boundarySample_live x (State.evaluated_iff.mpr (.inr hph)) hl,
    State.sampleRun_faultless hx hat he hs hg (State.portsOf_of_live hl),
    State.softStartDone_of_phase (by rw [hphq]; exact nofun), State.softStartTimeout_waits (.inl (by rw [hphq]; exact nofun))]

/-! ### A start at a boundary -/

/-- A start request that its boundary takes. -/
def State.startTaken (s : State) (g : Nat) : State :=
  ((s.onGroup g (fun r => { r with startReq := none, startHost := false })).onGroup g (fun r => { r with retry := 0 }))

theorem State.takeStart_stopped {s : State} {g : Nat} (hph : (s.group g).phase = .stopped) (hs : s.lint.safe = false)
    (hh : s.groupHeld g = false) : s.takeStart g false = (s.startTaken g).enterSoftStart g := by
  have only := State.onGroup_only s g (fun r => { r with startReq := none, startHost := false })
  have hph' : ((s.onGroup g (fun r => { r with startReq := none, startHost := false })).group g).phase = .stopped :=
    (State.group_onGroup_same s g (fun r => { r with startReq := none, startHost := false }) GroupRun.phase (fun _ => rfl) g).trans
      hph
  have hh' : (s.onGroup g (fun r => { r with startReq := none, startHost := false })).groupHeld g = false :=
    (only.keeps_groupHeld (by decide) (by decide) g).trans hh
  simp only [State.takeStart, State.onGroup_lint, hs, hh', hph', Bool.false_eq_true, if_false]
  rfl

theorem State.moveToSpare_pool (s : State) (g : Nat) : ChansKeep ChannelRun.pool s (s.moveToSpare g) := by
  unfold State.moveToSpare
  split
  · exact .refl s
  · refine .foldl (fun u c => .onChan u c fun r => ?_) _ s
    split <;> rfl

section
variable {s : State} {g : Nat} (hg : g < 32) (hstop : s.due (s.group g).stopReq = false)
  (hfall : s.due (s.group g).fallReq = false) (hdue : s.due (s.group g).startReq = true) (hph : (s.group g).phase = .stopped)
  (hsafe : s.lint.safe = false) (hheld : s.groupHeld g = false)
include hg hstop hfall hdue hph hsafe hheld

/-- A boundary that takes a start starts the group; a clear that waits with it has no other effect. -/
theorem State.boundaryTaken_start :
    let a := ((s.moveToSpare g).startTaken g).enterSoftStart g
    s.boundaryTaken g false = a ∨ s.boundaryTaken g false = a.onGroup g (fun r => { r with clearReq := none }) := by
  intro a
  let m := s.moveToSpare g
  have hm : OnlyChanges [.chans] s m := State.moveToSpare_only s g
  have hgroup : m.group g = s.group g := State.moveToSpare_group s g g
  have hexhausted : m.takeExhausted g = m :=
    State.takeExhausted_of_not_due (by rw [hgroup, hm.keeps_due (by decide)]; exact hfall)
  have hstart : m.takeStart g false = a := State.takeStart_stopped (by rw [hgroup]; exact hph)
    (by rw [hm.keeps_lint (by decide)]; exact hsafe) ((hm.keeps_groupHeld (by decide) (by decide) g).trans hheld)
  obtain ⟨modeDue, support, hstarted⟩ := State.enterSoftStart_group (s := m.startTaken g) hg
  have hsoft : (a.group g).phase = .softStart := (congrArg GroupRun.phase hstarted :)
  have hrequests : m.takeRequests g false =
      if a.due (a.group g).clearReq then a.onGroup g (fun r => { r with clearReq := none }) else a := by
    simp only [State.takeRequests, hgroup, hm.keeps_due (show Part.clock ∉ [Part.chans] by decide), hstop, hexhausted, hdue,
      hstart, Bool.false_eq_true, if_false, if_true, State.takeClear_other (s := a) (g := g) (by rw [hsoft]; exact nofun)]
  unfold State.boundaryTaken
  rw [hrequests]
  split
  · right
    refine State.retryTimer_of_phase ?_
    rw [State.group_onGroup _ _ _ hg]
    show (a.group g).phase ≠ _
    rw [hsoft]
    exact nofun
  · left
    exact State.retryTimer_of_phase (by rw [hsoft]; exact nofun)

theorem State.boundaryTaken_start_only : OnlyChanges [.chans, .groups, .ports, .shelf] s (s.boundaryTaken g false) := by
  have ha : OnlyChanges [.chans, .groups, .ports, .shelf] s (((s.moveToSpare g).startTaken g).enterSoftStart g) :=
    (State.enterSoftStart_only _ g).step rfl ((State.onGroup_only _ g _).step rfl
      ((State.onGroup_only _ g _).step rfl ((State.moveToSpare_only s g).mono rfl)))
  rcases State.boundaryTaken_start hg hstop hfall hdue hph hsafe hheld with h | h <;> rw [h]
  · exact ha
  · exact (State.onGroup_only _ g _).step rfl ha

/-- A start leaves the group in the first slot of soft start, without retries. -/
theorem State.boundaryTaken_start_group :
    ((s.boundaryTaken g false).group g).phase = .softStart ∧ ((s.boundaryTaken g false).group g).ssFrom = s.clock.slots ∧
      ((s.boundaryTaken g false).group g).retry = 0 ∧ ((s.boundaryTaken g false).group g).startReq = none := by
  let m := s.moveToSpare g
  obtain ⟨modeDue, support, hstarted⟩ := State.enterSoftStart_group (s := m.startTaken g) hg
  have hclock : (m.startTaken g).clock = s.clock :=
    (State.moveToSpare_only s g).keeps_clock (by decide)
  have htaken : (m.startTaken g).group g = { m.group g with startReq := none, startHost := false, retry := 0 } := by
    rw [State.startTaken, State.group_onGroup _ _ _ hg, State.group_onGroup _ _ _ hg]
  rw [htaken, hclock] at hstarted
  rcases State.boundaryTaken_start hg hstop hfall hdue hph hsafe hheld with h | h <;> rw [h]
  · rw [hstarted]
    exact ⟨rfl, rfl, rfl, rfl⟩
  · rw [State.group_onGroup _ _ _ hg, hstarted]
    exact ⟨rfl, rfl, rfl, rfl⟩

theorem State.boundaryTaken_start_pool : ChansKeep ChannelRun.pool s (s.boundaryTaken g false) := by
  have ha : ChansKeep ChannelRun.pool s (((s.moveToSpare g).startTaken g).enterSoftStart g) :=
    (State.moveToSpare_pool s g).trans fun c => State.enterSoftStart_pool _ g c
  rcases State.boundaryTaken_start hg hstop hfall hdue hph hsafe hheld with h | h <;> rw [h] <;> exact ha

theorem State.boundaryTaken_start_links : PortsKeep PortRun.link s (s.boundaryTaken g false) := by
  have ha : PortsKeep PortRun.link s (((s.moveToSpare g).startTaken g).enterSoftStart g) := fun p =>
    (State.enterSoftStart_link _ g p).trans (congrArg PortRun.link (State.moveToSpare_port s g p) :)
  rcases State.boundaryTaken_start hg hstop hfall hdue hph hsafe hheld with h | h <;> rw [h] <;> exact ha

end

/-- A due start of a stopped group enters soft start, and its boundary is the first sample (R62). -/
theorem groupStarts {s : State} {g : Nat} {x : SampleIn} (hg : g < 32) (hb : s.boot.phase ≠ .held)
    (hgrid : s.onGrid (s.groupB g).k = true) (hfall : s.due (s.group g).fallReq = false)
    (hstop : s.due (s.group g).stopReq = false) (hdue : s.due (s.group g).startReq = true) (hph : (s.group g).phase = .stopped)
    (hsafe : s.lint.safe = false) (hheld : s.groupHeld g = false) (hhold : s.startHeld g = false) (hx : x.residues = [])
    (hs : x.selector = false) (hat : (s.chan (s.poolPrimary g)).pool.at? ≠ some s.clock.grid)
    (hto : 0 < (s.groupB g).core.ssTimeout) :
    ∃ t, Machine.exec (.groupSample g x) s = .next t ∧ ((t.group g).phase = .softStart ∨ (t.group g).phase = .run) ∧
      ((∀ p ∈ s.portsOf g, (s.port p).link ≠ .trained ∧ (s.port p).link ≠ .lost) → (t.group g).phase = .softStart) ∧
      (t.group g).ssFrom = s.clock.slots ∧ (t.group g).retry = 0 ∧ (t.group g).startReq = none := by
  let u := s.fresh.boundaryTaken g false
  let v := s.fresh.beforeSample g false x
  have hheld' : s.fresh.groupHeld g = false := ((State.fresh_only s).keeps_groupHeld (by decide) (by decide) g).trans hheld
  obtain ⟨hphu, hfromu, hretryu, hstartu⟩ :=
    State.boundaryTaken_start_group (s := s.fresh) hg hstop hfall hdue hph hsafe hheld'
  have hpoolu := State.boundaryTaken_start_pool (s := s.fresh) hg hstop hfall hdue hph hsafe hheld'
  have hlinku := State.boundaryTaken_start_links (s := s.fresh) hg hstop hfall hdue hph hsafe hheld'
  have hu : OnlyChanges [.sent, .chans, .groups, .ports, .shelf] s u :=
    (State.boundaryTaken_start_only (s := s.fresh) hg hstop hfall hdue hph hsafe hheld').step rfl
      ((State.fresh_only s).mono rfl)
  have hv := State.beforeSample_only s.fresh g false x
  have sameV := State.beforeSample_sameRun s.fresh g false x
  have hclock : v.clock = s.clock := (hv.keeps_clock (by decide)).trans (hu.keeps_clock (by decide))
  have hbank : v.groupB g = s.groupB g := (hv.keeps_groupB (by decide) g).trans (hu.keeps_groupB (by decide) g)
  have hprimary : v.poolPrimary g = s.poolPrimary g :=
    (hv.keeps_poolPrimary (by decide) g).trans (hu.keeps_poolPrimary (by decide) g)
  have hports : v.portsOf g = s.portsOf g := (hv.keeps_portsOf (by decide) g).trans (hu.keeps_portsOf (by decide) g)
  have hpool (c : Nat) : (v.chan c).pool = (s.chan c).pool :=
    (congrArg ChannelRun.pool (hv.keeps_chan (by decide) c)).trans (hpoolu c)
  have hlink (p : Nat) : (v.port p).link = (s.port p).link :=
    (sameV.keepsPort PortRun.link (fun _ => rfl) p).trans (hlinku p)
  obtain ⟨hphase, hnone, hfrom, hretry, hstart⟩ := State.boundarySample_starting (s := v) (g := g) (x := x) hg
    ((sameV.phase g).trans hphu)
    ((sameV.keeps GroupRun.ssFrom (fun _ => rfl) g).trans (hfromu.trans (by rw [hclock]; rfl)))
    ((sameV.keeps GroupRun.retry (fun _ => rfl) g).trans hretryu) (by rw [hbank]; exact hto) hx hs
    (by rw [hprimary, hpool, hclock]; exact hat)
  have same := State.sampleBoundary_sameRun (s := s.fresh) (g := g) hgrid false x
  refine ⟨s.fresh.sampleBoundary g false x, ?_, ?_, fun h => ?_, ?_, ?_, ?_⟩
  · have hrun := inService_eq hb (fun s => s.sampleBoundary g (s.startHeld g) x)
    have hholdf : s.fresh.startHeld g = false := hhold
    rw [hholdf] at hrun
    exact hrun
  · rw [same.phase]
    exact hphase
  · rw [same.phase]
    exact hnone (State.livePorts_of_links fun p hp => by rw [hlink]; exact h p (hports ▸ hp))
  · exact (same.keeps GroupRun.ssFrom (fun _ => rfl) g).trans (hfrom.trans (by rw [hclock]))
  · exact (same.keeps GroupRun.retry (fun _ => rfl) g).trans hretry
  · exact (same.keeps GroupRun.startReq (fun _ => rfl) g).trans
      (hstart.trans ((sameV.keeps GroupRun.startReq (fun _ => rfl) g).trans hstartu))

theorem boundariesTakeRequests : BoundariesTakeRequests := by
  intro s g x hg hb
  refine ⟨fun hoff => ?_, fun hon hfall => ⟨fun hdue hph => groupStops x hg hb hon hdue hph, ?_, ?_⟩⟩
  · exact (inService_eq hb _).trans (congrArg _ (State.sampleBoundary_offGrid (s := s.fresh) hoff _ x))
  · exact fun hstop hdue hph hsafe hheld hhold hx hs hat hto =>
      groupStarts hg hb hon hfall hstop hdue hph hsafe hheld hhold hx hs hat hto
  · exact fun hstop hstart hdue hph => groupClears x hg hb hon hfall hstop hstart hdue hph

/-- Settles O22: requests are raised by their commands, taken by the boundary in the order stop, start, clear, and soft start
ends by its timer. -/
theorem groupsStartAndStop : Obligations.GroupsStartAndStop := by
  unfold Obligations.GroupsStartAndStop
  exact ⟨groupRequestsComplete, boundariesTakeRequests, softStartTimesOut⟩

end Sys2Proof.Machine
end

section
/-!
SUPPORT. A boundary of a group with no request due: what it takes into its sample, and the command words that the sample gives
the ports (R45, R58, R62, R178).
-/
namespace Sys2Proof.Machine
set_option Elab.async false

/-! ### A boundary without requests -/

/-- What a move to a spare lane leaves of a channel. -/
def ChannelRun.unplaced (r : ChannelRun) : ChannelRun := { r with lane := 0 }

theorem State.moveToSpare_unplaced (s : State) (g : Nat) : ChansKeep ChannelRun.unplaced s (s.moveToSpare g) := by
  unfold State.moveToSpare
  split
  · exact .refl s
  · refine .foldl (fun u c => .onChan u c fun r => ?_) _ s
    split <;> rfl

/-- A boundary of a group at which no request is due and no retry waits. -/
structure State.Quiet (s : State) (g : Nat) : Prop where
  start : s.due (s.group g).startReq = false
  stop : s.due (s.group g).stopReq = false
  clear : s.due (s.group g).clearReq = false
  fall : s.due (s.group g).fallReq = false
  phase : (s.group g).phase ≠ .retryWait

/-- What the stages before a sample change when no request is due. -/
abbrev State.quietParts : List Part := [.sent, .chans, .groups, .ports, .irons, .flat, .strings, .lint, .draws]

namespace State.Quiet

variable {s : State} {g : Nat} (h : s.Quiet g)
include h

theorem taken (hold : Bool) : s.fresh.boundaryTaken g hold = s.fresh.moveToSpare g :=
  State.boundaryTaken_none (s := s.fresh) hold h.stop h.fall h.start h.clear h.phase

theorem taken_only (hold : Bool) : OnlyChanges [.sent, .chans] s (s.fresh.boundaryTaken g hold) := by
  rw [h.taken]
  exact (State.moveToSpare_only _ g).step rfl ((State.fresh_only s).mono rfl)

theorem taken_sameRun (hold : Bool) : SameRun s (s.fresh.boundaryTaken g hold) :=
  .of_only (h.taken_only hold) (by decide) (by decide)

theorem before_only (hold : Bool) (x : SampleIn) : OnlyChanges quietParts s (s.fresh.beforeSample g hold x) :=
  (State.beforeSample_only s.fresh g hold x).step rfl ((h.taken_only hold).mono rfl)

theorem before_sameRun (hold : Bool) (x : SampleIn) : SameRun s (s.fresh.beforeSample g hold x) :=
  (h.taken_sameRun hold).trans (State.beforeSample_sameRun s.fresh g hold x)

theorem before_unplaced (hold : Bool) (x : SampleIn) : ChansKeep ChannelRun.unplaced s (s.fresh.beforeSample g hold x) := by
  have ht : ChansKeep ChannelRun.unplaced s (s.fresh.boundaryTaken g hold) := by
    rw [h.taken]
    exact s.fresh.moveToSpare_unplaced g
  exact ht.trans (.chans_of_only (State.beforeSample_only s.fresh g hold x) (by decide))

theorem before_pool (hold : Bool) (x : SampleIn) : ChansKeep ChannelRun.pool s (s.fresh.beforeSample g hold x) :=
  (h.before_unplaced hold x).weaken ChannelRun.pool

theorem before_reading (hold : Bool) (x : SampleIn) : PortsKeep PortRun.reading s (s.fresh.beforeSample g hold x) :=
  fun p => (h.before_sameRun hold x).keepsPort PortRun.reading (fun _ => rfl) p

theorem before_livePorts (hold : Bool) (x : SampleIn) : (s.fresh.beforeSample g hold x).livePorts g = s.livePorts g :=
  State.livePorts_congr ((h.before_only hold x).keeps_active (by decide)) ((h.before_only hold x).keeps_clock (by decide))
    (h.before_reading hold x) g

theorem before_unsampled (hold : Bool) (x : SampleIn) (hat : (s.chan (s.poolPrimary g)).pool.at? ≠ some s.clock.grid) :
    ((s.fresh.beforeSample g hold x).chan ((s.fresh.beforeSample g hold x).poolPrimary g)).pool.at? ≠
      some (s.fresh.beforeSample g hold x).clock.grid := by
  have only := h.before_only hold x
  have hpool : ((s.fresh.beforeSample g hold x).chan (s.poolPrimary g)).pool = (s.chan (s.poolPrimary g)).pool :=
    h.before_pool hold x _
  rw [only.keeps_poolPrimary (by decide), only.keeps_clock (by decide), hpool]
  exact hat

end State.Quiet

/-- After its sample a boundary closes: the irons and the fault record. -/
theorem State.sampleBoundary_closes {s : State} {g : Nat} (h : s.onGrid (s.groupB g).k = true) (hold : Bool) (x : SampleIn) :
    OnlyChanges [.groups, .irons, .engine] ((s.beforeSample g hold x).boundarySample g x) (s.sampleBoundary g hold x) := by
  rw [State.sampleBoundary_stages h]
  exact State.boundaryClosed_only _ _ _ _

/-! ### The command words of a sample -/

theorem State.commandPort_keeps {α : Type} {r : PortRun → α}
    (hr : ∀ (q : PortRun) (c : Int) (w : Option (Nat × List (BitVec 24))),
    r { q with code := c, cmd := w } = r q) (s : State) (g p : Nat) : PortsKeep r s (s.commandPort g p) := by
  unfold State.commandPort
  split
  · exact .refl s
  · exact .onPort s p fun q => hr q _ _

theorem State.commandPorts_keeps {α : Type} {r : PortRun → α}
    (hr : ∀ (q : PortRun) (c : Int) (w : Option (Nat × List (BitVec 24))),
    r { q with code := c, cmd := w } = r q) (s : State) (g : Nat) : PortsKeep r s (s.commandPorts g false) := by
  unfold State.commandPorts
  exact .foldl (fun u p => State.commandPort_keeps hr u g p) _ s

theorem State.commandPorts_sameCommand (s : State) (g p : Nat) : SameCommand s (s.commandPorts g false) g p := by
  have only := State.commandPorts_only s g false
  exact {
    active := only.keeps_active (by decide)
    port := s.commandPorts_keeps (r := PortRun.reading) (fun _ _ _ => rfl) g p
    share := s.commandPorts_keeps (r := PortRun.share) (fun _ _ _ => rfl) g p
    locks := s.commandPorts_keeps (r := PortRun.locks) (fun _ _ _ => rfl) g p
    phase := by rw [only.keeps_group (by decide)]
    selected := by rw [only.keeps_group (by decide)]
    term := by rw [only.keeps_group (by decide)]
    derating := fun c => by rw [only.keeps_chan (by decide)] }

/-- A sample gives every port that is not out of its group the code and the words of its own figures (R58, R178). -/
theorem State.sampleCommanded_port {e : State} {g p : Nat} {x : SampleIn} (hx : x.residues = []) (us : List (Nat × Int))
    (hp : p ∈ e.portsOf g) (h48 : p < 48) (hout : (e.port p).out = false) :
    let q := e.sampleCommanded g x us
    (q.port p).code = q.portCode g p ∧ (q.port p).cmd = some (e.clock.grid + 1, q.commandWords g p (q.portCode g p)) := by
  intro q
  let f := (e.sampleSelected g us).sampleForwarded g x (e.group g).s
  have only : OnlyChanges [.chans, .groups, .ports] e f :=
    (State.sampleForwarded_only hx _).step rfl ((State.sampleSelected_only e g us).mono rfl)
  have hreading : PortsKeep PortRun.reading e f :=
    UnitsKeep.trans (.ports_of_only (State.sampleSelected_only e g us) (by decide)) (State.sampleForwarded_reading hx _ g _)
  have houtf : (f.port p).out = false := (congrArg PortReading.out (hreading p)).trans hout
  have hport := State.commandPorts_port (s := f) (g := g) (by rw [only.keeps_portsOf (by decide)]; exact hp) h48 houtf
  have same : SameCommand f q g p := f.commandPorts_sameCommand g p
  have hq : q.port p = (f.commandPorts g false).port p := rfl
  rw [hq, hport, same.words, same.code, ← only.keeps_clock (by decide)]
  exact ⟨rfl, rfl⟩

/-! ### The sample of a running group -/

section
variable {s e : State} {g : Nat} {x : SampleIn} {ps : List (Nat × Int)} {hold : Bool} (hg : g < 32)
  (hgrid : s.onGrid (s.groupB g).k = true) (h : s.Quiet g) (hx : x.residues = []) (hs : x.selector = false)
  (hph : (s.group g).phase = .run) (hl : s.livePorts g ≠ []) (hat : (s.chan (s.poolPrimary g)).pool.at? ≠ some s.clock.grid)
  (he : ((s.fresh.beforeSample g hold x).sampleEntry g x).evalChannels g x = (e, ps))

include h hx hat he in
theorem State.Quiet.evaluated_only : OnlyChanges [.chans, .groups] (s.fresh.beforeSample g hold x) e :=
  State.sampleEvaluated_only hx (h.before_unsampled hold x hat) he

include hg h hx hs hph hl hat he in
theorem State.Quiet.boundarySample_eq :
    (s.fresh.beforeSample g hold x).boundarySample g x = e.sampleCommanded g x (e.proposals g ps) :=
  State.boundarySample_running hg (((h.before_sameRun hold x).phase g).trans hph) (by rw [h.before_livePorts]; exact hl) hx hs
    (h.before_unsampled hold x hat) he

include hg hgrid h hx hs hph hl hat he

theorem State.Quiet.sampled_sameRun : SameRun (e.sampleCommanded g x (e.proposals g ps)) (s.fresh.sampleBoundary g hold x) :=
  h.boundarySample_eq hg hx hs hph hl hat he ▸ State.sampleBoundary_sameRun (s := s.fresh) hgrid hold x

theorem State.Quiet.sampled_closes :
    OnlyChanges [.groups, .irons, .engine] (e.sampleCommanded g x (e.proposals g ps)) (s.fresh.sampleBoundary g hold x) :=
  h.boundarySample_eq hg hx hs hph hl hat he ▸ State.sampleBoundary_closes (s := s.fresh) hgrid hold x

/-- What a sample of a running group leaves of its group is the outcome of its selection. -/
theorem State.Quiet.sampled_group {α : Type} (p : GroupRun → α) (hc : ∀ r : GroupRun, p r.core = p r)
    (ho : ∀ r : GroupRun, p r.outcome = p r) :
    p ((s.fresh.sampleBoundary g hold x).group g) = p ((e.sampleSelected g (e.proposals g ps)).group g) := by
  have houtcome := State.sampleCommanded_outcome (e := e) (g := g) hx (e.proposals g ps)
  rw [(h.sampled_sameRun hg hgrid hx hs hph hl hat he).keeps p hc, ← ho, houtcome g, ho]

theorem State.Quiet.sampled_phase : ((s.fresh.sampleBoundary g hold x).group g).phase = .run := by
  have hcourse : SameCourse (s.fresh.beforeSample g hold x) (e.sampleCommanded g x (e.proposals g ps)) :=
    (State.sampleEvaluated_course hx (h.before_unsampled hold x hat) he).trans (State.sampleCommanded_course hx _)
  exact ((h.sampled_sameRun hg hgrid hx hs hph hl hat he).phase g).trans
    ((congrArg GroupRun.phase (hcourse g) :).trans (((h.before_sameRun hold x).phase g).trans hph))

theorem State.Quiet.sampled_sameCommand (p : Nat) :
    SameCommand (e.sampleCommanded g x (e.proposals g ps)) (s.fresh.sampleBoundary g hold x) g p := by
  have same := h.sampled_sameRun hg hgrid hx hs hph hl hat he
  have closes := h.sampled_closes hg hgrid hx hs hph hl hat he
  exact {
    active := closes.keeps_active (by decide)
    port := by rw [closes.keeps_port (by decide)]
    share := by rw [closes.keeps_port (by decide)]
    locks := by rw [closes.keeps_port (by decide)]
    phase := same.phase g
    selected := same.keeps GroupRun.s (fun _ => rfl) g
    term := same.keeps GroupRun.f (fun _ => rfl) g
    derating := fun c => by rw [closes.keeps_chan (by decide)] }

/-- A sample gives every port that is not out of its group its code and its command words for the next slot (R58, R178). -/
theorem State.Quiet.sampled_port {p : Nat} (hp : p ∈ s.portsOf g) (h48 : p < 48) (hout : (s.port p).out = false) :
    let t := s.fresh.sampleBoundary g hold x
    (t.port p).code = t.portCode g p ∧ (t.port p).cmd = some (s.clock.grid + 1, t.commandWords g p (t.port p).code) := by
  intro t
  have hvonly := h.before_only hold x
  have honly : OnlyChanges [.chans, .groups] _ e := h.evaluated_only hx hat he
  have hports : e.portsOf g = s.portsOf g := (honly.keeps_portsOf (by decide) g).trans (hvonly.keeps_portsOf (by decide) g)
  have hclock : e.clock = s.clock := (honly.keeps_clock (by decide)).trans (hvonly.keeps_clock (by decide))
  have houte : (e.port p).out = false := by
    rw [honly.keeps_port (by decide), (h.before_sameRun hold x).keepsPort PortRun.out fun _ => rfl]
    exact hout
  obtain ⟨hcode, hcmd⟩ := State.sampleCommanded_port (e := e) (g := g) hx (e.proposals g ps) (hports ▸ hp) h48 houte
  have same := h.sampled_sameCommand hg hgrid hx hs hph hl hat he p
  have hport := (h.sampled_closes hg hgrid hx hs hph hl hat he).keeps_port (by decide) p
  have htcode : (t.port p).code = t.portCode g p := by rw [hport, same.code]; exact hcode
  refine ⟨htcode, ?_⟩
  rw [htcode, same.words, same.code, hport, ← hclock]
  exact hcmd

end

/-! ### Samples command their ports -/

section
variable {s : State} {g : Nat} {x : SampleIn} (hg : g < 32) (hb : s.boot.phase ≠ .held)
  (hgrid : s.onGrid (s.groupB g).k = true) (h : s.Quiet g)
include hg hb hgrid h

/-- A sample of a running group with a live port gives its ports their command words (R58, R62, R178). -/
theorem runningSampleCommands (hx : x.residues = []) (hs : x.selector = false) (hph : (s.group g).phase = .run)
    (hl : s.livePorts g ≠ []) (hat : (s.chan (s.poolPrimary g)).pool.at? ≠ some s.clock.grid) :
    ∃ t, Machine.exec (.groupSample g x) s = .next t ∧ (t.group g).phase = .run ∧ (t.group g).sampled = true ∧
      (t.group g).strikes = 0 ∧ ∀ p ∈ s.portsOf g, p < 48 → (s.port p).out = false →
        ∃ ws, (t.port p).cmd = some (s.clock.grid + 1, ws) ∧ ws.length = 4 := by
  rcases he : ((s.fresh.beforeSample g (s.fresh.startHeld g) x).sampleEntry g x).evalChannels g x with ⟨e, ps⟩
  obtain ⟨-, -, hstrikes, hsampled⟩ := State.sampleSelected_group (s := e) hg (e.proposals g ps)
  have hgroup {α : Type} := h.sampled_group (α := α) hg hgrid hx hs hph hl hat he
  refine ⟨_, inService_eq hb _, h.sampled_phase hg hgrid hx hs hph hl hat he, ?_, ?_, fun p hp h48 hout => ?_⟩
  · exact (hgroup GroupRun.sampled (fun _ => rfl) fun _ => rfl).trans hsampled
  · exact (hgroup GroupRun.strikes (fun _ => rfl) fun _ => rfl).trans hstrikes
  · exact ⟨_, (h.sampled_port hg hgrid hx hs hph hl hat he hp h48 hout).2, State.commandWords_length _ _ _ _⟩

/-- A sample of a running group without a live port leaves it without a winner, and its ports as they are (R62). -/
theorem silentSampleCommandsNone (hph : (s.group g).phase = .run) (hl : s.livePorts g = []) :
    ∃ t, Machine.exec (.groupSample g x) s = .next t ∧ (t.group g).phase = .run ∧ (t.group g).winner = 255 ∧
      ∀ p, (t.port p).cmd = (s.port p).cmd ∧ (t.port p).stopDue = (s.port p).stopDue := by
  let hold := s.fresh.startHeld g
  let v := s.fresh.beforeSample g hold x
  let q := v.onGroup g (fun r => { r with winner := 255, primary := 255 })
  have hvrun := h.before_sameRun hold x
  have hphv : (v.group g).phase = .run := (hvrun.phase g).trans hph
  have hq : q.group g = { v.group g with winner := 255, primary := 255 } := State.group_onGroup _ _ _ hg
  have hsample : v.boundarySample g x = q := by
    rw [State.boundarySample_silent x (State.evaluated_iff.mpr (.inr hphv)) (by rw [h.before_livePorts]; exact hl)]
    exact State.softStartTimeout_waits (.inl (by rw [hq]; show (v.group g).phase ≠ _; rw [hphv]; exact nofun))
  have same : State.SameRun q (s.fresh.sampleBoundary g hold x) :=
    hsample ▸ State.sampleBoundary_sameRun (s := s.fresh) hgrid hold x
  refine ⟨_, inService_eq hb _, ?_, ?_, fun p => ⟨?_, ?_⟩⟩
  · rw [same.phase, hq]
    exact hphv
  · rw [same.keeps GroupRun.winner fun _ => rfl, hq]
  · exact (same.keepsPort PortRun.cmd (fun _ => rfl) p).trans (hvrun.keepsPort PortRun.cmd (fun _ => rfl) p)
  · exact (same.keepsPort PortRun.stopDue (fun _ => rfl) p).trans (hvrun.keepsPort PortRun.stopDue (fun _ => rfl) p)

omit hg in
/-- A boundary of a group in neither soft start nor run gives its ports no command (R45). -/
theorem idleBoundaryCommandsNone (hidle : s.evaluated g = false) :
    ∃ t, Machine.exec (.groupSample g x) s = .next t ∧ (t.group g).phase = (s.group g).phase ∧
      ∀ p, (t.port p).cmd = (s.port p).cmd ∧ (t.port p).stopDue = (s.port p).stopDue := by
  let hold := s.fresh.startHeld g
  have htaken := h.taken_sameRun hold
  have same : State.SameRun s (s.fresh.sampleBoundary g hold x) :=
    htaken.trans (State.sampleBoundary_idle (s := s.fresh) hgrid x ((htaken.evaluated g).trans hidle))
  exact ⟨_, inService_eq hb _, same.phase g, fun p =>
    ⟨same.keepsPort PortRun.cmd (fun _ => rfl) p, same.keepsPort PortRun.stopDue (fun _ => rfl) p⟩⟩

end

theorem samplesCommandTheirPorts : SamplesCommandTheirPorts := by
  intro s g x hg hb hx hs _ _ hgrid hstart hstop hclear hfall
  have quiet (hph : (s.group g).phase ≠ .retryWait) : s.Quiet g := ⟨hstart, hstop, hclear, hfall, hph⟩
  refine ⟨fun hph hl hat => ?_, fun hph hl => ?_, fun hph => ?_⟩
  · exact runningSampleCommands hg hb hgrid (quiet (by rw [hph]; exact nofun)) hx hs hph hl hat
  · exact silentSampleCommandsNone hg hb hgrid (quiet (by rw [hph]; exact nofun)) hph hl
  · have hidle : s.evaluated g = false := by rcases hph with h | h | h <;> simp only [State.evaluated, h] <;> rfl
    exact idleBoundaryCommandsNone hb hgrid (quiet (by rcases hph with h | h | h <;> rw [h] <;> exact nofun)) hidle

end Sys2Proof.Machine
end

section
/-!
SUPPORT. Measured values: what they rest on, and that nothing before the evaluation of a sample changes it (R46, R47, R188).
-/
namespace Sys2Proof.Machine
set_option Elab.async false

/-! ### What measured values rest on -/

/-- Two states agree in what the measured values of channels rest on, held means apart. -/
structure State.SameSenses (s t : State) : Prop where
  active : t.active = s.active
  clock : t.clock = s.clock
  senses : t.senses = s.senses
  feeds : t.feeds = s.feeds
  models : t.models = s.models
  port : PortsKeep PortRun.reading s t

namespace State.SameSenses

theorem trans {a b c : State} (h : SameSenses a b) (k : SameSenses b c) : SameSenses a c where
  active := k.active.trans h.active
  clock := k.clock.trans h.clock
  senses := k.senses.trans h.senses
  feeds := k.feeds.trans h.feeds
  models := k.models.trans h.models
  port := h.port.trans k.port

theorem of_only {ps : List Part} {s t : State} (h : OnlyChanges ps s t) (hp : PortsKeep PortRun.reading s t)
    (w : ∀ p ∈ [Part.active, .clock, .senses, .feeds, .models], p ∉ ps) : SameSenses s t where
  active := h.keeps_active (w _ (by decide))
  clock := h.keeps_clock (w _ (by decide))
  senses := h.keeps_senses (w _ (by decide))
  feeds := h.keeps_feeds (w _ (by decide))
  models := h.keeps_models (w _ (by decide))
  port := hp

variable {s t : State} (h : SameSenses s t)
include h

theorem up (p : Nat) : (t.port p).up = (s.port p).up := congrArg PortReading.up (h.port p)

theorem portB (p : Nat) : t.portB p = s.portB p := by rw [State.portB, State.portB, h.active]

theorem chanB (c : Nat) : t.chanB c = s.chanB c := by rw [State.chanB, State.chanB, h.active]

theorem model (m : Nat) : t.model m = s.model m := by rw [State.model, State.model, h.models]

theorem livePorts : t.livePorts = s.livePorts := funext (State.livePorts_congr h.active h.clock h.port)

theorem iout : t.iout = s.iout := by
  funext p
  rw [State.iout, State.iout, h.portB, h.up]

theorem pin : t.pin = s.pin := by
  funext p
  rw [State.pin, State.pin, State.pout, State.pout, h.up, h.iout, h.model]

theorem meanVout (gs : List Nat) : t.meanVout gs = s.meanVout gs := by
  have hvout : (fun p => (t.port p).up.vout) = fun p => (s.port p).up.vout := funext fun p => by rw [h.up]
  rw [State.meanVout, State.meanVout, h.livePorts, hvout]

theorem shelfInput : t.shelfInput = s.shelfInput := by
  have hsummed : t.summedOfRole roleRectifier = s.summedOfRole roleRectifier := by
    refine List.filter_congr fun p _ => ?_
    rw [State.live_congr h.active (h.port p), State.leaving_congr h.active h.clock (h.port p), h.portB]
  rw [State.shelfInput, State.shelfInput, hsummed, h.pin]

/-- A source has the same value where a held mean that it needs is the same (R46, R47). -/
theorem sourceValue {src k : Nat} {natives : Vector Int 8} {a b : Int}
    (hheld : srcKind src = 3 → s.meanVout [srcNum src] = none → a = b) :
    Machine.sourceValue t src k natives a = Machine.sourceValue s src k natives b := by
  have hsense (n : Nat) : t.sense n = s.sense n := by rw [State.sense, State.sense, h.senses]
  have hfeed (n : Nat) : t.feed n = s.feed n := by rw [State.feed, State.feed, h.feeds]
  have hstr (n : Nat) : t.strB n = s.strB n := by rw [State.strB, State.strB, h.active]
  simp only [Machine.sourceValue, hsense, hfeed, hstr, h.up, h.livePorts, h.iout, h.pin, h.shelfInput, h.model, h.meanVout]
  split
  case h_3 hk =>
    cases hm : s.meanVout [srcNum src] with
    | some v => rfl
    | none => exact hheld hk hm
  all_goals rfl

theorem feeders (c : Nat) : t.feeders c = s.feeders c := by
  simp only [State.feeders, State.modelB, h.active]

/-- A channel of its own group has the same measured value where a held mean that it needs is the same. -/
theorem measure {c k : Nat} {natives : Vector Int 8} (hheld : srcKind (s.chanB c).src = 3 →
      s.meanVout [srcNum (s.chanB c).src] = none →
      t.heldMean (s.chanB c).group (srcNum (s.chanB c).src) = s.heldMean (s.chanB c).group (srcNum (s.chanB c).src)) :
    t.measure c k [] natives = s.measure c k [] natives := by
  have hmodelB (m : Nat) : t.modelB m = s.modelB m := by rw [State.modelB, State.modelB, h.active]
  simp only [State.measure, h.feeders, h.chanB, h.model, hmodelB]
  split
  · rfl
  · simpa using h.sourceValue hheld

/-- The primary of a pool of one group with a live port has the same measured value. -/
theorem measure_primary {c k g : Nat} {natives : Vector Int 8} (hv : t.evaluated g = s.evaluated g)
    (hrun : s.evaluated g = true) (hl : s.livePorts g ≠ []) : t.measure c k [g] natives = s.measure c k [g] natives := by
  have hmodelB (m : Nat) : t.modelB m = s.modelB m := by rw [State.modelB, State.modelB, h.active]
  have hpool (u : State) (hu : u.evaluated g = true) : [g].filter u.evaluated = [g] := by simp [hu]
  obtain ⟨v, hmean⟩ : ∃ v, s.meanVout [g] = some v := by
    simp [State.meanVout, hl]
  simp only [State.measure, h.feeders, h.chanB, h.model, hmodelB, hpool t (hv.trans hrun), hpool s hrun, h.meanVout, hmean]
  split
  · rfl
  · split
    · rfl
    · rename_i hkind
      exact h.sourceValue fun hk => absurd hk (by simpa using hkind)

end State.SameSenses

/-! ### Held means -/

/-- In a list of entries at most one for each key, an entry is found by its key. -/
theorem find?_filterMap_key {f : Nat → Option (Nat × Int)} (hf : ∀ m y, f m = some y → y.1 = m) {l : List Nat} {n : Nat}
    (hn : n ∈ l) : (l.filterMap f).find? (fun x => x.1 == n) = f n := by
  rw [List.find?_filterMap]
  cases hfind : l.find? (fun a => (f a).any (fun x => x.1 == n)) with
  | none =>
    cases hfn : f n with
    | none => rfl
    | some y =>
      have := List.find?_eq_none.mp hfind n hn
      simp [hfn, hf n y hfn] at this
  | some m =>
    have hm := List.find?_some hfind
    have hmn : m = n := by
      cases hfm : f m with
      | none => simp [hfm] at hm
      | some y => exact (hf m y hfm).symm.trans (by simpa [hfm] using hm)
    rw [Option.bind_some, hmn]

/-- The mean of group `n` that a sample of group `g` keeps (R47). -/
def State.keptMean (s : State) (g n : Nat) : Option (Nat × Int) :=
  match s.meanVout [n] with
  | some v => some (n, v)
  | none => (s.group g).means.find? (fun x => x.1 == n)

theorem State.keptMean_key {s : State} {g m : Nat} {y : Nat × Int} (h : s.keptMean g m = some y) : y.1 = m := by
  unfold State.keptMean at h
  split at h
  · cases h; rfl
  · simpa using List.find?_some h

theorem State.keepMeans_means {s : State} {g : Nat} (hg : g < 32) :
    ((s.keepMeans g).group g).means = allGroups.filterMap (s.keptMean g) := by
  unfold State.keepMeans
  rw [State.group_onGroup _ _ _ hg]
  rfl

/-- A mean that a group holds stays as it is while the group that it names has no live port (R47). -/
theorem State.keepMeans_held {s : State} {g n : Nat} (hg : g < 32) (hn : n < 32) (hm : s.meanVout [n] = none) :
    (s.keepMeans g).heldMean g n = s.heldMean g n := by
  have hfind : (allGroups.filterMap (s.keptMean g)).find? (fun x => x.1 == n) = s.keptMean g n :=
    find?_filterMap_key (fun _ _ => State.keptMean_key) (List.mem_range.mpr hn)
  rw [State.heldMean, State.keepMeans_means hg, hfind, State.keptMean, hm]
  rfl

/-- The figures that a boundary refreshes keep the means that its group needs (R47). -/
theorem State.boundaryRefreshed_held {s : State} {g n : Nat} (hg : g < 32) (hn : n < 32) (hm : s.meanVout [n] = none) :
    (s.boundaryRefreshed g).heldMean g n = s.heldMean g n := by
  let a := s.dropTrims g
  let b := if a.evaluated g then a.keepMeans g else a
  have ha : OnlyChanges [.ports] s a := State.dropTrims_only s g
  have hsame : SameSenses s a := .of_only ha
    (fun p => (State.dropTrims_sameRun s g).keepsPort PortRun.reading (fun _ => rfl) p) (by decide)
  have hirons : OnlyChanges [.irons] b (s.boundaryRefreshed g) :=
    .foldl (fun u i => State.ironRequests_only u i) (.refl _ b)
  have hkeep : b.heldMean g n = a.heldMean g n := by
    unfold b
    split
    · exact State.keepMeans_held hg hn ((hsame.meanVout [n]).trans hm)
    · rfl
  calc (s.boundaryRefreshed g).heldMean g n = b.heldMean g n := by
        rw [State.heldMean, State.heldMean, hirons.keeps_group (by decide)]
    _ = a.heldMean g n := hkeep
    _ = s.heldMean g n := by rw [State.heldMean, State.heldMean, ha.keeps_group (by decide)]

namespace State.Quiet

variable {s : State} {g : Nat} (h : s.Quiet g)
include h

theorem before_senses (hold : Bool) (x : SampleIn) : SameSenses s (s.fresh.beforeSample g hold x) :=
  .of_only (h.before_only hold x) (h.before_reading hold x) (by decide)

theorem before_held (hold : Bool) (x : SampleIn) {n : Nat} (hg : g < 32) (hn : n < 32) (hm : s.meanVout [n] = none) :
    (s.fresh.beforeSample g hold x).heldMean g n = s.heldMean g n := by
  let u := s.fresh.boundaryTaken g hold
  have hu : OnlyChanges [.sent, .chans] s u := h.taken_only hold
  have hsame : SameSenses s u := .of_only hu (.ports_of_only hu (by decide)) (by decide)
  have hready := State.boundaryReady_only (u.boundaryRefreshed g) g (s.fresh.groupB g).k x
  calc (s.fresh.beforeSample g hold x).heldMean g n = (u.boundaryRefreshed g).heldMean g n := by
        rw [State.heldMean, State.heldMean]
        exact congrArg (fun r : GroupRun => ((r.means.find? (fun x => x.1 == n)).map (·.2)).getD 0)
          (hready.keeps_group (by decide) g)
    _ = u.heldMean g n := State.boundaryRefreshed_held hg hn ((hsame.meanVout [n]).trans hm)
    _ = s.heldMean g n := by rw [State.heldMean, State.heldMean, hu.keeps_group (by decide)]

end State.Quiet

end Sys2Proof.Machine
end

section
/-!
SUPPORT. One channel through a sample of a running group: ramp, error, proposal, selection and the histories that are stored
(R48 to R52, R54, R55, R60, R188).
-/
namespace Sys2Proof.Machine
set_option Elab.async false

/-! ### The equation of one channel -/

/-- The proposal of a channel with error `e`: the difference equation and the clamp (R49 to R52). -/
def ChannelRun.proposal (r : ChannelRun) (b : ChannelBank) (e : Int) : Int := clampOut b (rawOutput b r.pre e 0)

/-- `r` is channel `old` evaluated at measured value `y` for a sample of `k` slots, its histories not yet stored. -/
structure ChannelRun.Evaluated (b : ChannelBank) (k : Nat) (y : Int) (old r : ChannelRun) : Prop where
  y : r.y = y
  ramp : r.ramp = rampMove old.ramp (65536 * old.goal b) b.slew k
  e : r.e = errQ23 r.ramp r.y b.inFs b.inv
  h : r.h = old.h
  strikes : r.strikes = 0
  held : r.held = false

/-- `r` is channel `old` after a sample with selected output `sel`. -/
structure ChannelRun.Stored (b : ChannelBank) (k : Nat) (y sel margin : Int) (old r : ChannelRun) : Prop where
  y : r.y = y
  ramp : r.ramp = rampMove old.ramp (65536 * old.goal b) b.slew k
  e : r.e = errQ23 r.ramp r.y b.inFs b.inv
  h : r.h = old.h.shift r.e (trackOut b (old.proposal b r.e) sel margin)
  pre : r.pre = preTerms b r.h
  strikes : r.strikes = 0
  held : r.held = false

namespace ChannelRun

theorem eval_evaluated {r : ChannelRun} (hf : r.fresh = false) (b : ChannelBank) (y uInit : Int) (k : Nat) :
    Evaluated b k y r (r.eval b y uInit (0, 0) k false).1 := by
  constructor <;> simp [ChannelRun.eval, hf]

theorem eval_proposal {r : ChannelRun} (hf : r.fresh = false) (b : ChannelBank) (y uInit : Int) (k : Nat) :
    (r.eval b y uInit (0, 0) k false).2 = r.proposal b (r.eval b y uInit (0, 0) k false).1.e := by
  simp [ChannelRun.eval, ChannelRun.proposal, hf]

section
variable {b : ChannelBank} {k : Nat} {y sel margin : Int} {old r : ChannelRun}

/-- The figures of a pool are not among those of the equation. -/
theorem Evaluated.withPool (h : Evaluated b k y old r) (hold : Int) (pool : PoolSample) :
    Evaluated b k y old { r with poolHold := hold, pool := pool } :=
  ⟨h.y, h.ramp, h.e, h.h, h.strikes, h.held⟩

theorem Evaluated.stored (h : Evaluated b k y old r) {before : Hist} {e u : Int} (hb : before = r.h) (he : e = r.e)
    (hu : u = old.proposal b r.e) : Stored b k y sel margin old (r.store b before e (trackOut b u sel margin)) := by
  subst hb he hu
  exact ⟨h.y, h.ramp, h.e, congrArg (fun x : Hist => x.shift _ _) h.h, rfl, h.strikes, h.held⟩

/-- The lane of a channel counts in none of its values. -/
theorem Stored.of_unplaced {old' : ChannelRun} (h : Stored b k y sel margin old r) (ho : old.unplaced = old'.unplaced) :
    Stored b k y sel margin old' r := by
  have hramp : old.ramp = old'.ramp := (congrArg ChannelRun.ramp ho :)
  have htarget : old.target = old'.target := (congrArg ChannelRun.target ho :)
  have hh : old.h = old'.h := (congrArg ChannelRun.h ho :)
  have hpre : old.pre = old'.pre := (congrArg ChannelRun.pre ho :)
  exact ⟨h.y, by rw [h.ramp, hramp, ChannelRun.goal, ChannelRun.goal, htarget], h.e,
    by rw [h.h, hh, ChannelRun.proposal, ChannelRun.proposal, hpre], h.pre, h.strikes, h.held⟩

theorem Stored.of_figures {r' : ChannelRun} (h : Stored b k y sel margin old r) (hr : r'.figures = r.figures) :
    Stored b k y sel margin old r' := by
  have hy : r'.y = r.y := (congrArg ChannelRun.y hr :)
  have hramp : r'.ramp = r.ramp := (congrArg ChannelRun.ramp hr :)
  have he : r'.e = r.e := (congrArg ChannelRun.e hr :)
  have hh : r'.h = r.h := (congrArg ChannelRun.h hr :)
  have hpre : r'.pre = r.pre := (congrArg ChannelRun.pre hr :)
  have hstrikes : r'.strikes = r.strikes := (congrArg ChannelRun.strikes hr :)
  have hheld : r'.held = r.held := (congrArg ChannelRun.held hr :)
  exact ⟨hy.trans h.y, hramp.trans h.ramp, by rw [he, hramp, hy, h.e], by rw [hh, he, h.h], by rw [hpre, hh, h.pre],
    hstrikes.trans h.strikes, hheld.trans h.held⟩

end

end ChannelRun

/-! ### Storing the histories (R55) -/

/-- The history of one competing channel stored. -/
def State.storeStep (g : Nat) (margin sel : Int) (s : State) (cu : Nat × Int) : State :=
  if cu.1 == (s.groupB g).primary || (s.chan cu.1).held then s
  else s.onChan cu.1 (fun r => r.store (s.chanB cu.1) r.h r.e (trackOut (s.chanB cu.1) cu.2 sel margin))

/-- The competing channels of a sample stored, and the group noted among the takers of its pool's proposal. -/
def State.competitorsStored (s : State) (g : Nat) (us : List (Nat × Int)) (sel : Int) : State :=
  (us.foldl (State.storeStep g (s.groupB g).core.trackMargin sel) s).onChan (s.poolPrimary g)
    (fun r => { r with pool := { r.pool with takers := g :: r.pool.takers } })

/-- The pool primary stored for the selected outputs of the members so far (R189). -/
def ChannelRun.storePool (r : ChannelRun) (b : ChannelBank) (sel margin : Int) : ChannelRun :=
  let m := match r.pool.smax with | some v => max v sel | none => sel
  let r := { r with pool := { r.pool with smax := some m } }
  r.store b r.pool.before r.pool.e (trackOut b r.pool.u m margin)

theorem State.storeSample_stages (s : State) (g : Nat) (us : List (Nat × Int)) (sel : Int) :
    s.storeSample g us sel false =
      let b := s.competitorsStored g us sel
      if !(b.primaryOn g) || (b.chan (s.poolPrimary g)).held then b
      else b.onChan (s.poolPrimary g) (fun r => r.storePool (b.chanB (s.poolPrimary g)) sel
        (b.groupB ((b.poolOf g).headD g)).core.trackMargin) := rfl

theorem State.storeStep_only (g : Nat) (margin sel : Int) (s : State) (cu : Nat × Int) :
    OnlyChanges [.chans] s (s.storeStep g margin sel cu) := .ite (.refl _ s) (State.onChan_only s _ _)

theorem State.storeStep_other {g : Nat} {margin sel : Int} {s : State} {cu : Nat × Int} {j : Nat} (h : j ≠ cu.1) :
    (s.storeStep g margin sel cu).chan j = s.chan j := by
  unfold State.storeStep
  split
  · rfl
  · exact State.chan_onChan_ne _ _ _ _ h

theorem State.storeStep_own {g : Nat} {margin sel : Int} {s : State} {cu : Nat × Int} (h : cu.1 = (s.groupB g).primary) :
    s.storeStep g margin sel cu = s := by
  simp [State.storeStep, h]

theorem State.competitorsStored_only (s : State) (g : Nat) (us : List (Nat × Int)) (sel : Int) :
    OnlyChanges [.chans] s (s.competitorsStored g us sel) :=
  (State.onChan_only _ _ _).step rfl (.foldl (fun u cu => State.storeStep_only g _ sel u cu) (.refl _ s))

section
variable {s : State} {g : Nat} {us : List (Nat × Int)} (sel : Int)

/-- A competing channel stores its error and its tracked output (R55). -/
theorem State.storeSample_competitor (nd : (us.map (·.1)).Nodup) {c : Nat} {u : Int} (hmem : (c, u) ∈ us)
    (hown : c ≠ (s.groupB g).primary) (hpc : c ≠ s.poolPrimary g) (h128 : c < 128) (hheld : (s.chan c).held = false) :
    (s.storeSample g us sel false).chan c = (s.chan c).store (s.chanB c) (s.chan c).h (s.chan c).e
      (trackOut (s.chanB c) u sel (s.groupB g).core.trackMargin) := by
  let margin : Int := (s.groupB g).core.trackMargin
  have hrun : (us.foldl (State.storeStep g margin sel) s).chan c = (s.chan c).store (s.chanB c) (s.chan c).h (s.chan c).e
      (trackOut (s.chanB c) u sel margin) := by
    refine foldl_unit_of_mem (key := (·.1)) (read := State.chan) (fun r => r = _)
      (fun v cu => State.storeStep_only g margin sel v cu) (fun v cu j h => State.storeStep_other h) nd hmem fun v hv hr => ?_
    have hr : v.chan c = s.chan c := hr
    have hgo : ¬ (c == (v.groupB g).primary || (v.chan c).held) = true := by
      rw [hv.keeps_groupB (by decide), hr, hheld]
      simpa using hown
    show (v.storeStep g margin sel (c, u)).chan c = _
    unfold State.storeStep
    rw [if_neg hgo, State.chan_onChan _ _ _ h128, hr, hv.keeps_chanB (by decide)]
  have hstored : (s.competitorsStored g us sel).chan c = _ := (State.chan_onChan_ne _ _ _ _ hpc).trans hrun
  rw [State.storeSample_stages]
  dsimp only
  split
  · exact hstored
  · exact (State.chan_onChan_ne _ _ _ _ hpc).trans hstored

/-- The primary of a pool of one group stores the error and the tracked output of its pool sample (R189). -/
theorem State.storeSample_primary (hpool : s.poolOf g = [g]) (hon : s.primaryOn g = true)
    (hheld : (s.chan (s.poolPrimary g)).held = false) (hmax : (s.chan (s.poolPrimary g)).pool.smax = none) :
    ∃ p, (s.storeSample g us sel false).chan (s.poolPrimary g) =
      ({ s.chan (s.poolPrimary g) with pool := p } : ChannelRun).store (s.chanB (s.poolPrimary g))
        (s.chan (s.poolPrimary g)).pool.before (s.chan (s.poolPrimary g)).pool.e
        (trackOut (s.chanB (s.poolPrimary g)) (s.chan (s.poolPrimary g)).pool.u sel (s.groupB g).core.trackMargin) := by
  let pc := s.poolPrimary g
  have hpc : pc = (s.groupB g).primary := by simp [pc, State.poolPrimary, hpool]
  have hrun : (us.foldl (State.storeStep g (s.groupB g).core.trackMargin sel) s).chan pc = s.chan pc := by
    refine (List.foldlRecOn (motive := fun v : State => OnlyChanges [.chans] s v ∧ v.chan pc = s.chan pc) us _
      ⟨.refl _ s, rfl⟩ fun v hv cu _ => ⟨(State.storeStep_only g _ sel v cu).step rfl hv.1, ?_⟩).2
    by_cases hcu : cu.1 = pc
    · rw [State.storeStep_own (by rw [hv.1.keeps_groupB (by decide), hcu, hpc]), hv.2]
    · rw [State.storeStep_other (Ne.symm hcu), hv.2]
  let b := s.competitorsStored g us sel
  have hb : OnlyChanges [.chans] s b := State.competitorsStored_only s g us sel
  have hbpc : b.chan pc = { s.chan pc with
      pool := { (s.chan pc).pool with takers := g :: (s.chan pc).pool.takers } } := by
    show ((us.foldl _ s).onChan pc _).chan pc = _
    rw [State.chan_onChan _ _ _ (s.poolPrimary_lt g), hrun]
  have hgo : ¬ (!(b.primaryOn g) || (b.chan pc).held) = true := by
    have honb : b.primaryOn g = true := by
      rw [← hon, State.primaryOn, State.primaryOn, hb.keeps_group (by decide), hb.keeps_poolPrimary (by decide),
        hb.keeps_chanB (by decide)]
    rw [honb, hbpc]
    simpa using hheld
  have howner : (b.poolOf g).headD g = g := by rw [hb.keeps_poolOf (by decide), hpool]; rfl
  rw [State.storeSample_stages]
  refine ⟨?p, (congrArg (fun u : State => u.chan pc) (if_neg hgo)).trans ?_⟩
  case p => exact { (s.chan pc).pool with takers := g :: (s.chan pc).pool.takers, smax := some sel }
  rw [State.chan_onChan _ _ _ (s.poolPrimary_lt g), hbpc, hb.keeps_chanB (by decide), howner, hb.keeps_groupB (by decide)]
  simp only [ChannelRun.storePool, pc, hmax]

end

end Sys2Proof.Machine
end

section
/-!
SUPPORT. The values of a sample of a running group that no takeover, cap restart or change of the primary meets: what every
evaluated channel proposes and stores, and what the selection makes of it (R45, R54, R55, R188).
-/
namespace Sys2Proof.Machine
set_option Elab.async false

/-! ### A sample that nothing restarts -/

/-- No takeover, cap restart, change of the primary or string meets the next sample of a group. -/
structure State.Steady (s : State) (g : Nat) : Prop where
  string : s.stringOf g = none
  takeover : ∀ m ∈ s.poolOf g, (s.group m).takeoverDue = false
  down : (s.group g).downCount = 0
  served : (s.group g).served = 255 ∨ (s.group g).served = s.poolPrimary g

/-- No iron injects into a channel of the group or into its pool primary. -/
def State.Ironless (s : State) (g : Nat) : Prop := ∀ i, i < 16 → s.ironGroup i ≠ g ∧ (s.ironB i).target ≠ s.poolPrimary g

section
variable {s t : State} (ha : t.active = s.active) (g : Nat)
include ha

theorem State.poolOf_congr : t.poolOf g = s.poolOf g := by
  have hbank : t.groupB = s.groupB := funext fun j => by rw [State.groupB, State.groupB, ha]
  rw [State.poolOf, State.poolOf, hbank]

theorem State.poolPrimary_congr : t.poolPrimary g = s.poolPrimary g := by
  rw [State.poolPrimary, State.poolPrimary, State.poolOf_congr ha, State.groupB, State.groupB, ha]

theorem State.stringOf_congr : t.stringOf g = s.stringOf g := by
  simp only [State.stringOf, State.stringsOf, State.strB, State.portB, ha]

theorem State.stringCtrl_congr : t.stringCtrl g = s.stringCtrl g := by
  have hbank : t.strB = s.strB := funext fun j => by rw [State.strB, State.strB, ha]
  rw [State.stringCtrl, State.stringCtrl, State.stringOf_congr ha, hbank]

end

theorem State.Steady.of_sameRun {s t : State} {g : Nat} (h : s.Steady g) (ha : t.active = s.active) (same : SameRun s t) :
    t.Steady g := by
  exact {
    string := (State.stringOf_congr ha g).trans h.string
    takeover := fun m hm => (same.keeps GroupRun.takeoverDue (fun _ => rfl) m).trans
      (h.takeover m (State.poolOf_congr ha g ▸ hm))
    down := (same.keeps GroupRun.downCount (fun _ => rfl) g).trans h.down
    served := by rw [same.keeps GroupRun.served fun _ => rfl, State.poolPrimary_congr ha]; exact h.served }

theorem State.Ironless.of_active {s t : State} {g : Nat} (h : s.Ironless g) (ha : t.active = s.active) : t.Ironless g := by
  simpa only [State.Ironless, State.ironGroup, State.chanB, State.ironB, State.poolPrimary_congr ha, ha] using h

/-- A channel of the group, or its pool primary, has no term of an iron. -/
theorem State.Ironless.terms {s : State} {g c : Nat} (h : s.Ironless g) (hc : (s.chanB c).group = g ∨ c = s.poolPrimary g) :
    s.ironTerms c = (0, 0) := by
  have hnone : allIrons.find? (fun i => (s.iron i).phase != .off && (s.ironB i).target == c) = none := by
    refine List.find?_eq_none.mpr fun i hi => ?_
    obtain ⟨hgroup, htarget⟩ := h i (List.mem_range.mp hi)
    have hne : (s.ironB i).target ≠ c := by
      rintro rfl
      exact hc.elim hgroup htarget
    simp [hne]
  rw [State.ironTerms, hnone]

theorem State.Steady.stringCtrl {s : State} {g : Nat} (h : s.Steady g) : s.stringCtrl g = none := by
  simp only [State.stringCtrl, h.string]

theorem State.mem_competitors {s : State} {g c : Nat} (h : s.stringCtrl g = none) :
    c ∈ s.competitors g ↔ c < 128 ∧ (s.chanB c).group = g ∧ (s.chanB c).kind = 0 ∧ (s.chanB c).en = true ∧
      c ≠ (s.groupB g).primary ∧ (s.chan c).excluded = false := by
  simp [State.competitors, h, State.mem_chansOf, and_assoc]

section
variable {s : State} {g : Nat} (h : s.Steady g)
include h

theorem State.Steady.takeover_none : s.takeover g = s := by
  have hnone : (s.poolOf g).filter (fun m => (s.group m).takeoverDue) = [] :=
    List.filter_eq_nil_iff.mpr fun m hm => by simp [h.takeover m hm]
  simp only [State.takeover, hnone]

theorem State.Steady.capRestart_only (x : SampleIn) : OnlyChanges [.groups] s (s.capRestart g x) := by
  unfold State.capRestart
  extract_lets n b was t
  have hwas : was = 0 := h.down
  rw [if_neg (by simp [hwas])]
  exact State.onGroup_only s g _

theorem State.Steady.capRestart_served (x : SampleIn) : ((s.capRestart g x).group g).served = (s.group g).served := by
  unfold State.capRestart
  extract_lets n b was t
  have hwas : was = 0 := h.down
  rw [if_neg (by simp [hwas])]
  exact State.group_onGroup_same s g (fun r => { r with downCount := n }) GroupRun.served (fun _ => rfl) g

/-- Such a sample opens without a change of any channel. -/
theorem State.Steady.opened_only (x : SampleIn) : OnlyChanges [.groups] s (s.sampleOpened g x) := by
  let a := s.capRestart g x
  have ha : OnlyChanges [.groups] s a := h.capRestart_only x
  have hserved : (a.group g).served = 255 ∨ (a.group g).served = a.poolPrimary g := by
    rw [h.capRestart_served x, ha.keeps_poolPrimary (by decide)]
    exact h.served
  have hopened : s.sampleOpened g x = a.primaryChange g := by rw [State.sampleOpened, h.takeover_none]
  have hno : ¬ ((a.group g).served != 255 && (a.group g).served != a.poolPrimary g &&
      !((a.poolOf g).any (fun m => m != g && a.evaluated m && (a.group m).served == a.poolPrimary g)) &&
      (a.chanB (a.poolPrimary g)).en) = true := by
    rcases hserved with hs | hs <;> simp [hs]
  rw [hopened]
  unfold State.primaryChange
  extract_lets pc r others t
  have ht : t = a := if_neg hno
  rw [ht]
  exact (State.onGroup_only a g _).step rfl ha

end

/-! ### The evaluation of such a sample -/

theorem State.poolMode_stringless {s : State} {g : Nat} (h : s.stringCtrl g = none) (x : SampleIn) :
    OnlyChanges [.groups] s (s.poolMode g x) := by
  refine .foldl (fun u m => State.takeMode_only _ u m) ?_
  unfold State.poolChosen
  rw [h]
  exact State.onGroup_only s g _

theorem State.poolMode_stringless_support {s : State} {g : Nat} (hg : g < 32) (h : s.stringCtrl g = none) (x : SampleIn) :
    ((s.poolMode g x).group g).support = true := by
  rw [State.poolMode_support]
  unfold State.poolChosen
  rw [h]
  exact congrArg GroupRun.support (State.group_onGroup s g _ hg)

section
variable {s e : State} {g : Nat} {x : SampleIn} {ps : List (Nat × Int)} (hg : g < 32) (hx : x.residues = [])
  (hat : (s.chan (s.poolPrimary g)).pool.at? ≠ some s.clock.grid) (hst : s.Steady g) (hiron : s.Ironless g)
  (he : (s.sampleEntry g x).evalChannels g x = (e, ps))
include hx hat

theorem State.sampleEntry_senses : SameSenses s (s.sampleEntry g x) :=
  .of_only (State.sampleEntry_only hx hat) (.ports_of_only (State.sampleEntry_only hx hat) (by decide)) (by decide)

theorem State.sampleEntry_held (n : Nat) : (s.sampleEntry g x).heldMean g n = s.heldMean g n := by
  have hmeans : ((s.sampleEntry g x).group g).means = (s.group g).means :=
    (congrArg GroupRun.means (State.sampleEntry_course (g := g) hx hat g) :)
  rw [State.heldMean, State.heldMean, hmeans]

include hst

/-- Before the competing channels are evaluated the pool primary alone has changed. -/
theorem State.sampleEntry_other {j : Nat} (hj : j ≠ s.poolPrimary g) : (s.sampleEntry g x).chan j = s.chan j := by
  let o := s.sampleOpened g x
  have ho : OnlyChanges [.groups] s o := hst.opened_only x
  have hctrl : o.stringCtrl g = none := (State.stringCtrl_congr (ho.keeps_active (by decide)) g).trans hst.stringCtrl
  have hm : OnlyChanges [.groups] o (o.poolMode g x) := State.poolMode_stringless hctrl x
  have hpc : o.poolPrimary g = s.poolPrimary g := ho.keeps_poolPrimary (by decide) g
  have hmode : (o.poolMode g x).chan j = s.chan j := (hm.keeps_chan (by decide) j).trans (ho.keeps_chan (by decide) j)
  show (o.poolEval g x).chan j = _
  rcases State.poolEval_cases hx (State.sampleOpened_unsampled hat x) with ⟨-, -, h⟩ | ⟨-, f, h⟩ <;>
    exact (congrArg (fun u : State => u.chan j) h).trans ((State.chan_onChan_ne _ _ _ _ (hpc ▸ hj)).trans hmode)

theorem State.sampleEntry_competitors {c : Nat} (hc : c ∈ s.competitors g) (hne : c ≠ s.poolPrimary g) :
    c ∈ (s.sampleEntry g x).competitors g := by
  have only : OnlyChanges [.chans, .groups] s (s.sampleEntry g x) := State.sampleEntry_only hx hat
  have hctrl : (s.sampleEntry g x).stringCtrl g = none :=
    (State.stringCtrl_congr (only.keeps_active (by decide)) g).trans hst.stringCtrl
  rw [State.mem_competitors hctrl, State.sampleEntry_other hx hat hst hne, only.keeps_chanB (by decide),
    only.keeps_groupB (by decide)]
  exact (State.mem_competitors hst.stringCtrl).mp hc

include hiron he

/-- A competing channel's evaluation and proposal (R45, R48 to R52, R60). -/
theorem State.competitor_evaluated {c : Nat} (hc : c ∈ s.competitors g) (hne : c ≠ s.poolPrimary g)
    (hf : (s.chan c).fresh = false) :
    (s.chan c).Evaluated (s.chanB c) (s.groupB g).k (s.measure c (s.groupB g).k [] x.natives) (e.chan c) ∧
      (c, (s.chan c).proposal (s.chanB c) (e.chan c).e) ∈ ps := by
  let n := s.sampleEntry g x
  have only : OnlyChanges [.chans, .groups] s n := State.sampleEntry_only hx hat
  have hn : c ∈ n.competitors g := State.sampleEntry_competitors hx hat hst hc hne
  obtain ⟨-, hgroup, -⟩ := (State.mem_competitors hst.stringCtrl).mp hc
  have hev := State.evalChannels_evaluated hx he
  have hterms : n.ironTerms c = (0, 0) := (hiron.of_active (only.keeps_active (by decide))).terms
    (.inl (by rw [only.keeps_chanB (by decide)]; exact hgroup))
  have hmeasure : n.measure c (s.groupB g).k [] x.natives = s.measure c (s.groupB g).k [] x.natives :=
    (State.sampleEntry_senses hx hat).measure fun _ _ => by rw [hgroup]; exact State.sampleEntry_held hx hat _
  have hchannel : n.channelEvaluated g (n.groupB g).k x c = (s.chan c).eval (s.chanB c)
      (s.measure c (s.groupB g).k [] x.natives) (n.groupB g).core.uInit (0, 0) (s.groupB g).k false := by
    rw [State.channelEvaluated, hterms, only.keeps_groupB (by decide), hmeasure, only.keeps_chanB (by decide),
      State.sampleEntry_other hx hat hst hne]
  have hchan := hev.chan c hn
  rw [hchannel] at hchan
  have hmem : (c, (n.channelEvaluated g (n.groupB g).k x c).2) ∈ ps :=
    hev.proposals ▸ List.mem_map_of_mem (f := fun c => (c, (n.channelEvaluated g (n.groupB g).k x c).2)) hn
  rw [hchannel, ChannelRun.eval_proposal hf, ← hchan] at hmem
  exact ⟨hchan ▸ ChannelRun.eval_evaluated hf _ _ _ _, hmem⟩

include hg

/-- The evaluation and the pool sample of the enabled primary of a pool of one group (R188). -/
theorem State.primary_evaluated (hpool : s.poolOf g = [g]) (hen : (s.chanB (s.poolPrimary g)).en = true)
    (hf : (s.chan (s.poolPrimary g)).fresh = false) (hrun : s.evaluated g = true) (hl : s.livePorts g ≠ []) :
    let r := e.chan (s.poolPrimary g)
    (s.chan (s.poolPrimary g)).Evaluated (s.chanB (s.poolPrimary g)) (s.groupB g).k
        (s.measure (s.poolPrimary g) (s.groupB g).k [g] x.natives) r ∧
      r.pool.u = (s.chan (s.poolPrimary g)).proposal (s.chanB (s.poolPrimary g)) r.e ∧ r.pool.e = r.e ∧ r.pool.before = r.h ∧
      r.pool.smax = none ∧ e.primaryOn g = true := by
  let pc := s.poolPrimary g
  let o := s.sampleOpened g x
  let m := o.poolMode g x
  have ho : OnlyChanges [.groups] s o := hst.opened_only x
  have hctrl : o.stringCtrl g = none := (State.stringCtrl_congr (ho.keeps_active (by decide)) g).trans hst.stringCtrl
  have hm : OnlyChanges [.groups] s m := (State.poolMode_stringless hctrl x).step rfl ho
  have hpc : o.poolPrimary g = pc := ho.keeps_poolPrimary (by decide) g
  have hown : pc = (s.groupB g).primary := by simp [pc, State.poolPrimary, hpool]
  have hsup : (m.group g).support = true := State.poolMode_stringless_support hg hctrl x
  have hentry : s.sampleEntry g x = m.onChan pc (fun _ => o.poolEvaluated g x) := by
    rcases State.poolEval_cases hx (State.sampleOpened_unsampled hat x) with ⟨-, -, h⟩ | ⟨hoff, -⟩
    · exact h.trans (by rw [hpc])
    · rw [hpc, ho.keeps_chanB (by decide), hen, hsup] at hoff
      simp at hoff
  have honly : OnlyChanges [.chans] m (s.sampleEntry g x) := hentry ▸ State.onChan_only m pc _
  have hev := State.evalChannels_evaluated hx he
  have hnot : pc ∉ (s.sampleEntry g x).competitors g := fun hc => by
    obtain ⟨-, -, -, -, hne, -⟩ := State.competitors_mem hc
    rw [honly.keeps_groupB (by decide), hm.keeps_groupB (by decide)] at hne
    exact hne hown
  have hchan : e.chan pc = o.poolEvaluated g x := by
    rw [hev.other pc hnot, hentry]
    exact State.chan_onChan m pc _ (s.poolPrimary_lt g)
  have hvalue : o.poolValue g x = s.measure pc (s.groupB g).k [g] x.natives := by
    have hsenses : SameSenses s o := .of_only ho (.ports_of_only ho (by decide)) (by decide)
    have hphase : o.evaluated g = s.evaluated g := by
      have : (o.group g).phase = (s.group g).phase := (congrArg GroupRun.phase (s.sampleOpened_course g x g) :)
      rw [State.evaluated, State.evaluated, this]
    rw [State.poolValue, hpc, ho.keeps_poolOf (by decide), hpool, ho.keeps_groupB (by decide)]
    exact hsenses.measure_primary hphase hrun hl
  have hterms : m.ironTerms pc = (0, 0) :=
    (hiron.of_active (hm.keeps_active (by decide))).terms (.inr (hm.keeps_poolPrimary (by decide) g).symm)
  have heval : (m.chan pc).eval (o.chanB pc) (o.poolValue g x) (m.groupB g).core.uInit (m.ironTerms pc) (o.groupB g).k false =
      (s.chan pc).eval (s.chanB pc) (s.measure pc (s.groupB g).k [g] x.natives) (m.groupB g).core.uInit (0, 0) (s.groupB g).k
        false := by
    rw [hvalue, hterms, hm.keeps_chan (by decide), ho.keeps_chanB (by decide), ho.keeps_groupB (by decide)]
  have hr : o.poolEvaluated g x =
      let v := (s.chan pc).eval (s.chanB pc) (s.measure pc (s.groupB g).k [g] x.natives) (m.groupB g).core.uInit (0, 0)
        (s.groupB g).k false
      { v.1 with poolHold := o.poolValue g x
                 pool := { at? := some m.clock.grid, u := v.2, e := v.1.e, before := v.1.h, smax := none, takers := [] } } := by
    rw [State.poolEvaluated, hpc]
    dsimp only
    rw [← heval]
  have hon : e.primaryOn g = true := by
    rw [State.primaryOn, hev.only.keeps_group (by decide), hev.only.keeps_poolPrimary (by decide),
      hev.only.keeps_chanB (by decide), honly.keeps_group (by decide), honly.keeps_poolPrimary (by decide),
      honly.keeps_chanB (by decide), hm.keeps_poolPrimary (by decide), hm.keeps_chanB (by decide), hsup, hen]
    rfl
  dsimp only
  have hfinal : e.chan (s.poolPrimary g) = _ := hchan.trans hr
  rw [hfinal]
  exact ⟨(ChannelRun.eval_evaluated hf _ _ _ _).withPool _ _, ChannelRun.eval_proposal hf _ _ _ _, rfl, rfl, rfl, hon⟩

end

end Sys2Proof.Machine
end

section
/-!
SUPPORT. The values of a sample of a running group, from its boundary to the state after it (R45, R48 to R52, R54, R55, R58,
R60).
-/
namespace Sys2Proof.Machine
set_option Elab.async false

/-! ### Selection among distinct channels (R54) -/

/-- The selected output is no proposal's excess, and the winner's own proposal. -/
theorem State.sampleWon_lowest {s : State} {g : Nat} {us : List (Nat × Int)} (nd : (us.map (·.1)).Nodup) {c : Nat} {u : Int}
    (h : (c, u) ∈ us) : (s.sampleWon g us).2 ≤ u ∧ ((s.sampleWon g us).1 = c → (s.sampleWon g us).2 = u) := by
  obtain ⟨d, v, hlow, hmem, hle⟩ := lowestProposalWins us (List.ne_nil_of_mem h)
  have hwon : s.sampleWon g us = (d, v) := by rw [State.sampleWon, hlow]; rfl
  rw [hwon]
  refine ⟨(hle c u h).1, fun hdc => ?_⟩
  have hsame : ((d, v) : Nat × Int) = (c, u) := List.inj_on_of_nodup_map nd hmem h hdc
  exact congrArg Prod.snd hsame

/-! ### Stored values of a sample -/

/-- After its histories are stored a sample changes no value of a channel that is no share channel. -/
theorem State.sampleCommanded_figures {e : State} {g c : Nat} {x : SampleIn} (hx : x.residues = []) (us : List (Nat × Int))
    (hkind : (e.chanB c).kind ≠ 1) : ((e.sampleCommanded g x us).chan c).figures =
      ((e.storeSample g us (e.sampleWon g us).2 false).chan c).figures := by
  have hchan : (e.sampleCommanded g x us).chan c = (e.sampleSelected g us).chan c := by
    refine ((State.commandPorts_only _ g false).keeps_chan (by decide) c).trans ((State.sampleForwarded_chan _ g x _ c).trans ?_)
    exact State.shareTurn_other hx (by rw [(e.sampleSelected_only g us).keeps_chanB (by decide)]; exact hkind)
  rw [hchan]
  exact e.sampleSelected_figures g us c

section
variable {s e : State} {g : Nat} {x : SampleIn} {ps : List (Nat × Int)} (hg : g < 32) (hx : x.residues = [])
  (hat : (s.chan (s.poolPrimary g)).pool.at? ≠ some s.clock.grid) (hst : s.Steady g) (hiron : s.Ironless g)
  (he : (s.sampleEntry g x).evalChannels g x = (e, ps))
include hx he

/-- Each channel makes one proposal of a sample. -/
theorem State.proposals_nodup : ((e.proposals g ps).map (·.1)).Nodup := by
  have hev := State.evalChannels_evaluated hx he
  have hps : ps.map (·.1) = (s.sampleEntry g x).competitors g := by
    rw [hev.proposals, List.map_map]
    exact List.map_id _
  have hown : (e.groupB g).primary ∉ ps.map (·.1) := fun h => by
    rw [hps] at h
    obtain ⟨-, -, -, -, hne, -⟩ := State.competitors_mem h
    exact hne (by rw [hev.only.keeps_groupB (by decide)])
  have hnd : (ps.map (·.1)).Nodup := hps ▸ State.competitors_nodup _ g
  unfold State.proposals
  split
  · exact List.nodup_cons.mpr ⟨hown, hnd⟩
  · exact hnd

include hg hat hst hiron

/-- Every channel that a sample evaluates stores its values, and its proposal is among those that the selection has. -/
theorem State.sample_follows {c : Nat} (hc : Evaluates s g c) (hkind : (s.chanB c).kind = 0) (hf : (s.chan c).fresh = false)
    (hrun : s.evaluated g = true) (hl : s.livePorts g ≠ []) :
    let us := e.proposals g ps
    let new := (e.sampleCommanded g x us).chan c
    (s.chan c).Stored (s.chanB c) (s.groupB g).k
        (s.measure c (s.groupB g).k (if c = s.poolPrimary g then [g] else []) x.natives) (e.sampleWon g us).2
        (s.groupB g).core.trackMargin new ∧
      (c, (s.chan c).proposal (s.chanB c) new.e) ∈ us := by
  intro us new
  have only : OnlyChanges [.chans, .groups] s e := State.sampleEvaluated_only hx hat he
  have hfig := State.sampleCommanded_figures (e := e) (g := g) (c := c) hx us
    (by rw [only.keeps_chanB (by decide), hkind]; decide)
  have hbank : e.chanB c = s.chanB c := only.keeps_chanB (by decide) c
  have hgroup : e.groupB g = s.groupB g := only.keeps_groupB (by decide) g
  have hprimary : e.poolPrimary g = s.poolPrimary g := only.keeps_poolPrimary (by decide) g
  have hnewe : new.e = ((e.storeSample g us (e.sampleWon g us).2 false).chan c).e := (congrArg ChannelRun.e hfig :)
  rcases hc with ⟨hc, hne⟩ | ⟨rfl, hpool, hen⟩
  · obtain ⟨hev, hmem⟩ := State.competitor_evaluated hx hat hst hiron he hc hne hf
    obtain ⟨h128, -, -, -, hown, -⟩ := State.competitors_mem hc
    have hus : (c, (s.chan c).proposal (s.chanB c) (e.chan c).e) ∈ us := by
      unfold us State.proposals
      split
      · exact List.mem_cons_of_mem _ hmem
      · exact hmem
    have hstore := State.storeSample_competitor (e.sampleWon g us).2 (State.proposals_nodup hx he) hus (by rw [hgroup]; exact hown)
      (by rw [hprimary]; exact hne) h128 hev.held
    rw [hbank, hgroup] at hstore
    have hval : (s.chan c).Stored _ _ _ _ _ _ := hev.stored (sel := (e.sampleWon g us).2)
      (margin := (s.groupB g).core.trackMargin) rfl rfl rfl
    rw [← hstore] at hval
    have hkeep : new.e = (e.chan c).e := by rw [hnewe, hstore]; rfl
    rw [if_neg hne, hkeep]
    exact ⟨hval.of_figures hfig, hus⟩
  · obtain ⟨hev, hpu, hpe, hpb, hpm, hon⟩ := State.primary_evaluated hg hx hat hst hiron he hpool hen hf hrun hl
    have hown : s.poolPrimary g = (s.groupB g).primary := by simp [State.poolPrimary, hpool]
    have hus : (s.poolPrimary g, (s.chan (s.poolPrimary g)).proposal (s.chanB (s.poolPrimary g))
        (e.chan (s.poolPrimary g)).e) ∈ us := by
      have hin : e.primaryIn g = true := by
        rw [State.primaryIn, hon, hgroup, ← hown, hbank, hen]
        rfl
      unfold us State.proposals
      rw [if_pos hin, hgroup, ← hown, hprimary, hpu]
      exact List.mem_cons_self ..
    obtain ⟨p, hstore⟩ := State.storeSample_primary (s := e) (us := us) (e.sampleWon g us).2
      (by rw [only.keeps_poolOf (by decide)]; exact hpool) hon (by rw [hprimary]; exact hev.held) (by rw [hprimary]; exact hpm)
    rw [hprimary, hbank, hgroup] at hstore
    have hval : (s.chan (s.poolPrimary g)).Stored _ _ _ _ _ _ :=
      (hev.withPool (e.chan (s.poolPrimary g)).poolHold p).stored (sel := (e.sampleWon g us).2)
        (margin := (s.groupB g).core.trackMargin) hpb hpe hpu
    have hkeep : new.e = (e.chan (s.poolPrimary g)).e := by rw [hnewe, hstore]; rfl
    rw [if_pos rfl, hkeep]
    exact ⟨ChannelRun.Stored.of_figures (hstore ▸ hval) hfig, hus⟩

end

/-! ### From the boundary to the state after it -/

section
variable {s : State} {g : Nat} {x : SampleIn} (hg : g < 32) (h : s.Quiet g) (hst : s.Steady g) (hold : Bool)
include h

include hg in
/-- A boundary takes every channel that its sample evaluates at the value that it has. -/
theorem State.Quiet.before_measure {c : Nat} (hc : Evaluates s g c)
    (hn : srcKind (s.chanB c).src = 3 → srcNum (s.chanB c).src < 32) (hrun : s.evaluated g = true) (hl : s.livePorts g ≠ [])
    (k : Nat) : (s.fresh.beforeSample g hold x).measure c k (if c = s.poolPrimary g then [g] else []) x.natives =
      s.measure c k (if c = s.poolPrimary g then [g] else []) x.natives := by
  have hsenses := h.before_senses hold x
  split
  · exact hsenses.measure_primary ((h.before_sameRun hold x).evaluated g) hrun hl
  · rename_i hne
    obtain ⟨hc, -⟩ := hc.resolve_right fun hc => hne hc.1
    obtain ⟨-, hgroup, -⟩ := State.competitors_mem hc
    refine hsenses.measure fun hk hm => ?_
    rw [hgroup]
    exact h.before_held hold x hg (hn hk) hm

include hst

theorem State.Quiet.before_evaluates {c : Nat} (hc : Evaluates s g c) : Evaluates (s.fresh.beforeSample g hold x) g c := by
  have only := h.before_only hold x
  have ha := only.keeps_active (show Part.active ∉ State.quietParts by decide)
  have hex : ((s.fresh.beforeSample g hold x).chan c).excluded = (s.chan c).excluded :=
    (congrArg ChannelRun.excluded (h.before_unplaced hold x c) :)
  have hctrl := (State.stringCtrl_congr ha g).trans hst.stringCtrl
  unfold Evaluates
  rw [State.mem_competitors hctrl, hex, only.keeps_chanB (by decide), only.keeps_groupB (by decide),
    only.keeps_poolPrimary (by decide), only.keeps_poolOf (by decide), ← State.mem_competitors hst.stringCtrl]
  exact hc

end

/-- Channel `c` after a sample of a running group: its values, and how the selected output stands to its proposal. -/
theorem channelFollows {s : State} {g c : Nat} {x : SampleIn} {hold : Bool} (hg : g < 32)
    (hgrid : s.onGrid (s.groupB g).k = true) (h : s.Quiet g) (hst : s.Steady g) (hiron : s.Ironless g) (hx : x.residues = [])
    (hs : x.selector = false) (hph : (s.group g).phase = .run) (hl : s.livePorts g ≠ [])
    (hat : (s.chan (s.poolPrimary g)).pool.at? ≠ some s.clock.grid) (hc : Evaluates s g c) (hf : (s.chan c).fresh = false)
    (hkind : (s.chanB c).kind = 0) (hn : srcKind (s.chanB c).src = 3 → srcNum (s.chanB c).src < 32) :
    let t := s.fresh.sampleBoundary g hold x
    let u := (s.chan c).proposal (s.chanB c) (t.chan c).e
    (s.chan c).Stored (s.chanB c) (s.groupB g).k
        (s.measure c (s.groupB g).k (if c = s.poolPrimary g then [g] else []) x.natives) (t.group g).s
        (s.groupB g).core.trackMargin (t.chan c) ∧
      (t.group g).s ≤ u ∧ ((t.group g).winner = c → (t.group g).s = u) := by
  intro t u
  let v := s.fresh.beforeSample g hold x
  have hvonly := h.before_only hold x
  have hvrun := h.before_sameRun hold x
  have hva : v.active = s.active := hvonly.keeps_active (by decide)
  have hrun : s.evaluated g = true := State.evaluated_iff.mpr (.inr hph)
  rcases he : (v.sampleEntry g x).evalChannels g x with ⟨e, ps⟩
  have hunplaced := h.before_unplaced hold x c
  have hbank : v.chanB c = s.chanB c := hvonly.keeps_chanB (by decide) c
  obtain ⟨hval, hmem⟩ := State.sample_follows hg hx (h.before_unsampled hold x hat) (hst.of_sameRun hva hvrun)
    (hiron.of_active hva) he (h.before_evaluates hst hold hc) (by rw [hbank]; exact hkind)
    ((congrArg ChannelRun.fresh hunplaced :).trans hf) ((hvrun.evaluated g).trans hrun) (by rw [h.before_livePorts]; exact hl)
  have hval := hval.of_unplaced hunplaced
  have hlow := State.sampleWon_lowest (s := e) (g := g) (State.proposals_nodup hx he) hmem
  have hpre : (v.chan c).pre = (s.chan c).pre := (congrArg ChannelRun.pre hunplaced :)
  obtain ⟨hsel, hwin, -⟩ := State.sampleSelected_group (s := e) hg (e.proposals g ps)
  have hts : (t.group g).s = _ :=
    (h.sampled_group hg hgrid hx hs hph hl hat he GroupRun.s (fun _ => rfl) fun _ => rfl).trans hsel
  have htw : (t.group g).winner = _ :=
    (h.sampled_group hg hgrid hx hs hph hl hat he GroupRun.winner (fun _ => rfl) fun _ => rfl).trans hwin
  have hnew : t.chan c = _ := (h.sampled_closes hg hgrid hx hs hph hl hat he).keeps_chan (by decide) c
  rw [ChannelRun.proposal, hpre, hbank] at hlow
  rw [hbank, hvonly.keeps_groupB (by decide), hvonly.keeps_poolPrimary (by decide), h.before_measure hg hold hc hn hrun hl]
    at hval
  unfold u
  rw [hts, htw, hnew]
  exact ⟨hval, hlow⟩

theorem channelsFollowTheirEquation : ChannelsFollowTheirEquation := by
  intro s g x hg hb hx hs hgrid hstart hstop hclear hfall hph hl hat hiron hstring htakeover hdown hserved
  have h : s.Quiet g := ⟨hstart, hstop, hclear, hfall, by rw [hph]; exact nofun⟩
  have hst : s.Steady g := ⟨hstring, htakeover, hdown, hserved⟩
  rcases he : ((s.fresh.beforeSample g (s.fresh.startHeld g) x).sampleEntry g x).evalChannels g x with ⟨e, ps⟩
  refine ⟨_, inService_eq hb _, fun c hc _ hf hkind hn => ?_, fun p hp h48 hout => ?_⟩
  · obtain ⟨hval, hlow⟩ := channelFollows (hold := s.fresh.startHeld g) hg hgrid h hst hiron hx hs hph hl hat hc hf hkind hn
    exact ⟨hval.y, hval.ramp, hval.e, hval.h, hval.pre, hval.strikes, hval.held, hlow⟩
  · obtain ⟨hcode, hcmd⟩ := h.sampled_port hg hgrid hx hs hph hl hat he hp h48 hout
    have hactive : (s.fresh.sampleBoundary g (s.fresh.startHeld g) x).active = s.active :=
      ((h.sampled_sameCommand hg hgrid hx hs hph hl hat he p).active).trans
        (((State.sampleCommanded_only hx _).keeps_active (by decide)).trans
          (((h.evaluated_only hx hat he).keeps_active (by decide)).trans ((h.before_only _ x).keeps_active (by decide))))
    refine ⟨hcode.trans ?_, hcmd⟩
    rw [State.portCode, State.shareChan_congr hactive, State.groupB, hactive]
    rfl

/-- Settles O23: the sample is cut into its stages, and what each leaves of channels, groups and ports is followed through. -/
theorem groupSampleCommandsItsPorts : Obligations.GroupSampleCommandsItsPorts := by
  unfold Obligations.GroupSampleCommandsItsPorts
  exact ⟨samplesCommandTheirPorts, channelsFollowTheirEquation⟩

end Sys2Proof.Machine
end

section
/-!
SUPPORT. The conversion of a sense input: its code, its reading, and what else follows from it (R108, R110, R199).
-/
namespace Sys2Proof.Machine
set_option Elab.async false

section
variable {ps : List Part} {s t : State} (h : OnlyChanges ps s t)
include h

theorem OnlyChanges.keeps_sense (w : Part.senses ∉ ps) (n : Nat) : t.sense n = s.sense n := by
  simp only [State.sense, h.keeps_senses w]

theorem OnlyChanges.keeps_det (w : Part.dets ∉ ps) (n : Nat) : t.det n = s.det n := by
  simp only [State.det, h.keeps_dets w]

end

/-- A sense input after a conversion (R108). -/
def SenseRun.converted (r : SenseRun) (c : SenseCfg) (code : Int) : SenseRun :=
  { code := code, y := senseMv c code, prev := (r.y :: r.prev).take 3 }

/-- The sense input with its new reading; what follows from it lies in its detector, the bus record and the bus-bar models. -/
def State.senseRead (s : State) (n : Nat) (code : Int) : State := s.onSense n (·.converted (s.senseC n) code)

theorem State.senseConversion_follows (s : State) (n : Nat) (code : Int) :
    OnlyChanges [.dets, .shelf, .lint] (s.senseRead n code) (s.senseConversion n code) := by
  unfold State.senseConversion
  extract_lets y old a y3 c b
  have hb : OnlyChanges [.dets, .shelf, .lint] a b := .ite ((State.onDet_only _ _ _).mono rfl) (.refl _ _)
  exact .ite ((State.busWindow_only _ _).step rfl hb) hb

theorem State.convert_follows (s : State) (n : Nat) (code : Int) :
    OnlyChanges [.dets, .shelf, .lint, .models] (s.senseRead n code) (s.convert n code) := by
  have h := (State.senseConversion_follows s n code).mono (qs := [.dets, .shelf, .lint, .models]) rfl
  exact .ite ((State.busbarVoltage_only _ _).step rfl h) h

/-- A conversion reaches the detector of its own input alone (R110). -/
theorem State.senseConversion_otherDet (s : State) (n : Nat) (code : Int) {j : Nat} (hj : j ≠ n) :
    (s.senseConversion n code).det j = s.det j := by
  unfold State.senseConversion
  extract_lets y old a y3 c b
  have hb : b.det j = s.det j := by
    unfold b
    split
    · exact State.det_onDet_ne _ _ _ _ hj
    · rfl
  split
  · exact ((State.busWindow_only b y).keeps_det (by decide) j).trans hb
  · exact hb

theorem State.convert_otherDet (s : State) (n : Nat) (code : Int) {j : Nat} (hj : j ≠ n) :
    (s.convert n code).det j = s.det j := by
  have h := State.senseConversion_otherDet s n code hj
  unfold State.convert
  extract_lets u
  split
  · exact ((State.busbarVoltage_only u _).keeps_det (by decide) j).trans h
  · exact h

theorem State.convert_sense (s : State) (n : Nat) (code : Int) (j : Nat) :
    (s.convert n code).sense j = (s.senseRead n code).sense j :=
  (State.convert_follows s n code).keeps_sense (by decide) j

/-- Settles O30: what follows from the reading leaves every sense input, and the detectors of the others. -/
theorem conversionScalesItsCode : Obligations.ConversionScalesItsCode := by
  unfold Obligations.ConversionScalesItsCode
  intro s n code hn hb
  have hself : (s.fresh.convert n code).sense n = (s.sense n).converted (s.senseC n) code :=
    (State.convert_sense _ n code n).trans (State.sense_onSense _ _ _ hn)
  refine ⟨_, inService_eq hb _, (State.convert_only _ _ _).step rfl ((State.fresh_only s).mono rfl), congrArg SenseRun.code hself,
    congrArg SenseRun.y hself, fun src k natives held hk hsrc => ?_, ?_, fun j hj => ?_, fun j hj => ?_⟩
  · simp only [sourceValue, hk, hsrc]
  · exact congrArg (0x5040 + ·) (Nat.one_mul n)
  · exact (State.convert_sense _ n code j).trans (State.sense_onSense_ne _ _ _ _ hj)
  · exact State.convert_otherDet _ _ _ hj

end Sys2Proof.Machine
end

section
/-!
SUPPORT. The 100 µs marks to which changes of port parameters and of a group's INC are tagged (R93, R162).
-/
namespace Sys2Proof.Machine
set_option Elab.async false

/-! ### Changes in the order of their marks -/

section
variable {α : Type} {now : Nat} {early late nexts : List (α × Nat)}

/-- Of changes in the order of their marks those up to the last whose mark has come are due. -/
theorem filter_due {x : α} {mark : Nat} (he : ∀ n ∈ early, n.2 ≤ now) (hm : mark ≤ now) (hl : ∀ n ∈ late, now < n.2) :
    (early ++ (x, mark) :: late).filter (fun n => n.2 ≤ now) = early ++ [(x, mark)] := by
  have h1 : early.filter (fun n => n.2 ≤ now) = early := List.filter_eq_self.mpr (by simpa using he)
  have h2 : late.filter (fun n => n.2 ≤ now) = [] := List.filter_eq_nil_iff.mpr (by simpa using hl)
  simp [h1, h2, hm]

/-- Those after it wait for their own marks. -/
theorem filter_waiting {x : α} {mark : Nat} (he : ∀ n ∈ early, n.2 ≤ now) (hm : mark ≤ now) (hl : ∀ n ∈ late, now < n.2) :
    (early ++ (x, mark) :: late).filter (fun n => now < n.2) = late := by
  have h1 : early.filter (fun n => now < n.2) = [] := List.filter_eq_nil_iff.mpr (by simpa using he)
  have h2 : late.filter (fun n => now < n.2) = late := List.filter_eq_self.mpr (by simpa using hl)
  simp [h1, h2, hm]

theorem filter_due_none (h : ∀ n ∈ nexts, now < n.2) : nexts.filter (fun n => n.2 ≤ now) = [] :=
  List.filter_eq_nil_iff.mpr (by simpa using h)

theorem filter_waiting_all (h : ∀ n ∈ nexts, now < n.2) : nexts.filter (fun n => now < n.2) = nexts :=
  List.filter_eq_self.mpr (by simpa using h)

end

/-! ### One port and one group at a mark -/

/-- A port at a mark of G: the last change whose mark has come is in force. -/
def PortRun.takeMarks (r : PortRun) (now : Nat) : PortRun :=
  match (r.nexts.filter (fun n => n.2 ≤ now)).getLast? with
  | some n => { r with table := n.1, nexts := r.nexts.filter (fun n => now < n.2), digests := some 0 }
  | none => r

/-- A group at a mark of G: the last INC whose mark has come is in force. -/
def GroupRun.takeMarks (r : GroupRun) (now : Nat) : GroupRun :=
  { r with inc := ((r.incNexts.filter (fun n => n.2 ≤ now)).getLast?.map (·.1)).getD r.inc
           incNexts := r.incNexts.filter (fun n => now < n.2) }

theorem PortRun.takeMarks_due {r : PortRun} {now mark : Nat} {table : ParamTable} {early late : List (ParamTable × Nat)}
    (hr : r.nexts = early ++ (table, mark) :: late) (he : ∀ n ∈ early, n.2 ≤ now) (hm : mark ≤ now)
    (hl : ∀ n ∈ late, now < n.2) : r.takeMarks now = { r with table := table, nexts := late, digests := some 0 } := by
  simp [PortRun.takeMarks, hr, filter_due he hm hl, filter_waiting he hm hl]

theorem PortRun.takeMarks_waiting {r : PortRun} {now : Nat} (h : ∀ n ∈ r.nexts, now < n.2) : r.takeMarks now = r := by
  simp [PortRun.takeMarks, filter_due_none h]

theorem GroupRun.takeMarks_due {r : GroupRun} {now inc mark : Nat} {early late : List (Nat × Nat)}
    (hr : r.incNexts = early ++ (inc, mark) :: late) (he : ∀ n ∈ early, n.2 ≤ now) (hm : mark ≤ now)
    (hl : ∀ n ∈ late, now < n.2) : r.takeMarks now = { r with inc := inc, incNexts := late } := by
  simp [GroupRun.takeMarks, hr, filter_due he hm hl, filter_waiting he hm hl]

theorem GroupRun.takeMarks_waiting {r : GroupRun} {now : Nat} (h : ∀ n ∈ r.incNexts, now < n.2) : r.takeMarks now = r := by
  simp [GroupRun.takeMarks, filter_due_none h, filter_waiting_all h]

/-! ### A mark for every port and every group -/

theorem mem_allPorts {p : Nat} : p ∈ allPorts ↔ p < 48 := List.mem_range

theorem allPorts_nodup : (allPorts.map id).Nodup := by simpa [allPorts] using List.nodup_range

theorem allGroups_nodup : (allGroups.map id).Nodup := by simpa [allGroups] using List.nodup_range

theorem State.marksParams_port (s : State) {p : Nat} (hp : p < 48) :
    (allPorts.foldl markParams s).port p = (s.port p).takeMarks s.clock.grid := by
  refine foldl_unit_of_mem (key := id) (read := State.port) (fun r => r = _) State.markParams_only
    (fun u q j h => State.port_onPort_ne u q _ j h) allPorts_nodup (mem_allPorts.mpr hp) fun u hu hr => ?_
  rw [← hu.keeps_clock (by decide)]
  exact (State.port_onPort u p _ hp).trans (congrArg (PortRun.takeMarks · _) hr)

theorem State.marksIncs_group (s : State) {g : Nat} (hg : g < 32) :
    (allGroups.foldl markInc s).group g = (s.group g).takeMarks s.clock.grid := by
  refine foldl_unit_of_mem (key := id) (read := State.group) (fun r => r = _) State.markInc_only
    (fun u q j h => State.group_onGroup_ne u q _ j h) allGroups_nodup (List.mem_range.mpr hg) fun u hu hr => ?_
  rw [← hu.keeps_clock (by decide)]
  exact (State.group_onGroup u g _ hg).trans (congrArg (GroupRun.takeMarks · _) hr)

theorem taggedMarksTakeEffect : TaggedMarksTakeEffect := by
  intro s hb
  let a := allPorts.foldl State.markParams s.fresh
  let t := allGroups.foldl State.markInc a
  have ha : OnlyChanges [.ports] s.fresh a := .foldl State.markParams_only (.refl _ _)
  have ht : OnlyChanges [.groups] a t := .foldl State.markInc_only (.refl _ _)
  have port (p : Nat) (hp : p < 48) : t.port p = (s.port p).takeMarks s.clock.grid :=
    (ht.keeps_port (by decide) p).trans (State.marksParams_port s.fresh hp)
  have group (g : Nat) (hg : g < 32) : t.group g = (s.group g).takeMarks s.clock.grid := by
    have h := State.marksIncs_group a hg
    rwa [ha.keeps_group (by decide), ha.keeps_clock (by decide)] at h
  refine ⟨t, inService_eq hb _, ht.step rfl (ha.step rfl ((State.fresh_only s).mono rfl)), ?_, ?_, ?_, ?_⟩
  · intro p table mark early late hp hn he hm hl
    rw [port p hp, PortRun.takeMarks_due hn he hm hl]
    exact ⟨rfl, rfl, rfl⟩
  · intro p hp hn
    rw [port p hp, PortRun.takeMarks_waiting hn]
  · intro g inc mark early late hg hn he hm hl
    rw [group g hg, GroupRun.takeMarks_due hn he hm hl]
    exact ⟨rfl, rfl⟩
  · intro g hg hn
    rw [group g hg, GroupRun.takeMarks_waiting hn]

end Sys2Proof.Machine
end

section
/-!
SUPPORT. The arrival deadline of a sample: what it does to each port of the group, what it registers, and how input loss
follows (R146, R178, R192, R193).
-/
namespace Sys2Proof.Machine
set_option Elab.async false

/-! ### Runs that reach one element -/

/-- A run reaches an element in a state that the others have left to it, and the rest of the run keeps what it does there. -/
theorem foldl_reaches {σ α : Type} {f : σ → α → σ} (Q P : σ → Prop) {a : α} (keepQ : ∀ u b, b ≠ a → Q u → Q (f u b))
    (hit : ∀ u, Q u → P (f u a)) (keepP : ∀ u b, P u → P (f u b)) {l : List α} (ha : a ∈ l) {s : σ} (hs : Q s) :
    P (l.foldl f s) := by
  have rest (l : List α) : ∀ u, P u → P (l.foldl f u) := by
    induction l with
    | nil => exact fun u h => h
    | cons b l ih => exact fun u h => ih _ (keepP u b h)
  induction l generalizing s with
  | nil => cases ha
  | cons b l ih =>
    by_cases e : b = a
    · exact e ▸ rest l _ (hit s hs)
    · exact ih ((List.mem_cons.mp ha).resolve_left (Ne.symm e)) (keepQ s b e hs)

/-- There is no port beyond the last: what is read there is a port at reset. -/
theorem State.port_beyond (s : State) {p : Nat} (hp : 48 ≤ p) : s.port p = {} := by
  simp [State.port, vget, Nat.not_lt.mpr hp]

/-! ### What stays registered -/

theorem Registers.detect {s : State} {src cause : Nat} (r : Registers s src cause) (src' cause' : Nat) :
    Registers (s.detect src' cause') src cause := by
  obtain ⟨d, hd, h⟩ := r
  exact ⟨d, List.mem_append_left _ hd, h⟩

/-! ### A lost port -/

/-- A port as its loss leaves it (R162, R177, R178). -/
def PortRun.lost (r : PortRun) (now : Nat) : PortRun :=
  { r with link := .lost, since := now, losses := r.losses + 1, cmd := none, got := false, miss := 0, recs := [], aux := none
           nexts := [], digests := none, inputDown := false, reported := 0, locks := r.locks.map (fun l => { l with good := 0 }) }

/-- The loss of a port is reported; what follows from it lies in its group and in the input loss. -/
theorem State.portLost_follows (s : State) (p : Nat) :
    OnlyChanges [.chans, .groups, .shelf] ((s.onPort p (·.lost s.clock.slots)).detect (srcLink p) 0) (s.portLost p) := by
  unfold State.portLost
  extract_lets a b g c
  have hc : OnlyChanges [.chans, .groups, .shelf] b c := .ite ((State.groupFault_only _ _ _).mono rfl) (.refl _ _)
  exact (State.afterLiveness_only _ _).step rfl hc

theorem State.portLost_port (s : State) (p j : Nat) : (s.portLost p).port j = (s.onPort p (·.lost s.clock.slots)).port j :=
  (State.portLost_follows s p).keeps_port (by decide) j

theorem State.portLost_registers (s : State) (p : Nat) : Registers (s.portLost p) (srcLink p) 0 :=
  Registers.of_only (State.detect_registers _ _ _) (State.portLost_follows s p) (by decide) (by decide)

theorem Registers.portLost {s : State} {src cause : Nat} (r : Registers s src cause) (p : Nat) :
    Registers (s.portLost p) src cause := by
  have r : Registers (s.onPort p (·.lost s.clock.slots)) src cause :=
    Registers.of_only r (State.onPort_only _ _ _) (by decide) (by decide)
  exact Registers.of_only (Registers.detect r _ _) (State.portLost_follows s p) (by decide) (by decide)

/-! ### One port at the deadline -/

/-- The receiver at a deadline: `idle` are the code errors of an idle pair, where the port has sent one (R146). -/
def PortRun.commaSeen (r : PortRun) (idle : Option Nat) : PortRun :=
  let n := if r.seen || idle.isSome then 0 else r.silent + 1
  { r with seen := false, silent := n, symLock := r.symLock && n < 4 && idle.getD 0 < 8 }

/-- A port whose frame has come in time. -/
def PortRun.arrived (r : PortRun) : PortRun := { r with got := false, spoilt := false, miss := 0 }

/-- A port whose frame is missing or was bad. -/
def PortRun.missed (r : PortRun) : PortRun :=
  { r with missing := if r.spoilt then r.missing else r.missing + 1, spoilt := false, miss := r.miss + 1 }

/-- A trained port with its third miss in a row: the deadline loses it (R178). -/
def PortRun.losing (r : PortRun) : Prop := r.link = .trained ∧ r.got = false ∧ 2 ≤ r.miss

/-- A port after its deadline (R146, R178). -/
def PortRun.deadline (r : PortRun) (idle : Option Nat) (now : Nat) : PortRun :=
  let q := r.commaSeen idle
  if q.link ≠ .trained then q
  else if q.got then q.arrived
  else if 3 ≤ q.missed.miss then q.missed.lost now
  else q.missed

section
variable {r : PortRun} {idle : Option Nat} {now : Nat}

theorem PortRun.deadline_symLock : (r.deadline idle now).symLock = (r.commaSeen idle).symLock := by
  unfold PortRun.deadline
  extract_lets q
  split_ifs <;> rfl

theorem PortRun.deadline_silent (hs : r.seen = false) (hi : idle = none) (hn : 3 ≤ r.silent) :
    (r.deadline idle now).symLock = false := by
  rw [PortRun.deadline_symLock]
  simp [PortRun.commaSeen, hs, hi]
  omega

theorem PortRun.deadline_errors {n : Nat} (hi : idle = some n) (hn : 8 ≤ n) : (r.deadline idle now).symLock = false := by
  rw [PortRun.deadline_symLock]
  simp [PortRun.commaSeen, hi]
  omega

theorem PortRun.deadline_arrived (hl : r.link = .trained) (hg : r.got = true) :
    r.deadline idle now = (r.commaSeen idle).arrived := by
  simp [PortRun.deadline, PortRun.commaSeen, hl, hg]

theorem PortRun.deadline_missed (hl : r.link = .trained) (hg : r.got = false) (hm : r.miss < 2) :
    r.deadline idle now = (r.commaSeen idle).missed := by
  have hm : ¬ 3 ≤ (r.commaSeen idle).missed.miss := by simp only [PortRun.commaSeen, PortRun.missed]; omega
  simp only [PortRun.deadline, hm, if_false]
  simp [PortRun.commaSeen, hl, hg]

theorem PortRun.deadline_lost (h : r.losing) : r.deadline idle now = (r.commaSeen idle).missed.lost now := by
  obtain ⟨hl, hg, hm⟩ := h
  have hm : 3 ≤ (r.commaSeen idle).missed.miss := by simp only [PortRun.commaSeen, PortRun.missed]; omega
  simp only [PortRun.deadline, hm, if_true]
  simp [PortRun.commaSeen, hl, hg]

end

section
variable (idles : List (Nat × Nat)) (s : State) (p : Nat)

theorem State.commaSeen_port (hp : p < 48) : (s.commaSeen idles p).port p = (s.port p).commaSeen (idles.lookup p) :=
  State.port_onPort s p _ hp

theorem State.deadlinePort_cases :
    State.deadlinePort idles s p =
      let a := s.commaSeen idles p
      if (a.port p).link ≠ .trained then a
      else if (a.port p).got then a.onPort p PortRun.arrived
      else if 3 ≤ (a.port p).missed.miss then (a.onPort p PortRun.missed).portLost p
      else a.onPort p PortRun.missed := by
  unfold State.deadlinePort
  extract_lets a r b
  by_cases hp : p < 48
  · have hb : b.port p = r.missed := State.port_onPort a p _ hp
    simp only [hb, bne_iff_ne]
    rfl
  · have hr : r.link ≠ .trained := by simp [r, State.port_beyond a (Nat.le_of_not_lt hp)]
    rw [if_pos (bne_iff_ne.mpr hr), if_pos hr]

theorem State.deadlinePort_port (hp : p < 48) :
    (State.deadlinePort idles s p).port p = (s.port p).deadline (idles.lookup p) s.clock.slots := by
  rw [State.deadlinePort_cases, PortRun.deadline, ← State.commaSeen_port idles s p hp]
  extract_lets a
  split_ifs
  · rfl
  · exact State.port_onPort a p _ hp
  · rw [State.portLost_port, State.port_onPort _ p _ hp, State.port_onPort a p _ hp]
    rfl
  · exact State.port_onPort a p _ hp

theorem State.deadlinePort_other {j : Nat} (hj : j ≠ p) : (State.deadlinePort idles s p).port j = s.port j := by
  have ha : (s.commaSeen idles p).port j = s.port j := State.port_onPort_ne s p _ j hj
  rw [State.deadlinePort_cases]
  extract_lets a
  split_ifs
  · exact ha
  · exact (State.port_onPort_ne a p _ j hj).trans ha
  · rw [State.portLost_port, State.port_onPort_ne _ p _ j hj, State.port_onPort_ne a p _ j hj, ha]
  · exact (State.port_onPort_ne a p _ j hj).trans ha

end

theorem Registers.deadlinePort {idles : List (Nat × Nat)} {s : State} {src cause : Nat} (r : Registers s src cause) (p : Nat) :
    Registers (State.deadlinePort idles s p) src cause := by
  have onPort {u : State} (f : PortRun → PortRun) (h : Registers u src cause) : Registers (u.onPort p f) src cause :=
    Registers.of_only h (State.onPort_only _ _ _) (by decide) (by decide)
  have ha : Registers (s.commaSeen idles p) src cause := Registers.of_only r (State.commaSeen_only _ _ _) (by decide) (by decide)
  rw [State.deadlinePort_cases]
  extract_lets a
  split_ifs
  · exact ha
  · exact onPort _ ha
  · exact Registers.portLost (onPort _ ha) p
  · exact onPort _ ha

theorem State.deadlinePort_registers {idles : List (Nat × Nat)} {s : State} {p : Nat} (hp : p < 48) (h : (s.port p).losing) :
    Registers (State.deadlinePort idles s p) (srcLink p) 0 := by
  obtain ⟨hl, hg, hm⟩ := h
  have ha : ((s.commaSeen idles p).port p) = (s.port p).commaSeen (idles.lookup p) := State.commaSeen_port idles s p hp
  have h3 : 3 ≤ ((s.port p).commaSeen (idles.lookup p)).missed.miss := by
    simp only [PortRun.commaSeen, PortRun.missed]; omega
  rw [State.deadlinePort_cases]
  extract_lets a
  rw [ha, if_neg (by simp [PortRun.commaSeen, hl]), if_neg (by simp [PortRun.commaSeen, hg]), if_pos h3]
  exact State.portLost_registers _ p

/-! ### Input loss: what stands until it is declared or cleared -/

/-- Whether input loss is declared, and how often it has been. -/
def LossRun.standing (r : LossRun) : Bool × Nat := (r.declared, r.count)

theorem State.lossReturning_standing (s : State) : s.lossReturning.shelf.loss.standing = s.shelf.loss.standing := by
  unfold State.lossReturning
  extract_lets a
  have ha : OnlyChanges [.chans] s a := .foldl (fun u _ => State.onChan_only u _ _) (.refl _ s)
  rw [← ha.keeps_shelf (by decide)]
  rfl

theorem State.lossAgain_standing (s : State) : s.lossAgain.shelf.loss.standing = s.shelf.loss.standing := by
  unfold State.lossAgain
  extract_lets a
  have ha : OnlyChanges [.chans] s a := .foldl (fun u _ => State.onChan_only u _ _) (.refl _ s)
  rw [← ha.keeps_shelf (by decide)]
  rfl

/-- The rows of a declared input loss leave it declared (R196). -/
theorem State.lossEdge_standing (s : State) : s.lossEdge.shelf.loss.standing = s.shelf.loss.standing := by
  unfold State.lossEdge
  split_ifs
  · rfl
  · exact State.lossAgain_standing s
  · rfl
  · rfl
  · exact State.lossReturning_standing s

theorem State.declareLoss_standing (s : State) : s.declareLoss.shelf.loss.standing = (true, s.shelf.loss.count + 1) := by
  unfold State.declareLoss
  extract_lets a b
  have ha : OnlyChanges [.staged, .groups, .commits] s a := (State.settleToZero_only s).mono rfl
  have hb : OnlyChanges [.staged, .groups, .commits] s b := .foldl (fun u _ => (State.onGroup_only u _ _).mono rfl) ha
  rw [← hb.keeps_shelf (by decide)]
  rfl

theorem State.recomputeD_standing (s : State) : s.recomputeD.shelf.loss.standing = s.shelf.loss.standing :=
  State.lossEdge_standing _

theorem State.portLost_standing (s : State) (p : Nat) : (s.portLost p).shelf.loss.standing = s.shelf.loss.standing := by
  unfold State.portLost
  extract_lets a b g c
  have hc : c.shelf = s.shelf := by unfold c; split <;> rfl
  rw [← hc, State.afterLiveness]
  split
  · exact State.recomputeD_standing c
  · rfl

theorem State.deadlinePort_standing (idles : List (Nat × Nat)) (s : State) (p : Nat) :
    (State.deadlinePort idles s p).shelf.loss.standing = s.shelf.loss.standing := by
  rw [State.deadlinePort_cases]
  extract_lets a
  split_ifs
  · rfl
  · rfl
  · exact State.portLost_standing _ p
  · rfl

/-- At a deadline input loss is declared where d has reached LOSS_FRAC (R193). -/
theorem State.lossRows_declares {s : State} (hd : s.shelf.loss.declared = false) (hh : s.lossHigh = true) :
    s.lossRows.shelf.loss.standing = (true, s.shelf.loss.count + 1) := by
  simpa [State.lossRows, hd, hh] using State.declareLoss_standing s

theorem State.lossRows_below {s : State} (hd : s.shelf.loss.declared = false) (hh : s.lossHigh = false) : s.lossRows = s := by
  simp [State.lossRows, hd, hh]

theorem State.lossRows_declared {s : State} (hd : s.shelf.loss.declared = true) :
    s.lossRows.shelf.loss.standing = s.shelf.loss.standing := by
  simpa [State.lossRows, hd] using State.lossEdge_standing s

/-! ### The deadline of a group -/

/-- What the input state of a port does not touch. -/
def PortRun.sansInput (r : PortRun) : PortRun :=
  { r with inputDown := false, contrib := 0, contribHeld := false, fallFrom := none, pinPrev := 0 }

theorem State.inputState_ports (s : State) (p : Nat) : PortsKeep PortRun.sansInput s (s.inputState p) := by
  unfold State.inputState
  extract_lets r down pin
  refine .ite (fun _ => rfl) (.onPort s p fun r => ?_)
  dsimp only
  split_ifs <;> rfl

/-- What the deadline does to the ports of the group, before it takes the readings of the sample. -/
def State.deadlinesMet (s : State) (g : Nat) (idles : List (Nat × Nat)) : State := (s.portsOf g).foldl (deadlinePort idles) s

/-- What follows the ports' deadlines, up to the rows of input loss. -/
theorem State.arrivalDeadline_follows (s : State) (g : Nat) (idles : List (Nat × Nat)) :
    ∃ d, s.arrivalDeadline g none idles = d.lossRows ∧ OnlyChanges [.chans, .ports, .shelf, .models] (s.deadlinesMet g idles) d ∧
      PortsKeep PortRun.sansInput (s.deadlinesMet g idles) d ∧
      d.shelf.loss.standing = (s.deadlinesMet g idles).shelf.loss.standing := by
  unfold State.arrivalDeadline
  extract_lets ps a b before c d
  have hb : OnlyChanges [.models] a b := .foldl State.modelSample_only (.refl _ _)
  have hc : OnlyChanges [.ports] b c := .foldl State.inputState_only (.refl _ _)
  have hports : PortsKeep PortRun.sansInput a c :=
    (State.UnitsKeep.ports_of_only hb (by decide)).trans (.foldl State.inputState_ports ps b)
  have hshelf : c.shelf = a.shelf := (hc.keeps_shelf (by decide)).trans (hb.keeps_shelf (by decide))
  have hac : OnlyChanges [.chans, .ports, .shelf, .models] a c := (hb.mono rfl).trans (hc.mono rfl)
  refine ⟨d, rfl, .ite hac ((State.recomputeD_only _).step rfl hac),
    .ite hports (hports.trans (.ports_of_only (State.recomputeD_only _) (by decide))), ?_⟩
  show LossRun.standing _ = LossRun.standing a.shelf.loss
  rw [← hshelf]
  unfold d
  split
  · rfl
  · exact State.recomputeD_standing c

section
variable {s : State} {g p : Nat} (idles : List (Nat × Nat))

theorem State.deadlinesMet_port (hp : p ∈ s.portsOf g) (h48 : p < 48) :
    (s.deadlinesMet g idles).port p = (s.port p).deadline (idles.lookup p) s.clock.slots := by
  refine foldl_unit_of_mem (key := id) (read := State.port) (fun r => r = _) (State.deadlinePort_only idles)
    (fun u q j h => State.deadlinePort_other idles u q h) (by simpa using s.portsOf_nodup g) hp fun u hu hr => ?_
  rw [← hu.keeps_clock (by decide)]
  exact (State.deadlinePort_port idles u p h48).trans (congrArg (PortRun.deadline · _ _) hr)

theorem State.deadlinesMet_registers (hp : p ∈ s.portsOf g) (h48 : p < 48) (h : (s.port p).losing) :
    Registers (s.deadlinesMet g idles) (srcLink p) 0 :=
  foldl_reaches (fun u => u.port p = s.port p) (fun u => Registers u (srcLink p) 0)
    (fun u q hq hu => (State.deadlinePort_other idles u q (Ne.symm hq)).trans hu)
    (fun u hu => State.deadlinePort_registers h48 (by rw [hu]; exact h)) (fun u q r => Registers.deadlinePort r q) hp rfl

theorem State.deadlinesMet_standing : (s.deadlinesMet g idles).shelf.loss.standing = s.shelf.loss.standing :=
  foldl_same (fun u : State => u.shelf.loss.standing) (State.deadlinePort_standing idles) _ s

/-- After the deadline of its group a port differs from what its own deadline makes of it in its input state alone. -/
theorem State.arrivalDeadline_port (hp : p ∈ s.portsOf g) (h48 : p < 48) :
    ((s.arrivalDeadline g none idles).port p).sansInput =
      ((s.port p).deadline (idles.lookup p) s.clock.slots).sansInput := by
  obtain ⟨d, hd, -, hports, -⟩ := State.arrivalDeadline_follows s g idles
  rw [hd, (State.lossRows_only d).keeps_port (by decide), hports p, State.deadlinesMet_port idles hp h48]

theorem State.arrivalDeadline_registers (hp : p ∈ s.portsOf g) (h48 : p < 48) (h : (s.port p).losing) :
    Registers (s.arrivalDeadline g none idles) (srcLink p) 0 := by
  obtain ⟨d, hd, only, -, -⟩ := State.arrivalDeadline_follows s g idles
  rw [hd]
  exact Registers.of_only (Registers.of_only (State.deadlinesMet_registers idles hp h48 h) only (by decide) (by decide))
    (State.lossRows_only d) (by decide) (by decide)

theorem State.arrivalDeadline_loss (s : State) (g : Nat) :
    let t := s.arrivalDeadline g none idles
    (t.lossHigh = true → t.shelf.loss.declared = true) ∧
      (s.shelf.loss.declared = false → t.shelf.loss.declared = true → t.shelf.loss.count = s.shelf.loss.count + 1) ∧
      (s.shelf.loss.declared = true → t.shelf.loss.declared = true) := by
  obtain ⟨d, hd, -, -, hs⟩ := State.arrivalDeadline_follows s g idles
  obtain ⟨hdecl, hcount⟩ : d.shelf.loss.declared = s.shelf.loss.declared ∧ d.shelf.loss.count = s.shelf.loss.count :=
    Prod.mk.inj (hs.trans (State.deadlinesMet_standing idles))
  rw [hd, ← hdecl, ← hcount]
  cases h : d.shelf.loss.declared with
  | true =>
    have ht : d.lossRows.shelf.loss.declared = true := (Prod.mk.inj (State.lossRows_declared h)).1.trans h
    exact ⟨fun _ => ht, nofun, fun _ => ht⟩
  | false =>
    cases hh : d.lossHigh with
    | true =>
      obtain ⟨ht, hc⟩ := Prod.mk.inj (State.lossRows_declares h hh)
      exact ⟨fun _ => ht, fun _ _ => hc, nofun⟩
    | false =>
      rw [State.lossRows_below h hh]
      exact ⟨fun ht => absurd (hh.symm.trans ht) (by decide), fun _ ht => absurd (h.symm.trans ht) (by decide), nofun⟩

end

/-- A trained port is a port of the part. -/
theorem State.lt_of_trained {s : State} {p : Nat} (h : (s.port p).link = .trained) : p < 48 := by
  by_contra hp
  rw [State.port_beyond s (Nat.le_of_not_lt hp)] at h
  cases h

theorem deadlinesCountMisses : DeadlinesCountMisses := by
  intro s g idles _ hb
  let t := s.fresh.arrivalDeadline g none idles
  have hport (p : Nat) (hp : p ∈ s.portsOf g) (h48 : p < 48) :
      (t.port p).sansInput = ((s.port p).deadline (idles.lookup p) s.clock.slots).sansInput :=
    State.arrivalDeadline_port (s := s.fresh) idles hp h48
  have keeps {α : Type} (f : PortRun → α) (hf : ∀ r : PortRun, f r.sansInput = f r) (p : Nat) (hp : p ∈ s.portsOf g)
      (h48 : p < 48) : f (t.port p) = f ((s.port p).deadline (idles.lookup p) s.clock.slots) := by
    rw [← hf, hport p hp h48, hf]
  refine ⟨t, inService_eq hb _, fun p hp => ?_, fun p hp hl => ?_, State.arrivalDeadline_loss idles s.fresh g⟩
  · rcases Nat.lt_or_ge p 48 with h48 | h48
    · rw [keeps PortRun.symLock (fun _ => rfl) p hp h48]
      exact ⟨PortRun.deadline_silent, fun n => PortRun.deadline_errors⟩
    · rw [State.port_beyond t h48]
      exact ⟨fun _ _ _ => rfl, fun _ _ _ => rfl⟩
  · have h48 := State.lt_of_trained hl
    have hlink := keeps PortRun.link (fun _ => rfl) p hp h48
    have hmiss := keeps PortRun.miss (fun _ => rfl) p hp h48
    have hgot := keeps PortRun.got (fun _ => rfl) p hp h48
    have hlosses := keeps PortRun.losses (fun _ => rfl) p hp h48
    refine ⟨fun hg => ?_, fun hg hm => ?_, fun hg hm => ?_⟩
    · rw [PortRun.deadline_arrived hl hg] at hlink hmiss hgot
      exact ⟨hlink.trans hl, hmiss, hgot⟩
    · rw [PortRun.deadline_missed hl hg hm] at hlink hmiss
      exact ⟨hlink.trans hl, hmiss⟩
    · rw [PortRun.deadline_lost ⟨hl, hg, hm⟩] at hlink hlosses
      exact ⟨hlink, hlosses, State.arrivalDeadline_registers (s := s.fresh) idles hp h48 ⟨hl, hg, hm⟩⟩

/-- Settles O36: each port follows its own deadline, and a change takes effect at its own mark. -/
theorem deadlinesAndMarks : Obligations.DeadlinesAndMarks := by
  unfold Obligations.DeadlinesAndMarks
  exact ⟨deadlinesCountMisses, taggedMarksTakeEffect⟩

end Sys2Proof.Machine
end

section
/-!
SUPPORT. What one port sends in a grid slot: its content by the state of its link, and the length of its frames (R156 to R158,
R169, R177).
-/
namespace Sys2Proof.Machine
set_option Elab.async false

/-! ### Operations on one port -/

/-- From `s` to `t` only port `p` changes among the ports, and it sends no press symbol that it did not send. -/
structure State.CarriesAt (p : Nat) (s t : State) : Prop where
  other : ∀ j, j ≠ p → t.port j = s.port j
  press : PortsKeep PortRun.txPress s t

namespace State.CarriesAt

variable {p : Nat} {s a b : State}

theorem refl (s : State) : CarriesAt p s s := ⟨fun _ _ => rfl, .refl s⟩

theorem trans (h : CarriesAt p s a) (k : CarriesAt p a b) : CarriesAt p s b :=
  ⟨fun j hj => (k.other j hj).trans (h.other j hj), h.press.trans k.press⟩

theorem ite {c : Prop} [Decidable c] (h : CarriesAt p s a) (k : CarriesAt p s b) : CarriesAt p s (if c then a else b) := by
  split <;> assumption

theorem of_only {ps : List Part} (h : OnlyChanges ps s a) (w : Part.ports ∉ ps) : CarriesAt p s a :=
  ⟨fun j _ => h.keeps_port w j, .ports_of_only h w⟩

theorem onPort (s : State) (p : Nat) {f : PortRun → PortRun} (hf : ∀ r, (f r).txPress = r.txPress) :
    CarriesAt p s (s.onPort p f) := ⟨fun j hj => State.port_onPort_ne s p f j hj, .onPort s p hf⟩

end State.CarriesAt

section
variable (s : State) (p : Nat)

theorem State.slotSymbol_carries (x : SlotContent) : CarriesAt p s (s.slotSymbol p x) := .onPort s p fun _ => rfl

theorem State.auxTake_carries : CarriesAt p s (s.auxTake p) := by
  refine .onPort s p fun r => ?_
  split
  · split <;> rfl
  · split <;> rfl
  · rfl

theorem auxSent_txPress (r : PortRun) : (State.auxSent r).txPress = r.txPress := by
  unfold State.auxSent
  split_ifs <;> rfl

theorem State.serviceSlot_carries : CarriesAt p s (s.serviceSlot p) := by
  unfold State.serviceSlot
  extract_lets r hold none out a b f ready
  have ha : CarriesAt p s a := .ite (.refl s) (.onPort s p fun _ => rfl)
  exact .ite (State.slotSymbol_carries s p _)
    ((ha.trans (State.auxTake_carries a p)).trans (.onPort b p fun _ => auxSent_txPress _))

theorem State.commandFrame_carries (ws : List (BitVec 24)) : CarriesAt p s (s.commandFrame p ws) :=
  (State.auxTake_carries s p).trans (.onPort _ p fun _ => auxSent_txPress _)

theorem State.enterTraining_carries (stop : Bool) : CarriesAt p s (s.enterTraining p stop) := by
  refine .trans (.onPort s p ?_) (.of_only (State.afterLiveness_only _ p) (by decide))
  exact fun _ => rfl

theorem State.trainDown_carries : CarriesAt p s (s.trainDown p) := by
  unfold State.trainDown
  exact .ite (State.enterTraining_carries s p false) (.refl s)

/-- A slot begins without a press symbol (R169). -/
def State.slotBegun : State := s.onPort p (fun r => { r with txPress := false })

theorem State.slotPort_carries : CarriesAt p (s.slotBegun p) (s.slotPort p) := by
  unfold State.slotPort
  extract_lets r a idle g k
  have hidle : CarriesAt p a idle := State.slotSymbol_carries a p _
  refine .ite (.trans (.onPort a p ?_) (State.slotSymbol_carries _ p _)) ?_
  · exact fun _ => rfl
  split
  · exact .ite (hidle.trans (State.trainDown_carries idle p)) hidle
  · exact hidle
  · exact .ite (.onPort a p fun _ => rfl) hidle
  · refine .ite (.trans (.onPort a p ?_) (State.serviceSlot_carries _ p)) (State.serviceSlot_carries a p)
    exact fun _ => rfl
  · refine .ite (.ite ?_ (State.slotSymbol_carries a p _)) (State.serviceSlot_carries a p)
    split
    · exact .ite (State.commandFrame_carries a p _) (State.slotSymbol_carries a p _)
    · exact State.slotSymbol_carries a p _

theorem State.slotPort_other {j : Nat} (hj : j ≠ p) : (s.slotPort p).port j = s.port j :=
  ((State.slotPort_carries s p).other j hj).trans (State.port_onPort_ne s p _ j hj)

end

/-! ### Frames -/

theorem beBytes_length (n x : Nat) : (beBytes n x).length = n := by
  induction n with
  | zero => rfl
  | succ n ih => simp [beBytes, ih]

/-- The octets of the aux stream in a frame (Table 05-4). -/
def auxOctets (aux : Option (Nat × List Byte)) : List Byte :=
  match aux with
  | some a => a.2
  | none => [0, 0]

/-- Octets 1 to 3 of a frame: kind, epoch and SEQ (Table 05-4). -/
def State.downHead (s : State) (kind : Nat) (epoch : Half) (aux : Option (Nat × List Byte)) : List Byte :=
  [BitVec.ofNat 8 (16 * kind + (match aux with | some a => 4 + a.1 | none => 0)),
   BitVec.ofNat 8 (16 * (epoch.toNat % 16) + s.clock.grid % 4096 / 256), BitVec.ofNat 8 (s.clock.grid % 4096)]

theorem State.downFrame_parts (s : State) (kind : Nat) (epoch : Half) (payload : List Byte) (aux : Option (Nat × List Byte)) :
    s.downFrame kind epoch payload aux = s.downHead kind epoch aux ++ (payload ++ (auxOctets aux ++
      beBytes 2 (crc16 (s.downHead kind epoch aux ++ payload ++ auxOctets aux)).toNat)) := by
  rw [← List.append_assoc, ← List.append_assoc]
  rfl

/-- A frame with 12 octets of payload and two of the aux stream has the 19 octets of Table 05-4. -/
theorem State.downFrame_length (s : State) (kind : Nat) (epoch : Half) {payload : List Byte} {aux : Option (Nat × List Byte)}
    (hp : payload.length = 12) (ha : (auxOctets aux).length = 2) : (s.downFrame kind epoch payload aux).length = 19 := by
  simp [State.downFrame_parts, State.downHead, beBytes_length, hp, ha]

theorem State.downFrame_payload (s : State) (kind : Nat) (epoch : Half) {payload : List Byte} (aux : Option (Nat × List Byte))
    (hp : payload.length = 12) : ((s.downFrame kind epoch payload aux).drop 3).take 12 = payload := by
  have hh : (s.downHead kind epoch aux).length = 3 := rfl
  rw [State.downFrame_parts, ← hh, List.drop_left, ← hp, List.take_left]

theorem State.assignPayload_length (s : State) (p : Nat) : (s.assignPayload p).length = 12 := by
  simp [State.assignPayload, beBytes_length]

theorem commandPayload_length {ws : List (BitVec 24)} (h : ws.length = 4) :
    (ws.flatMap (fun w => beBytes 3 w.toNat)).length = 12 := by
  simp [List.length_flatMap, beBytes_length, h]

theorem ParamRec.octets_length (r : ParamRec) : r.octets.length = 8 := by
  simp [ParamRec.octets, beBytes_length]

/-- Each of the four pieces of a record is two octets (R158). -/
theorem auxPiece_length {r : PortRun} (h : r.piece < 4) : (auxOctets (State.auxPiece r)).length = 2 := by
  cases ha : r.aux with
  | none => simp [State.auxPiece, auxOctets, ha]
  | some rec =>
    simp [State.auxPiece, auxOctets, ha, ParamRec.octets_length]
    omega

theorem State.auxTake_piece {s : State} {p : Nat} (hp : p < 48) (h : (s.port p).piece < 4) :
    ((s.auxTake p).port p).piece < 4 := by
  unfold State.auxTake
  extract_lets run
  rw [State.port_onPort _ _ _ hp]
  split
  · split
    · exact Nat.zero_lt_succ 3
    · exact h
  · split <;> exact h
  · exact h

/-! ### The content of a slot by the state of the link -/

/-- A port as it enters Training (R177). -/
def PortRun.entersTraining (r : PortRun) (now : Nat) (stop : Bool) : PortRun :=
  { r with link := .training, assignDue := true, assigns := 0, since := now, stopDue := r.stopDue || stop
           dp := 0, dpAt := none, rounds := 0, readyAt := none, recs := [], aux := none, piece := 0, nexts := [], digests := none
           cmd := none, got := false, miss := 0, inputDown := false, reported := 0
           locks := r.locks.map (fun l => { l with good := 0 }) }

/-- A port that idles in a slot. -/
def PortRun.idles (r : PortRun) : PortRun := { r with txPress := false, tx := .idle, piece := 0 }

theorem State.enterTraining_port {s : State} {p : Nat} (hp : p < 48) (stop : Bool) :
    (s.enterTraining p stop).port p = (s.port p).entersTraining s.clock.slots stop :=
  ((State.afterLiveness_only _ p).keeps_port (by decide) p).trans (State.port_onPort s p _ hp)

/-- 10 ms have passed since the last failed attempt of the port (R177). -/
def State.mayTrain (s : State) (r : PortRun) : Prop := ∀ f, r.failedAt = some f → 10000 ≤ elapsedUs s f

theorem State.trainDown_trains {s : State} {p : Nat} (hl : (s.port p).link = .down) (hs : (s.port p).symLock = true)
    (hw : s.mayTrain (s.port p)) : s.trainDown p = s.enterTraining p false := by
  unfold State.trainDown
  extract_lets r wait
  have hwait : wait = true := by
    unfold wait
    split
    · exact decide_eq_true (hw _ ‹_›)
    · rfl
  exact if_pos (by simp [r, hl, hs, hwait])

theorem State.trainDown_tx {s : State} {p : Nat} (hp : p < 48) : ((s.trainDown p).port p).tx = (s.port p).tx := by
  unfold State.trainDown
  extract_lets r wait
  split
  · rw [State.enterTraining_port hp]
    rfl
  · rfl

/-- The Assign frame of a port (Table 05-7). -/
def State.assignFrame (s : State) (p : Nat) : List Byte :=
  (s.slotBegun p).downFrame 3 (s.port p).epoch ((s.slotBegun p).assignPayload p) none

/-- A port that sends its Assign. -/
def PortRun.assigned (r : PortRun) (frame : List Byte) (now : Nat) : PortRun :=
  { r with txPress := false, tx := .frame frame, assignDue := false, assigns := r.assigns + 1, since := now }

section
variable {s : State} {p : Nat} (hp : p < 48)
include hp

theorem State.slotBegun_port : (s.slotBegun p).port p = { s.port p with txPress := false } := State.port_onPort s p _ hp

theorem State.slotBegun_idle_port : ((s.slotBegun p).slotSymbol p .idle).port p = (s.port p).idles := by
  rw [State.slotSymbol, State.port_onPort _ p _ hp, State.slotBegun_port hp]
  rfl

theorem State.slotPort_txPress : ((s.slotPort p).port p).txPress = false := by
  rw [(State.slotPort_carries s p).press p, State.slotBegun_port hp]

theorem State.slotPort_stop (h : (s.port p).stopDue = true) :
    (s.slotPort p).port p = { s.port p with txPress := false, stopDue := false, cmd := none, tx := .stop, piece := 0 } := by
  unfold State.slotPort
  extract_lets r a
  rw [if_pos h, State.slotSymbol, State.port_onPort _ p _ hp, State.port_onPort _ p _ hp, State.port_onPort _ p _ hp]

variable (hstop : (s.port p).stopDue = false)
include hstop

theorem State.slotPort_idles (h : (s.port p).link = .down ∨ (s.port p).link = .lost) : ((s.slotPort p).port p).tx = .idle := by
  have hidle := State.slotBegun_idle_port (s := s) hp
  unfold State.slotPort
  extract_lets r a idle
  have hidle : idle.port p = (s.port p).idles := hidle
  rw [if_neg (by simp [r, hstop])]
  rcases h with h | h
  · simp only [r, h]
    split
    · rw [State.trainDown_tx hp, hidle]
      rfl
    · rw [hidle]
      rfl
  · simp only [r, h]
    rw [hidle]
    rfl

theorem State.slotPort_trains (hl : (s.port p).link = .down) (hs : (s.port p).symLock = true) (hrun : s.linksRun = true)
    (hw : s.mayTrain (s.port p)) : (s.slotPort p).port p = (s.port p).idles.entersTraining s.clock.slots false := by
  have hidle := State.slotBegun_idle_port (s := s) hp
  unfold State.slotPort
  extract_lets r a idle
  have hidle : idle.port p = (s.port p).idles := hidle
  have hrun : a.linksRun = true := hrun
  rw [if_neg (by simp [r, hstop])]
  simp only [r, hl, hrun, if_true]
  rw [State.trainDown_trains (by rw [hidle]; exact hl) (by rw [hidle]; exact hs) (by rw [hidle]; exact hw),
    State.enterTraining_port hp, hidle]
  rfl

theorem State.slotPort_assigns (hl : (s.port p).link = .training) (ha : (s.port p).assignDue = true) :
    (s.slotPort p).port p = (s.port p).assigned (s.assignFrame p) s.clock.slots := by
  unfold State.slotPort
  extract_lets r a idle
  rw [if_neg (by simp [r, hstop])]
  simp only [r, hl, ha, if_true]
  have hbegun : a.port p = { s.port p with txPress := false } := State.slotBegun_port hp
  rw [State.port_onPort _ p _ hp, hbegun]
  rfl

end

theorem State.slotPort_commands {s : State} {p : Nat} {ws : List (BitVec 24)} (hstop : (s.port p).stopDue = false)
    (hl : (s.port p).link = .trained) (hg : (s.portB p).group < 32) (hslot : State.commandSlot s.clock.grid (s.portK p) = true)
    (he : s.evaluated (s.portB p).group = true) (hout : (s.port p).out = false)
    (hcmd : (s.port p).cmd = some (s.clock.grid, ws)) :
    s.slotPort p = (s.slotBegun p).commandFrame p ws := by
  unfold State.slotPort
  extract_lets r a idle g k
  have hslot : State.commandSlot a.clock.grid k = true := hslot
  have hev : a.evaluated g = true := he
  have hgroup : g < 32 := hg
  have hnow : (s.clock.grid == a.clock.grid) = true := beq_self_eq_true s.clock.grid
  rw [if_neg (by simp [r, hstop])]
  simp only [r, hl, hslot, hev, hgroup, hout, hcmd, hnow, decide_true, Bool.not_false, Bool.and_self, if_true]
  rfl

theorem auxSent_sent (r : PortRun) : (State.auxSent r).tx = r.tx ∧ (State.auxSent r).cmd = r.cmd := by
  unfold State.auxSent
  split_ifs <;> exact ⟨rfl, rfl⟩

/-- The frame of a command slot (R156). -/
def State.commandOctets (s : State) (p : Nat) (ws : List (BitVec 24)) : List Byte :=
  let a := s.auxTake p
  a.downFrame 1 (a.port p).epoch (ws.flatMap (fun w => beBytes 3 w.toNat)) (State.auxPiece (a.port p))

theorem State.commandFrame_port (s : State) {p : Nat} (hp : p < 48) (ws : List (BitVec 24)) :
    ((s.commandFrame p ws).port p).tx = .frame (s.commandOctets p ws) ∧ ((s.commandFrame p ws).port p).cmd = none := by
  rw [State.commandFrame, State.port_onPort _ p _ hp]
  exact auxSent_sent _

section
variable {s : State} {p : Nat} {ws : List (BitVec 24)} (hw : ws.length = 4)
include hw

theorem State.commandOctets_length (hp : p < 48) (hpiece : (s.port p).piece < 4) : (s.commandOctets p ws).length = 19 :=
  State.downFrame_length _ _ _ (commandPayload_length hw) (auxPiece_length (State.auxTake_piece hp hpiece))

/-- A command frame carries the four command words in its payload (Table 05-4). -/
theorem State.commandOctets_words :
    ((s.commandOctets p ws).drop 3).take 12 = ws.flatMap (fun w => beBytes 3 w.toNat) :=
  State.downFrame_payload _ _ _ _ (commandPayload_length hw)

end

end Sys2Proof.Machine
end

section
/-!
SUPPORT. Grid slots: the time that passes, the writes to MRAM that end, and what the links carry (R81, R157, R177, R459).
-/
namespace Sys2Proof.Machine
set_option Elab.async false

/-! ### Repeated steps -/

theorem OnlyChanges.repeat {ps : List Part} {f : State → State} (hf : ∀ s, OnlyChanges ps s (f s)) (n : Nat) (s : State) :
    OnlyChanges ps s (Nat.repeat f n s) := by
  induction n with
  | zero => exact .refl _ s
  | succ n ih => exact ih.trans (hf _)

/-- What every step leaves, `n` steps leave. -/
theorem repeat_same {σ β : Type} {f : σ → σ} (p : σ → β) (hf : ∀ s, p (f s) = p s) (n : Nat) (s : σ) :
    p (Nat.repeat f n s) = p s := by
  induction n with
  | zero => rfl
  | succ n ih => exact (hf _).trans ih

/-! ### What a slot leaves of records -/

/-- The commit of the boot record ends in its copies, not in the record (R238, R389). -/
theorem BootStore.commitEnd_record (x : BootStore) (now : Nat) : (x.commitEnd now).toBootRecord = x.toBootRecord := by
  unfold BootStore.commitEnd BootStore.commitDone
  split
  · split
    · dsimp only
      split <;> rfl
    · rfl
  · rfl

/-- The records of the scorebook, and those on their way into it. -/
def ScoreRun.ring (r : ScoreRun) : List Record × Nat := (r.recs, r.writing)

theorem State.captureArm_ring (s : State) (c : Nat) : (s.captureArm c).score.ring = s.score.ring := by
  unfold State.captureArm
  split <;> rfl

theorem State.captureDisarm_ring (s : State) (c : Nat) : (s.captureDisarm c).score.ring = s.score.ring := by
  unfold State.captureDisarm
  split <;> rfl

theorem State.captureTrigger_ring (s : State) (c kind src : Nat) : (s.captureTrigger c kind src).score.ring = s.score.ring := by
  unfold State.captureTrigger
  split <;> rfl

theorem State.captureRequests_ring (s : State) (c : Nat) : (s.captureRequests c).score.ring = s.score.ring := by
  unfold State.captureRequests
  extract_lets qs a
  refine (foldl_same (fun u : State => u.score.ring) (fun u q => ?_) qs a).trans rfl
  split
  · exact State.captureArm_ring u c
  · exact State.captureTrigger_ring u c 0 0
  · exact State.captureDisarm_ring u c

theorem State.captureCommands_ring (s : State) : s.captureCommands.score.ring = s.score.ring :=
  foldl_same (fun u : State => u.score.ring) State.captureRequests_ring _ s

/-! ### One slot -/

section
variable {s : State} (ha : s.boot.aoLost = false) (hb : s.boot.phase ≠ .held)
include ha hb

theorem State.passSlot_serving :
    s.passSlot = s.recordsWritten.slot.captureCommands.slotWrites.lastFaultWrites.recordWrites := by
  simp [State.passSlot, ha, hb]

/-- What follows the content of the links in a slot. -/
theorem State.passSlot_follows :
    OnlyChanges [.groups, .strings, .score, .bootRec] s.recordsWritten.slot s.passSlot := by
  rw [State.passSlot_serving ha hb]
  exact (State.recordWrites_only _).step rfl ((State.lastFaultWrites_only _).step rfl ((State.slotWrites_only _).step rfl
    ((State.captureCommands_only _).mono rfl)))

theorem State.passSlot_clock : s.passSlot.clock = s.clock.advance s.tb.rho s.ptpAdj := by
  have h : OnlyChanges [.chans, .ports, .shelf] s.recordsWritten.nextSlot s.recordsWritten.slot :=
    .foldl State.slotPort_only (.refl _ _)
  exact ((State.passSlot_follows ha hb).keeps_clock (by decide)).trans (h.keeps_clock (by decide))

theorem State.passSlot_ring : s.passSlot.score.ring = (s.score.recs, 0) := by
  rw [State.passSlot_serving ha hb]
  have h : s.recordsWritten.slot.captureCommands.slotWrites.lastFaultWrites.recordWrites.score =
      s.recordsWritten.slot.captureCommands.score :=
    ((State.recordWrites_only _).keeps_score (by decide)).trans (((State.lastFaultWrites_only _).keeps_score (by decide)).trans
      ((State.slotWrites_only _).keeps_score (by decide)))
  rw [h, State.captureCommands_ring, (State.slot_only _).keeps_score (by decide)]
  rfl

/-- A port carries in a slot what it has to in the state in which its turn comes, at the next instant of the grid. -/
theorem State.passSlot_port {p : Nat} (hp : p < 48) :
    ∃ u, OnlyChanges [.clock, .tb, .chans, .ports, .shelf, .score] s u ∧ u.clock.grid = s.clock.grid + 1 ∧
      u.clock.slots = s.clock.slots + 1 ∧ u.port p = s.port p ∧ s.passSlot.port p = (u.slotPort p).port p := by
  let v := s.recordsWritten.nextSlot
  have hv : OnlyChanges [.clock, .tb, .chans, .ports, .shelf, .score] s v :=
    (State.nextSlot_only _).step rfl ((State.recordsWritten_only s).mono rfl)
  rw [(State.passSlot_follows ha hb).keeps_port (by decide)]
  refine foldl_unit_of_mem (key := id) (read := State.port)
    (fun r => ∃ u, OnlyChanges _ s u ∧ u.clock.grid = s.clock.grid + 1 ∧ u.clock.slots = s.clock.slots + 1 ∧
      u.port p = s.port p ∧ r = (u.slotPort p).port p)
    State.slotPort_only (fun u q j h => State.slotPort_other u q h) allPorts_nodup (mem_allPorts.mpr hp) (s := v)
    fun u hu hr => ?_
  have hclock : u.clock = v.clock := hu.keeps_clock (by decide)
  exact ⟨u, hv.trans (hu.mono rfl), congrArg Clock.grid hclock, congrArg Clock.slots hclock, hr, rfl⟩

end

/-! ### Slots in a row -/

theorem State.passSlot_lost {s : State} (h : s.boot.aoLost = true) : s.passSlot = s := if_pos h

theorem State.passSlot_held {s : State} (ha : s.boot.aoLost = false) (hb : s.boot.phase = .held) :
    s.passSlot = { s with clock := { s.clock with up := s.clock.up + 200, shelf := s.clock.shelf + 200 } } := by
  simp [State.passSlot, ha, hb]

theorem State.recordWrites_record (s : State) : s.recordWrites.bootRec.toBootRecord = s.bootRec.toBootRecord :=
  BootStore.commitEnd_record s.bootRec s.clock.up

theorem State.passSlot_record (s : State) : s.passSlot.bootRec.toBootRecord = s.bootRec.toBootRecord := by
  cases ha : s.boot.aoLost with
  | true => rw [State.passSlot_lost ha]
  | false =>
    by_cases hb : s.boot.phase = .held
    · rw [State.passSlot_held ha hb]
    · rw [State.passSlot_serving ha hb, State.recordWrites_record, (State.lastFaultWrites_only _).keeps_bootRec (by decide),
        (State.slotWrites_only _).keeps_bootRec (by decide), (State.captureCommands_only _).keeps_bootRec (by decide),
        (State.slot_only _).keeps_bootRec (by decide), (State.recordsWritten_only s).keeps_bootRec (by decide)]

theorem State.passSlot_recs (s : State) : s.passSlot.score.recs = s.score.recs := by
  cases ha : s.boot.aoLost with
  | true => rw [State.passSlot_lost ha]
  | false =>
    by_cases hb : s.boot.phase = .held
    · rw [State.passSlot_held ha hb]
    · exact (Prod.mk.inj (State.passSlot_ring ha hb)).1

theorem State.slots_lost {s : State} (h : s.boot.aoLost = true) (n : Nat) : Nat.repeat passSlot n s = s := by
  induction n with
  | zero => rfl
  | succ n ih => exact (congrArg passSlot ih).trans (State.passSlot_lost h)

section
variable {s : State} (n : Nat)

theorem State.slots_only : OnlyChanges [.clock, .tb, .chans, .groups, .ports, .shelf, .strings, .score, .bootRec] s
    (Nat.repeat passSlot n s) := .repeat State.passSlot_only n s

theorem State.slots_boot : (Nat.repeat passSlot n s).boot = s.boot := (State.slots_only n).keeps_boot (by decide)

/-- While the logic die is in reset only always-on time and shelf time pass (R448). -/
theorem State.slots_held (ha : s.boot.aoLost = false) (hb : s.boot.phase = .held) :
    (Nat.repeat passSlot n s).clock = { s.clock with up := s.clock.up + 200 * n, shelf := s.clock.shelf + 200 * n } := by
  induction n with
  | zero => rfl
  | succ n ih =>
    have h := State.passSlot_held (s := Nat.repeat passSlot n s) (by rw [State.slots_boot]; exact ha)
      (by rw [State.slots_boot]; exact hb)
    rw [Nat.repeat, h, ih]
    simp only [Nat.mul_succ, Nat.add_assoc]

/-- Otherwise each slot advances G by one, and what was being written is complete (R81, R314). -/
theorem State.slots_serving (ha : s.boot.aoLost = false) (hb : s.boot.phase ≠ .held) :
    (Nat.repeat passSlot n s).clock.grid = s.clock.grid + n ∧ (Nat.repeat passSlot n s).clock.slots = s.clock.slots + n ∧
      (1 ≤ n → (Nat.repeat passSlot n s).score.writing = 0) := by
  induction n with
  | zero => exact ⟨rfl, rfl, nofun⟩
  | succ n ih =>
    obtain ⟨hgrid, hslots, -⟩ := ih
    have ha' : (Nat.repeat passSlot n s).boot.aoLost = false := by rw [State.slots_boot]; exact ha
    have hb' : (Nat.repeat passSlot n s).boot.phase ≠ .held := by rw [State.slots_boot]; exact hb
    have hclock := State.passSlot_clock ha' hb'
    exact ⟨(congrArg Clock.grid hclock).trans (congrArg (· + 1) hgrid),
      (congrArg Clock.slots hclock).trans (congrArg (· + 1) hslots), fun _ => (Prod.mk.inj (State.passSlot_ring ha' hb')).2⟩

end

/-- Settles O33: time by induction on the slots, each link's content in the state in which its turn in the slot comes. -/
theorem slotsCarryCommands : Obligations.SlotsCarryCommands := by
  unfold Obligations.SlotsCarryCommands
  refine ⟨fun s n => ?_, fun s p hp ha hb => ?_⟩
  · exact ⟨_, rfl, (State.slots_only n).step rfl ((State.fresh_only s).mono rfl),
      repeat_same (fun u : State => u.bootRec.toBootRecord) State.passSlot_record n s.fresh,
      repeat_same (fun u : State => u.score.recs) State.passSlot_recs n s.fresh,
      fun h => State.slots_lost (s := s.fresh) h n, State.slots_held (s := s.fresh) n, State.slots_serving (s := s.fresh) n⟩
  · obtain ⟨u, only, hgrid, hslots, hport, hsent⟩ := State.passSlot_port (s := s.fresh) ha hb hp
    replace only : OnlyChanges [.sent, .clock, .tb, .chans, .ports, .shelf, .score] s u :=
      only.step rfl ((State.fresh_only s).mono rfl)
    have hport : u.port p = s.port p := hport
    refine ⟨s.fresh.passSlot, rfl, ?_⟩
    rw [hsent, ← hport]
    refine ⟨State.slotPort_txPress hp, fun h => ?_, State.slotPort_idles hp, fun h hl hs hrun hw => ?_, fun h hl hd => ?_,
      fun ws h hl hg hslot he hout hcmd hws hpiece => ?_⟩
    · rw [State.slotPort_stop hp h]
      exact ⟨rfl, rfl, rfl⟩
    · have hrun : u.linksRun = true := by
        simpa only [State.linksRun, only.keeps_boot (by decide), only.keeps_hardwareRun (by decide)] using hrun
      have hw : u.mayTrain (u.port p) := by
        intro f hf
        have := hw f hf
        have hslots : u.clock.slots = s.clock.slots + 1 := hslots
        simp only [elapsedUs, hslots]
        omega
      rw [State.slotPort_trains hp h hl hs hrun hw]
      exact ⟨rfl, rfl, rfl⟩
    · rw [State.slotPort_assigns hp h hl hd]
      exact ⟨_, rfl, State.downFrame_length _ _ _ (State.assignPayload_length _ _) rfl, rfl, rfl⟩
    · have hgrid : s.clock.grid + 1 = u.clock.grid := hgrid.symm
      have hgroup : (u.portB p).group < 32 := by rw [only.keeps_portB (by decide)]; exact hg
      have hk : u.portK p = s.portK p := by
        simp only [State.portK, only.keeps_portB (by decide), only.keeps_groupB (by decide)]
      have hev : u.evaluated (u.portB p).group = true := by
        simpa only [State.evaluated, only.keeps_group (by decide), only.keeps_portB (by decide)] using he
      rw [State.slotPort_commands h hl hgroup (by rw [hk, ← hgrid]; exact hslot) hev hout (by rw [← hgrid]; exact hcmd)]
      obtain ⟨htx, hnone⟩ := State.commandFrame_port (u.slotBegun p) hp ws
      have hpiece : ((u.slotBegun p).port p).piece < 4 := by rw [State.slotBegun_port hp]; exact hpiece
      exact ⟨_, htx, State.commandOctets_length hws hp hpiece, State.commandOctets_words hws, hnone⟩

end Sys2Proof.Machine
end

section
/-!
SUPPORT. The loop of the timebase: what an edge of SYNCIN does to its rate, its stamps and its state (R83 to R85, Table 03-1).
-/
namespace Sys2Proof.Machine
set_option Elab.async false

/-! ### The rate -/

/-- How far the rate may move since it was last steered: 50 ppm per millisecond (R83). -/
def State.rateRoom (s : State) : Int := ((s.clock.up - s.tb.steeredAt : Nat) : Int) * 50000 / 400000

/-- The rate that the loop takes at an edge with a phase error. -/
def State.steeredRate (s : State) (err : Int) : Int :=
  clampInt (s.tb.rho - s.rateRoom) (s.tb.rho + s.rateRoom) (clampInt (-100000) 100000 (Config.freeSteer s.tb.rho err s.draws))

theorem State.steer_rho (s : State) (err : Int) : (s.steer err).tb.rho = s.steeredRate err := rfl

theorem State.rateRoom_nonneg (s : State) : 0 ≤ s.rateRoom := by
  unfold State.rateRoom
  omega

/-- From one rate to another a timebase keeps ±100 ppm, and the room that an edge leaves (R81, R83). -/
structure State.RateMoves (s : State) (rho : Int) : Prop where
  bounded : -100000 ≤ s.tb.rho → s.tb.rho ≤ 100000 → -100000 ≤ rho ∧ rho ≤ 100000
  up : rho - s.tb.rho ≤ s.rateRoom
  down : s.tb.rho - rho ≤ s.rateRoom

theorem State.rateMoves_stays (s : State) : s.RateMoves s.tb.rho := by
  have := s.rateRoom_nonneg
  exact ⟨fun h k => ⟨h, k⟩, by omega, by omega⟩

theorem State.rateMoves_steered (s : State) (err : Int) : s.RateMoves (s.steeredRate err) := by
  have := s.rateRoom_nonneg
  constructor <;> unfold State.steeredRate clampInt <;> omega

/-! ### A valid edge -/

/-- The counts of a timebase at a valid edge with a phase error in ps. -/
def TimebaseRun.counts (r : TimebaseRun) (err : Int) : TimebaseRun :=
  { r with validRun := r.validRun + 1
           closeRun := if decide (-20000 ≤ err ∧ err ≤ 20000) then r.closeRun + 1 else 0
           slipRun := if decide (err < -200000 ∨ 200000 < err) then r.slipRun + 1 else 0 }

/-- A timebase that starts to acquire. -/
def TimebaseRun.starts (r : TimebaseRun) (now : Nat) : TimebaseRun :=
  { r with phase := .acquiring, steeredAt := now, closeRun := 0, slipRun := 0 }

/-- The timebase with the counts of a valid edge. -/
def State.edgeCounted (s : State) (err : Int) : State := { s with tb := s.tb.counts err }

/-- The loop acts on a valid edge. -/
def State.edgeSteers (s : State) (err : Int) : State :=
  State.steer { s.edgeCounted err with tb := { s.tb.counts err with phaseErr := err } } err

/-- The rows of Table 03-1 at a valid edge. -/
theorem State.validEdge_rows (s : State) (err : Int) :
    s.validEdge err =
      let c := s.edgeCounted err
      let d := s.edgeSteers err
      let started : State := { c with tb := c.tb.starts s.clock.up }
      match s.tb.phase with
      | .free => if s.cfg.timebase.syncMode then started else c
      | .acquiring => if 64 ≤ c.tb.closeRun then { d with tb := { d.tb with phase := .locked, slipRun := 0 } } else d
      | .locked => if 4 ≤ c.tb.slipRun then
          State.detect { d with tb := { d.tb with phase := .acquiring, closeRun := 0, slipRun := 0 } } srcTimebase 1 else d
      | .holdover => if 16 ≤ c.tb.validRun then started else c
      | .gliding => if s.cfg.timebase.syncMode && 16 ≤ c.tb.validRun then started else c := rfl

/-- The last edges of both polarities (R84). -/
def TimebaseRun.stamps (r : TimebaseRun) : Option Nat × Option Nat := (r.lastRise, r.lastFall)

theorem State.validEdge_stamps (s : State) (err : Int) : (s.validEdge err).tb.stamps = s.tb.stamps := by
  rw [State.validEdge_rows]
  extract_lets c d started
  split <;> split_ifs <;> rfl

theorem State.validEdge_rate (s : State) (err : Int) : s.RateMoves (s.validEdge err).tb.rho := by
  have stays := s.rateMoves_stays
  have steered := s.rateMoves_steered err
  rw [State.validEdge_rows]
  extract_lets c d started
  split
  · split_ifs <;> exact stays
  · split_ifs <;> exact steered
  · split_ifs <;> exact steered
  · split_ifs <;> exact stays
  · split_ifs <;> exact stays

section
variable {s : State} {err : Int}

theorem State.validEdge_starts (h : s.tb.phase = .free) (on : s.cfg.timebase.syncMode = true) :
    (s.validEdge err).tb.phase = .acquiring := by
  simp only [State.validEdge_rows, h, on, if_true]
  rfl

theorem State.validEdge_locks (h : s.tb.phase = .acquiring) (hrun : 63 ≤ s.tb.closeRun) (herr : err.natAbs ≤ 20000) :
    (s.validEdge err).tb.phase = .locked := by
  have hnear : -20000 ≤ err ∧ err ≤ 20000 := by omega
  have hcount : 64 ≤ (s.edgeCounted err).tb.closeRun := by
    simp only [State.edgeCounted, TimebaseRun.counts, decide_eq_true hnear, if_true]
    omega
  simp only [State.validEdge_rows, h, hcount, if_true]

/-- The fourth slip in a row undoes the lock (R85). -/
theorem State.validEdge_slips (h : s.tb.phase = .locked) (hrun : 3 ≤ s.tb.slipRun) (herr : 200000 < err.natAbs) :
    (s.validEdge err).tb.phase = .acquiring ∧ Registers (s.validEdge err) srcTimebase 1 := by
  have hfar : err < -200000 ∨ 200000 < err := by omega
  have hcount : 4 ≤ (s.edgeCounted err).tb.slipRun := by
    simp only [State.edgeCounted, TimebaseRun.counts, decide_eq_true hfar, if_true]
    omega
  simp only [State.validEdge_rows, h, hcount, if_true]
  exact ⟨rfl, State.detect_registers _ _ _⟩

theorem State.validEdge_returns (h : s.tb.phase = .holdover ∨ s.tb.phase = .gliding) (hrun : 15 ≤ s.tb.validRun)
    (on : s.cfg.timebase.syncMode = true) : (s.validEdge err).tb.phase = .acquiring := by
  have hcount : 16 ≤ (s.edgeCounted err).tb.validRun := by
    simp only [State.edgeCounted, TimebaseRun.counts]
    omega
  rcases h with h | h
  · simp only [State.validEdge_rows, h, hcount, if_true]
    rfl
  · simp only [State.validEdge_rows, h, hcount, on, decide_true, Bool.and_self, if_true]
    rfl

end

/-! ### An edge of SYNCIN -/

/-- The timebase with the stamp of an edge of a polarity. -/
def TimebaseRun.stamped (r : TimebaseRun) (falling : Bool) (t : Nat) : TimebaseRun :=
  if falling then { r with lastFall := some t } else { r with lastRise := some t }

/-- The last edge of a polarity. -/
def TimebaseRun.lastEdge (r : TimebaseRun) (falling : Bool) : Option Nat := if falling then r.lastFall else r.lastRise

/-- The instant of an edge `sub` ps into the present slot, in ps. -/
def State.edgeInstant (s : State) (sub : Nat) : Nat := s.clock.up * 2500 + sub

/-- The part with the stamp of an edge. -/
def State.edgeStamped (s : State) (falling : Bool) (sub : Nat) : State :=
  { s with tb := s.tb.stamped falling (s.edgeInstant sub) }

/-- The part with the stamp of a valid edge of the loop's polarity. -/
def State.edgeArrived (s : State) (falling : Bool) (sub : Nat) : State :=
  { s with tb := { s.tb.stamped falling (s.edgeInstant sub) with lastValid := some (s.edgeInstant sub) } }

/-- The loop at a valid edge of its polarity. -/
def State.edgeTaken (s : State) (falling : Bool) (sub : Nat) : State :=
  (s.edgeArrived falling sub).validEdge (s.phaseError sub)

/-- An edge of the loop's polarity at an interval that is not valid. -/
def State.edgeRejected (s : State) (falling : Bool) (sub : Nat) : State :=
  { s with tb := { s.tb.stamped falling (s.edgeInstant sub) with validRun := 0, closeRun := 0, slipRun := 0 } }

/-- The interval from the last edge of the polarity is valid (R84). -/
def State.edgeOk (s : State) (falling : Bool) (sub : Nat) : Bool :=
  match s.tb.lastEdge falling with
  | some last => s.edgeValid (s.edgeInstant sub - last)
  | none => false

section
variable (s : State) (falling : Bool) (sub : Nat)

theorem State.syncinEdge_rows :
    s.syncinEdge falling sub =
      if falling ≠ s.cfg.timebase.syncinPol then s.edgeStamped falling sub
      else if s.edgeOk falling sub then s.edgeTaken falling sub else s.edgeRejected falling sub := by
  unfold State.syncinEdge State.edgeStamped State.edgeTaken State.edgeRejected State.edgeOk
  cases falling <;> simp only [bne_iff_ne] <;> rfl

theorem State.syncinEdge_stamps : (s.syncinEdge falling sub).tb.stamps = (s.tb.stamped falling (s.edgeInstant sub)).stamps := by
  rw [State.syncinEdge_rows]
  split_ifs
  · rfl
  · exact State.validEdge_stamps _ _
  · rfl

theorem State.edgeTaken_rate : s.RateMoves (s.edgeTaken falling sub).tb.rho := by
  obtain ⟨hbounded, hup, hdown⟩ := State.validEdge_rate (s.edgeArrived falling sub) (s.phaseError sub)
  cases falling <;> exact ⟨hbounded, hup, hdown⟩

theorem State.syncinEdge_rate : s.RateMoves (s.syncinEdge falling sub).tb.rho := by
  have stays : s.RateMoves (s.tb.stamped falling (s.edgeInstant sub)).rho := by cases falling <;> exact s.rateMoves_stays
  rw [State.syncinEdge_rows]
  split_ifs
  · exact stays
  · exact s.edgeTaken_rate falling sub
  · exact stays

end

section
variable {s : State} {falling : Bool} {sub last : Nat}

theorem State.syncinEdge_otherPolarity (h : falling ≠ s.cfg.timebase.syncinPol) :
    s.syncinEdge falling sub = s.edgeStamped falling sub := by
  rw [State.syncinEdge_rows, if_pos h]

variable (hpol : falling = s.cfg.timebase.syncinPol) (hlast : s.tb.lastEdge falling = some last)
include hpol hlast

theorem State.syncinEdge_invalid (h : s.edgeValid (s.edgeInstant sub - last) = false) :
    s.syncinEdge falling sub = s.edgeRejected falling sub := by
  have hok : s.edgeOk falling sub = false := by simpa only [State.edgeOk, hlast] using h
  rw [State.syncinEdge_rows, if_neg (by simpa using hpol), hok]
  rfl

theorem State.syncinEdge_valid (h : s.edgeValid (s.edgeInstant sub - last) = true) :
    s.syncinEdge falling sub = s.edgeTaken falling sub := by
  have hok : s.edgeOk falling sub = true := by simpa only [State.edgeOk, hlast] using h
  rw [State.syncinEdge_rows, if_neg (by simpa using hpol), hok]
  rfl

end

/-- What the stamp of an edge leaves. -/
theorem TimebaseRun.stamped_keeps {α : Type} (r : TimebaseRun) (falling : Bool) (t : Nat) (p : TimebaseRun → α)
    (hp : ∀ r x y, p { r with lastRise := x, lastFall := y } = p r) : p (r.stamped falling t) = p r := by
  cases falling
  · exact hp r (some t) r.lastFall
  · exact hp r r.lastRise (some t)

/-- An edge of SYNCIN, whatever the state of the timebase (R83 to R85). -/
theorem edgesSteerTheTimebase (s : State) (falling : Bool) (sub : Nat) :
    let t := s.syncinEdge falling sub
    (falling ≠ s.cfg.timebase.syncinPol → t.tb = s.tb.stamped falling (s.edgeInstant sub)) ∧
      (if falling then t.tb.lastFall = some (s.edgeInstant sub) ∧ t.tb.lastRise = s.tb.lastRise
        else t.tb.lastRise = some (s.edgeInstant sub) ∧ t.tb.lastFall = s.tb.lastFall) ∧ s.RateMoves t.tb.rho := by
  refine ⟨fun h => by rw [State.syncinEdge_otherPolarity h]; rfl, ?_, s.syncinEdge_rate falling sub⟩
  obtain ⟨hrise, hfall⟩ := Prod.mk.inj (s.syncinEdge_stamps falling sub)
  cases falling
  · exact ⟨hrise, hfall⟩
  · exact ⟨hfall, hrise⟩

/-- The rows of Table 03-1 at an edge of the loop's polarity. -/
theorem edgesMoveTheTimebase {s : State} {falling : Bool} {sub last : Nat} (hpol : falling = s.cfg.timebase.syncinPol)
    (hlast : s.tb.lastEdge falling = some last) :
    let t := s.syncinEdge falling sub
    (s.edgeValid (s.edgeInstant sub - last) = false → t.tb.phase = s.tb.phase ∧ t.tb.validRun = 0 ∧ t.tb.rho = s.tb.rho) ∧
      (s.edgeValid (s.edgeInstant sub - last) = true → s.cfg.timebase.syncMode = true →
        (s.tb.phase = .free → t.tb.phase = .acquiring) ∧
        (s.tb.phase = .acquiring → 63 ≤ s.tb.closeRun → (s.phaseError sub).natAbs ≤ 20000 → t.tb.phase = .locked) ∧
        (s.tb.phase = .locked → 3 ≤ s.tb.slipRun → 200000 < (s.phaseError sub).natAbs →
          t.tb.phase = .acquiring ∧ Registers t srcTimebase 1) ∧
        (s.tb.phase = .holdover ∨ s.tb.phase = .gliding → 15 ≤ s.tb.validRun → t.tb.phase = .acquiring)) := by
  have keeps {α : Type} := TimebaseRun.stamped_keeps (α := α) s.tb falling (s.edgeInstant sub)
  refine ⟨fun h => ?_, fun h on => ?_⟩
  · rw [State.syncinEdge_invalid hpol hlast h]
    exact ⟨keeps TimebaseRun.phase fun _ _ _ => rfl, rfl, keeps TimebaseRun.rho fun _ _ _ => rfl⟩
  · rw [State.syncinEdge_valid hpol hlast h]
    have hphase : (s.edgeArrived falling sub).tb.phase = s.tb.phase := keeps TimebaseRun.phase fun _ _ _ => rfl
    have hclose : (s.edgeArrived falling sub).tb.closeRun = s.tb.closeRun := keeps TimebaseRun.closeRun fun _ _ _ => rfl
    have hslip : (s.edgeArrived falling sub).tb.slipRun = s.tb.slipRun := keeps TimebaseRun.slipRun fun _ _ _ => rfl
    have hvalid : (s.edgeArrived falling sub).tb.validRun = s.tb.validRun := keeps TimebaseRun.validRun fun _ _ _ => rfl
    rw [← hphase, ← hclose, ← hslip, ← hvalid]
    exact ⟨fun hp => State.validEdge_starts hp on, State.validEdge_locks, State.validEdge_slips,
      fun hp hrun => State.validEdge_returns hp hrun on⟩

end Sys2Proof.Machine
end

section
/-!
SUPPORT. The timebase without an edge: the rows of Table 03-1 that a timer, a setting or the end of a glide brings, and SYNCOUT
(R86 to R88).
-/
namespace Sys2Proof.Machine
set_option Elab.async false

/-! ### Rows without an edge -/

/-- A timebase that enters a state with its counts at 0. -/
def TimebaseRun.enters (r : TimebaseRun) (ph : TimebasePhase) : TimebaseRun :=
  { r with phase := ph, validRun := 0, closeRun := 0, slipRun := 0 }

/-- SYNCIN is lost: Holdover, with the report of the loss (R86). -/
def State.edgesLost (s : State) : State :=
  let t := State.detect { s with tb := s.tb.enters .holdover } srcTimebase 0
  { t with tb := { t.tb with holdFrom := s.clock.up, lostCount := s.tb.lostCount + 1 } }

section
variable {s : State}

/-- SYNC_MODE 0 leads to Gliding (R86). -/
theorem State.timebaseRows_off (h : s.tb.phase = .acquiring ∨ s.tb.phase = .locked ∨ s.tb.phase = .holdover)
    (off : s.cfg.timebase.syncMode = false) : s.timebaseRows = { s with tb := s.tb.enters .gliding } := by
  rcases h with h | h | h <;> simp only [State.timebaseRows, h, off, Bool.not_false, Bool.true_or, if_true] <;> rfl

theorem State.timebaseRows_lost {last : Nat} (h : s.tb.phase = .acquiring ∨ s.tb.phase = .locked)
    (on : s.cfg.timebase.syncMode = true) (hlast : s.tb.lastValid = some last)
    (hlong : 4 * s.syncPeriod ≤ s.clock.up * 2500 - last) : s.timebaseRows = s.edgesLost := by
  unfold State.timebaseRows
  extract_lets enabled lost go t
  have hen : ¬ (!enabled) = true := by simp [enabled, on]
  have hlost : lost = true := by
    unfold lost
    rw [hlast]
    exact decide_eq_true hlong
  rcases h with h | h <;> simp only [h] <;> rw [if_neg hen, if_pos hlost] <;> rfl

theorem State.timebaseRows_holdEnds (h : s.tb.phase = .holdover)
    (hlong : s.cfg.timebase.syncHold ≤ elapsedAo s s.tb.holdFrom) :
    s.timebaseRows = { s with tb := s.tb.enters .gliding } := by
  simp only [State.timebaseRows, h, hlong, decide_true, Bool.or_true, if_true]
  rfl

theorem State.timebaseRows_glided (h : s.tb.phase = .gliding) (hrho : s.tb.rho = 0) :
    s.timebaseRows = { s with tb := { s.tb with phase := .free } } := by
  simp only [State.timebaseRows, h, hrho, if_true]

/-- No row without an edge moves the rate: it glides with the slots. -/
theorem State.timebaseRows_rho (s : State) : s.timebaseRows.tb.rho = s.tb.rho := by
  unfold State.timebaseRows
  extract_lets on lost go t
  split <;> split_ifs <;> rfl

theorem State.timebaseIn_rows {ph : TimebasePhase} (h : s.tb.phase = ph) : s.timebaseIn ph = s.timebaseRows := by
  simp [State.timebaseIn, h]

theorem State.syncinGone_rows (h : s.tb.phase = .acquiring ∨ s.tb.phase = .locked) : s.syncinGone = s.timebaseRows := by
  rcases h with h | h <;> simp [State.syncinGone, State.timebaseIn, h]

end

/-! ### Settings of the timebase -/

section
variable {s : State} {old : TimebaseCfg}

theorem State.timebaseChange_rho (s : State) (old : TimebaseCfg) : (s.timebaseChange old).tb.rho = s.tb.rho := by
  unfold State.timebaseChange
  extract_lets n _ a b _
  have ha : a.tb.rho = s.tb.rho := by unfold a; split <;> rfl
  have hb : b.tb.rho = s.tb.rho := by
    unfold b
    split
    · exact (State.timebaseRows_rho a).trans ha
    · exact ha
  split
  · exact hb
  · exact hb

/-- SYNC_MODE becomes 0 (R86). -/
theorem State.timebaseChange_off (off : s.cfg.timebase.syncMode = false) (was : old.syncMode = true)
    (h : s.tb.phase = .acquiring ∨ s.tb.phase = .locked ∨ s.tb.phase = .holdover) :
    (s.timebaseChange old).tb.phase = .gliding := by
  unfold State.timebaseChange
  extract_lets n _ a b _
  have ha : a.tb.phase = s.tb.phase := by unfold a; split <;> rfl
  have hmode : a.cfg.timebase.syncMode = false := by unfold a; split <;> exact off
  have hb : b.tb.phase = .gliding := by
    have hn : (n.syncMode != old.syncMode) = true := by simp [n, off, was]
    unfold b
    rw [if_pos hn, State.timebaseRows_off (by rwa [ha]) hmode]
    rfl
  rw [if_neg (by simp [hb])]
  exact hb

/-- Another divider, polarity or offset of SYNCIN takes a locked timebase back to Acquiring (R87). -/
theorem State.timebaseChange_reacquires (same : s.cfg.timebase.syncMode = old.syncMode) (h : s.tb.phase = .locked)
    (hnew : s.cfg.timebase.syncinDiv ≠ old.syncinDiv ∨ s.cfg.timebase.syncinPol ≠ old.syncinPol ∨
      s.cfg.timebase.syncOffset ≠ old.syncOffset) :
    (s.timebaseChange old).tb.phase = .acquiring ∧ (s.timebaseChange old).tb.closeRun = 0 := by
  unfold State.timebaseChange
  extract_lets n _ a b _
  have hb : b.tb.phase = .locked := by
    have hn : ¬ (n.syncMode != old.syncMode) = true := by simp [n, same]
    unfold b
    rw [if_neg hn]
    unfold a
    split <;> exact h
  rw [if_pos (by simpa [hb, n, or_assoc] using hnew)]
  exact ⟨rfl, rfl⟩

end

theorem State.takeSetting_timebase {s : State} {w : Waiting} {x : Obj} (hx : object? w.index w.sub = some x)
    (hf : x.fam = .timebase) : s.takeSetting w =
      State.timebaseChange { s with cfg := s.cfg.put x.fam x.unit x.sub w.value } s.cfg.timebase := by
  obtain ⟨fam, unit, off, sub, row⟩ := x
  obtain rfl : fam = .timebase := hf
  simp only [State.takeSetting, hx]
  rfl

/-- The part with a setting of the timebase in force, before the rows that follow from it. -/
def State.timebaseSet (s : State) (w : Waiting) (x : Obj) : State :=
  { s.leaveMarks with cfg := s.cfg.put x.fam x.unit x.sub w.value }

/-- Where a setting of the timebase is the only write due at a mark, the rows that follow from it decide the timebase. -/
theorem State.marksTake_timebase {s : State} {w : Waiting} {x : Obj} (hdue : s.dueMarks = [w])
    (hx : object? w.index w.sub = some x) (hf : x.fam = .timebase) :
    s.marksTake.tb = ((s.timebaseSet w x).timebaseChange s.cfg.timebase).tb ∧
      s.marksTake.cfg.timebase = (s.timebaseSet w x).cfg.timebase := by
  have rest : OnlyChanges [.chans, .ports, .shelf] ((s.timebaseSet w x).timebaseChange s.cfg.timebase) s.marksTake := by
    have h := State.marksTake_settings s
    rwa [hdue, List.foldl_cons, List.foldl_nil, State.takeSetting_timebase hx hf] at h
  exact ⟨rest.keeps_tb (by decide), congrArg Settings.timebase ((rest.keeps_cfg (by decide)).trans
    ((State.timebaseChange_only _ _).keeps_cfg (by decide)))⟩

/-! ### SYNCOUT -/

section
variable {s : State} {rise : Bool}

theorem State.syncoutEdge_low (h : s.cfg.timebase.syncoutEn = false ∨ s.linksRun = false) :
    s.syncoutEdge rise = { s with tb := { s.tb with syncout := false } } := by
  unfold State.syncoutEdge
  exact if_pos (by rcases h with h | h <;> simp [h])

/-- Where in its slot an edge is placed, in 2.5 ns: `off` in 1/(500 × 10^9) slot after a slot of SYNCOUT's own (R88). -/
def syncoutPlace (off rate : Nat) : Nat := (roundDiv (2 * (off % 500000000000 : Nat)) (5 * rate)).toNat

theorem syncoutPlace_quotient (off rate : Nat) :
    syncoutPlace off rate = (4 * (off % 500000000000) + 5 * rate) / (10 * rate) := by
  have hnum : 2 * (2 * ((off % 500000000000 : Nat) : Int)) + 5 * rate = (4 * (off % 500000000000) + 5 * rate : Nat) := by
    push_cast; ring
  have hden : 2 * (5 * (rate : Int)) = (10 * rate : Nat) := by push_cast; ring
  rw [syncoutPlace, roundDiv, hnum, hden, ← Int.natCast_ediv, Int.toNat_natCast]

/-- The edge is placed to the nearest 2.5 ns. -/
theorem syncoutPlace_nearest (off : Nat) {rate : Nat} (hr : 0 < rate) :
    4 * (off % 500000000000) ≤ 5 * rate * (2 * syncoutPlace off rate + 1) ∧
      10 * rate * syncoutPlace off rate ≤ 4 * (off % 500000000000) + 5 * rate := by
  have hlow := Nat.div_mul_le_self (4 * (off % 500000000000) + 5 * rate) (10 * rate)
  have hhigh := Nat.lt_div_mul_add (a := 4 * (off % 500000000000) + 5 * rate) (b := 10 * rate) (by omega)
  rw [← syncoutPlace_quotient] at hlow hhigh
  constructor <;> linarith

theorem State.syncoutEdge_due {rate off : Nat} (hrate : rate = (1000000000 + s.tb.rho).toNat)
    (hoff : off = s.cfg.timebase.syncoutOffset * rate + (if rise then 0 else s.cfg.timebase.syncoutDiv * 250000000000))
    (hen : s.cfg.timebase.syncoutEn = true) (hrun : s.linksRun = true) (hdiv : 1 ≤ s.cfg.timebase.syncoutDiv) :
    s.syncoutEdge rise =
      if s.clock.grid % s.cfg.timebase.syncoutDiv = off / 500000000000 % s.cfg.timebase.syncoutDiv
      then { s with tb := { s.tb with syncout := rise, syncoutAt := syncoutPlace off rate } } else s := by
  subst hoff hrate
  unfold State.syncoutEdge
  simp only [hen, hrun, Nat.max_eq_right hdiv, Bool.not_true, Bool.or_self, Bool.false_eq_true, if_false, beq_iff_eq]
  rfl

end

/-! ### The table -/

/-- Settles O32: each edge, timer and setting by the row of Table 03-1 that it brings. -/
theorem timebaseFollowsItsTable : Obligations.TimebaseFollowsItsTable := by
  unfold Obligations.TimebaseFollowsItsTable
  refine ⟨?_, ?_, ?_, ?_, ?_, ?_, ?_⟩
  · intro s falling sub hb
    obtain ⟨hother, hstamps, hrate⟩ := edgesSteerTheTimebase s.fresh falling sub
    exact ⟨_, inService_eq hb _, (State.syncinEdge_only _ _ _).step rfl ((State.fresh_only s).mono rfl), hother, hstamps,
      hrate.bounded, hrate.up, hrate.down, fun last hpol hlast => edgesMoveTheTimebase (s := s.fresh) hpol hlast⟩
  · intro s last hb h on hlast hlong
    have e : s.fresh.syncinGone = s.fresh.edgesLost :=
      (State.syncinGone_rows (s := s.fresh) h).trans (State.timebaseRows_lost (s := s.fresh) h on hlast hlong)
    exact ⟨_, (inService_eq hb _).trans (congrArg _ e), rfl, rfl, rfl, rfl, State.detect_registers _ _ _⟩
  · intro s hb h hlong
    have e : s.fresh.timebaseIn .holdover = { s.fresh with tb := s.tb.enters .gliding } :=
      (State.timebaseIn_rows (s := s.fresh) h).trans (State.timebaseRows_holdEnds (s := s.fresh) h hlong)
    exact ⟨_, (inService_eq hb _).trans (congrArg _ e), rfl, rfl⟩
  · intro s hb h hrho
    have e : s.fresh.timebaseIn .gliding = { s.fresh with tb := { s.tb with phase := .free } } :=
      (State.timebaseIn_rows (s := s.fresh) h).trans (State.timebaseRows_glided (s := s.fresh) h hrho)
    exact ⟨_, (inService_eq hb _).trans (congrArg _ e), rfl⟩
  · intro s c hb off h
    have only : OnlyChanges [.sent, .tb] s { s.fresh with tb := s.tb.enters .gliding } :=
      (set_tb_only _ _).step rfl ((State.fresh_only s).mono rfl)
    refine ⟨_, ?_, only, rfl, rfl⟩
    rcases h with ⟨rfl, h⟩ | ⟨rfl, h⟩
    · exact (inService_eq hb _).trans (congrArg _ ((State.syncinGone_rows (s := s.fresh) h).trans
        (State.timebaseRows_off (s := s.fresh) (h.imp_right .inl) off)))
    · exact (inService_eq hb _).trans (congrArg _ ((State.timebaseIn_rows (s := s.fresh) h).trans
        (State.timebaseRows_off (s := s.fresh) (.inr (.inr h)) off)))
  · intro s w x hb hdue hx hf old new
    obtain ⟨htb, hcfg⟩ := State.marksTake_timebase (s := s.fresh) hdue hx hf
    refine ⟨_, inService_eq hb _, ?_⟩
    rw [htb]
    exact ⟨State.timebaseChange_rho (s.fresh.timebaseSet w x) old, hcfg,
      State.timebaseChange_off (s := s.fresh.timebaseSet w x) (old := old),
      State.timebaseChange_reacquires (s := s.fresh.timebaseSet w x) (old := old)⟩
  · intro s rise hb
    refine ⟨_, inService_eq hb _, (State.syncoutEdge_only _ _).step rfl ((State.fresh_only s).mono rfl), fun h => ?_,
      fun rate off hrate hoff hen hrun hdiv hpos => ?_⟩
    · rw [State.syncoutEdge_low (s := s.fresh) h]
    · rw [State.syncoutEdge_due (s := s.fresh) hrate hoff hen hrun hdiv]
      split
      · obtain ⟨hlow, hhigh⟩ := syncoutPlace_nearest off hpos
        rw [if_pos ‹_›]
        exact ⟨rfl, hlow, hhigh⟩
      · rw [if_neg ‹_›]
        rfl

end Sys2Proof.Machine
end

section
/-!
SUPPORT. One iron after operations on irons: what a footprint leaves of it, and how a stage of the irons' work moves it.
-/
namespace Sys2Proof.Machine
set_option Elab.async false

/-! ### Footprints and irons -/

section
variable {ps : List Part} {s t : State} (h : OnlyChanges ps s t)
include h

theorem OnlyChanges.keeps_iron (w : Part.irons ∉ ps) (i : Nat) : t.iron i = s.iron i := by
  simp only [State.iron, h.keeps_irons w]

theorem OnlyChanges.keeps_ironB (w : Part.active ∉ ps) (i : Nat) : t.ironB i = s.ironB i := by
  simp only [State.ironB, h.keeps_active w]

theorem OnlyChanges.keeps_ironGroup (w : Part.active ∉ ps) (i : Nat) : t.ironGroup i = s.ironGroup i := by
  simp only [State.ironGroup, h.keeps_ironB w, h.keeps_chanB w]

end

theorem State.iron_onIron_same {α : Type} (s : State) (i : Nat) (f : IronRun → IronRun) (p : IronRun → α)
    (hf : ∀ r, p (f r) = p r) (j : Nat) : p ((s.onIron i f).iron j) = p (s.iron j) := vget_vmod_same _ _ _ _ p hf j

/-- A change of one iron leaves it as it is, where there is no such iron, or has changed it. -/
theorem State.iron_onIron_cases (s : State) (i : Nat) (f : IronRun → IronRun) :
    (s.onIron i f).iron i = s.iron i ∨ (s.onIron i f).iron i = f (s.iron i) := by
  by_cases hi : i < 16
  · exact .inr (State.iron_onIron _ _ _ hi)
  · exact .inl (by simp [State.iron, State.onIron, vmod, hi])

/-! ### How the work of a sample moves an iron -/

/-- Nothing is learnt: memory and snapshot are clear, and no error has joined the tap. -/
def IronRun.Empty (r : IronRun) : Prop := r.mem = [] ∧ r.snap = [] ∧ r.count = 0

theorem IronRun.clear_empty (r : IronRun) : r.clear.Empty := ⟨rfl, rfl, rfl⟩

/-- What an iron's state, its commands and its memory rest on. -/
def IronRun.core (r : IronRun) : IronRun :=
  { phase := r.phase, doneAt := r.doneAt, mem := r.mem, snap := r.snap, count := r.count
    clearReq := r.clearReq, releaseReq := r.releaseReq }

/-- A stage of an iron's work takes it from `r` to `r'`: commands stay, an empty memory stays empty, and the iron comes to
Frozen only where the stage `freezes`. -/
structure IronRun.Moves (freezes : Prop) (r r' : IronRun) : Prop where
  clearReq : r'.clearReq = r.clearReq
  releaseReq : r'.releaseReq = r.releaseReq
  doneAt : r'.doneAt = r.doneAt
  empty : r.Empty → r'.Empty
  thawed : ¬ freezes → r.phase ≠ .frozen → r'.phase ≠ .frozen

theorem IronRun.Moves.trans {z : Prop} {a b c : IronRun} (h : Moves z a b) (k : Moves z b c) : Moves z a c :=
  ⟨k.clearReq.trans h.clearReq, k.releaseReq.trans h.releaseReq, k.doneAt.trans h.doneAt, k.empty ∘ h.empty,
    fun n => k.thawed n ∘ h.thawed n⟩

theorem IronRun.Moves.ite {z c : Prop} [Decidable c] {r a b : IronRun} (h : Moves z r a) (k : Moves z r b) :
    Moves z r (if c then a else b) := by split <;> assumption

theorem IronRun.Moves.of_core {z : Prop} {r r' : IronRun} (h : r'.core = r.core) : Moves z r r' := by
  have hph : r'.phase = r.phase := (congrArg IronRun.phase h :)
  have hmem : r'.mem = r.mem := (congrArg IronRun.mem h :)
  have hsnap : r'.snap = r.snap := (congrArg IronRun.snap h :)
  have hcount : r'.count = r.count := (congrArg IronRun.count h :)
  refine ⟨(congrArg IronRun.clearReq h :), (congrArg IronRun.releaseReq h :), (congrArg IronRun.doneAt h :), fun e => ?_,
    fun _ => ?_⟩
  · rwa [Empty, hmem, hsnap, hcount]
  · rw [hph]
    exact id

/-- A stage of the work of iron `i` moves it, and no other. -/
structure State.IronMoves (z : Prop) (i : Nat) (s t : State) : Prop where
  self : (s.iron i).Moves z (t.iron i)
  other : ∀ j, j ≠ i → t.iron j = s.iron j

namespace State.IronMoves

variable {z : Prop} {i : Nat} {s a b : State}

theorem refl (s : State) : IronMoves z i s s := ⟨.of_core rfl, fun _ _ => rfl⟩

theorem trans (h : IronMoves z i s a) (k : IronMoves z i a b) : IronMoves z i s b :=
  ⟨h.self.trans k.self, fun j hj => (k.other j hj).trans (h.other j hj)⟩

/-- A stage that freezes less often. -/
theorem mono {y : Prop} (h : IronMoves y i s a) (w : y → z) : IronMoves z i s a := by
  obtain ⟨⟨hclear, hrelease, hdone, hempty, hthaw⟩, hother⟩ := h
  exact ⟨⟨hclear, hrelease, hdone, hempty, fun n => hthaw (n ∘ w)⟩, hother⟩

theorem ite {c : Prop} [Decidable c] (h : IronMoves z i s a) (k : IronMoves z i s b) :
    IronMoves z i s (if c then a else b) := by split <;> assumption

theorem of_only {ps : List Part} (h : OnlyChanges ps s a) (w : Part.irons ∉ ps) : IronMoves z i s a :=
  ⟨.of_core (congrArg _ (h.keeps_iron w i)), fun j _ => h.keeps_iron w j⟩

theorem onIron {f : IronRun → IronRun} (hf : (s.iron i).Moves z (f (s.iron i))) : IronMoves z i s (s.onIron i f) := by
  refine ⟨?_, fun j hj => State.iron_onIron_ne s i f j hj⟩
  rcases s.iron_onIron_cases i f with e | e
  · rw [e]
    exact .of_core rfl
  · rwa [e]

theorem onIron_core {f : IronRun → IronRun} (hf : ∀ r, (f r).core = r.core) : IronMoves z i s (s.onIron i f) :=
  onIron (.of_core (hf _))

end State.IronMoves

end Sys2Proof.Machine
end

section
/-!
SUPPORT. The work of an iron before a sample, stage by stage: its period, its row of Table 04-1, its taps and its term
(R123, R125, R129, R132 to R134).
-/
namespace Sys2Proof.Machine
set_option Elab.async false

/-! ### The row of Table 04-1 -/

/-- An iron comes to Frozen by a freeze alone. -/
theorem ironNext_thawed {r : IronRun} (run stop ok withdraw : Bool) {freeze : Bool} (hf : freeze = false)
    (hr : r.phase ≠ .frozen) : ironNext r run stop ok withdraw freeze ≠ .frozen := by
  subst hf
  unfold ironNext
  cases hph : r.phase with
  | frozen => exact absurd hph hr
  | off => nofun
  | idle | fadingIn | active | fadingOut =>
    simp only [Bool.false_eq_true, if_false]
    split_ifs <;> nofun

theorem IronRun.offActive_core (r : IronRun) : r.offActive.core = r.core := by
  unfold IronRun.offActive
  split <;> rfl

section
variable {s : State} {i k : Nat}

theorem State.ironState_moves (freeze : Bool) : IronMoves (freeze = true) i s (s.ironState i k freeze) := by
  unfold State.ironState
  extract_lets b r run lead causes stop band ok ph entered leaves s1 s2
  have h1 : IronMoves (freeze = true) i s s1 := .onIron
    ⟨rfl, rfl, rfl, id, fun n hr => ironNext_thawed _ _ _ _ (Bool.eq_false_of_not_eq_true n) hr⟩
  have h2 : IronMoves (freeze = true) i s s2 := h1.trans (.of_only (State.detectIf_only _ _ _ _) (by decide))
  exact .ite (h2.trans (.of_only (set_flat_only _ _) (by decide))) h2

/-- An iron comes to Frozen by a freeze, a follower with its leader too. -/
theorem State.ironPhase_moves (freeze : Bool) :
    IronMoves (freeze = true ∨ (s.ironB i).function = 2) i s (s.ironPhase i k freeze) := by
  unfold State.ironPhase
  extract_lets b l frozen t
  have ht : IronMoves (freeze = true ∨ (s.ironB i).function = 2) i s t := by
    unfold t
    split
    · rename_i hfn
      have hd := State.detectIf_only s (frozen && (s.iron i).phase != .frozen) (srcIron i) 2
      exact (IronMoves.of_only hd (by decide)).trans
        (.onIron ⟨rfl, rfl, rfl, id, fun n => absurd (.inr (eq_of_beq hfn)) n⟩)
    · exact (State.ironState_moves freeze).mono .inl
  exact ht.trans (.onIron_core IronRun.offActive_core)

/-! ### Taps and term -/

variable {z : Prop}

theorem State.ironRms_moves : IronMoves z i s (s.ironRms i) := .onIron_core fun _ => rfl

/-- A tap is written only where an error has joined it. -/
theorem State.ironTaps_moves (bad : Bool) : IronMoves z i s (s.ironTaps i bad) := by
  unfold State.ironTaps
  extract_lets b r phi wrapped j prev leave mem dTerm s1 s2 s3
  have hmem : r.Empty → mem = [] := by
    rintro ⟨hm, -, hc⟩
    simp [mem, hm, hc]
  have h1 : IronMoves z i s s1 := by
    refine .onIron ⟨rfl, rfl, rfl, fun e => ?_, fun _ => id⟩
    have hnil : mem = [] := hmem e
    obtain ⟨-, hsnap, hcount⟩ : r.Empty := e
    refine ⟨hnil, ?_, ?_⟩
    · show (if wrapped then mem else r.snap) = []
      rw [hnil, hsnap, ite_self]
    · show (if leave then 0 else r.count) = 0
      rw [hcount, ite_self]
  have h2 : IronMoves z i s s2 := h1.trans (.of_only (State.flatMean_only _ _) (by decide))
  have h3 : IronMoves z i s s3 := .ite (.ite (h2.trans (.of_only (State.flatStep_only _ _) (by decide))) h2) h1
  exact .ite (h3.trans State.ironRms_moves) h3

theorem State.ironTerm_moves : IronMoves z i s (s.ironTerm i) := by
  unfold State.ironTerm
  extract_lets b r t
  refine .ite ?_ (.onIron_core fun _ => rfl)
  split
  exact (IronMoves.of_only (State.flatReference_to ‹_›) (by decide)).trans (.onIron_core fun _ => rfl)

end

/-! ### The stages of the work -/

/-- An iron at the start of its work for a sample of `k` slots, with the period `src` that its source gives. -/
def IronRun.begun (b : IronBank) (k src now : Nat) (bad : Bool) (r : IronRun) : IronRun :=
  let r := takePeriod b k src r
  { r with invalid := !periodValid src k, strikes := if bad then r.strikes + 1 else 0, doneAt := some now }

/-- Iron `i` has begun its work, and the collector has its causes. -/
def State.ironBegun (s : State) (i k : Nat) (bad : Bool) : State :=
  let t := s.onIron i (IronRun.begun (s.ironB i) k (s.ironSource i) s.clock.slots bad)
  (t.detectIf (!periodValid (s.ironSource i) k && !(s.iron i).invalid) (srcIron i) 0).detectIf bad (srcIron i) 1

/-- The pointer, the taps and the term of iron `i` with the bank `b`. -/
def State.ironPointed (s : State) (b : IronBank) (i : Nat) (valid bad : Bool) : State :=
  if !valid || (s.iron i).nTaps = 0 then
    let s := if b.function == 1 then { s with flat := s.flat.restart false } else s
    s.onIron i (fun r => { r with phi := (r.phi + r.delta) % turn48, term := 0, m := 0 })
  else
    let s := s.ironTaps i bad
    if bad then s else s.ironTerm i

theorem State.ironWork_stages (s : State) (i k : Nat) {x : IronFaults} (hx : x.taps = []) :
    s.ironWork i k x =
      let a := s.ironBegun i k (x.residues.contains i)
      (a.ironPhase i k (3 ≤ (a.iron i).strikes || 4 ≤ (a.iron i).rising)).ironPointed (s.ironB i) i
        (periodValid (s.ironSource i) k) (x.residues.contains i) := by
  unfold State.ironWork
  rw [hx]
  rfl

theorem IronRun.setPeriod_core (r : IronRun) (b : IronBank) (k p : Nat) : (r.setPeriod b k p).core = r.core := by
  unfold IronRun.setPeriod
  split <;> rfl

theorem IronRun.setPeriod_rising (r : IronRun) (b : IronBank) (k p : Nat) : (r.setPeriod b k p).rising = r.rising := by
  unfold IronRun.setPeriod
  split <;> rfl

theorem takePeriod_rising (b : IronBank) (k p : Nat) (r : IronRun) : (takePeriod b k p r).rising = r.rising := by
  unfold takePeriod
  repeat' split
  all_goals exact r.setPeriod_rising b k _

theorem takePeriod_moves (z : Prop) (b : IronBank) (k p : Nat) (r : IronRun) : r.Moves z (takePeriod b k p r) := by
  have hset (q : Nat) : r.Moves z (r.setPeriod b k q) := .of_core (r.setPeriod_core b k q)
  have hcleared : r.Moves z { r.setPeriod b k p with mem := [], snap := [], relearn := r.relearn + 1 } := by
    obtain ⟨hclear, hrelease, hdone, hempty, hthaw⟩ := hset p
    refine ⟨hclear, hrelease, hdone, fun e => ?_, hthaw⟩
    obtain ⟨-, -, hcount⟩ := hempty e
    exact ⟨rfl, rfl, hcount⟩
  exact .ite (hset _) (.ite (hset p) hcleared)

theorem State.ironPointed_moves {z : Prop} (s : State) (b : IronBank) (i : Nat) (valid bad : Bool) :
    IronMoves z i s (s.ironPointed b i valid bad) := by
  unfold State.ironPointed
  extract_lets u v
  have hu : IronMoves z i s u := .ite (.of_only (set_flat_only _ _) (by decide)) (.refl s)
  have hv : IronMoves z i s v := State.ironTaps_moves bad
  exact .ite (hu.trans (.onIron_core fun _ => rfl)) (.ite hv (hv.trans State.ironTerm_moves))

section
variable {s : State} {i k : Nat}

theorem State.ironBegun_other {j : Nat} (hj : j ≠ i) (bad : Bool) : (s.ironBegun i k bad).iron j = s.iron j := by
  unfold State.ironBegun
  extract_lets t
  rw [(State.detectIf_only _ _ _ _).keeps_iron (by decide), (State.detectIf_only _ _ _ _).keeps_iron (by decide)]
  exact State.iron_onIron_ne _ _ _ _ hj

theorem State.ironBegun_self (hi : i < 16) (bad : Bool) :
    (s.ironBegun i k bad).iron i = (s.iron i).begun (s.ironB i) k (s.ironSource i) s.clock.slots bad := by
  unfold State.ironBegun
  extract_lets t
  rw [(State.detectIf_only _ _ _ _).keeps_iron (by decide), (State.detectIf_only _ _ _ _).keeps_iron (by decide)]
  exact State.iron_onIron _ _ _ hi

theorem State.ironBegun_bank (bad : Bool) (j : Nat) : (s.ironBegun i k bad).ironB j = s.ironB j := by
  unfold State.ironBegun
  extract_lets t
  rw [(State.detectIf_only _ _ _ _).keeps_ironB (by decide), (State.detectIf_only _ _ _ _).keeps_ironB (by decide)]
  rfl

end

/-! ### The irons that work before a sample -/

/-- An iron that the present sample does not freeze: it is not Frozen, and has no reason to freeze or has worked already. -/
def IronRun.Thawed (r : IronRun) (now : Nat) : Prop := r.phase ≠ .frozen ∧ (r.rising = 0 ∨ r.doneAt = some now)

/-- Work before a sample with the errors `x`, from `s` to `t`, as iron `j` sees it: its commands stay, an empty memory stays
empty, and without residues an iron that works on its own does not freeze. -/
structure State.IronTurns (x : IronFaults) (j : Nat) (s t : State) : Prop where
  only : OnlyChanges [.irons, .flat, .lint, .draws] s t
  clearReq : (t.iron j).clearReq = (s.iron j).clearReq
  releaseReq : (t.iron j).releaseReq = (s.iron j).releaseReq
  empty : (s.iron j).Empty → (t.iron j).Empty
  thawed : x.residues = [] → (s.ironB j).function ≠ 2 → (s.iron j).Thawed s.clock.slots → (t.iron j).Thawed t.clock.slots

namespace State.IronTurns

variable {x : IronFaults} {j : Nat} {s a b : State}

theorem of_same (only : OnlyChanges [.irons, .flat, .lint, .draws] s a) (h : a.iron j = s.iron j) : IronTurns x j s a := by
  refine ⟨only, ?_, ?_, ?_, fun _ _ => ?_⟩
  · rw [h]
  · rw [h]
  · rw [h]
    exact id
  · rw [h, only.keeps_clock (by decide)]
    exact id

theorem refl (s : State) : IronTurns x j s s := .of_same (.refl _ s) rfl

theorem trans (h : IronTurns x j s a) (k : IronTurns x j a b) : IronTurns x j s b :=
  ⟨h.only.trans k.only, k.clearReq.trans h.clearReq, k.releaseReq.trans h.releaseReq, k.empty ∘ h.empty,
    fun hx hf => k.thawed hx (by rwa [h.only.keeps_ironB (by decide)]) ∘ h.thawed hx hf⟩

theorem ite {c : Prop} [Decidable c] (h : IronTurns x j s a) (k : IronTurns x j s b) :
    IronTurns x j s (if c then a else b) := by split <;> assumption

theorem foldl {f : State → Nat → State} (hf : ∀ s i, IronTurns x j s (f s i)) (l : List Nat) (s : State) :
    IronTurns x j s (l.foldl f s) := by
  induction l generalizing s with
  | nil => exact .refl s
  | cons i l ih => exact (hf s i).trans (ih _)

end State.IronTurns

/-- The work of an iron that has not worked for the sample. -/
def State.ironOnce (s : State) (i k : Nat) (x : IronFaults) : State :=
  if (s.iron i).doneAt == some s.clock.slots then s else s.ironWork i k x

theorem State.ironBefore_once (s : State) (i k : Nat) (x : IronFaults) :
    s.ironBefore i k x =
      let l := (s.ironB i).leader
      let s := if (s.ironB i).function == 2 && (s.iron l).phase != .off && s.onGrid (s.groupB (s.ironGroup l)).k then
        s.ironOnce l k x else s
      s.ironOnce i k x := rfl

section
variable {s : State} {i k j : Nat} {x : IronFaults} (hx : x.taps = []) (hj : j < 16)
include hx hj

theorem State.ironOnce_turns : IronTurns x j s (s.ironOnce i k x) := by
  by_cases hdone : (s.iron i).doneAt = some s.clock.slots
  · rw [State.ironOnce, if_pos (beq_iff_eq.mpr hdone)]
    exact .refl s
  have only := State.ironWork_only s i k x
  rw [State.ironOnce, if_neg (mt beq_iff_eq.mp hdone)]
  let bad := x.residues.contains i
  let a := s.ironBegun i k bad
  let freeze : Bool := 3 ≤ (a.iron i).strikes || 4 ≤ (a.iron i).rising
  have hmoves : IronMoves (freeze = true ∨ (s.ironB i).function = 2) i a (s.ironWork i k x) := by
    rw [State.ironWork_stages s i k hx, ← State.ironBegun_bank (k := k) bad i]
    exact (State.ironPhase_moves freeze).trans (State.ironPointed_moves _ _ i _ bad)
  by_cases e : j = i
  · subst e
    have ha : a.iron j = (s.iron j).begun (s.ironB j) k (s.ironSource j) s.clock.slots bad := State.ironBegun_self hj bad
    have hperiod := takePeriod_moves False (s.ironB j) k (s.ironSource j) (s.iron j)
    have hself := hmoves.self
    rw [ha] at hself
    refine ⟨only, hself.clearReq.trans hperiod.clearReq, hself.releaseReq.trans hperiod.releaseReq,
      fun he => hself.empty (hperiod.empty he), fun hres hfn hthaw => ?_⟩
    obtain ⟨hphase, hrising⟩ := hthaw
    have hbad : bad = false := by simp [bad, hres]
    have hzero : (a.iron j).rising = 0 := by
      rw [ha]
      exact (takePeriod_rising _ _ _ _).trans (hrising.resolve_right hdone)
    have hstrikes : (a.iron j).strikes = 0 := by
      rw [ha, IronRun.begun, hbad]
      rfl
    have hfreeze : freeze = false := by simp [freeze, hzero, hstrikes]
    refine ⟨hself.thawed ?_ (hperiod.thawed id hphase), .inr ?_⟩
    · simp [hfreeze, hfn]
    · rw [hself.doneAt, only.keeps_clock (by decide)]
      rfl
  · exact .of_same only ((hmoves.other j e).trans (State.ironBegun_other e bad))

theorem State.ironBefore_turns : IronTurns x j s (s.ironBefore i k x) := by
  rw [State.ironBefore_once]
  extract_lets l t
  have ht : IronTurns x j s t := .ite (State.ironOnce_turns hx hj) (.refl s)
  exact ht.trans (State.ironOnce_turns hx hj)

end

end Sys2Proof.Machine
end

section
/-!
SUPPORT. Iron commands at the sample boundary of the iron's group, and what the rest of the boundary leaves of the irons
(Table 04-1, R133, R369, R479).
-/
namespace Sys2Proof.Machine
set_option Elab.async false

/-! ### Commands that are due -/

/-- An iron after the commands that it takes at a boundary. -/
def IronRun.takes (r : IronRun) (clear release : Bool) : IronRun :=
  let r := if clear then { r.clear with clearReq := none } else r
  if release then { r.release with releaseReq := none } else r

theorem IronRun.release_frozen {r : IronRun} (h : r.phase = .frozen) :
    r.release = { r.clear with phase := .idle, w := 0, rising := 0 } := if_pos (beq_iff_eq.mpr h)

theorem IronRun.release_clearReq (r : IronRun) : r.release.clearReq = r.clearReq := by
  unfold IronRun.release
  split <;> rfl

theorem IronRun.release_empty {r : IronRun} (h : r.Empty) : r.release.Empty := by
  unfold IronRun.release
  split
  · exact r.clear_empty
  · exact h

/-- A clear leaves the memory empty, whatever else is due. -/
theorem IronRun.takes_clear (r : IronRun) (release : Bool) :
    (r.takes true release).clearReq = none ∧ (r.takes true release).Empty := by
  cases release with
  | false => exact ⟨rfl, r.clear_empty⟩
  | true => exact ⟨IronRun.release_clearReq _, IronRun.release_empty (r := { r.clear with clearReq := none }) r.clear_empty⟩

/-- A frozen iron that is released is Idle with an empty memory, whatever else is due. -/
theorem IronRun.takes_release {r : IronRun} (h : r.phase = .frozen) (clear : Bool) (now : Nat) :
    (r.takes clear true).releaseReq = none ∧ (r.takes clear true).Empty ∧ (r.takes clear true).Thawed now := by
  let a := if clear then { r.clear with clearReq := none } else r
  have ha : a.phase = .frozen := by cases clear <;> exact h
  have e : r.takes clear true = { a.clear with phase := .idle, w := 0, rising := 0, releaseReq := none } :=
    congrArg (fun r : IronRun => { r with releaseReq := none }) (IronRun.release_frozen ha)
  rw [e]
  exact ⟨rfl, a.clear_empty, nofun, .inl rfl⟩

/-- The iron commands that are due at a boundary reach the iron. -/
def State.ironTaken (s : State) (i : Nat) : IronRun :=
  (s.iron i).takes (s.due (s.iron i).clearReq) (s.due (s.iron i).releaseReq)

theorem IronRun.takes_releaseReq (r : IronRun) (clear : Bool) : (r.takes clear false).releaseReq = r.releaseReq := by
  cases clear <;> rfl

theorem State.ironRequests_self {s : State} {i : Nat} (hi : i < 16) : (s.ironRequests i).iron i = s.ironTaken i := by
  unfold State.ironRequests State.ironTaken
  extract_lets s1
  have h1 : s1.iron i = (s.iron i).takes (s.due (s.iron i).clearReq) false := by
    unfold s1
    cases s.due (s.iron i).clearReq with
    | false => rfl
    | true => exact State.iron_onIron _ _ _ hi
  have only : OnlyChanges [.irons] s s1 := .ite (State.onIron_only _ _ _) (.refl _ _)
  have hreq : (s1.iron i).releaseReq = (s.iron i).releaseReq := by rw [h1, IronRun.takes_releaseReq]
  rw [only.keeps_due (by decide), hreq]
  cases s.due (s.iron i).releaseReq with
  | false => exact h1
  | true => exact (State.iron_onIron _ _ _ hi).trans (congrArg (fun r : IronRun => { r.release with releaseReq := none }) h1)

theorem State.ironRequests_other {s : State} {i j : Nat} (hj : j ≠ i) : (s.ironRequests i).iron j = s.iron j := by
  unfold State.ironRequests
  extract_lets s1
  have h1 : s1.iron j = s.iron j := by
    unfold s1
    split
    · exact State.iron_onIron_ne _ _ _ _ hj
    · rfl
  split
  · exact (State.iron_onIron_ne _ _ _ _ hj).trans h1
  · exact h1

/-! ### The boundary -/

theorem State.boundaryTaken_only (s : State) (g : Nat) (hold : Bool) :
    OnlyChanges [.chans, .groups, .ports, .shelf, .lint, .draws] s (s.boundaryTaken g hold) :=
  ((State.moveToSpare_only s g).mono rfl).trans
    ((State.takeRequests_only _ g hold).trans ((State.retryTimer_only _ g).mono rfl))

theorem State.ironTaken_congr {ps : List Part} {s t : State} (h : OnlyChanges ps s t) (wi : Part.irons ∉ ps)
    (wc : Part.clock ∉ ps) (i : Nat) : t.ironTaken i = s.ironTaken i := by
  simp only [State.ironTaken, h.keeps_iron wi, h.keeps_due wc]

/-- Every iron of the group takes its commands. -/
theorem State.boundaryRefreshed_iron {s : State} {i : Nat} (hi : i < 16) :
    (s.boundaryRefreshed (s.ironGroup i)).iron i = s.ironTaken i := by
  let g := s.ironGroup i
  let u := if (s.dropTrims g).evaluated g then (s.dropTrims g).keepMeans g else s.dropTrims g
  have hu : OnlyChanges [.groups, .ports] s u := by
    have hd : OnlyChanges [.groups, .ports] s (s.dropTrims g) := (State.dropTrims_only s g).mono rfl
    exact .ite (hd.trans ((State.keepMeans_only _ g).mono rfl)) hd
  have hmem : i ∈ allIrons.filter (fun j => u.ironGroup j == g) := by
    simp [allIrons, hi, hu.keeps_ironGroup, g]
  have hnodup : ((allIrons.filter (fun j => u.ironGroup j == g)).map id).Nodup := by
    rw [List.map_id]
    exact List.nodup_range.filter _
  refine foldl_unit_of_mem (key := id) (read := State.iron) (f := ironRequests) (s := u) (· = s.ironTaken i)
    State.ironRequests_only (fun v j k h => State.ironRequests_other h) hnodup hmem fun v hv he => ?_
  have htaken : v.ironTaken i = u.ironTaken i := by
    have he : v.iron i = u.iron i := he
    simp only [State.ironTaken, he, hv.keeps_due (show Part.clock ∉ [Part.irons] by decide)]
  exact (State.ironRequests_self hi).trans (htaken.trans (State.ironTaken_congr hu (by decide) (by decide) i))

theorem State.boundaryReady_turns {x : SampleIn} {i : Nat} (hx : x.irons.taps = []) (hi : i < 16) (s : State) (g k : Nat) :
    ∃ a, OnlyChanges [.strings] s a ∧ IronTurns x.irons i a (s.boundaryReady g k x) := by
  unfold State.boundaryReady
  extract_lets before a
  refine ⟨a, ?_, .foldl (fun u j => State.ironBefore_turns hx hi) before a⟩
  unfold a
  split
  · exact State.onStr_only _ _ _
  · exact .refl _ _

theorem State.boundarySample_only (s : State) (g : Nat) (x : SampleIn) :
    OnlyChanges [.chans, .groups, .ports, .engine, .lint] s (s.boundarySample g x) := by
  unfold State.boundarySample
  refine .ite (.refl _ s) (.ite ?_ (State.sampleRun_only s g x))
  exact ((State.onGroup_only _ _ _).mono rfl).trans ((State.softStartTimeout_only _ _).mono rfl)

/-- What the errors that join a tap leave of an iron. -/
def IronRun.sansError (r : IronRun) : IronRun := { r with sum := 0, count := 0, sqSum := 0, sqCount := 0 }

theorem State.ironAfter_sansError (s : State) (i j : Nat) (x : IronFaults) :
    ((s.ironAfter i x).iron j).sansError = (s.iron j).sansError := by
  unfold State.ironAfter
  extract_lets b c e
  split
  · refine State.iron_onIron_same s i _ IronRun.sansError (fun r => ?_) j
    extract_lets q
    split <;> rfl
  · rfl

theorem State.boundaryClosed_sansError (s : State) (g i : Nat) (irons : List Nat) (x : SampleIn) :
    ((s.boundaryClosed g irons x).iron i).sansError = (s.iron i).sansError := by
  unfold State.boundaryClosed
  extract_lets a _ b
  rw [(State.writeLastFault_only b g).keeps_iron (by decide), (set_engine_only a _).keeps_iron (by decide)]
  unfold a
  split
  · rfl
  · exact foldl_same (fun u : State => (u.iron i).sansError) (fun u j => u.ironAfter_sansError j i x.irons) irons s

/-- What a boundary of its group has done to an iron that had taken its commands as `r`. -/
structure IronRun.Passes (r r' : IronRun) (now : Nat) (residues : List Nat) (function : Nat) : Prop where
  clearReq : r'.clearReq = r.clearReq
  releaseReq : r'.releaseReq = r.releaseReq
  empty : r.Empty → r'.mem = [] ∧ r'.snap = []
  thawed : residues = [] → function ≠ 2 → r.Thawed now → r'.phase ≠ .frozen

theorem State.sampleBoundary_passes {s : State} {i : Nat} {x : SampleIn} (hi : i < 16) (hx : x.irons.taps = [])
    (hgrid : s.onGrid (s.groupB (s.ironGroup i)).k = true) (hold : Bool) :
    (s.ironTaken i).Passes ((s.sampleBoundary (s.ironGroup i) hold x).iron i) s.clock.slots x.irons.residues
      (s.ironB i).function := by
  rw [State.sampleBoundary_stages hgrid]
  let g := s.ironGroup i
  let v := s.boundaryTaken g hold
  let u := v.boundaryRefreshed g
  have hv : OnlyChanges [.chans, .groups, .ports, .shelf, .lint, .draws] s v := State.boundaryTaken_only s g hold
  have hu : u.iron i = s.ironTaken i := by
    have hg : v.ironGroup i = g := hv.keeps_ironGroup (by decide) i
    have h := State.boundaryRefreshed_iron (s := v) hi
    rw [hg] at h
    exact h.trans (State.ironTaken_congr hv (by decide) (by decide) i)
  have hsu : OnlyChanges [.chans, .groups, .ports, .shelf, .lint, .draws, .irons] s u :=
    (hv.mono rfl).trans ((State.boundaryRefreshed_only v g).mono rfl)
  obtain ⟨a, ha, hturns⟩ := State.boundaryReady_turns hx hi u g (s.groupB g).k
  let w := u.boundaryReady g (s.groupB g).k x
  have hai : a.iron i = s.ironTaken i := (ha.keeps_iron (by decide) i).trans hu
  have hend : (((w.boundarySample g x).boundaryClosed g (u.boundaryIrons g) x).iron i).sansError = (w.iron i).sansError := by
    rw [State.boundaryClosed_sansError, (State.boundarySample_only w g x).keeps_iron (by decide)]
  obtain ⟨-, hclear, hrelease, hempty, hthaw⟩ := hturns
  rw [hai] at hclear hrelease hempty hthaw
  rw [ha.keeps_clock (by decide), hsu.keeps_clock (by decide), ha.keeps_ironB (by decide), hsu.keeps_ironB (by decide)] at hthaw
  refine ⟨(congrArg IronRun.clearReq hend).trans hclear, (congrArg IronRun.releaseReq hend).trans hrelease,
    fun he => ?_, fun hres hfn ht => ?_⟩
  · obtain ⟨hmem, hsnap, -⟩ := hempty he
    exact ⟨(congrArg IronRun.mem hend).trans hmem, (congrArg IronRun.snap hend).trans hsnap⟩
  · obtain ⟨hphase, -⟩ := hthaw hres hfn ht
    exact (congrArg IronRun.phase hend :).trans_ne hphase

end Sys2Proof.Machine
end

section
/-!
SUPPORT. Commands to an iron, from a host and from a block of the part, and candidates for its period (Table 04-1, R131, R133,
R369).
-/
namespace Sys2Proof.Machine
set_option Elab.async false

/-! ### Iron commands are raised -/

/-- The row of an iron's command object (Table 04-5). -/
def ironCommandRow : Row := .mk 2 1 1 .u8 .wo .stw .plain 1 2

theorem locate_ironCommand {i : Nat} (hi : i < 16) : locate (Family.iron.index i 2) = some (.iron, i, 2) := by
  interval_cases i <;> decide

theorem anyObject_ironCommand {i : Nat} (hi : i < 16) :
    anyObject? (Family.iron.index i 2) 1 = some ⟨.iron, i, 2, 1, ironCommandRow⟩ :=
  object_row (locate_ironCommand hi) (by decide) (by decide)

/-- An iron after command `v` arises: where it has a group the command waits for its boundary, else it is taken. -/
def State.ironTold (s : State) (i : Nat) (v : Int) : IronRun :=
  let r := s.iron i
  if s.ironGroup i < 32 then
    if v = 1 then { r with clearReq := some (r.clearReq.getD s.clock.slots) }
    else { r with releaseReq := some (r.releaseReq.getD s.clock.slots) }
  else if v = 1 then r.clear else r.release

/-- Command `v` of `o` has reached iron `i`. -/
structure IronAsked (s t : State) (o : Source) (i : Nat) (v : Int) : Prop where
  reported : Reported t o
  self : t.iron i = s.ironTold i v
  other : ∀ j, j ≠ i → t.iron j = s.iron j

/-- An iron turns no command away. -/
theorem State.askIron_told {s : State} {i : Nat} (hi : i < 16) (v : Int) :
    ∃ t, s.askIron i v = .ok t ∧ OnlyChanges [.irons] s t ∧ t.iron i = s.ironTold i v ∧ ∀ j, j ≠ i → t.iron j = s.iron j := by
  unfold State.askIron State.ironTold
  split
  · refine ⟨_, rfl, State.onIron_only _ _ _, ?_, fun j hj => State.iron_onIron_ne _ _ _ _ hj⟩
    exact State.iron_onIron _ _ _ hi
  · refine ⟨_, rfl, State.onIron_only _ _ _, ?_, fun j hj => State.iron_onIron_ne _ _ _ _ hj⟩
    exact State.iron_onIron _ _ _ hi

theorem ironAsked {s : State} {o : Source} {i : Nat} {v : Int} (hi : i < 16) (ra : Raised s o .iron i 2 v)
    (hv : v = 1 ∨ v = 2) : ∃ t, inService s (fun s => s.commandIron o i v) = .next t ∧ IronAsked s t o i v := by
  cases o with
  | block =>
    obtain ⟨t, ht, only, hself, hother⟩ := State.askIron_told (s := s.fresh) hi v
    have hcommand : s.fresh.commandIron .block i v = t := by
      show s.fresh.ifDone (s.fresh.askIron i v) = t
      rw [ht]
      rfl
    exact ⟨t, (inService_eq ra _).trans (congrArg _ hcommand), only.keeps_out (by decide), hself, hother⟩
  | host h e =>
    have ad : Admitted s h e (Family.iron.index i 2) 1 (ironCommandRow.ty.encode v) := by
      simpa only [Raised, AdmittedPut, putOctets, anyObject_ironCommand hi] using ra
    have hok : rowOk ⟨.iron, i, 2, 1, ironCommandRow⟩ v = true := by rcases hv with rfl | rfl <;> rfl
    obtain ⟨u, log, done⟩ := State.put_done ad (locate_ironCommand hi) (by decide) (by decide) rfl (by decide) (by decide)
      nofun rfl rfl (by decide) (by rcases hv with rfl | rfl <;> rfl) hok
    have hu : OnlyChanges [.sent, .seats, .score] s u := ((State.arrived_only s h).mono rfl).trans (log.mono rfl)
    have hui := hu.keeps_iron (show Part.irons ∉ [Part.sent, Part.seats, Part.score] by decide)
    obtain ⟨a, ha, only, hself, hother⟩ := State.askIron_told (s := u) hi v
    have hses : a.sessionOk h.seat h.session = true :=
      (State.sessionOk_of_only only (by decide) _ _).trans
        ((State.sessionOk_of_only log (by decide) _ _).trans (State.arrived_ok ad.taken))
    obtain ⟨t, ht, answer, hacc, -⟩ := done a ha hses
    have hti (j : Nat) : t.iron j = a.iron j := answer.keeps_iron (by decide) j
    refine ⟨t, congrArg _ ht, hacc, ?_, fun j hj => ?_⟩
    · rw [hti, hself, State.ironTold, State.ironTold, hui, hu.keeps_ironGroup (by decide), hu.keeps_clock (by decide)]
    · rw [hti, hother j hj, hui]

theorem State.ironTold_waits {s : State} {i : Nat} (h : s.ironGroup i < 32) (v : Int) :
    s.ironTold i v = if v = 1 then { s.iron i with clearReq := some ((s.iron i).clearReq.getD s.clock.slots) }
      else { s.iron i with releaseReq := some ((s.iron i).releaseReq.getD s.clock.slots) } := if_pos h

theorem State.ironTold_taken {s : State} {i : Nat} (h : ¬ s.ironGroup i < 32) (v : Int) :
    s.ironTold i v = if v = 1 then (s.iron i).clear else (s.iron i).release := if_neg h

/-! ### Candidates for the period (R131) -/

/-- The deviation of a candidate from `x`, as the model and as R131 write it. -/
theorem deviation_le_iff (x candidate : Nat) :
    200 * (if x ≤ candidate then candidate - x else x - candidate) ≤ x ↔
      200 * (max x candidate - min x candidate) ≤ x := by
  split <;> omega

/-- The estimate after a candidate that follows the candidates `a` and `b`. -/
theorem State.periodCandidate_second {s : State} {i candidate peak a b : Nat} (hi : i < 16) (hsrc : (s.ironB i).psrc = 1)
    (hmin : (s.ironB i).estMin ≤ candidate) (hmax : candidate ≤ (s.ironB i).estMax) (hc : (s.iron i).cands = [a, b]) :
    (s.periodCandidate i candidate peak).iron i = { s.iron i with
      cands := [candidate, a]
      estimate := if 800 ≤ peak ∧ 200 * (max a candidate - min a candidate) ≤ a ∧
        200 * (max b candidate - min b candidate) ≤ b then candidate else (s.iron i).estimate } := by
  unfold State.periodCandidate
  extract_lets bank near
  rw [if_neg (by simp [bank, hsrc, hmin, hmax]), State.iron_onIron _ _ _ hi]
  simp only [hc, near, deviation_le_iff, List.take, List.length, List.all, Bool.and_true, Bool.and_eq_true, decide_eq_true_eq,
    beq_self_eq_true]
  rfl

/-! ### The commands and the candidates -/

/-- Settles O26: commands by where the iron's target lies, boundaries by the command that is due, candidates by R131. -/
theorem ironCommandsComplete : Obligations.IronCommandsComplete := by
  unfold Obligations.IronCommandsComplete
  refine ⟨fun s o i hi => ⟨fun ra => ?_, fun ra => ?_⟩, fun s x i hi hg hb hx hgrid => ?_, ?_⟩
  · obtain ⟨t, ht, hrep, hself, hother⟩ := ironAsked hi ra (.inl rfl)
    refine ⟨t, ht, hrep, hother, ?_⟩
    split
    · exact hself.trans (State.ironTold_waits ‹_› 1)
    · exact hself.trans (State.ironTold_taken ‹_› 1)
  · obtain ⟨t, ht, hrep, hself, hother⟩ := ironAsked hi ra (.inr rfl)
    refine ⟨t, ht, hrep, hother, ?_⟩
    split
    · exact hself.trans (State.ironTold_waits ‹_› 2)
    · intro hfrozen
      rw [hself, State.ironTold_taken ‹_› 2, if_neg (by decide), IronRun.release_frozen hfrozen]
      exact ⟨rfl, rfl, rfl⟩
  · have hstep := inService_eq hb fun u => u.sampleBoundary (s.ironGroup i) (u.startHeld (s.ironGroup i)) x
    have hpass := State.sampleBoundary_passes (s := s.fresh) hi hx hgrid (s.fresh.startHeld (s.ironGroup i))
    refine ⟨fun hdue => ⟨_, hstep, ?_⟩, fun hdue hfrozen => ⟨_, hstep, ?_⟩⟩
    · obtain ⟨hclear, hempty⟩ := (s.iron i).takes_clear (s.due (s.iron i).releaseReq)
      have htaken : s.fresh.ironTaken i = (s.iron i).takes true (s.due (s.iron i).releaseReq) := by
        rw [← hdue]
        rfl
      rw [← htaken] at hclear hempty
      obtain ⟨hmem, hsnap⟩ := hpass.empty hempty
      exact ⟨hpass.clearReq.trans hclear, hmem, hsnap⟩
    · obtain ⟨hrelease, hempty, hthaw⟩ := IronRun.takes_release hfrozen (s.due (s.iron i).clearReq) s.clock.slots
      have htaken : s.fresh.ironTaken i = (s.iron i).takes (s.due (s.iron i).clearReq) true := by
        rw [← hdue]
        rfl
      rw [← htaken] at hrelease hempty hthaw
      exact ⟨hpass.releaseReq.trans hrelease, (hpass.empty hempty).1, fun hres hfn => hpass.thawed hres hfn hthaw⟩
  · intro s i candidate peak a b hi hb hf hsrc hmin hmax hc
    have hiron := State.periodCandidate_second (s := s.fresh) (peak := peak) hi hsrc hmin hmax hc
    refine ⟨_, byFirmware_eq hb hf _, ?_, ?_, ?_⟩
    · exact ((State.fresh_only s).mono rfl).trans ((State.periodCandidate_only _ _ _ _).mono rfl)
    · rw [hiron]
    · rw [hiron]
      rfl

end Sys2Proof.Machine
end

section
/-!
SUPPORT. The rows of a link's bring-up (Table 05-15): symbol lock, an Assign that is not answered, rounds without a matching
digest, and the new attempt after a loss (R177).
-/
namespace Sys2Proof.Machine
set_option Elab.async false

/-! ### A failed attempt -/

/-- A port as a failed attempt leaves it (R177). -/
def PortRun.failed (r : PortRun) (now : Nat) : PortRun :=
  { r with link := .down, failedAt := some now, assignDue := false, recs := [], aux := none, dpAt := none, readyAt := none
           reported := 0 }

theorem State.linkFail_port {s : State} {p : Nat} (hp : p < 48) (cause : Nat) :
    (s.linkFail p cause).port p = (s.port p).failed s.clock.slots := State.port_onPort s p _ hp

theorem State.linkFail_registers (s : State) (p cause : Nat) : Registers (s.linkFail p cause) (srcLink p) cause :=
  State.detect_registers _ _ _

/-! ### The rows -/

/-- Symbol lock of a Down port whose last attempt lies far enough back begins its training. -/
theorem State.lockSymbols_trains {s : State} {p : Nat} (hp : p < 48) (hrun : s.linksRun = true)
    (hl : (s.port p).link = .down) (hw : s.mayTrain (s.port p)) :
    (s.lockSymbols p).port p = { s.port p with symLock := true, silent := 0 }.entersTraining s.clock.slots false := by
  let locked : State := s.onPort p (fun r => { r with symLock := true, silent := 0 })
  have hlocked : locked.port p = { s.port p with symLock := true, silent := 0 } := State.port_onPort s p _ hp
  have hrow : s.lockSymbols p = locked.trainDown p := if_pos hrun
  rw [hrow, State.trainDown_trains (by rw [hlocked]; exact hl) (by rw [hlocked]) (by rw [hlocked]; exact hw),
    State.enterTraining_port hp, hlocked]
  rfl

section
variable {s : State} {p : Nat}

theorem State.assignTimeout_due (hl : (s.port p).link = .training) (hd : (s.port p).assignDue = false)
    (ht : 100 ≤ elapsedUs s (s.port p).since) :
    s.assignTimeout p =
      if (s.port p).assigns < 8 then s.onPort p (fun r => { r with assignDue := true }) else s.linkFail p 1 :=
  if_pos (by simp [hl, hd, ht])

theorem State.configuringFail_due (hl : (s.port p).link = .configuring) (hr : 3 ≤ (s.port p).rounds)
    (hq : (s.port p).recs = []) (ha : (s.port p).aux = none) (ho : s.roundOver p = true) :
    s.configuringFail p = s.linkFail p 1 :=
  if_pos (by simp [hl, hr, hq, ha, ho])

theorem State.lostRetrain_due (hl : (s.port p).link = .lost) (ht : 1000 ≤ elapsedUs s (s.port p).since) :
    s.lostRetrain p = s.enterTraining p false :=
  if_pos (by simp [hl, ht])

end

/-- Settles O34: each row is due under its condition, and a port that is due enters Training or goes back to Down. -/
theorem linksTrain : Obligations.LinksTrain := by
  unfold Obligations.LinksTrain
  intro s p hp hb
  have hserving : s.boot.phase ≠ .held := by simp [hb]
  have hrun : s.fresh.linksRun = true := by simp [State.linksRun, State.fresh, hb]
  refine ⟨fun hl hw => ?_, fun hl hd ht => ?_, fun hl hr hq ha ho => ?_, fun hl ht => ?_⟩
  · refine ⟨_, inService_eq hserving _, ?_⟩
    rw [State.lockSymbols_trains (s := s.fresh) hp hrun hl hw]
    exact ⟨rfl, rfl, rfl, rfl⟩
  · refine ⟨_, inService_eq hserving _, ?_⟩
    rw [State.assignTimeout_due (s := s.fresh) hl hd ht]
    by_cases h8 : (s.port p).assigns < 8
    · rw [if_pos h8]
      exact (congrArg (State.port · p) (if_pos h8)).trans (State.port_onPort s.fresh p _ hp)
    · rw [if_neg h8, if_neg (show ¬ (s.fresh.port p).assigns < 8 from h8), State.linkFail_port hp]
      exact ⟨rfl, rfl, State.linkFail_registers _ _ _⟩
  · refine ⟨_, (inService_eq hserving _).trans (congrArg _ (State.configuringFail_due (s := s.fresh) hl hr hq ha ho)), ?_⟩
    rw [State.linkFail_port hp]
    exact ⟨rfl, rfl, State.linkFail_registers _ _ _⟩
  · refine ⟨_, (inService_eq hserving _).trans (congrArg _ (State.lostRetrain_due (s := s.fresh) hl ht)), ?_⟩
    rw [State.enterTraining_port hp]
    exact ⟨rfl, rfl, rfl⟩

end Sys2Proof.Machine
end

section
/-!
SUPPORT. What an uplink frame does to its port and to no other: its flags, its readings and its item, by the state of the link
(R146, R153, R164 to R167, R171, R175, R177).
-/
namespace Sys2Proof.Machine
set_option Elab.async false

/-! ### Operations on one port that lose no cause -/

/-- From `s` to `t` only port `p` changes among the ports, what `f` reads of it stays, and so does every registered cause. -/
structure State.ActsAt {α : Type} (p : Nat) (f : PortRun → α) (s t : State) : Prop where
  other : ∀ j, j ≠ p → t.port j = s.port j
  own : f (t.port p) = f (s.port p)
  registers : ∀ src cause, Registers s src cause → Registers t src cause

namespace State.ActsAt

variable {α β : Type} {p : Nat} {f : PortRun → α} {s a b : State}

theorem refl (s : State) : ActsAt p f s s := ⟨fun _ _ => rfl, rfl, fun _ _ r => r⟩

theorem trans (h : ActsAt p f s a) (k : ActsAt p f a b) : ActsAt p f s b :=
  ⟨fun j hj => (k.other j hj).trans (h.other j hj), k.own.trans h.own, fun _ _ r => k.registers _ _ (h.registers _ _ r)⟩

theorem ite {c : Prop} [Decidable c] (h : ActsAt p f s a) (k : ActsAt p f s b) : ActsAt p f s (if c then a else b) := by
  split <;> assumption

/-- What depends on `f` alone stays with it. -/
theorem weaken (h : ActsAt p f s a) (g : α → β) : ActsAt p (fun r => g (f r)) s a :=
  ⟨h.other, congrArg g h.own, h.registers⟩

theorem of_only {ps : List Part} (h : OnlyChanges ps s a) (wp : Part.ports ∉ ps) (wl : Part.lint ∉ ps)
    (wc : Part.clock ∉ ps) : ActsAt p f s a :=
  ⟨fun j _ => h.keeps_port wp j, congrArg f (h.keeps_port wp p), fun _ _ r => Registers.of_only r h wl wc⟩

theorem onPort (s : State) (p : Nat) {g : PortRun → PortRun} (hg : ∀ r, f (g r) = f r) : ActsAt p f s (s.onPort p g) :=
  ⟨fun j hj => State.port_onPort_ne s p g j hj, State.port_onPort_same s p g f hg p,
    fun _ _ r => Registers.of_only r (State.onPort_only s p g) (by decide) (by decide)⟩

theorem detect (s : State) (src cause : Nat) : ActsAt p f s (s.detect src cause) :=
  ⟨fun _ _ => rfl, rfl, fun _ _ r => Registers.detect r src cause⟩

theorem detectIf (s : State) (b : Bool) (src cause : Nat) : ActsAt p f s (s.detectIf b src cause) :=
  .ite (.detect s src cause) (.refl s)

end State.ActsAt

section
variable (s : State) (p : Nat)

theorem State.linkFail_acts (cause : Nat) : ActsAt p PortRun.symLock s (s.linkFail p cause) := by
  refine .trans (.onPort s p ?_) (.detect _ _ cause)
  exact fun _ => rfl

theorem State.portLost_acts : ActsAt p PortRun.symLock s (s.portLost p) where
  other j hj := (State.portLost_port s p j).trans (State.port_onPort_ne s p _ j hj)
  own := by
    rw [State.portLost_port]
    exact State.port_onPort_same s p _ PortRun.symLock (fun _ => by rfl) p
  registers _ _ r := Registers.portLost r p

theorem State.afterLiveness_acts {α : Type} (f : PortRun → α) : ActsAt p f s (s.afterLiveness p) :=
  .of_only (State.afterLiveness_only s p) (by decide) (by decide) (by decide)

end

/-! ### Flags of STATUS (R171, R175) -/

/-- The group of the port should deliver, so that a flag of its companion is news. -/
def State.expectsOutput (s : State) (p : Nat) : Bool :=
  (s.portB p).group < 32 && (s.evaluated (s.portB p).group || (s.group (s.portB p).group).phase == .fallback)

/-- The port begins to report flag `k` while its group should deliver. -/
def State.flagRises (s : State) (p : Nat) (new : Byte) (k : Nat) : Bool :=
  bitAt new k && !bitAt (s.port p).flagged k && s.expectsOutput p

/-- A port that reports the STATUS `new`. -/
def PortRun.reports (r : PortRun) (new : Byte) (expects : Bool) : PortRun :=
  { r with flagged := if expects then new else 0, reported := new }

section
variable (s : State) (p : Nat) (new : Byte)

theorem State.statusFlags_stages :
    s.statusFlags p new = (((((s.onPort p (·.reports new (s.expectsOutput p))).detectIf (bitAt new 6) (srcLink p) 5).detectIf
      (s.flagRises p new 3) (srcCompanion p) 0).detectIf (s.flagRises p new 2) (srcCompanion p) 1).detectIf
      (s.flagRises p new 1) (srcCompanion p) 2).detectIf (s.flagRises p new 7) (srcFallback p) 0 := rfl

theorem State.statusFlags_acts :
    ActsAt p id (s.onPort p (·.reports new (s.expectsOutput p))) (s.statusFlags p new) := by
  rw [State.statusFlags_stages]
  exact ((((State.ActsAt.detectIf _ _ _ _).trans (.detectIf _ _ _ _)).trans (.detectIf _ _ _ _)).trans
    (.detectIf _ _ _ _)).trans (.detectIf _ _ _ _)

theorem State.statusFlags_port (hp : p < 48) :
    (s.statusFlags p new).port p = (s.port p).reports new (s.expectsOutput p) :=
  (State.statusFlags_acts s p new).own.trans (State.port_onPort s p _ hp)

theorem State.statusFlags_symLock : ActsAt p PortRun.symLock s (s.statusFlags p new) := by
  refine .trans (.onPort s p ?_) ((State.statusFlags_acts s p new).weaken PortRun.symLock)
  exact fun _ => rfl

theorem State.detectIf_registers {b : Bool} (h : b = true) (src cause : Nat) : Registers (s.detectIf b src cause) src cause := by
  rw [State.detectIf_true h]
  exact State.detect_registers s src cause

theorem Registers.detectIf {s : State} {src cause : Nat} (r : Registers s src cause) (b : Bool) (src' cause' : Nat) :
    Registers (s.detectIf b src' cause') src cause := by
  unfold State.detectIf
  split
  · exact Registers.detect r src' cause'
  · exact r

/-- Each flag that is news registers its cause: STALE always, the others as they rise (R175). -/
theorem State.statusFlags_registers :
    (bitAt new 6 = true → Registers (s.statusFlags p new) (srcLink p) 5) ∧
      (s.flagRises p new 3 = true → Registers (s.statusFlags p new) (srcCompanion p) 0) ∧
      (s.flagRises p new 2 = true → Registers (s.statusFlags p new) (srcCompanion p) 1) ∧
      (s.flagRises p new 1 = true → Registers (s.statusFlags p new) (srcCompanion p) 2) ∧
      (s.flagRises p new 7 = true → Registers (s.statusFlags p new) (srcFallback p) 0) := by
  rw [State.statusFlags_stages]
  refine ⟨fun h => ?_, fun h => ?_, fun h => ?_, fun h => ?_, fun h => State.detectIf_registers _ h _ _⟩
  · iterate 4 apply Registers.detectIf
    exact State.detectIf_registers _ h _ _
  · iterate 3 apply Registers.detectIf
    exact State.detectIf_registers _ h _ _
  · iterate 2 apply Registers.detectIf
    exact State.detectIf_registers _ h _ _
  · apply Registers.detectIf
    exact State.detectIf_registers _ h _ _

end

/-! ### Readings of a frame -/

/-- What a frame leaves of a port that its item does not report: symbol lock, link, identity, readings. -/
structure PortReception where
  symLock : Bool
  link : LinkPhase
  identity : Dword
  got : Bool
  vout : Int
  vin : Int
  status : Byte

def PortRun.reception (r : PortRun) : PortReception :=
  ⟨r.symLock, r.link, r.identity, r.got, r.up.vout, r.up.vin, r.up.status⟩

section
variable (s : State) (p : Nat) (x : UplinkIn)

theorem State.edgeReport_acts : ActsAt p PortRun.reception s (s.edgeReport p x) := by
  unfold State.edgeReport
  extract_lets g k m t e mag a
  have ha : ActsAt p PortRun.reception s a := .onPort s p fun _ => rfl
  exact .ite (ha.trans (.of_only (State.onGroup_only a g _) (by decide) (by decide) (by decide))) (.refl s)

/-- The frame carries no digest that the port still checks against another one (R162). -/
def State.itemMatches (s : State) (p : Nat) (x : UplinkIn) : Prop :=
  x.item ≠ 2 ∨ (s.port p).digests = none ∨ x.u16 20 = (s.port p).table.digest.toNat

/-- The item of a report leaves the link and the other readings, unless its digest differs and loses the port. -/
theorem State.itemReport_cases :
    ActsAt p PortRun.reception s (s.itemReport p x) ∨
      ¬ s.itemMatches p x ∧
        ∃ a, ActsAt p PortRun.reception s a ∧ s.itemReport p x = (a.detect (srcLink p) 4).portLost p := by
  unfold State.itemReport
  extract_lets v temp first warmed digested
  split
  · have hw : ActsAt p PortRun.reception s warmed := .onPort s p fun _ => rfl
    exact .inl (.ite (hw.trans (.of_only (State.onModel_only _ _ _) (by decide) (by decide) (by decide))) hw)
  · exact .inl (.onPort s p fun _ => rfl)
  next hitem =>
    have hd : ActsAt p PortRun.reception s digested := .onPort s p fun _ => rfl
    have hleft : (digested.port p).digests = (s.port p).digests :=
      State.port_onPort_same s p _ PortRun.digests (fun _ => by rfl) p
    have htable : (digested.port p).table = (s.port p).table :=
      State.port_onPort_same s p _ PortRun.table (fun _ => by rfl) p
    split
    next => exact .inl hd
    next n hn =>
      split_ifs with hv
      · exact .inl (hd.trans (.onPort digested p fun _ => rfl))
      · exact .inl (hd.trans (.onPort digested p fun _ => rfl))
      · refine .inr ⟨fun hm => ?_, digested, hd, rfl⟩
        rw [htable, beq_iff_eq] at hv
        rcases hm with h | h | h
        · exact h hitem
        · exact nomatch (hleft.symm.trans hn).symm.trans h
        · exact hv h
      · exact .inl hd
  · exact .inl (.onPort s p fun _ => rfl)

theorem State.itemReport_reception (h : s.itemMatches p x) : ActsAt p PortRun.reception s (s.itemReport p x) :=
  (State.itemReport_cases s p x).resolve_right fun hc => hc.1 h

theorem State.itemReport_acts : ActsAt p PortRun.symLock s (s.itemReport p x) := by
  rcases State.itemReport_cases s p x with h | ⟨-, a, ha, heq⟩
  · exact h.weaken PortReception.symLock
  · rw [heq]
    exact ((ha.weaken PortReception.symLock).trans (.detect _ _ _)).trans (State.portLost_acts _ p)

/-- A port that takes the readings of a frame (R165). -/
def PortRun.accepts (r : PortRun) (x : UplinkIn) : PortRun :=
  { r with
    got := true
    up := { r.up with
      i := if x.kind == 5 then r.up.i else Vector.ofFn (fun k : Fin 4 => 10 * signed 16 (x.u16 (4 + 2 * k.val)))
      vout := 2 * x.u16 12, vin := 10 * x.u16 14, status := x.status } }

theorem State.acceptFrame_stages :
    s.acceptFrame p x =
      let a := s.onPort p (·.accepts x)
      (if x.kind == 4 then a.itemReport p x else a).edgeReport p x := rfl

theorem State.acceptFrame_acts : ActsAt p PortRun.symLock s (s.acceptFrame p x) := by
  rw [State.acceptFrame_stages]
  extract_lets a
  have ha : ActsAt p PortRun.symLock s a := .onPort s p fun _ => rfl
  exact .trans (.ite (ha.trans (State.itemReport_acts a p x)) ha)
    ((State.edgeReport_acts _ p x).weaken PortReception.symLock)

variable {s p x}

/-- An accepted frame gives its readings, and its item and its edge report leave them. -/
theorem State.acceptFrame_reception (hp : p < 48) (h : x.kind = 4 → s.itemMatches p x) :
    ((s.acceptFrame p x).port p).reception = ((s.port p).accepts x).reception := by
  rw [State.acceptFrame_stages]
  extract_lets a
  have hport : a.port p = (s.port p).accepts x := State.port_onPort s p _ hp
  have hm (hk : x.kind = 4) : a.itemMatches p x := by
    rw [State.itemMatches, hport]
    exact h hk
  rw [(State.edgeReport_acts _ p x).own, ← hport]
  split
  next hk => exact (State.itemReport_reception a p x (hm (eq_of_beq hk))).own
  next => rfl

end

/-! ### Frames by the state of the link (Table 05-15, R177) -/

section
variable (s : State) (p : Nat) (x : UplinkIn)

theorem State.helloTraining_late (h : 10 < roundDiv (x.arrival - 50000) 2500) : s.helloTraining p x = s.linkFail p 2 :=
  if_pos h

theorem State.helloTraining_taken (hp : p < 48) (h : roundDiv (x.arrival - 50000) 2500 ≤ 10) :
    let r := (s.helloTraining p x).port p
    r.link = .configuring ∧ r.hello = x.identity ∧ r.dp = (roundDiv (x.arrival - 50000) 2500).toNat := by
  unfold State.helloTraining
  extract_lets d a table r
  have hr : r = _ := congrArg (State.port · p) (if_neg (Int.not_lt.mpr h))
  have ha : a.port p = _ := State.port_onPort s p _ hp
  rw [hr, State.port_onPort a p _ hp, ha]
  exact ⟨rfl, rfl, rfl⟩

theorem State.helloTraining_acts : ActsAt p PortRun.symLock s (s.helloTraining p x) := by
  unfold State.helloTraining
  extract_lets d a table
  have ha : ActsAt p PortRun.symLock s a := .onPort s p fun _ => rfl
  exact .ite (State.linkFail_acts s p 2) (ha.trans (.onPort a p fun _ => rfl))

theorem State.frameConfiguring_acts : ActsAt p PortRun.symLock s (s.frameConfiguring p x) := by
  unfold State.frameConfiguring
  extract_lets r b sent off a
  have ha : ActsAt p PortRun.symLock s a := .onPort s p fun _ => rfl
  exact .ite (State.linkFail_acts s p 1) (.ite (State.linkFail_acts s p 3)
    (.ite ((ha.trans (State.acceptFrame_acts a p x)).trans (State.afterLiveness_acts _ p _)) (.refl s)))

/-- The companion of the port lacks its MODE or its phase count, by the last hello frame (R177, R179). -/
def State.lacksCaps (s : State) (p : Nat) : Bool :=
  State.capsLack ((s.port p).hello.setWidth 8) (s.groupB (s.portB p).group).mode (s.portB p).phases ((s.portB p).group < 32)

theorem State.frameConfiguring_trains (hp : p < 48) (hk : x.kind = 4) (hi : x.item = 2)
    (hd : x.u16 20 = (s.port p).table.digest.toNat) (hc : s.lacksCaps p = false) :
    ((s.frameConfiguring p x).port p).link = .trained ∧ ((s.frameConfiguring p x).port p).identity = (s.port p).hello := by
  have hc : ¬ State.capsLack ((s.port p).hello.setWidth 8) (s.groupB (s.portB p).group).mode (s.portB p).phases
      ((s.portB p).group < 32) = true := by simpa [State.lacksCaps] using hc
  unfold State.frameConfiguring
  extract_lets r b sent off a
  rw [if_neg (by simp [hk]), if_neg hc, if_pos (by simp [hk, hi, hd, r])]
  have ha : a.port p = _ := State.port_onPort s p _ hp
  have hm : a.itemMatches p x := .inr (.inr (by rw [ha]; exact hd))
  have h := State.acceptFrame_reception hp fun _ => hm
  rw [(State.afterLiveness_only _ p).keeps_port (by decide)]
  exact ⟨(congrArg PortReception.link h).trans (by rw [ha]; rfl), (congrArg PortReception.identity h).trans (by rw [ha]; rfl)⟩

/-- What a good frame gives after its flags, by the state of the link. -/
def State.readFrame (link : LinkPhase) : State :=
  match link with
  | .training => if x.kind == 5 then s.helloTraining p x else s
  | .configuring => s.frameConfiguring p x
  | .trained => s.acceptFrame p x
  | .lost | .down => s

theorem State.readFrame_acts (link : LinkPhase) : ActsAt p PortRun.symLock s (s.readFrame p x link) := by
  cases link with
  | training => exact .ite (State.helloTraining_acts s p x) (.refl s)
  | configuring => exact State.frameConfiguring_acts s p x
  | trained => exact State.acceptFrame_acts s p x
  | lost => exact .refl s
  | down => exact .refl s

end

/-! ### The frame -/

/-- A port at which a frame has arrived (R146). -/
def PortRun.hears (r : PortRun) (x : UplinkIn) : PortRun := { r with seen := true, symLock := r.symLock && decide (x.errors < 8) }

/-- A port at which a bad frame has arrived; `known` says that its group is in fallback and the frame is its companion's. -/
def PortRun.spoils (r : PortRun) (known : Bool) : PortRun := { r with bad := r.bad + 1, spoilt := true, got := r.got || known }

/-- A FALLBACK frame of a port whose group is in fallback (R171, R178). -/
def State.knownFallback (s : State) (p : Nat) (x : UplinkIn) : Bool :=
  !x.broken && bitAt x.status 7 && decide ((s.portB p).group < 32) && (s.group (s.portB p).group).phase == .fallback

/-- A frame of a trained port that comes within its window, or carries FALLBACK (R153). -/
def State.inTime (s : State) (p : Nat) (x : UplinkIn) : Prop :=
  (s.port p).link = .trained → (s.inWindow p x || bitAt x.status 7) = true

/-- The state in which a frame that has arrived is read. -/
def State.heard (s : State) (p : Nat) (x : UplinkIn) : State := s.onPort p (·.hears x)

section
variable {s : State} {p : Nat} {x : UplinkIn}

theorem State.heard_port (hp : p < 48) : (s.heard p x).port p = (s.port p).hears x := State.port_onPort s p _ hp

theorem State.heard_uplinkBad : (s.heard p x).uplinkBad p x = s.uplinkBad p x := by
  have hepoch : ((s.heard p x).port p).epoch = (s.port p).epoch := State.port_onPort_same s p _ PortRun.epoch (fun _ => by rfl) p
  rw [State.uplinkBad, hepoch]
  rfl

theorem State.heard_inWindow : (s.heard p x).inWindow p x = s.inWindow p x := by
  have hdp : ((s.heard p x).port p).dp = (s.port p).dp := State.port_onPort_same s p _ PortRun.dp (fun _ => by rfl) p
  rw [State.inWindow, hdp]
  rfl

theorem State.uplinkFrame_bad (h : s.uplinkBad p x = true) :
    s.uplinkFrame p x = (s.heard p x).onPort p (·.spoils (s.knownFallback p x)) :=
  if_pos (State.heard_uplinkBad.trans h)

/-- The state in which a good frame has been heard and its flags are reported. -/
def State.reported (s : State) (p : Nat) (x : UplinkIn) : State := (s.heard p x).statusFlags p x.status

theorem State.reported_port (hp : p < 48) :
    (s.reported p x).port p = ((s.port p).hears x).reports x.status (s.expectsOutput p) := by
  rw [State.reported, State.statusFlags_port _ p _ hp, State.heard_port hp]
  rfl

theorem State.reported_stale (hf : bitAt x.status 6 = true) : Registers (s.reported p x) (srcLink p) 5 :=
  (State.statusFlags_registers _ p _).1 hf

theorem State.heard_flagRises {k : Nat} (hg : (s.portB p).group < 32)
    (he : s.evaluated (s.portB p).group = true ∨ (s.group (s.portB p).group).phase = .fallback)
    (hn : bitAt x.status k = true) (ho : bitAt (s.port p).flagged k = false) : (s.heard p x).flagRises p x.status k = true := by
  have hflagged : ((s.heard p x).port p).flagged = (s.port p).flagged :=
    State.port_onPort_same s p _ PortRun.flagged (fun _ => by rfl) p
  have hexpects : (s.heard p x).expectsOutput p = true := by
    show s.expectsOutput p = true
    simpa [State.expectsOutput, hg] using he
  simp [State.flagRises, hn, ho, hflagged, hexpects]

section
variable (hp : p < 48) (h : s.uplinkBad p x = false)
include hp h

theorem State.uplinkFrame_outside (hl : (s.port p).link = .trained) (hw : (s.inWindow p x || bitAt x.status 7) = false) :
    s.uplinkFrame p x = s.heard p x := by
  unfold State.uplinkFrame
  extract_lets a g known flags
  have hbad : ¬ a.uplinkBad p x = true := ne_true_of_eq_false (State.heard_uplinkBad.trans h)
  have hlink : (a.port p).link = .trained := (congrArg PortRun.link (State.heard_port hp)).trans hl
  have hout : ¬ (a.inWindow p x || bitAt x.status 7) = true :=
    ne_true_of_eq_false ((congrArg (· || bitAt x.status 7) State.heard_inWindow).trans hw)
  rw [if_neg hbad, hlink]
  exact if_neg hout

theorem State.uplinkFrame_read (hw : s.inTime p x) : s.uplinkFrame p x = (s.reported p x).readFrame p x (s.port p).link := by
  unfold State.uplinkFrame
  extract_lets a g known flags
  have hbad : ¬ a.uplinkBad p x = true := ne_true_of_eq_false (State.heard_uplinkBad.trans h)
  have hlink : (a.port p).link = (s.port p).link := (congrArg PortRun.link (State.heard_port hp)).trans rfl
  rw [if_neg hbad, hlink]
  cases hl : (s.port p).link with
  | trained => exact if_pos ((congrArg (· || bitAt x.status 7) State.heard_inWindow).trans (hw hl))
  | down => rfl
  | training => rfl
  | configuring => rfl
  | lost => rfl

theorem State.uplinkFrame_registers (hw : s.inTime p x) {src cause : Nat} (r : Registers (s.reported p x) src cause) :
    Registers (s.uplinkFrame p x) src cause := by
  rw [State.uplinkFrame_read hp h hw]
  exact (State.readFrame_acts _ p x _).registers _ _ r

end

theorem State.uplinkFrame_acts (hp : p < 48) : ActsAt p PortRun.symLock (s.heard p x) (s.uplinkFrame p x) := by
  cases h : s.uplinkBad p x with
  | true =>
    rw [State.uplinkFrame_bad h]
    exact .onPort _ p fun _ => rfl
  | false =>
    by_cases hw : s.inTime p x
    · rw [State.uplinkFrame_read hp h hw]
      exact .trans (State.statusFlags_symLock _ p _) (State.readFrame_acts _ p x _)
    · obtain ⟨hl, hout⟩ := Classical.not_imp.mp hw
      rw [State.uplinkFrame_outside hp h hl (Bool.eq_false_of_not_eq_true hout)]
      exact .refl _

end

/-! ### Good frames by the state of the link -/

section
variable {s : State} {p : Nat} {x : UplinkIn} (hp : p < 48) (h : s.uplinkBad p x = false)
include hp h

theorem State.uplinkFrame_training (hl : (s.port p).link = .training) (hk : x.kind = 5) :
    s.uplinkFrame p x = (s.reported p x).helloTraining p x := by
  rw [State.uplinkFrame_read hp h fun hl' => (nomatch hl.symm.trans hl'), hl]
  exact if_pos (by simp [hk])

theorem State.uplinkFrame_configuring (hl : (s.port p).link = .configuring) (hk : x.kind = 4) (hi : x.item = 2)
    (hd : x.u16 20 = (s.port p).table.digest.toNat) (hc : s.lacksCaps p = false) :
    ((s.uplinkFrame p x).port p).link = .trained ∧ ((s.uplinkFrame p x).port p).identity = (s.port p).hello := by
  have hport := State.reported_port (s := s) (x := x) hp
  have hcaps : (s.reported p x).lacksCaps p = s.lacksCaps p := by
    have only : OnlyChanges [.ports, .lint] s (s.reported p x) :=
      (State.statusFlags_only _ p _).step rfl ((State.onPort_only s p _).mono rfl)
    rw [State.lacksCaps, hport, only.keeps_portB (by decide), only.keeps_groupB (by decide)]
    rfl
  rw [State.uplinkFrame_read hp h fun hl' => (nomatch hl.symm.trans hl'), hl]
  have ht := State.frameConfiguring_trains (s.reported p x) p x hp hk hi (by rw [hport]; exact hd) (hcaps.trans hc)
  rw [hport] at ht
  exact ht

theorem State.uplinkFrame_trained (hl : (s.port p).link = .trained) (hw : (s.inWindow p x || bitAt x.status 7) = true)
    (hi : x.kind = 5 ∨ x.item ≠ 2 ∨ (s.port p).digests = none) :
    ((s.uplinkFrame p x).port p).reception =
      ⟨((s.port p).hears x).symLock, .trained, (s.port p).identity, true, 2 * x.u16 12, 10 * x.u16 14, x.status⟩ := by
  have hport := State.reported_port (s := s) (x := x) hp
  have hm (hk : x.kind = 4) : (s.reported p x).itemMatches p x := by
    rw [State.itemMatches, hport]
    rcases hi with h5 | h2 | hn
    · omega
    · exact .inl h2
    · exact .inr (.inl hn)
  rw [State.uplinkFrame_read hp h fun _ => hw, hl]
  refine (State.acceptFrame_reception hp hm).trans ?_
  rw [hport, ← hl]
  rfl

theorem State.uplinkFrame_untrained (hl : (s.port p).link = .lost ∨ (s.port p).link = .down) :
    s.uplinkFrame p x = s.reported p x := by
  rw [State.uplinkFrame_read hp h fun ht => by simp [ht] at hl]
  rcases hl with hl | hl
  · rw [hl]
    rfl
  · rw [hl]
    rfl

end

/-- Settles O35: a frame is heard, then counted as bad, left for its time of arrival, or reported and read by the state of
the link. -/
theorem uplinkFramesAreRead : Obligations.UplinkFramesAreRead := by
  unfold Obligations.UplinkFramesAreRead
  intro s p x hp hb
  have hacts := State.uplinkFrame_acts (s := s.fresh) (x := x) hp
  have hport : (s.fresh.heard p x).port p = (s.port p).hears x := State.heard_port hp
  refine ⟨_, inService_eq hb _, fun j hj => (hacts.other j hj).trans (State.port_onPort_ne _ p _ j hj),
    hacts.own.trans (congrArg PortRun.symLock hport), fun h => ?_, fun hk hf he => by simp [State.uplinkBad, hk, hf, he],
    fun h => ?_⟩
  · rw [State.uplinkFrame_bad (s := s.fresh) h, State.port_onPort _ p _ hp, hport]
    rfl
  replace h : s.fresh.uplinkBad p x = false := h
  refine ⟨fun hl hk => ?_, fun hl hk hi hd hc => State.uplinkFrame_configuring hp h hl hk hi hd hc, fun hl hw hi => ?_,
    fun hl hw => ?_, fun hl => ?_, fun hw hf => State.uplinkFrame_registers hp h hw (State.reported_stale hf),
    fun hw hg he => ?_⟩
  · rw [State.uplinkFrame_training hp h hl hk]
    refine ⟨fun hlate => ?_, fun hd => State.helloTraining_taken _ p x hp hd⟩
    rw [State.helloTraining_late _ p x hlate, State.linkFail_port hp]
    exact ⟨rfl, State.linkFail_registers _ p 2⟩
  · have hr := State.uplinkFrame_trained hp h hl hw hi
    exact ⟨congrArg PortReception.got hr, congrArg PortReception.vout hr, congrArg PortReception.vin hr,
      congrArg PortReception.status hr, congrArg PortReception.link hr⟩
  · rw [State.uplinkFrame_outside hp h hl hw]
    exact ⟨hport, (State.onPort_only _ p _).step rfl ((State.fresh_only s).mono rfl)⟩
  · rw [State.uplinkFrame_untrained hp h hl, State.reported_port hp]
    exact ⟨rfl, rfl, rfl⟩
  · have rises {k : Nat} := State.heard_flagRises (s := s.fresh) (x := x) (k := k) hg he
    obtain ⟨-, h3, h2, h1, h7⟩ := State.statusFlags_registers (s.fresh.heard p x) p x.status
    exact ⟨fun hn ho => State.uplinkFrame_registers hp h hw (h3 (rises hn ho)),
      fun hn ho => State.uplinkFrame_registers hp h hw (h2 (rises hn ho)),
      fun hn ho => State.uplinkFrame_registers hp h hw (h1 (rises hn ho)),
      fun hn ho => State.uplinkFrame_registers hp h hw (h7 (rises hn ho))⟩

end Sys2Proof.Machine
end

section
/-!
SUPPORT. What the operations on feeds leave of each feed: FDn_THR follows its reasons, and a run over feeds reaches each once
(R205, R206, R213).
-/
namespace Sys2Proof.Machine
set_option Elab.async false

/-! ### Feeds and their banks in a state that agrees -/

section
variable {ps : List Part} {s t : State} (h : OnlyChanges ps s t)
include h

theorem OnlyChanges.keeps_feed (w : Part.feeds ∉ ps) (z : Nat) : t.feed z = s.feed z := by
  simp only [State.feed, h.keeps_feeds w]

theorem OnlyChanges.keeps_feedB (w : Part.active ∉ ps) (z : Nat) : t.feedB z = s.feedB z := by
  simp only [State.feedB, h.keeps_active w]

theorem OnlyChanges.keeps_feedHeld (wa : Part.active ∉ ps) (wm : Part.models ∉ ps) (z : Nat) : t.feedHeld z = s.feedHeld z := by
  have hm (m : Nat) : t.modelFeeds m = s.modelFeeds m := by simp only [State.modelFeeds, h.keeps_feedB wa]
  simp only [State.feedHeld, State.model, h.keeps_models wm, hm]

end

theorem mem_allFeeds {z : Nat} : z ∈ allFeeds ↔ z < 16 := List.mem_range

theorem allFeeds_nodup : (allFeeds.map id).Nodup := by
  rw [List.map_id]
  exact List.nodup_range

/-- A run over some of the feeds reaches each once. -/
theorem feeds_nodup (p : Nat → Bool) : ((allFeeds.filter p).map id).Nodup := by
  rw [List.map_id]
  exact List.nodup_range.filter p

/-- In every feed two states agree in `p`. -/
abbrev State.FeedsKeep {α : Type} (p : FeedRun → α) : State → State → Prop := State.UnitsKeep State.feed p

theorem State.UnitsKeep.onFeed {α : Type} {p : FeedRun → α} (s : State) (z : Nat) {f : FeedRun → FeedRun}
    (hf : ∀ r, p (f r) = p r) : FeedsKeep p s (s.onFeed z f) := vget_vmod_same _ _ _ _ p hf

/-! ### FDn_THR (R213) -/

/-- FDn_THR with its reasons: asserted by the first, and released when there is none and its time has passed. -/
def ThrRun.follows (r : ThrRun) (above : Bool) (reasons : Byte) (now : Nat) (passed : Bool) : ThrRun :=
  let t := { r with overGrant := above, reasons := reasons }
  if reasons != 0 then (if t.active then t else { t with active := true, since := now })
  else if t.active && passed then { t with active := false } else t

theorem ThrRun.follows_asserted (r : ThrRun) {reasons : Byte} (h : reasons ≠ 0) (above : Bool) (now : Nat) (passed : Bool) :
    (r.follows above reasons now passed).active = true ∧ (r.follows above reasons now passed).warned = r.warned := by
  rw [ThrRun.follows, if_pos (bne_iff_ne.mpr h)]
  split
  · exact ⟨‹_›, rfl⟩
  · exact ⟨rfl, rfl⟩

theorem ThrRun.follows_none (r : ThrRun) (above : Bool) (now : Nat) (passed : Bool) :
    (r.follows above 0 now passed).reasons = 0 ∧ (r.follows above 0 now passed).active = (r.active && !passed) := by
  rw [ThrRun.follows, if_neg (by decide)]
  obtain ⟨-, -, -, active, -, -⟩ := r
  cases active <;> cases passed <;> exact ⟨rfl, rfl⟩

/-- The over-grant reason of a feed as its power stands now. -/
def State.overSeen (s : State) (z : Nat) : State :=
  s.onFeed z (fun r => { r with thr := { r.thr with overGrant := s.overGrant z } })

theorem State.overSeen_feed {s : State} {z : Nat} (hz : z < 16) :
    (s.overSeen z).feed z = { s.feed z with thr := { (s.feed z).thr with overGrant := s.overGrant z } } :=
  State.feed_onFeed _ _ _ hz

theorem State.thrUpdate_feed {s : State} {z : Nat} (hz : z < 16) :
    (s.thrUpdate z).feed z = { s.feed z with
      thr := (s.feed z).thr.follows (s.overGrant z) ((s.overSeen z).thrReasons z) s.clock.slots
        (decide (10000 ≤ elapsedUs s (s.feed z).thr.since)) } := by
  unfold State.thrUpdate
  rw [State.feed_onFeed _ _ _ hz, State.feed_onFeed _ _ _ hz]
  rfl

theorem State.thrUpdate_other (s : State) (z j : Nat) (h : j ≠ z) : (s.thrUpdate z).feed j = s.feed j := by
  unfold State.thrUpdate
  extract_lets a rs
  exact (State.feed_onFeed_ne _ _ _ _ h).trans (State.feed_onFeed_ne _ _ _ _ h)

/-- A feed apart from FDn_THR, of which the shed warning counts. -/
def FeedRun.warning (r : FeedRun) : FeedRun := { r with thr := { warned := r.thr.warned } }

theorem State.thrUpdate_warning (s : State) (z : Nat) : FeedsKeep FeedRun.warning s (s.thrUpdate z) := by
  unfold State.thrUpdate
  extract_lets a rs
  refine UnitsKeep.trans (b := a) (.onFeed s z fun _ => rfl) (.onFeed a z fun r => ?_)
  dsimp only
  split_ifs <;> rfl

/-- A shed warning is a reason (R213). -/
theorem State.thrReasons_warned {s : State} {z : Nat} (h : (s.feed z).thr.warned = true) : s.thrReasons z ≠ 0 := by
  intro h0
  have hbit : (s.thrReasons z).getLsbD 1 = true := by simp [State.thrReasons, h]
  rw [h0] at hbit
  cases hbit

theorem State.thrReasons_none {s : State} {z : Nat} (ho : (s.feed z).thr.overGrant = false) (hw : (s.feed z).thr.warned = false)
    (hr : (s.feed z).phase ≠ .retryWait) (hl : (s.feed z).phase ≠ .latched) (hm : s.feedThrottled z = false)
    (hf : (s.feedB z).zone.thrForce = false) : s.thrReasons z = 0 := by
  simp [State.thrReasons, ho, hw, hr, hl, hm, hf]

end Sys2Proof.Machine
end

section
/-!
SUPPORT. The shed sequencer: what its warning, its shed step and its start do to the feeds of a rank, and the rows of Table 06-3
(R203 to R206, R256, R479).
-/
namespace Sys2Proof.Machine
set_option Elab.async false

/-! ### The feeds of a rank are warned -/

/-- One feed warned of its shed step (R205). -/
def State.warnFeed (s : State) (z : Nat) : State :=
  (s.onFeed z (fun f => { f with thr := { f.thr with warned := true } })).thrUpdate z

/-- The warning of one feed released. -/
def State.releaseFeed (s : State) (z : Nat) : State :=
  (s.onFeed z (fun f => { f with thr := { f.thr with warned := false } })).thrUpdate z

theorem State.warnRank_steps (s : State) (r : Nat) :
    s.warnRank r =
      (allFeeds.filter (fun z => s.shedRank z == r && s.shedOn z && !(s.feed z).shed)).foldl State.warnFeed s := rfl

theorem State.releaseWarning_steps (s : State) :
    s.releaseWarning = (allFeeds.filter (fun z => (s.feed z).thr.warned)).foldl State.releaseFeed s := rfl

theorem State.warnFeed_only (s : State) (z : Nat) : OnlyChanges [.feeds] s (s.warnFeed z) :=
  (State.onFeed_only s z _).trans (State.thrUpdate_only _ z)

theorem State.releaseFeed_only (s : State) (z : Nat) : OnlyChanges [.feeds] s (s.releaseFeed z) :=
  (State.onFeed_only s z _).trans (State.thrUpdate_only _ z)

theorem State.warnFeed_other (s : State) (z j : Nat) (h : j ≠ z) : (s.warnFeed z).feed j = s.feed j :=
  (State.thrUpdate_other _ z j h).trans (State.feed_onFeed_ne s z _ j h)

theorem State.releaseFeed_other (s : State) (z j : Nat) (h : j ≠ z) : (s.releaseFeed z).feed j = s.feed j :=
  (State.thrUpdate_other _ z j h).trans (State.feed_onFeed_ne s z _ j h)

theorem State.warnFeed_self (s : State) {z : Nat} (hz : z < 16) :
    ((s.warnFeed z).feed z).thr.warned = true ∧ ((s.warnFeed z).feed z).thr.active = true := by
  let a := s.onFeed z (fun f => { f with thr := { f.thr with warned := true } })
  have ha : (a.feed z).thr.warned = true := by rw [State.feed_onFeed s z _ hz]
  have hseen : ((a.overSeen z).feed z).thr.warned = true := by rw [State.overSeen_feed hz]; exact ha
  obtain ⟨hactive, hwarned⟩ := (a.feed z).thr.follows_asserted (State.thrReasons_warned hseen) (a.overGrant z) a.clock.slots
    (decide (10000 ≤ elapsedUs a (a.feed z).thr.since))
  rw [State.warnFeed, State.thrUpdate_feed hz]
  exact ⟨hwarned.trans ha, hactive⟩

/-- A feed but for FDn_THR. -/
def FeedRun.sansThr (r : FeedRun) : FeedRun := { r with thr := {} }

theorem State.releaseFeed_sansThr (s : State) (z : Nat) : FeedsKeep FeedRun.sansThr s (s.releaseFeed z) :=
  let a := s.onFeed z (fun f => { f with thr := { f.thr with warned := false } })
  UnitsKeep.trans (b := a) (.onFeed s z fun _ => rfl) ((State.thrUpdate_warning a z).weaken FeedRun.sansThr)

theorem State.releaseFeed_self (s : State) {z : Nat} (hz : z < 16) : ((s.releaseFeed z).feed z).thr.warned = false := by
  have hkeep := congrArg (fun r : FeedRun => r.thr.warned) (State.thrUpdate_warning
    (s.onFeed z (fun f => { f with thr := { f.thr with warned := false } })) z z)
  rw [State.feed_onFeed s z _ hz] at hkeep
  exact hkeep

/-- The shed warning asserts FDn_THR of each feed of the rank that is on and not shed (R205). -/
theorem State.warnRank_warns {s : State} {r z : Nat} (hz : z < 16) (hr : s.shedRank z = r) (hon : s.shedOn z = true)
    (hs : (s.feed z).shed = false) :
    ((s.warnRank r).feed z).thr.warned = true ∧ ((s.warnRank r).feed z).thr.active = true := by
  have hmem : z ∈ allFeeds.filter (fun z => s.shedRank z == r && s.shedOn z && !(s.feed z).shed) := by
    simp [mem_allFeeds, hz, hr, hon, hs]
  rw [State.warnRank_steps]
  exact foldl_unit_of_mem (key := id) (read := State.feed) (fun f => f.thr.warned = true ∧ f.thr.active = true)
    State.warnFeed_only State.warnFeed_other (feeds_nodup _) hmem fun u _ _ => u.warnFeed_self hz

theorem State.releaseWarning_releases (s : State) {z : Nat} (hz : z < 16) : (s.releaseWarning.feed z).thr.warned = false := by
  rw [State.releaseWarning_steps]
  cases hw : (s.feed z).thr.warned with
  | true =>
    have hmem : z ∈ allFeeds.filter (fun z => (s.feed z).thr.warned) := by simp [mem_allFeeds, hz, hw]
    exact foldl_unit_of_mem (key := id) (read := State.feed) (fun f => f.thr.warned = false) State.releaseFeed_only
      State.releaseFeed_other (feeds_nodup _) hmem fun u _ _ => u.releaseFeed_self hz
  | false =>
    have hmem : z ∉ (allFeeds.filter (fun z => (s.feed z).thr.warned)).map id := by simp [hw]
    rw [foldl_unit_of_not_mem (key := id) (read := State.feed) State.releaseFeed_other hmem]
    exact hw

theorem State.releaseWarning_sansThr (s : State) : FeedsKeep FeedRun.sansThr s s.releaseWarning :=
  .foldl State.releaseFeed_sansThr _ s

/-! ### The shed step and the start of a rank -/

/-- The shed step asked of every feed of the warned rank that is on (R205). -/
def State.shedAsked (s : State) : State :=
  (allFeeds.filter (fun z => s.shedRank z == s.shelf.shed.rank && s.shedOn z)).foldl State.askShed s

theorem State.shedStep_follows (s : State) : OnlyChanges [.score] s.shedAsked.releaseWarning s.shedStep :=
  State.blockEvent_only _ _ _ _ _

theorem State.shedAsked_phase (s : State) (z : Nat) : (s.shedAsked.feed z).phase = (s.feed z).phase :=
  foldl_same (fun u : State => (u.feed z).phase)
    (fun u j => UnitsKeep.onFeed (p := FeedRun.phase) u j (fun _ => by rfl) z) _ s

theorem State.shedAsked_shedReq {s : State} {z : Nat} (hz : z < 16) (hr : s.shedRank z = s.shelf.shed.rank)
    (hon : s.shedOn z = true) : (s.shedAsked.feed z).shedReq = some ((s.feed z).shedReq.getD s.clock.slots) := by
  have hmem : z ∈ allFeeds.filter (fun z => s.shedRank z == s.shelf.shed.rank && s.shedOn z) := by
    simp [mem_allFeeds, hz, hr, hon]
  refine foldl_unit_of_mem (key := id) (read := State.feed) (fun f => f.shedReq = _) State.askShed_only
    (fun u a j h => State.feed_onFeed_ne u a _ j h) (feeds_nodup _) hmem fun u hu hf => ?_
  have hf : u.feed z = s.feed z := hf
  rw [id, State.askShed, State.feed_onFeed _ _ _ hz, State.raised, hf, hu.keeps_clock (by decide)]

/-- The shed step leaves every feed where it is, with no warning; those of the rank that are on are asked (R205, R256). -/
theorem State.shedStep_feed (s : State) {z : Nat} (hz : z < 16) :
    (s.shedStep.feed z).thr.warned = false ∧ (s.shedStep.feed z).phase = (s.feed z).phase ∧
      (s.shedRank z = s.shelf.shed.rank → s.shedOn z = true →
        (s.shedStep.feed z).shedReq = some ((s.feed z).shedReq.getD s.clock.slots)) := by
  have hsans := s.shedAsked.releaseWarning_sansThr z
  rw [(State.shedStep_follows s).keeps_feed (by decide)]
  exact ⟨State.releaseWarning_releases _ hz, (congrArg FeedRun.phase hsans).trans (s.shedAsked_phase z),
    fun hr hon => (congrArg FeedRun.shedReq hsans).trans (State.shedAsked_shedReq hz hr hon)⟩

/-- One shed feed requested again, unless a thermal hold or the safe state refuses it (R206, R293). -/
def State.restoreFeed (s : State) (z : Nat) : State :=
  s.onFeed z (fun f => { f with shed := false, thermalMark := f.thermalMark || s.feedHeld z
                                startReq := if s.feedHeld z || s.lint.safe then none else s.raised f.startReq })

theorem State.startRank_steps (s : State) (r : Nat) :
    s.startRank r = (allFeeds.filter (fun z => s.shedRank z == r && (s.feed z).shed)).foldl State.restoreFeed s := rfl

theorem State.restoreFeed_only (s : State) (z : Nat) : OnlyChanges [.feeds] s (s.restoreFeed z) := State.onFeed_only s z _

theorem State.startRank_feed {s : State} {r z : Nat} (hz : z < 16) (hr : s.shedRank z = r) (hs : (s.feed z).shed = true) :
    ((s.startRank r).feed z).shed = false ∧ ((s.startRank r).feed z).startReq =
      (if s.feedHeld z || s.lint.safe then none else some ((s.feed z).startReq.getD s.clock.slots)) := by
  have hmem : z ∈ allFeeds.filter (fun z => s.shedRank z == r && (s.feed z).shed) := by simp [mem_allFeeds, hz, hr, hs]
  rw [State.startRank_steps]
  refine foldl_unit_of_mem (key := id) (read := State.feed) (fun f => f.shed = false ∧ f.startReq = _) State.restoreFeed_only
    (fun u a j h => State.feed_onFeed_ne u a _ j h) (feeds_nodup _) hmem fun u hu hf => ?_
  have hf : u.feed z = s.feed z := hf
  rw [id, State.restoreFeed, State.feed_onFeed _ _ _ hz, hf, hu.keeps_feedHeld (by decide) (by decide),
    hu.keeps_lint (by decide), State.raised, hu.keeps_clock (by decide)]
  exact ⟨rfl, rfl⟩

/-! ### The rows of Table 06-3 -/

section
variable {s : State}

theorem State.shedRow_idle (hp : s.shelf.shed.phase = .idle) (hd : s.shelf.loss.declared = true) :
    s.shedRow = s.shedTo .watch := by
  simp [State.shedRow, hp, hd]

theorem State.shedRow_watch (hp : s.shelf.shed.phase = .watch) (hl : s.lossHigh = true) (hb : s.busLow = true)
    (hn : s.nextRank.isSome = true) : s.shedRow = s.shedTo .dwell := by
  simp [State.shedRow, hp, hl, hb, hn]

/-- In every state that sheds, the row of a down fraction below LOSS_FRAC comes first. -/
theorem State.shedRow_pauses (hl : s.lossHigh = false) (hp : s.shelf.shed.phase = .watch ∨ s.shelf.shed.phase = .dwell ∨
    s.shelf.shed.phase = .warn ∨ s.shelf.shed.phase = .gap) : s.shedRow.shelf = (s.shedTo .paused).shelf := by
  rcases hp with hp | hp | hp | hp
  · simp [State.shedRow, hp, hl]
  · simp [State.shedRow, hp, hl]
  · have hrow : s.shedRow = (s.shedTo .paused).releaseWarning := by simp [State.shedRow, hp, hl]
    rw [hrow, (State.releaseWarning_only _).keeps_shelf (by decide)]
  · simp [State.shedRow, hp, hl]

/-- The sequencer in Warn for a rank, its feeds not warned yet. -/
def State.shedWarns (s : State) (r : Nat) : State :=
  (s.shedTo .warn).onShelf (fun x => { x with shed := { x.shed with rank := r } })

theorem State.shedRow_dwell {r : Nat} (hp : s.shelf.shed.phase = .dwell) (hl : s.lossHigh = true) (hb : s.busLow = true)
    (hw : s.shedWaited s.cfg.shed.shedDwell = true) (hn : s.nextRank = some r) : s.shedRow = (s.shedWarns r).warnRank r := by
  simp [State.shedRow, State.shedWarns, hp, hl, hb, hw, hn]

theorem State.shedRow_warn (hp : s.shelf.shed.phase = .warn) (hl : s.lossHigh = true)
    (hw : s.shedWaited s.cfg.shed.shedWarn = true) : s.shedRow = (s.shedTo .gap).shedStep := by
  simp [State.shedRow, hp, hl, hw]

theorem State.shedRow_gap (hp : s.shelf.shed.phase = .gap) (hl : s.lossHigh = true)
    (hw : s.shedWaited s.cfg.shed.shedGap = true) : s.shedRow = s.shedTo .watch := by
  simp [State.shedRow, hp, hl, hw]

/-- The highest shed rank starts, from Paused once the loss is cleared and from Restoring after its wait. -/
theorem State.shedRow_restores {r : Nat} (hp : s.shelf.shed.phase = .paused ∧ s.shelf.loss.declared = false ∨
    s.shelf.shed.phase = .restoring ∧ s.shedWaited s.cfg.shed.restoreGap = true) (hl : s.lossHigh = false)
    (ht : s.topShed = some r) : s.shedRow = (s.shedTo .restoring).startRank r := by
  rcases hp with ⟨hp, hd⟩ | ⟨hp, hw⟩
  · simp [State.shedRow, hp, hl, hd, ht]
  · simp [State.shedRow, hp, hl, hw, ht]

/-! ### Ticks and timers -/

theorem shedTick_exec (hb : s.boot.phase ≠ .held) : Machine.exec .shedSequencerTick s = .next s.fresh.shedRow :=
  inService_eq hb _

/-- A tick of the sequencer, or its timer that has run out in its own state, is a row of Table 06-3. -/
theorem shedRow_exec {c timer : Instr} {ph : ShedPhase} (wait : State → Nat) (hb : s.boot.phase ≠ .held)
    (hc : c = .shedSequencerTick ∨ c = timer)
    (htimer : Machine.exec timer s = inService s (fun u => u.shedRowIn ph (wait u))) (hp : s.shelf.shed.phase = ph)
    (hw : s.shedWaited (wait s.fresh) = true) : Machine.exec c s = .next s.fresh.shedRow := by
  have hp : s.fresh.shelf.shed.phase = ph := hp
  have hw : s.fresh.shedWaited (wait s.fresh) = true := hw
  rcases hc with rfl | rfl
  · exact shedTick_exec hb
  · rw [htimer, inService_eq hb, State.shedRowIn, hp, hw, beq_self_eq_true, Bool.and_true, if_pos rfl]

end

/-- Settles O28: each row by its state and its condition, and what it does to the feeds of its rank by a run over them. -/
theorem shedSequencerFollowsItsTable : Obligations.ShedSequencerFollowsItsTable := by
  unfold Obligations.ShedSequencerFollowsItsTable
  intro s hb
  refine ⟨fun hp hd => ?_, fun hp hl hlow hn => ?_, fun hl hp => ?_, fun c r hc hp hl hlow hw hn => ?_,
    fun c hc hp hl hw => ?_, fun c hc hp hl hw => ?_, fun c r hc hl ht => ?_⟩
  · exact ⟨_, (shedTick_exec hb).trans (congrArg _ (State.shedRow_idle (s := s.fresh) hp hd)), rfl⟩
  · exact ⟨_, (shedTick_exec hb).trans (congrArg _ (State.shedRow_watch (s := s.fresh) hp hl hlow hn)), rfl⟩
  · exact ⟨_, shedTick_exec hb, congrArg ShelfRun.shed (State.shedRow_pauses (s := s.fresh) hl hp)⟩
  · have hexec := shedRow_exec (fun u => u.cfg.shed.shedDwell) hb hc rfl hp hw
    refine ⟨_, hexec, ?_⟩
    rw [State.shedRow_dwell (s := s.fresh) hp hl hlow hw hn, (State.warnRank_only _ r).keeps_shelf (by decide)]
    exact ⟨rfl, fun z hz hr hon hs => State.warnRank_warns (s := s.fresh.shedWarns r) hz hr hon hs⟩
  · have hexec := shedRow_exec (fun u => u.cfg.shed.shedWarn) hb hc rfl hp hw
    refine ⟨_, hexec, ?_⟩
    rw [State.shedRow_warn (s := s.fresh) hp hl hw, (State.shedStep_only _).keeps_shelf (by decide)]
    exact ⟨rfl, fun z hz => (s.fresh.shedTo .gap).shedStep_feed hz⟩
  · have hexec := shedRow_exec (fun u => u.cfg.shed.shedGap) hb hc rfl hp hw
    rw [State.shedRow_gap (s := s.fresh) hp hl hw] at hexec
    exact ⟨_, hexec, rfl, rfl⟩
  · have hrow : s.fresh.shedRow = (s.fresh.shedTo .restoring).startRank r := by
      refine State.shedRow_restores (s := s.fresh) ?_ hl ht
      exact hc.imp (fun h => h.2) (fun h => h.2)
    have hexec : Machine.exec c s = .next s.fresh.shedRow := by
      rcases hc with ⟨rfl, -⟩ | ⟨hc, hp, hw⟩
      · exact shedTick_exec hb
      · exact shedRow_exec (fun u => u.cfg.shed.restoreGap) hb hc rfl hp hw
    refine ⟨_, hexec.trans (congrArg _ hrow), ?_⟩
    rw [(State.startRank_only _ r).keeps_shelf (by decide)]
    exact ⟨rfl, fun z hz hr hs => State.startRank_feed (s := s.fresh.shedTo .restoring) hz hr hs⟩

end Sys2Proof.Machine
end

section
/-!
SUPPORT. The effective cap, the means of power, the grants of the zones, the hang time and the release of FDn_THR
(R201, R208, R211 to R213).
-/
namespace Sys2Proof.Machine
set_option Elab.async false

section
variable {s : State}

/-! ### The cap tick (R208) -/

/-- The figures of one millisecond. -/
def State.powerNow (s : State) : PowerMs :=
  { bus := s.busLoad, inp := s.shelfInput, rect := s.rectOut
    zone := sumInt (allFeeds.map (fun z => (s.feed z).rd.meanP)), cap := s.shelf.caps.cEff }

theorem State.powerTick_head (s : State) : s.powerTick.shelf.power.head? = some s.powerNow := rfl

theorem State.capTick_offGrid (h : s.onGrid 2000 = false) : s.capTick = s := by simp [State.capTick, h]

theorem State.capTick_firmware (h : s.onGrid 2000 = true) (hf : s.fw = true) :
    s.capTick = s.capCompute.powerTick.capSetpoints := by simp [State.capTick, h, hf]

theorem State.capTick_captured (h : s.onGrid 2000 = true) (hf : s.fw = false) : s.capTick = s.powerTick.capSetpoints := by
  simp [State.capTick, h, hf]

/-- The least of the fused ceiling, the requests of the seats and the thermal caps (R208). -/
def State.leastCap (s : State) : Int :=
  min (s.capCeiling : Int) (min (minInt s.cfg.capShelf.toList) (minInt (allModels.map (fun m => (s.model m).cap))))

theorem State.capTick_least (h : s.onGrid 2000 = true) (hf : s.fw = true) : s.capTick.shelf.caps.cEff = s.leastCap := by
  rw [State.capTick_firmware h hf, (State.capSetpoints_only _).keeps_shelf (by decide)]
  rfl

/-! ### Grants of the zones (R211, R212) -/

theorem OnlyChanges.keeps_zoneCap {ps : List Part} {t : State} (h : OnlyChanges ps s t) (wc : Part.cfg ∉ ps)
    (wf : Part.fuses ∉ ps) (ws : Part.senses ∉ ps) (z : Nat) : t.zoneCap z = s.zoneCap z := by
  simp only [State.zoneCap, State.maxFeedCurrent, State.busMv, State.sense, h.keeps_cfg wc, h.keeps_fuses wf,
    h.keeps_senses ws]

/-- The grant of a zone: its cap without a weight, else its share of the zone budget while its feed is on (R212). -/
def State.grantOf (s : State) (z : Nat) : Int :=
  let w := (s.feedB z).zone.grantWeight
  let on := allFeeds.filter (fun j => (s.feed j).phase == .on)
  if w = 0 then s.zoneCap z
  else if on.contains z then
    min (s.zoneCap z) (roundDiv (s.zoneBudget * w) ((on.map (fun j => (s.feedB j).zone.grantWeight)).sum : Nat))
  else 0

theorem State.grantOf_unweighted {z : Nat} (h : (s.feedB z).zone.grantWeight = 0) : s.grantOf z = s.zoneCap z := if_pos h

theorem State.grantOf_off {z : Nat} (h : (s.feedB z).zone.grantWeight ≠ 0) (hp : (s.feed z).phase ≠ .on) :
    s.grantOf z = 0 := by
  simp [State.grantOf, h, hp]

theorem State.grantOf_on {z : Nat} (hz : z < 16) (h : (s.feedB z).zone.grantWeight ≠ 0) (hp : (s.feed z).phase = .on) :
    s.grantOf z = min (s.zoneCap z) (roundDiv (s.zoneBudget * ((s.feedB z).zone.grantWeight : Int))
      ((((allFeeds.filter (fun j => (s.feed j).phase == .on)).map (fun j => (s.feedB j).zone.grantWeight)).sum : Nat) : Int)) := by
  simp [State.grantOf, h, hp, mem_allFeeds, hz]

theorem State.zoneGrant_budget (hf : s.fw = true) : s.zoneGrant.shelf.caps.budget = s.zoneBudget := by
  unfold State.zoneGrant
  extract_lets b on sum a
  rw [if_neg (by simp [hf])]
  exact foldl_same (fun u : State => u.shelf.caps.budget) (fun _ _ => rfl) allFeeds a

theorem State.zoneGrant_feed {z : Nat} (hf : s.fw = true) (hz : z < 16) :
    s.zoneGrant.feed z = { s.feed z with grant := s.grantOf z } := by
  unfold State.zoneGrant
  extract_lets b on sum a
  rw [if_neg (by simp [hf])]
  have ha : OnlyChanges [.shelf, .feeds] s a := (State.onShelf_only s _).mono rfl
  refine foldl_unit_of_mem (key := id) (read := State.feed) (ps := [.feeds]) (fun f => f = _)
    (fun u j => State.onFeed_only u j _) (fun u j i h => State.feed_onFeed_ne u j _ i h) allFeeds_nodup
    (mem_allFeeds.mpr hz) fun u hu hr => ?_
  have hr : u.feed z = s.feed z := hr
  have hsu : OnlyChanges [.shelf, .feeds] s u := ha.trans (hu.mono rfl)
  rw [id, State.feed_onFeed _ _ _ hz, hr, hsu.keeps_feedB (by decide), hsu.keeps_zoneCap (by decide) (by decide) (by decide)]
  rfl

/-! ### The hang time (R201, R202) -/

/-- The mean bus load over the averaging window. -/
def State.hangLoad (s : State) : Int := s.meanOver s.hangWindow (·.bus)

/-- The rated power of the battery groups in hot standby. -/
def State.hangRated (s : State) : Int :=
  sumInt ((s.batteryGroups.filter s.hotStandby).map (fun g => (s.groupB g).share.ratedP))

/-- The hang time by the mean bus load and the rated power. -/
def State.hangTime (s : State) : Nat :=
  if s.hangLoad ≤ 0 then 0xFFFFFFFF
  else if decide (s.hangRated < s.hangLoad) then 0
  else min 0xFFFFFFFE (roundDiv (s.cfg.hang.htEff * s.hangSum * 1000) (4194304 * 10000000000 * s.hangLoad)).toNat

theorem State.hangPublish_firmware (hf : s.fw = true) : s.hangPublish.shelf.hang =
    { hang := s.hangTime, energy := roundDiv s.hangSum 10000000000, pAvg := s.hangLoad
      short := decide (0 < s.hangLoad) && decide (s.hangRated < s.hangLoad), window := s.hangWindow } := by
  unfold State.hangPublish
  rw [if_neg (by simp [hf])]
  rfl

theorem State.hangPublish_captured (hf : s.fw = false) : s.hangPublish.shelf.hang = { s.shelf.hang with hang := 0 } := by
  unfold State.hangPublish
  rw [if_pos (by simp [hf])]
  rfl

end

/-! ### The clauses -/

theorem capTickComputes {s : State} (hb : s.boot.phase ≠ .held) (hf : s.fw = true) (hg : s.onGrid 2000 = true) :
    ∃ t, Machine.exec .capTick s = .next t ∧ OnlyChanges [.sent, .staged, .shelf, .commits] s t ∧
      t.shelf.caps.cEff = s.leastCap ∧ t.shelf.caps.cEff ≤ s.capCeiling := by
  have hleast : s.fresh.capTick.shelf.caps.cEff = s.leastCap := State.capTick_least (s := s.fresh) hg hf
  refine ⟨_, inService_eq hb _, (State.capTick_only _).step rfl ((State.fresh_only s).mono rfl), hleast, ?_⟩
  rw [hleast]
  exact min_le_left _ _

theorem capTickRecords {s : State} (hb : s.boot.phase ≠ .held) (hf : s.fw = false) (hg : s.onGrid 2000 = true) :
    ∃ t, Machine.exec .capTick s = .next t ∧ t.shelf.caps = s.shelf.caps ∧ t.shelf.power.head? = some s.powerNow := by
  refine ⟨_, (inService_eq hb _).trans (congrArg _ (State.capTick_captured (s := s.fresh) hg hf)), ?_⟩
  rw [(State.capSetpoints_only _).keeps_shelf (by decide)]
  exact ⟨rfl, State.powerTick_head s.fresh⟩

theorem zonesAreGranted {s : State} (hb : s.boot.phase ≠ .held) (hf : s.fw = true) :
    ∃ t, Machine.exec .zoneGrant s = .next t ∧ OnlyChanges [.sent, .shelf, .feeds] s t ∧
      t.shelf.caps.budget = s.zoneBudget ∧ ∀ z, z < 16 → t.feed z = { s.feed z with grant := s.grantOf z } :=
  ⟨_, inService_eq hb _, (State.zoneGrant_only _).step rfl ((State.fresh_only s).mono rfl),
    State.zoneGrant_budget (s := s.fresh) hf, fun _ hz => State.zoneGrant_feed (s := s.fresh) hf hz⟩

theorem hangTimeIsPublished {s : State} (hb : s.boot.phase ≠ .held) (hf : s.fw = true) :
    ∃ t, Machine.exec .hangTimePublish s = .next t ∧ OnlyChanges [.sent, .shelf] s t ∧
      t.shelf.hang = { hang := s.hangTime, energy := roundDiv s.hangSum 10000000000, pAvg := s.hangLoad
                       short := decide (0 < s.hangLoad) && decide (s.hangRated < s.hangLoad), window := s.hangWindow } :=
  ⟨_, inService_eq hb _, (State.hangPublish_only _).step rfl ((State.fresh_only s).mono rfl),
    State.hangPublish_firmware (s := s.fresh) hf⟩

theorem throttleIsReleased {s : State} {z : Nat} (hb : s.boot.phase ≠ .held) (hz : z < 16) (ho : s.overGrant z = false)
    (hw : (s.feed z).thr.warned = false) (hr : (s.feed z).phase ≠ .retryWait) (hl : (s.feed z).phase ≠ .latched)
    (hm : s.feedThrottled z = false) (hforce : (s.feedB z).zone.thrForce = false) :
    ∃ t, Machine.exec (.thrHoldExpire z) s = .next t ∧ OnlyChanges [.sent, .feeds] s t ∧ (t.feed z).thr.reasons = 0 ∧
      (t.feed z).thr.active = ((s.feed z).thr.active && !decide (10000 ≤ elapsedUs s (s.feed z).thr.since)) ∧
      ∀ j, j ≠ z → t.feed j = s.feed j := by
  have hseen : (s.fresh.overSeen z).feed z = { s.feed z with thr := { (s.feed z).thr with overGrant := false } } := by
    rw [← ho]
    exact State.overSeen_feed (s := s.fresh) hz
  have hreasons : (s.fresh.overSeen z).thrReasons z = 0 := by
    refine State.thrReasons_none ?_ ?_ ?_ ?_ hm hforce <;> rw [hseen]
    · exact hw
    · exact hr
    · exact hl
  have hfeed := State.thrUpdate_feed (s := s.fresh) hz
  rw [hreasons] at hfeed
  obtain ⟨hnone, hactive⟩ := (s.feed z).thr.follows_none (s.overGrant z) s.clock.slots
    (decide (10000 ≤ elapsedUs s (s.feed z).thr.since))
  exact ⟨_, inService_eq hb _, (State.thrHold_only _ z).step rfl ((State.fresh_only s).mono rfl),
    (congrArg (fun f : FeedRun => f.thr.reasons) hfeed).trans hnone,
    (congrArg (fun f : FeedRun => f.thr.active) hfeed).trans hactive, fun j hj => State.thrUpdate_other s.fresh z j hj⟩

/-- Settles O29: each clause by the figure that its tick computes, and the cases of that figure. -/
theorem capsAndGrantsAreComputed : Obligations.CapsAndGrantsAreComputed := by
  unfold Obligations.CapsAndGrantsAreComputed
  intro s hb
  refine ⟨fun hf hg => capTickComputes hb hf hg, fun hf hg => capTickRecords hb hf hg, fun hg => ?_, fun hf => ?_, fun hf => ?_,
    fun hf => ?_, fun z hz ho hw hr hl hm hforce => ?_⟩
  · exact (inService_eq hb _).trans (congrArg _ (State.capTick_offGrid (s := s.fresh) hg))
  · obtain ⟨t, ht, only, hbudget, hfeed⟩ := zonesAreGranted hb hf
    refine ⟨t, ht, only, hbudget, fun z hz => ?_⟩
    rw [hfeed z hz]
    exact ⟨rfl, State.grantOf_unweighted, State.grantOf_off, State.grantOf_on hz⟩
  · exact ⟨_, inService_eq hb _, (State.hangPublish_only _).step rfl ((State.fresh_only s).mono rfl),
      State.hangPublish_captured (s := s.fresh) hf⟩
  · obtain ⟨t, ht, only, hhang⟩ := hangTimeIsPublished hb hf
    refine ⟨t, ht, only, ?_⟩
    rw [hhang]
    refine ⟨rfl, rfl, rfl, fun hp => ?_, fun hp hrated => ?_, fun hp hrated => ?_⟩
    · have hp : s.hangLoad ≤ 0 := hp
      exact ⟨if_pos hp, by rw [decide_eq_false (Int.not_lt.mpr hp), Bool.false_and]⟩
    · have hrated : s.hangRated < s.hangLoad := hrated
      have hp : 0 < s.hangLoad := hp
      exact ⟨by simp [State.hangTime, hp, hrated], by simp [hp, hrated]⟩
    · have hrated : s.hangLoad ≤ s.hangRated := hrated
      have hp : 0 < s.hangLoad := hp
      refine ⟨by simp [hrated], ?_⟩
      show s.hangTime = _
      rw [State.hangTime, if_neg (Int.not_le.mpr hp), if_neg (by simpa using hrated)]
      rfl
  · obtain ⟨t, ht, only, hreasons, hactive, hother⟩ := throttleIsReleased hb hz ho hw hr hl hm hforce
    refine ⟨t, ht, only, hreasons, fun h => ?_, fun h => ?_, hother⟩
    · rw [hactive, decide_eq_true h, Bool.not_true, Bool.and_false]
    · rw [hactive, decide_eq_false (Nat.not_le.mpr h), Bool.not_false, Bool.and_true]

end Sys2Proof.Machine
end

section
/-!
SUPPORT. Input loss is cleared and support mode ends: what the runs over battery groups and over a share pool leave of their
channels and groups (R193, R196, R225).
-/
namespace Sys2Proof.Machine
set_option Elab.async false

theorem mem_allGroups {g : Nat} : g ∈ allGroups ↔ g < 32 := List.mem_range

theorem State.mem_batteryGroups_lt {s : State} {g : Nat} (h : g ∈ s.batteryGroups) : g < 32 :=
  mem_allGroups.mp (List.mem_filter.mp h).1

theorem State.mem_poolOf_lt {s : State} {g m : Nat} (hg : g < 32) (h : m ∈ s.poolOf g) : m < 32 := by
  unfold State.poolOf at h
  extract_lets v at h
  split at h
  · exact List.mem_singleton.mp h ▸ hg
  · exact mem_allGroups.mp (List.mem_filter.mp h).1

/-- A change of one channel leaves a channel as it is, or has changed it. -/
theorem State.chan_onChan_cases (s : State) (c : Nat) (f : ChannelRun → ChannelRun) (j : Nat) :
    (s.onChan c f).chan j = s.chan j ∨ (s.onChan c f).chan j = f (s.chan j) := by
  by_cases e : j = c
  · subst e
    by_cases hj : j < 128
    · exact .inr (State.chan_onChan _ _ _ hj)
    · exact .inl (by simp [State.chan, State.onChan, vmod, hj])
  · exact .inl (State.chan_onChan_ne _ _ _ _ e)

section
variable {s : State} {g c : Nat}

/-! ### Input loss is cleared (R193, R196) -/

/-- A channel that a takeover start excluded returns, to be initialised with its group's s (R196). -/
def ChannelRun.back (r : ChannelRun) (s0 : Int) : ChannelRun := { r with excluded := false, fresh := true, fill := some s0 }

/-- The excluded channels of a group return. -/
def State.chansBack (s : State) (g : Nat) : State :=
  ((s.chansOf g).filter (fun c => (s.chan c).excluded)).foldl (fun u c => u.onChan c (·.back (s.group g).s)) s

/-- A battery group after input loss. -/
def State.groupBack (s : State) (g : Nat) : State :=
  let u := (s.chansBack g).onChan ((s.chansBack g).poolPrimary g) (fun r => { r with target := none })
  u.onGroup g (fun r => { r with takeoverDue := false
                                 support := if (u.stringCtrl g).isSome then false else r.support
                                 exitFrom := none })

theorem State.chansBack_only (s : State) (g : Nat) : OnlyChanges [.chans] s (s.chansBack g) :=
  .foldl (fun u c => State.onChan_only u c _) (.refl _ s)

theorem State.groupBack_only (s : State) (g : Nat) : OnlyChanges [.chans, .groups] s (s.groupBack g) :=
  (State.onGroup_only _ g _).step rfl ((State.onChan_only _ _ _).step rfl ((s.chansBack_only g).mono rfl))

theorem State.lossClear_due {since : Nat} (hd : s.shelf.loss.declared = true) (hz : s.shelf.loss.zeroFrom = some since)
    (ht : s.cfg.loss.inputQual ≤ elapsedUs s since) :
    s.lossClear = (s.batteryGroups.foldl State.groupBack s).onShelf (fun r =>
      { r with loss := { r.loss with declared := false, returning := false } }) := by
  simp only [State.lossClear, hz, hd, ht, decide_true, Bool.and_self, if_true]
  rfl

/-- The channel takes part again, and is to be initialised. -/
def ChannelRun.Returned (r : ChannelRun) : Prop := r.excluded = false ∧ r.fresh = true

theorem State.chansBack_self (h : c ∈ s.chansOf g) (hx : (s.chan c).excluded = true) : ((s.chansBack g).chan c).Returned := by
  have hmem : c ∈ (s.chansOf g).filter (fun c => (s.chan c).excluded) := List.mem_filter.mpr ⟨h, hx⟩
  refine foldl_unit_of_mem (key := id) (read := State.chan) ChannelRun.Returned (fun u j => State.onChan_only u j _)
    (fun u j i hi => State.chan_onChan_ne u j _ i hi) ?_ hmem fun u _ _ => ?_
  · rw [List.map_id]
    exact (s.chansOf_nodup g).filter _
  · rw [id, State.chan_onChan _ _ _ (State.mem_chansOf.mp h).1]
    exact ⟨rfl, rfl⟩

theorem State.chansBack_other (h : c ∉ s.chansOf g) : (s.chansBack g).chan c = s.chan c := by
  refine foldl_unit_of_not_mem (key := id) (read := State.chan) (fun u j i hi => State.chan_onChan_ne u j _ i hi) ?_ s
  rw [List.map_id]
  exact fun hmem => h (List.mem_filter.mp hmem).1

theorem State.chansBack_keeps (g : Nat) (hr : (s.chan c).Returned) : ((s.chansBack g).chan c).Returned := by
  unfold State.chansBack
  refine List.foldlRecOn (motive := fun u : State => (u.chan c).Returned) _ _ hr fun u hu j _ => ?_
  rcases State.chan_onChan_cases u j (·.back (s.group g).s) c with h | h
  · rw [h]
    exact hu
  · rw [h]
    exact ⟨rfl, rfl⟩

/-- Of a battery group's return only that of its channels changes whether a channel takes part and is to be initialised. -/
theorem State.groupBack_part (s : State) (g c : Nat) : ((s.groupBack g).chan c).excluded = ((s.chansBack g).chan c).excluded ∧
    ((s.groupBack g).chan c).fresh = ((s.chansBack g).chan c).fresh :=
  ⟨State.chan_onChan_same _ _ _ ChannelRun.excluded (fun _ => by rfl) c,
    State.chan_onChan_same _ _ _ ChannelRun.fresh (fun _ => by rfl) c⟩

/-- Every excluded channel of a battery group returns with it (R196). -/
theorem State.groupsBack_returned (hg : g ∈ s.batteryGroups) (hc : c ∈ s.chansOf g) (hx : (s.chan c).excluded = true) :
    ((s.batteryGroups.foldl State.groupBack s).chan c).Returned := by
  refine foldl_reaches (fun u : State => u.active = s.active ∧ (u.chan c).excluded = true)
    (fun u => (u.chan c).Returned) (fun u b hb hu => ?_) (fun u hu => ?_) (fun u b hu => ?_) hg ⟨rfl, hx⟩
  · obtain ⟨ha, hu⟩ := hu
    have hout : c ∉ u.chansOf b := by
      intro hmem
      have hbank : u.chanB c = s.chanB c := by rw [State.chanB, State.chanB, ha]
      exact hb ((State.mem_chansOf.mp hmem).2.symm.trans (hbank ▸ (State.mem_chansOf.mp hc).2))
    refine ⟨((u.groupBack_only b).keeps_active (by decide)).trans ha, ?_⟩
    rw [(u.groupBack_part b c).1, State.chansBack_other hout]
    exact hu
  · obtain ⟨ha, hu⟩ := hu
    obtain ⟨h1, h2⟩ := u.groupBack_part g c
    have hin : c ∈ u.chansOf g := by simpa only [State.chansOf, State.chanB, ha] using hc
    obtain ⟨hexcluded, hfresh⟩ := State.chansBack_self hin hu
    exact ⟨h1.trans hexcluded, h2.trans hfresh⟩
  · obtain ⟨h1, h2⟩ := u.groupBack_part b c
    obtain ⟨hexcluded, hfresh⟩ := State.chansBack_keeps b hu
    exact ⟨h1.trans hexcluded, h2.trans hfresh⟩

theorem State.groupsBack_takeover (hg : g ∈ s.batteryGroups) :
    ((s.batteryGroups.foldl State.groupBack s).group g).takeoverDue = false := by
  refine foldl_reaches (fun _ => True) (fun u : State => (u.group g).takeoverDue = false) (fun _ _ _ _ => trivial) (fun u _ => ?_)
    (fun u b hu => ?_) hg trivial
  · exact congrArg GroupRun.takeoverDue (State.group_onGroup _ _ _ (State.mem_batteryGroups_lt hg))
  · rcases State.group_onGroup_cases ((u.chansBack b).onChan ((u.chansBack b).poolPrimary b) _) b _ g with h | h
    · exact (congrArg GroupRun.takeoverDue h).trans
        ((congrArg GroupRun.takeoverDue ((u.chansBack_only b).keeps_group (by decide) g)).trans hu)
    · exact congrArg GroupRun.takeoverDue h

theorem inputLossClears {since : Nat} (hb : s.boot.phase ≠ .held) (hd : s.shelf.loss.declared = true)
    (hz : s.shelf.loss.zeroFrom = some since) (ht : s.cfg.loss.inputQual ≤ elapsedUs s since) :
    ∃ t, Machine.exec .inputLossClear s = .next t ∧ OnlyChanges [.sent, .chans, .groups, .shelf] s t ∧
      t.shelf.loss.declared = false ∧ t.shelf.loss.count = s.shelf.loss.count ∧
      ∀ g ∈ s.batteryGroups, (t.group g).takeoverDue = false ∧
        ∀ c ∈ s.chansOf g, (s.chan c).excluded = true → (t.chan c).excluded = false ∧ (t.chan c).fresh = true := by
  have hclear := State.lossClear_due (s := s.fresh) hd hz ht
  have hloss : OnlyChanges [.chans, .groups] s.fresh (s.fresh.batteryGroups.foldl State.groupBack s.fresh) :=
    .foldl State.groupBack_only (.refl _ _)
  have hcount := congrArg (fun r : ShelfRun => r.loss.count) (hloss.keeps_shelf (by decide))
  refine ⟨_, inService_eq hb _, (State.lossClear_only _).step rfl ((State.fresh_only s).mono rfl), ?_⟩
  rw [hclear]
  refine ⟨rfl, hcount, fun g hg => ?_⟩
  exact ⟨State.groupsBack_takeover (s := s.fresh) hg, fun c hc hx => State.groupsBack_returned (s := s.fresh) hg hc hx⟩

end

/-! ### Support mode ends (R225) -/

/-- A run reaches one of its elements in a state that its elements have left to it, and they keep what it does there. -/
theorem foldl_reaches_of_mem {σ α : Type} {f : σ → α → σ} (Q P : σ → Prop) {l : List α} {a : α}
    (keepQ : ∀ u, ∀ b ∈ l, Q u → Q (f u b)) (hit : ∀ u, Q u → P (f u a)) (keepP : ∀ u, ∀ b ∈ l, P u → P (f u b))
    (ha : a ∈ l) {s : σ} (hs : Q s) : P (l.foldl f s) := by
  obtain ⟨before, after, rfl⟩ := List.append_of_mem ha
  rw [List.foldl_append, List.foldl_cons]
  have hQ : Q (before.foldl f s) :=
    List.foldlRecOn (motive := Q) _ _ hs fun u hu b hb => keepQ u b (List.mem_append_left _ hb) hu
  exact List.foldlRecOn (motive := P) _ _ (hit _ hQ) fun u hu b hb =>
    keepP u b (List.mem_append_right _ (List.mem_cons_of_mem _ hb)) hu

section
variable {s : State} {g m : Nat}

/-- The charge channel of a group's string is to be initialised with the group's s. -/
def State.chargeStarts (s : State) (m : Nat) : State :=
  match s.stringCtrl m with
  | some k => s.onChan (s.strB k).chargeCh (fun c => { c with fresh := true, fill := some (s.group m).s })
  | none => s

/-- One member of the pool leaves support mode. -/
def State.memberLeaves (s : State) (m : Nat) : State :=
  (s.chargeStarts m).onGroup m (fun r => { r with support := false, exitFrom := none })

/-- The members that leave support mode with a group. -/
def State.leavers (s : State) (g : Nat) : List Nat := (s.poolOf g).filter (fun m => m == g || s.evaluated m)

theorem State.leaveSupport_steps (s : State) (g : Nat) : s.leaveSupport g = (s.leavers g).foldl State.memberLeaves s := rfl

theorem State.supportExit_due {k : Nat} (hk : s.stringCtrl g = some k) (hover : s.supportOver g k = true) :
    s.supportExit g = s.leaveSupport g := by
  simp only [State.supportExit, hk, hover, if_true]

theorem State.chargeStarts_only (s : State) (m : Nat) : OnlyChanges [.chans] s (s.chargeStarts m) := by
  unfold State.chargeStarts
  split
  · exact State.onChan_only _ _ _
  · exact .refl _ s

theorem State.memberLeaves_only (s : State) (m : Nat) : OnlyChanges [.chans, .groups] s (s.memberLeaves m) :=
  (State.onGroup_only _ m _).step rfl ((s.chargeStarts_only m).mono rfl)

theorem State.memberLeaves_s (s : State) (m : Nat) : GroupsKeep GroupRun.s s (s.memberLeaves m) :=
  UnitsKeep.trans (.groups_of_only (s.chargeStarts_only m) (by decide)) (.onGroup _ m fun _ => rfl)

theorem State.memberLeaves_chan (s : State) (m c : Nat) : (s.memberLeaves m).chan c = (s.chargeStarts m).chan c :=
  (State.onGroup_only _ m _).keeps_chan (by decide) c

/-- The group is in charge mode, with no exit in progress. -/
def GroupRun.Charges (r : GroupRun) : Prop := r.support = false ∧ r.exitFrom = none

theorem State.leaveSupport_charges (hm : m ∈ s.leavers g) (h32 : m < 32) : ((s.leaveSupport g).group m).Charges := by
  rw [State.leaveSupport_steps]
  refine foldl_reaches (fun _ => True) (fun u : State => (u.group m).Charges) (fun _ _ _ _ => trivial) (fun u _ => ?_)
    (fun u b hu => ?_) hm trivial
  · rw [State.memberLeaves, State.group_onGroup _ _ _ h32]
    exact ⟨rfl, rfl⟩
  · rcases State.group_onGroup_cases (u.chargeStarts b) b (fun r => { r with support := false, exitFrom := none }) m with h | h
    · rw [State.memberLeaves, h, (u.chargeStarts_only b).keeps_group (by decide)]
      exact hu
    · rw [State.memberLeaves, h]
      exact ⟨rfl, rfl⟩

theorem State.chargeStarts_self {k : Nat} (hk : s.stringCtrl m = some k) (hc : (s.strB k).chargeCh < 128) :
    ((s.chargeStarts m).chan (s.strB k).chargeCh).fresh = true ∧
      ((s.chargeStarts m).chan (s.strB k).chargeCh).fill = some (s.group m).s := by
  simp only [State.chargeStarts, hk]
  rw [State.chan_onChan _ _ _ hc]
  exact ⟨rfl, rfl⟩

theorem State.chargeStarts_other {c : Nat} (h : ∀ j, s.stringCtrl m = some j → (s.strB j).chargeCh ≠ c) :
    (s.chargeStarts m).chan c = s.chan c := by
  unfold State.chargeStarts
  split
  · exact State.chan_onChan_ne _ _ _ _ (Ne.symm (h _ ‹_›))
  · rfl

/-- The charge channel of a group that leaves support mode starts from the group's output, where no other member shares it. -/
theorem State.leaveSupport_charge {k : Nat} (hk : s.stringCtrl g = some k) (hc : (s.strB k).chargeCh < 128)
    (hg : g ∈ s.poolOf g)
    (hown : ∀ m ∈ s.poolOf g, m ≠ g → ∀ j, s.stringCtrl m = some j → (s.strB j).chargeCh ≠ (s.strB k).chargeCh) :
    ((s.leaveSupport g).chan (s.strB k).chargeCh).fresh = true ∧
      ((s.leaveSupport g).chan (s.strB k).chargeCh).fill = some (s.group g).s := by
  rw [State.leaveSupport_steps]
  let Q (u : State) : Prop := u.active = s.active ∧ (u.group g).s = (s.group g).s
  have keepQ (u : State) (b : Nat) (hu : Q u) : Q (u.memberLeaves b) :=
    ⟨((u.memberLeaves_only b).keeps_active (by decide)).trans hu.1, (u.memberLeaves_s b g).trans hu.2⟩
  have hit (u : State) (hu : Q u) : ((u.memberLeaves g).chan (s.strB k).chargeCh).fresh = true ∧
      ((u.memberLeaves g).chan (s.strB k).chargeCh).fill = some (s.group g).s := by
    obtain ⟨ha, hs⟩ := hu
    have hbank : u.strB k = s.strB k := by rw [State.strB, State.strB, ha]
    have hself := State.chargeStarts_self ((State.stringCtrl_congr ha g).trans hk) (hbank ▸ hc)
    rw [State.memberLeaves_chan]
    rwa [hbank, hs] at hself
  refine (foldl_reaches_of_mem Q (fun u => Q u ∧ (u.chan (s.strB k).chargeCh).fresh = true ∧
    (u.chan (s.strB k).chargeCh).fill = some (s.group g).s) (fun u b _ hu => keepQ u b hu)
    (fun u hu => ⟨keepQ u g hu, hit u hu⟩) (fun u b hb hu => ⟨keepQ u b hu.1, ?_⟩) (a := g) ?_ ⟨rfl, rfl⟩).2
  · obtain ⟨hQ, hstarted⟩ := hu
    by_cases e : b = g
    · exact e ▸ hit u hQ
    · have hother : (u.chargeStarts b).chan (s.strB k).chargeCh = u.chan (s.strB k).chargeCh := by
        refine State.chargeStarts_other fun j hj => ?_
        rw [State.strB, hQ.1]
        exact hown b (List.mem_filter.mp hb).1 e j ((State.stringCtrl_congr hQ.1 b).symm.trans hj)
      rw [State.memberLeaves_chan, hother]
      exact hstarted
  · exact List.mem_filter.mpr ⟨hg, by simp⟩

theorem supportModeEnds {k : Nat} (h32 : g < 32) (hb : s.boot.phase ≠ .held) (hk : s.stringCtrl g = some k)
    (hover : s.supportOver g k = true) (hc : (s.strB k).chargeCh < 128) (hg : g ∈ s.poolOf g)
    (hown : ∀ m ∈ s.poolOf g, m ≠ g → ∀ j, s.stringCtrl m = some j → (s.strB j).chargeCh ≠ (s.strB k).chargeCh) :
    ∃ t, Machine.exec (.supportModeExit g) s = .next t ∧ OnlyChanges [.sent, .chans, .groups] s t ∧
      (t.group g).support = false ∧ (t.group g).exitFrom = none ∧
      (∀ m ∈ s.poolOf g, s.evaluated m = true → (t.group m).support = false) ∧
      (t.chan (s.strB k).chargeCh).fresh = true ∧ (t.chan (s.strB k).chargeCh).fill = some (s.group g).s := by
  have hleave (m : Nat) (hm : m ∈ s.poolOf g) (hev : m = g ∨ s.evaluated m = true) :
      ((s.fresh.leaveSupport g).group m).Charges := by
    refine State.leaveSupport_charges (s := s.fresh) (List.mem_filter.mpr ⟨hm, ?_⟩) (State.mem_poolOf_lt h32 hm)
    rcases hev with rfl | hev
    · simp
    · exact (Bool.or_eq_true _ _).mpr (.inr hev)
  refine ⟨_, inService_eq hb _, (State.supportExit_only _ g).step rfl ((State.fresh_only s).mono rfl), ?_⟩
  rw [State.supportExit_due (s := s.fresh) hk hover]
  obtain ⟨hsupport, hexit⟩ := hleave g hg (.inl rfl)
  exact ⟨hsupport, hexit, fun m hm hev => (hleave m hm (.inr hev)).1,
    State.leaveSupport_charge (s := s.fresh) hk hc hg hown⟩

end

/-- Settles O27: the run over battery groups reaches every excluded channel, the run over the pool every running member. -/
theorem inputLossEnds : Obligations.InputLossEnds := by
  unfold Obligations.InputLossEnds
  exact ⟨fun _ _ hb hd hz ht => inputLossClears hb hd hz ht,
    fun _ _ _ h32 hb hk hover hc hg hown => supportModeEnds h32 hb hk hover hc hg hown⟩

end Sys2Proof.Machine
end

section
/-!
SUPPORT. Press detectors and sets, and the excursion record: what a launch puts on the ports of its set, and when it is
suppressed (R111, R113, R115 to R118, R199).
-/
namespace Sys2Proof.Machine
set_option Elab.async false

theorem OnlyChanges.keeps_press {ps : List Part} {s t : State} (h : OnlyChanges ps s t) (w : Part.presses ∉ ps) (k : Nat) :
    t.press k = s.press k := by
  simp only [State.press, h.keeps_presses w]

/-! ### The excursion record (R199) -/

theorem excursionCloses {s : State} (hb : s.boot.phase ≠ .held) (ho : s.shelf.exc.opn = true)
    (ht : 10000 ≤ elapsedUs s s.shelf.exc.lastAt) :
    ∃ t, Machine.exec .excursionEpisodeClose s = .next t ∧ OnlyChanges [.sent, .shelf] s t ∧
      t.shelf.exc = { s.shelf.exc with opn := false } := by
  have ho : s.fresh.shelf.exc.opn = true := ho
  have ht : 10000 ≤ elapsedUs s.fresh s.fresh.shelf.exc.lastAt := ht
  refine ⟨_, inService_eq hb _, (State.excursionClose_only _).step rfl ((State.fresh_only s).mono rfl), ?_⟩
  rw [State.excursionClose, ho, decide_eq_true ht, Bool.and_self, if_pos rfl]
  rfl

theorem excursionRestarts {s : State} {h : Hdr} {e : Expect} (ad : AdmittedPut s h e (Family.bus.index 0 0) 9 1) :
    ∃ t, Machine.exec (.excursionClear h e) s = .next t ∧ Accepted t h ∧ t.shelf.exc.largest = 0 ∧ t.shelf.exc.episodes = 0 ∧
      t.shelf.exc.opn = s.shelf.exc.opn := by
  obtain ⟨u, log, done⟩ := State.put_done (f := .bus) (unit := 0) (off := 0) (sub := 9) (v := 1)
    (row := .mk 0 9 9 .bool .wo .stw .plain 1 1) (n := 1) ad (by decide) (by decide) (by decide) rfl (by decide) (by decide)
    (by decide) rfl rfl (by decide) (by decide) (by decide)
  have hses : u.excursionClear.sessionOk h.seat h.session = true :=
    (State.sessionOk_of_only (State.excursionClear_only u) (by decide) _ _).trans
      ((State.sessionOk_of_only log (by decide) _ _).trans (State.arrived_ok ad.taken))
  obtain ⟨t, ht, only, hacc, -⟩ := done u.excursionClear rfl hses
  have hexc : t.shelf.exc = { s.shelf.exc with largest := 0, episodes := 0 } := by
    rw [only.keeps_shelf (by decide), State.excursionClear, State.onShelf, log.keeps_shelf (by decide)]
    rfl
  refine ⟨t, congrArg _ ht, hacc, ?_⟩
  rw [hexc]
  exact ⟨rfl, rfl, rfl⟩

/-! ### A launch (R113, R115 to R118) -/

section
variable {s : State} {k p : Nat}

/-- The press symbol goes into the present slot of one port, and the lock of its group is suspended. -/
def State.pressPort (s : State) (p : Nat) : State :=
  (s.onPort p (fun q => { q with txPress := q.tx != .stop })).suspendLock (s.portB p).group

/-- The last launch of a set lies within its hold-off. -/
def State.launchNear (s : State) (k : Nat) : Prop :=
  ∃ last, (s.press k).lastAt = some last ∧ elapsedUs s last < (s.psetC k).holdoff

/-- The open burst of a set has reached its limit. -/
def State.burstFull (s : State) (k : Nat) : Prop := (s.press k).burstOpen = true ∧ (s.psetC k).burstMax ≤ (s.press k).burst

/-- The number of a launch in its burst. -/
def PressRun.count (r : PressRun) : Nat := if r.burstOpen then r.burst + 1 else 1

/-- A press set after a launch. -/
def PressRun.launched (r : PressRun) (now shelf : Nat) : PressRun :=
  { r with launches := r.launches + 1, burst := r.count, burstOpen := true, lastAt := some now, lastShelf := shelf }

/-- The launch counted in its set. -/
def State.launchCounted (s : State) (k : Nat) : State :=
  s.onPress k (fun r => { r with launches := r.launches + 1, burst := (s.press k).count, burstOpen := true
                                 lastAt := some s.clock.slots, lastShelf := s.shelfNs })

/-- The launch on the ports that it reaches. -/
def State.launchPressed (s : State) (k : Nat) : State :=
  ((s.launchCounted k).pressPorts k).foldl State.pressPort (s.launchCounted k)

theorem State.requestLaunch_suppressed (h : s.launchNear k ∨ s.burstFull k) :
    s.requestLaunch k = s.onPress k (fun r => { r with suppressed := r.suppressed + 1 }) := by
  unfold State.requestLaunch
  extract_lets c r near
  refine if_pos ?_
  rcases h with ⟨last, hlast, hnear⟩ | ⟨ho, hmax⟩
  · simp [near, r, c, hlast, hnear]
  · simp [r, c, ho, hmax]

theorem State.requestLaunch_launches (hn : ¬ s.launchNear k) (hf : ¬ s.burstFull k) :
    s.requestLaunch k = (((s.launchPressed k).detect (srcPress k) 0).detectIf ((s.press k).count == (s.psetC k).burstMax)
      (srcPress k) 1).captureEvent 3 (srcPress k) := by
  unfold State.requestLaunch
  extract_lets c r near n a b
  refine (if_neg fun h => ?_).trans rfl
  rcases (Bool.or_eq_true _ _).mp h with h | h
  · cases hlast : r.lastAt with
    | none => simp [near, hlast] at h
    | some last => exact hn ⟨last, hlast, by simpa [near, hlast] using h⟩
  · exact hf (by simpa [State.burstFull, r, c] using h)

/-! #### The ports and groups that a launch reaches -/

/-- What the present slot of a port carries, and whether with the press symbol. -/
def PortRun.symbol (r : PortRun) : SlotContent × Bool := (r.tx, r.txPress)

/-- The lock of a group suspended, its trims not formed yet (R104). -/
def State.lockSuspended (s : State) (g : Nat) : State :=
  s.onGroup g (fun r => { r with lock := { r.lock with suspended := true, quiet := 0 } })

theorem State.suspendLock_follows (s : State) (g : Nat) : OnlyChanges [.ports] (s.lockSuspended g) (s.suspendLock g) :=
  .foldl (fun u p => State.onPort_only u p _) (.refl _ _)

theorem State.suspendLock_symbol (s : State) (g : Nat) : PortsKeep PortRun.symbol s (s.suspendLock g) := by
  unfold State.suspendLock
  extract_lets t
  have ht : PortsKeep PortRun.symbol s t := .ports_of_only (State.onGroup_only s g _) (by decide)
  exact ht.trans (.foldl (fun u p => .onPort u p fun _ => by rfl) _ t)

theorem State.suspendLock_group (s : State) (g j : Nat) : (s.suspendLock g).group j = (s.lockSuspended g).group j :=
  (s.suspendLock_follows g).keeps_group (by decide) j

theorem State.pressPort_only (s : State) (p : Nat) : OnlyChanges [.groups, .ports] s (s.pressPort p) :=
  (State.suspendLock_only _ _).step rfl ((State.onPort_only s p _).mono rfl)

theorem State.pressPort_self (s : State) (hp : p < 48) :
    ((s.pressPort p).port p).symbol = ((s.port p).tx, (s.port p).tx != .stop) := by
  rw [State.pressPort, State.suspendLock_symbol, State.port_onPort _ _ _ hp]
  rfl

theorem State.pressPort_other (s : State) (p j : Nat) (h : j ≠ p) : ((s.pressPort p).port j).symbol = (s.port j).symbol := by
  rw [State.pressPort, State.suspendLock_symbol, State.port_onPort_ne _ _ _ _ h]

theorem State.pressPort_suspends (s : State) (hg : (s.portB p).group < 32) :
    ((s.pressPort p).group (s.portB p).group).lock.suspended = true := by
  rw [State.pressPort, State.suspendLock_group, State.lockSuspended, State.group_onGroup _ _ _ hg]

theorem State.pressPort_staysSuspended {j : Nat} (h : (s.group j).lock.suspended = true) (p : Nat) :
    ((s.pressPort p).group j).lock.suspended = true := by
  rw [State.pressPort, State.suspendLock_group, State.lockSuspended]
  rcases State.group_onGroup_cases (s.onPort p (fun q => { q with txPress := q.tx != .stop })) (s.portB p).group
    (fun r => { r with lock := { r.lock with suspended := true, quiet := 0 } }) j with e | e
  · rw [e]
    exact h
  · rw [e]

theorem State.mem_pressPorts_group (h : p ∈ s.pressPorts k) : (s.portB p).group < 32 := by
  simp only [State.pressPorts, List.mem_filter, Bool.and_eq_true, decide_eq_true_eq] at h
  exact h.2.1.2

theorem State.pressPorts_nodup (s : State) (k : Nat) : ((s.pressPorts k).map id).Nodup := by
  rw [List.map_id]
  exact (setBits_nodup _).filter _

theorem State.launchPressed_only (s : State) (k : Nat) : OnlyChanges [.groups, .ports] (s.launchCounted k) (s.launchPressed k) :=
  .foldl State.pressPort_only (.refl _ _)

/-- The press symbol goes to the ports that the launch reaches, but for a stop, and to no other (R113, R116, R169). -/
theorem State.launchPressed_symbol (hp : p < 48) :
    (p ∈ s.pressPorts k → ((s.launchPressed k).port p).txPress = ((s.port p).tx != .stop)) ∧
      (p ∉ s.pressPorts k → ((s.launchPressed k).port p).txPress = (s.port p).txPress) := by
  let symbol (u : State) (j : Nat) : SlotContent × Bool := (u.port j).symbol
  refine ⟨fun h => ?_, fun h => ?_⟩
  · refine foldl_unit_of_mem (key := id) (read := symbol) (fun x => x.2 = _) State.pressPort_only State.pressPort_other
      (s.pressPorts_nodup k) h fun u _ hu => ?_
    have htx : (u.port p).tx = (s.port p).tx := congrArg Prod.fst hu
    rw [← htx]
    exact congrArg Prod.snd (u.pressPort_self hp)
  · exact congrArg Prod.snd (foldl_unit_of_not_mem (key := id) (read := symbol) State.pressPort_other
      (by rwa [List.map_id]) (s.launchCounted k))

theorem State.launchPressed_suspends (h : p ∈ s.pressPorts k) :
    ((s.launchPressed k).group (s.portB p).group).lock.suspended = true := by
  refine foldl_reaches (fun u => u.active = s.active) (fun u : State => (u.group (s.portB p).group).lock.suspended = true)
    (fun u b _ hu => ((u.pressPort_only b).keeps_active (by decide)).trans hu) (fun u hu => ?_)
    (fun u b hu => State.pressPort_staysSuspended hu b) h rfl
  have hbank : u.portB p = s.portB p := by rw [State.portB, State.portB, hu]
  have hself := u.pressPort_suspends (p := p) (hbank ▸ State.mem_pressPorts_group h)
  rwa [hbank] at hself

/-- What follows the press symbol in a launch: its causes and its trigger of captures (R118, R323). -/
theorem State.requestLaunch_follows (hn : ¬ s.launchNear k) (hf : ¬ s.burstFull k) :
    OnlyChanges [.lint, .score] (s.launchPressed k) (s.requestLaunch k) := by
  rw [State.requestLaunch_launches hn hf]
  exact (State.captureEvent_only _ _ _).step rfl ((State.detectIf_only _ _ _ _).step rfl ((State.detect_only _ _ _).mono rfl))

theorem State.requestLaunch_press (hk : k < 4) (hn : ¬ s.launchNear k) (hf : ¬ s.burstFull k) :
    (s.requestLaunch k).press k = (s.press k).launched s.clock.slots s.shelfNs := by
  rw [(State.requestLaunch_follows hn hf).keeps_press (by decide), (s.launchPressed_only k).keeps_press (by decide)]
  exact State.press_onPress _ _ _ hk

theorem State.requestLaunch_otherPress {j : Nat} (hj : j ≠ k) : (s.requestLaunch k).press j = s.press j := by
  by_cases h : s.launchNear k ∨ s.burstFull k
  · rw [State.requestLaunch_suppressed h]
    exact State.press_onPress_ne _ _ _ _ hj
  · obtain ⟨hn, hf⟩ := not_or.mp h
    rw [(State.requestLaunch_follows hn hf).keeps_press (by decide), (s.launchPressed_only k).keeps_press (by decide)]
    exact State.press_onPress_ne _ _ _ _ hj

theorem State.requestLaunch_registers (hn : ¬ s.launchNear k) (hf : ¬ s.burstFull k) :
    Registers (s.requestLaunch k) (srcPress k) 0 ∧
      ((s.press k).count = (s.psetC k).burstMax → Registers (s.requestLaunch k) (srcPress k) 1) := by
  rw [State.requestLaunch_launches hn hf]
  have hlaunch := State.detect_registers (s.launchPressed k) (srcPress k) 0
  refine ⟨Registers.of_only (Registers.detectIf hlaunch _ _ _) (State.captureEvent_only _ _ _) (by decide) (by decide), fun hc => ?_⟩
  exact Registers.of_only (State.detectIf_registers _ (beq_iff_eq.mpr hc) _ _) (State.captureEvent_only _ _ _) (by decide)
    (by decide)

/-! ### A detector fires (R111, R115) -/

/-- A detector that has fired. -/
def DetectorRun.fires (r : DetectorRun) : DetectorRun :=
  { r with phase := .fired, triggers := r.triggers + 1, aboveFrom := none }

theorem State.detectorTrip_fires {n : Nat} (hp : (s.det n).phase = .armed) (he : (s.detC n).en = true)
    (hq : (s.det n).qualifier = true) : s.detectorTrip n = (s.onDet n (·.fires)).requestLaunch (s.detC n).set := by
  simp only [State.detectorTrip, hp, he, hq, beq_self_eq_true, Bool.and_self, if_true]
  rfl

theorem State.requestLaunch_det (s : State) (k j : Nat) : (s.requestLaunch k).det j = s.det j :=
  (State.requestLaunch_only s k).keeps_det (by decide) j

end

theorem detectorFires {s : State} {n : Nat} (hn : n < 8) (hb : s.boot.phase ≠ .held) (hp : (s.det n).phase = .armed)
    (he : (s.detC n).en = true) (hq : (s.det n).qualifier = true) :
    ∃ d t, d = s.fresh.onDet n (·.fires) ∧ t = d.requestLaunch (s.detC n).set ∧
      Machine.exec (.pressDetectorTrip n) s = .next t ∧ t.det n = (s.det n).fires ∧ ∀ j, j ≠ n → t.det j = s.det j := by
  refine ⟨_, _, rfl, rfl, (inService_eq hb _).trans (congrArg _ (State.detectorTrip_fires (s := s.fresh) hp he hq)), ?_,
    fun j hj => ?_⟩
  · exact (State.requestLaunch_det _ _ n).trans (State.det_onDet _ _ _ hn)
  · exact (State.requestLaunch_det _ _ j).trans (State.det_onDet_ne _ _ _ _ hj)

/-! ### The timers of detectors and bursts (R111, R117) -/

theorem detectorRearms {s : State} {n since : Nat} (hn : n < 8) (hb : s.boot.phase ≠ .held) (hp : (s.det n).phase = .fired)
    (he : (s.detC n).en = true) (ha : (s.det n).aboveFrom = some since) (ht : 2 ≤ s.clock.slots - since) :
    ∃ t, Machine.exec (.detectorRearm n) s = .next t ∧ OnlyChanges [.sent, .dets] s t ∧ (t.det n).phase = .armed := by
  have hrow : s.fresh.detectorRearm n = s.fresh.onDet n (fun r => { r with phase := .armed }) := by
    have hp : (s.fresh.det n).phase = .fired := hp
    have he : (s.fresh.detC n).en = true := he
    have ha : (s.fresh.det n).aboveFrom = some since := ha
    have ht : 2 ≤ s.fresh.clock.slots - since := ht
    simp only [State.detectorRearm, hp, he, ha, ht, beq_self_eq_true, decide_true, Bool.and_self, if_true]
  refine ⟨_, inService_eq hb _, (State.detectorRearm_only _ n).step rfl ((State.fresh_only s).mono rfl), ?_⟩
  rw [hrow, State.det_onDet _ _ _ hn]

theorem burstCloses {s : State} {k last : Nat} (hk : k < 4) (hb : s.boot.phase ≠ .held) (ho : (s.press k).burstOpen = true)
    (hl : (s.press k).lastAt = some last) (ht : 10000 ≤ elapsedUs s last) :
    ∃ t, Machine.exec (.pressBurstClose k) s = .next t ∧ OnlyChanges [.sent, .presses] s t ∧
      (t.press k).burstOpen = false ∧ (t.press k).burst = 0 := by
  have hrow : s.fresh.burstClose k = s.fresh.onPress k (fun r => { r with burstOpen := false, burst := 0 }) := by
    have ho : (s.fresh.press k).burstOpen = true := ho
    have hl : (s.fresh.press k).lastAt = some last := hl
    have ht : 10000 ≤ elapsedUs s.fresh last := ht
    simp only [State.burstClose, ho, hl, ht, decide_true, Bool.and_self, if_true]
  refine ⟨_, inService_eq hb _, (State.burstClose_only _ k).step rfl ((State.fresh_only s).mono rfl), ?_⟩
  rw [hrow, State.press_onPress _ _ _ hk]
  exact ⟨rfl, rfl⟩

/-- Settles O31: a trip fires the detector, then its set's request is suppressed or runs over the ports that it reaches. -/
theorem pressDetectorsAct : Obligations.PressDetectorsAct := by
  unfold Obligations.PressDetectorsAct
  refine ⟨fun s hb ho ht => excursionCloses hb ho ht, fun s h e ad => excursionRestarts ad, fun s n hn hb hp he hq hk => ?_,
    fun s n since hn hb hp he ha ht => detectorRearms hn hb hp he ha ht,
    fun s k last hk hb ho hl ht => burstCloses hk hb ho hl ht⟩
  intro k c r near full count
  obtain ⟨d, t, hd, ht, hexec, hself, hother⟩ := detectorFires hn hb hp he hq
  have hsd : OnlyChanges [.sent, .dets] s d := by
    rw [hd]
    exact (State.onDet_only _ n _).step rfl ((State.fresh_only s).mono rfl)
  refine ⟨t, hexec, congrArg DetectorRun.phase hself, congrArg DetectorRun.triggers hself, hother, fun j hj => ?_, fun h => ?_,
    fun hnear hfull => ?_⟩
  · rw [ht, State.requestLaunch_otherPress hj, hsd.keeps_press (by decide)]
  · have hsuppressed : d.requestLaunch k = d.onPress k (fun r => { r with suppressed := r.suppressed + 1 }) := by
      subst hd
      exact State.requestLaunch_suppressed h
    rw [ht, hsuppressed]
    refine ⟨(State.press_onPress _ _ _ hk).trans ?_, (State.onPress_only _ k _).step rfl (hsd.mono rfl)⟩
    rw [hsd.keeps_press (by decide)]
  · subst hd
    have hfollows := State.requestLaunch_follows (s := s.fresh.onDet n (·.fires)) (k := (s.detC n).set) hnear hfull
    rw [ht]
    refine ⟨State.requestLaunch_press hk hnear hfull, fun p hp => ?_, State.requestLaunch_registers hnear hfull⟩
    rw [hfollows.keeps_port (by decide), hfollows.keeps_group (by decide)]
    obtain ⟨hin, hout⟩ := State.launchPressed_symbol (s := s.fresh.onDet n (·.fires)) (k := k) hp
    exact ⟨fun h => ⟨hin h, State.launchPressed_suspends h⟩, hout⟩

end Sys2Proof.Machine
end

section
/-!
SUPPORT. Power-on resets: what they leave of the part, with VDD_AO kept and with it lost (R217, R239, R315, R414, R445, R459,
Table 16-3).
-/
namespace Sys2Proof.Machine
set_option Elab.async false

theorem vget_map {α β : Type} {n : Nat} {f : α → β} {d : α} {e : β} (h : f d = e) (v : Vector α n) (i : Nat) :
    vget (v.map f) i e = f (vget v i d) := by
  simp only [vget, Vector.getElem?_map, ← h, Option.getD_map]

theorem vget_replicate {α : Type} (n i : Nat) (d : α) : vget (Vector.replicate n d) i d = d := by
  simp only [vget, Vector.getElem?_replicate]
  split <;> rfl

/-- A completed commit of the boot record changes its copies, not the record. -/
theorem BootStore.commitDone_record (x : BootStore) : x.commitDone.toBootRecord = x.toBootRecord := by
  unfold BootStore.commitDone
  dsimp only
  split <;> rfl

theorem BootStore.commitDone_idle {x : BootStore} (h : x.writing = none) : x.commitDone = x := by
  simp only [BootStore.commitDone, h]

theorem BootStore.writing_idle {x : BootStore} (h : x.writing = none) : { x with writing := none } = x := by
  rw [← h]

theorem State.captureReset_recs (s : State) (c : Nat) : (s.captureReset c).score.recs = s.score.recs := by
  unfold State.captureReset
  extract_lets a
  split <;> rfl

/-- Power falls in the midst of record writes: only the records that count stay, and a warning stays one (R315, R316). -/
theorem State.supplyCut_score (s : State) :
    s.supplyCut.score.recs = s.counting ∧ s.supplyCut.score.stopped = s.score.stopped := by
  unfold State.supplyCut
  split
  case isTrue h => exact ⟨by simp [State.counting, h], rfl⟩
  case isFalse h =>
    have hcut : 0 < s.score.writing ∧ Config.freeCutWords s.draws % 8 < 8 := ⟨by omega, by omega⟩
    unfold State.cutRecord
    extract_lets k
    rw [if_pos hcut]
    exact ⟨rfl, rfl⟩

/-- Slot writes under way that are completed leave the count. -/
theorem StringRun.written_a (r : StringRun) : r.written.a = r.a := by
  unfold StringRun.written StringRun.checkDone StringRun.learnDone
  split <;> split <;> rfl

theorem State.stringAtPower_a (warned lost : Bool) (r : StringRun) :
    (State.stringAtPower warned lost r).a = if lost then 0 else r.a := by
  unfold State.stringAtPower
  extract_lets k
  have hk : k.a = r.a := by
    cases warned
    · rfl
    · exact r.written_a
  cases lost
  · exact hk
  · rfl

/-- A string that has not run is at a power-on reset what it is at the first. -/
theorem State.stringAtPower_reset (warned lost : Bool) : State.stringAtPower warned lost {} = {} := by
  cases warned <;> cases lost <;> rfl

/-- What a power-on reset leaves, with VDD_AO kept or lost, and absent from then on or not (Table 16-3, R459). -/
structure PowerReset (s t : State) (lost absent : Bool) : Prop where
  pending : t.pending = s.pending
  held : t.boot.phase = .held ∧ t.boot.powerOn = true ∧ t.boot.aoLost = absent ∧ t.boot.riseAt = some s.clock.up ∧
    t.boot.cause = if lost then 1 else 0
  settings : t.active = {} ∧ t.staged = {} ∧ t.cfg = {} ∧ t.commits = {}
  seats : ∀ k, (t.seat k).phase = .free
  sequencer : t.rails = State.reset.rails ∧ t.orders = State.reset.orders
  fuses : t.fuses.burned = if s.score.stopped then s.fuses.stitched else s.fuses.burned
  records : t.score.recs = s.counting
  slots : t.slots = s.slots
  bootRec : t.bootRec = if s.score.stopped then s.bootRec.commitDone else { s.bootRec with writing := none }
  safeSet : t.safeSet.copyA = s.safeSet.copyA ∧ t.safeSet.copyB = s.safeSet.copyB
  clock : t.clock.grid = 0 ∧ t.clock.shelf = if lost then 0 else s.clock.shelf
  counts : ∀ k, (t.str k).a = if lost then 0 else (s.str k).a

theorem State.powerReset_leaves (s : State) (lost : Bool) : PowerReset s (s.powerReset lost) lost false := by
  unfold State.powerReset
  extract_lets w _ _ t
  have hw : OnlyChanges [.working, .score, .draws] s w :=
    (State.supplyCut_only _).step rfl ((State.saveWorking_only s).mono rfl)
  have hscore : s.saveWorking.score = s.score := (State.saveWorking_only s).keeps_score (by decide)
  obtain ⟨hrecs, hstopped⟩ : w.score.recs = s.counting ∧ w.score.stopped = s.score.stopped := by
    obtain ⟨hr, hs⟩ := s.saveWorking.supplyCut_score
    exact ⟨by rw [hr, State.counting, hscore, State.counting], by rw [hs, hscore]⟩
  have hclock : w.clock = s.clock := hw.keeps_clock (by decide)
  have hend : OnlyChanges [.lint, .score] t ((List.range 8).foldl State.captureReset t) :=
    .foldl State.captureReset_only (.refl _ _)
  have hboot := hend.keeps_boot (by decide)
  have hsafe : w.safeSet = s.safeSet := hw.keeps_safeSet (by decide)
  exact {
    pending := (hend.keeps_pending (by decide)).trans (hw.keeps_pending (by decide))
    held := by
      rw [hboot]
      exact ⟨rfl, rfl, rfl, congrArg (fun c : Clock => some c.up) hclock, rfl⟩
    settings := ⟨hend.keeps_active (by decide), hend.keeps_staged (by decide), hend.keeps_cfg (by decide),
      hend.keeps_commits (by decide)⟩
    seats := fun k => by
      rw [hend.keeps_seat (by decide)]
      exact congrArg SeatRun.phase (vget_replicate 8 k {})
    sequencer := ⟨hend.keeps_rails (by decide), hend.keeps_orders (by decide)⟩
    fuses := by rw [hend.keeps_fuses (by decide), ← hw.keeps_fuses (by decide), ← hstopped]
    records := (foldl_same (fun u : State => u.score.recs) State.captureReset_recs _ t).trans hrecs
    slots := (hend.keeps_slots (by decide)).trans (hw.keeps_slots (by decide))
    bootRec := by rw [hend.keeps_bootRec (by decide), ← hw.keeps_bootRec (by decide), ← hstopped]
    safeSet := by
      rw [hend.keeps_safeSet (by decide), ← hsafe]
      exact ⟨rfl, rfl⟩
    clock := by
      rw [hend.keeps_clock (by decide), ← hclock]
      cases lost <;> exact ⟨rfl, rfl⟩
    counts := fun k => by
      have hstr : w.str k = s.str k := by rw [State.str, State.str, hw.keeps_strings (by decide)]
      have hmap : t.str k = State.stringAtPower w.score.stopped lost (w.str k) := 
        vget_map (State.stringAtPower_reset w.score.stopped lost) w.strings k
      rw [State.str, hend.keeps_strings (by decide), ← State.str, hmap, State.stringAtPower_a, hstr] }

/-- What is sent in an earlier step is no part of what a power-on reset leaves. -/
theorem PowerReset.of_fresh {s t : State} {lost absent : Bool} (h : PowerReset s.fresh t lost absent) :
    PowerReset s t lost absent := { h with }

/-- A loss of VDD_AO differs from the power-on reset at its return in that VDD_AO is absent from then on (R459). -/
theorem PowerReset.absent {s t : State} {lost present : Bool} (h : PowerReset s t lost present) :
    PowerReset s (t.onBoot (fun b => { b with aoLost := true })) lost true := by
  obtain ⟨hphase, hpower, -, hrise, hcause⟩ := h.held
  exact { h with held := ⟨hphase, hpower, rfl, hrise, hcause⟩ }

theorem powerOnReset_exec (s : State) :
    ∃ t, Machine.exec .powerOnReset s = .next t ∧ PowerReset s t s.boot.aoLost false :=
  ⟨_, rfl, (State.powerReset_leaves s.fresh _).of_fresh⟩

theorem vddAoLoss_exec {s : State} (h : s.boot.aoLost = false) :
    ∃ t, Machine.exec .vddAoLoss s = .next t ∧ PowerReset s t true true :=
  ⟨_, congrArg Host.Outcome.next (if_neg (by simp [State.fresh, h])), (State.powerReset_leaves s.fresh _).of_fresh.absent⟩

/-- Settles O58: one account of what a power-on reset leaves, which a loss of VDD_AO follows but for its flag. -/
theorem powerOnResetsClearThePart : Obligations.PowerOnResetsClearThePart := by
  unfold Obligations.PowerOnResetsClearThePart
  refine ⟨fun s h => congrArg Host.Outcome.next (if_pos h), fun s c lost hc => ?_⟩
  obtain ⟨t, hexec, hreset⟩ : ∃ t, Machine.exec c s = .next t ∧ PowerReset s t lost (decide (c = .vddAoLoss)) := by
    rcases hc with ⟨rfl, rfl⟩ | ⟨rfl, rfl, hpresent⟩
    · exact powerOnReset_exec s
    · rw [decide_eq_true rfl]
      exact vddAoLoss_exec hpresent
  obtain ⟨hphase, hpower, habsent, hrise, hcause⟩ := hreset.held
  obtain ⟨hactive, hstaged, hcfg, hcommits⟩ := hreset.settings
  obtain ⟨hrails, horders⟩ := hreset.sequencer
  obtain ⟨hA, hB⟩ := hreset.safeSet
  obtain ⟨hgrid, hshelf⟩ := hreset.clock
  have hrecord : t.bootRec.toBootRecord = s.bootRec.toBootRecord := by
    rw [hreset.bootRec]
    split
    · exact s.bootRec.commitDone_record
    · rfl
  have hidle (h : s.bootRec.writing = none) : t.bootRec = s.bootRec := by
    rw [hreset.bootRec]
    split
    · exact BootStore.commitDone_idle h
    · exact BootStore.writing_idle h
  have hcut (_ : s.bootRec.writing ≠ none) (h : s.score.stopped = false) : t.bootRec = { s.bootRec with writing := none } := by
    rw [hreset.bootRec, if_neg (by simp [h])]
  exact ⟨t, hexec, hreset.pending, hphase, hpower, habsent, hrise, hcause, hactive, hstaged, hcfg, hcommits, hreset.seats,
    hrails, horders, hreset.fuses, hreset.records, hreset.slots, hrecord, hidle, hcut, hA, hB, hgrid, hshelf, hreset.counts⟩

end Sys2Proof.Machine
end

section
/-!
SUPPORT. What each operation of a battery string leaves: of its own string the fields that it does not move, every other string
whole, and whether the firmware runs and commits begin (R215 to R242).
-/
namespace Sys2Proof.Machine
set_option Elab.async false

/-! ### Operations on one string -/

theorem OnlyChanges.keeps_str {ps : List Part} {s t : State} (h : OnlyChanges ps s t) (w : Part.strings ∉ ps) (k : Nat) :
    t.str k = s.str k := by
  simp only [State.str, h.keeps_strings w]

theorem OnlyChanges.keeps_strB {ps : List Part} {s t : State} (h : OnlyChanges ps s t) (w : Part.active ∉ ps) (k : Nat) :
    t.strB k = s.strB k := by
  simp only [State.strB, h.keeps_active w]

theorem OnlyChanges.keeps_shelfNs {ps : List Part} {s t : State} (h : OnlyChanges ps s t) (w : Part.clock ∉ ps) :
    t.shelfNs = s.shelfNs := by
  simp only [State.shelfNs, h.keeps_clock w]

/-- From `s` to `t` string `k` keeps what `p` reads of it, the other strings stand, and the firmware and the commits go on as
they did. -/
structure State.StringMoves {α : Type} (k : Nat) (p : StringRun → α) (s t : State) : Prop where
  self : p (t.str k) = p (s.str k)
  other : ∀ j, j ≠ k → t.str j = s.str j
  fw : t.fw = s.fw
  stopped : t.score.stopped = s.score.stopped

namespace State.StringMoves

variable {α : Type} {k : Nat} {p : StringRun → α} {s a b : State}

theorem refl (s : State) : StringMoves k p s s := ⟨rfl, fun _ _ => rfl, rfl, rfl⟩

theorem trans (h : StringMoves k p s a) (m : StringMoves k p a b) : StringMoves k p s b :=
  ⟨m.self.trans h.self, fun j hj => (m.other j hj).trans (h.other j hj), m.fw.trans h.fw, m.stopped.trans h.stopped⟩

theorem ite {c : Prop} [Decidable c] (h : StringMoves k p s a) (m : StringMoves k p s b) :
    StringMoves k p s (if c then a else b) := by
  split <;> assumption

/-- What reads nothing that moves is kept as well. -/
theorem weaken {β : Type} {p : StringRun → StringRun} (h : StringMoves k p s a) (q : StringRun → β)
    (hq : ∀ r, q (p r) = q r := by intro _; rfl) : StringMoves k q s a :=
  ⟨by rw [← hq, ← hq (s.str k), h.self], h.other, h.fw, h.stopped⟩

theorem onStr (s : State) (k : Nat) {f : StringRun → StringRun} (hf : p (f (s.str k)) = p (s.str k)) :
    StringMoves k p s (s.onStr k f) := by
  refine ⟨?_, fun j hj => State.str_onStr_ne s k f j hj, rfl, rfl⟩
  by_cases hk : k < 8
  · rw [State.str_onStr s k f hk, hf]
  · simp [State.onStr, State.str, vmod, hk]

theorem of_only {ps : List Part} (h : OnlyChanges ps s a) (w : ∀ x ∈ [Part.strings, .score, .hardwareRun], x ∉ ps) :
    StringMoves k p s a := by
  have hscore := h.keeps_score (w _ (by simp))
  have hkeeps (j : Nat) : a.str j = s.str j := h.keeps_str (w _ (by simp)) j
  exact ⟨congrArg p (hkeeps k), fun j _ => hkeeps j, by rw [State.fw, State.fw, hscore, h.keeps_hardwareRun (w _ (by simp))],
    congrArg ScoreRun.stopped hscore⟩

end State.StringMoves

/-! ### The fields that each operation moves -/

/-- All of a string but its flags and its forms (R229, R230, R235, R236). -/
def StringRun.sansForms (r : StringRun) : StringRun :=
  { r with emptied := false, disagree := false, early := false, delta := 0, fac := 0, wl := 0, seen := {} }

/-- All of a string but I_CV (R221). -/
def StringRun.sansSetpoint (r : StringRun) : StringRun := { r with iCv := 0 }

/-- All of a string but the runs of its conditions (R222, R228). -/
def StringRun.sansRuns (r : StringRun) : StringRun :=
  { r with termFrom := none, rechgFrom := none, emptyFrom := none, emptyDone := false }

/-- All of a string but its learning cycle (R232). -/
def StringRun.sansCycle (r : StringRun) : StringRun := { r with cycle := none }

/-- All of a string but what the start of its count sets (R231). -/
def StringRun.sansStart (r : StringRun) : StringRun := { r with counted := false, uncertain := false, aRef := 0 }

/-- All of a string but its charge state and what a full anchor sets (Table 07-2, R227, R230). -/
def StringRun.sansCharge (r : StringRun) : StringRun :=
  { r with phase := .bulk, termFrom := none, rechgFrom := none, aRef := 0, lastFull := 0, uncertain := false, early := false
           cycle := none }

/-- All of a string but its capacity with the commit of it (R238). -/
def StringRun.sansCommit (r : StringRun) : StringRun :=
  { r with cap := 0, slots := Vector.replicate 2 {}, inForce := 2, writing := none }

/-- All of a string but its capacity and what learning sets with it (R233). -/
def StringRun.sansCapacity (r : StringRun) : StringRun := { r.sansCommit with eohRes := 0, learns := 0, rejected := false }

/-- All of a string but its capacity and what an empty anchor sets (R228). -/
def StringRun.sansAnchor (r : StringRun) : StringRun :=
  { r.sansCapacity with aRef := 0, lastEmpty := 0, emptied := false, emptyDone := false, uncertain := false, cycle := none }

/-- The accumulator with the readings of its last tick (R215, R216). -/
def StringRun.meter (r : StringRun) : StringRun :=
  { a := r.a, remNum := r.remNum, remDen := r.remDen, current := r.current, bsv := r.bsv }

theorem StringRun.meter_inj {r t : StringRun} (h : r.meter = t.meter) :
    r.a = t.a ∧ r.remNum = t.remNum ∧ r.remDen = t.remDen ∧ r.current = t.current ∧ r.bsv = t.bsv := by
  simpa [StringRun.meter] using h

/-- The capacity in force with the commands that wait and the learn flags (R233, R240). -/
def StringRun.ledger (r : StringRun) : StringRun :=
  { cap := r.cap, learns := r.learns, rejected := r.rejected, learnLost := r.learnLost, writing := r.writing
    clearReq := r.clearReq, restoreReq := r.restoreReq }

/-! ### Capacity slots -/

theorem StringRun.learnDone_sansCommit (r : StringRun) : r.learnDone.sansCommit = r.sansCommit := by
  unfold StringRun.learnDone
  split <;> rfl

theorem StringRun.learnDone_cap (r : StringRun) : r.learnDone.cap = r.cap ∧ r.learnDone.learns = r.learns := by
  unfold StringRun.learnDone
  split <;> exact ⟨rfl, rfl⟩

/-- What a commit begins stands beside the capacity, which it leaves. -/
theorem StringRun.commitLearn_capacity (r : StringRun) (b : StringBank) (shelf now : Nat) :
    (r.commitLearn b shelf now).cap = r.cap ∧ (r.commitLearn b shelf now).learns = r.learns ∧
      (r.commitLearn b shelf now).writing.isSome = true := by
  obtain ⟨hcap, hlearns⟩ := r.learnDone_cap
  exact ⟨hcap, hlearns, rfl⟩

theorem StringRun.commitLearn_sansCommit (r : StringRun) (b : StringBank) (shelf now : Nat) :
    (r.commitLearn b shelf now).sansCommit = r.sansCommit := r.learnDone_sansCommit

theorem StringRun.commitLearn_sansCapacity (r : StringRun) (b : StringBank) (shelf now : Nat) :
    (r.commitLearn b shelf now).sansCapacity = r.sansCapacity := by
  have h := congrArg StringRun.sansCapacity (r.commitLearn_sansCommit b shelf now)
  exact h

/-! ### One operation at a time -/

theorem State.recordAt_running (s : State) (time episode kind : Nat) (payload : List Byte) :
    (s.recordAt time episode kind payload).fw = s.fw ∧
      (s.recordAt time episode kind payload).score.stopped = s.score.stopped := by
  unfold State.recordAt
  split <;> exact ⟨rfl, rfl⟩

section
variable (s : State) (k : Nat)

theorem State.detect_moves {α : Type} {p : StringRun → α} (src cause : Nat) : StringMoves k p s (s.detect src cause) :=
  .of_only (State.detect_only s src cause) (by decide)

theorem State.blockEvent_moves {α : Type} {p : StringRun → α} (block number cause : Nat) (data : List Byte) :
    StringMoves k p s (s.blockEvent block number cause data) := by
  have hkeeps (j : Nat) := (State.blockEvent_only s block number cause data).keeps_str (by decide) j
  obtain ⟨hfw, hstopped⟩ := s.recordAt_running s.shelfNs s.openEpisode 5 _
  exact ⟨congrArg p (hkeeps k), fun j _ => hkeeps j, hfw, hstopped⟩

theorem State.stringFlags_moves : StringMoves k StringRun.sansForms s (s.stringFlags k) := .onStr s k rfl

theorem State.formsAt_moves (delta : Int) : StringMoves k StringRun.sansForms s (s.formsAt k delta) := .onStr s k rfl

theorem State.stringSeen_moves : StringMoves k StringRun.sansForms s (s.stringSeen k) := .onStr s k rfl

theorem State.stringSetpoints_moves {α : Type} {p : StringRun → α} : StringMoves k p s (s.stringSetpoints k) :=
  .of_only (State.stringSetpoints_only s k) (by decide)

theorem State.countStart_moves : StringMoves k StringRun.sansStart s (s.countStart k) := by
  unfold State.countStart
  extract_lets r i c
  exact .ite (.refl s) (.ite (.onStr s k rfl) (.ite (.trans (.onStr s k rfl) (State.detect_moves _ k _ _)) (.onStr s k rfl)))

theorem State.stringRuns_moves : StringMoves k StringRun.sansRuns s (s.stringRuns k) := .onStr s k rfl

theorem State.cycleTick_moves (dA : Int) : StringMoves k StringRun.sansCycle s (s.cycleTick k dA) := .onStr s k rfl

theorem State.fullAnchor_moves : StringMoves k StringRun.sansCharge s (s.fullAnchor k) := .onStr s k rfl

theorem State.chargeState_moves : StringMoves k StringRun.sansCharge s (s.chargeState k) := by
  unfold State.chargeState
  extract_lets ended row u
  have hu : StringMoves k StringRun.sansCharge s u := .onStr s k rfl
  exact .ite (hu.trans (State.fullAnchor_moves u k)) hu

theorem State.learn_moves (c : LearnCycle) : StringMoves k StringRun.sansCapacity s (s.learn k c) := by
  unfold State.learn
  extract_lets r cand res
  refine .ite (.refl s) (.ite (.onStr s k ?_) (.trans (.onStr s k rfl) (State.blockEvent_moves _ k 4 k 1 _)))
  split
  · rfl
  · exact StringRun.commitLearn_sansCapacity _ _ _ _

/-- The string with what the cycle that an empty anchor ends has taught (R233). -/
def State.cycleLearned : State := match (s.str k).cycle with | some c => s.learn k c | none => s

theorem State.cycleLearned_moves : StringMoves k StringRun.sansCapacity s (s.cycleLearned k) := by
  unfold State.cycleLearned
  split
  · exact State.learn_moves s k _
  · exact .refl s

theorem State.emptyAnchor_steps : s.emptyAnchor k = (s.cycleLearned k).onStr k (fun r => { r with
    aRef := r.a, lastEmpty := (s.cycleLearned k).shelfNs, emptied := true, emptyDone := true, uncertain := false
    cycle := none }) := rfl

theorem State.emptyAnchor_moves : StringMoves k StringRun.sansAnchor s (s.emptyAnchor k) := by
  rw [State.emptyAnchor_steps]
  refine .trans ((s.cycleLearned_moves k).weaken StringRun.sansAnchor) (.onStr _ k rfl)

theorem State.clearLearnFlags_moves :
    StringMoves k (fun r => ({ r with rejected := false, learnLost := false } : StringRun)) s (s.clearLearnFlags k) :=
  .onStr s k rfl

/-- The capacity of the configuration in force again, with its commit. -/
def State.nominalTaken : State :=
  s.onStr k (fun r =>
    let r := { r with cap := (s.strB k).cNom }
    if s.score.stopped then r else r.commitLearn (s.strB k) s.shelfNs s.clock.slots)

theorem State.nominalTaken_moves : StringMoves k StringRun.sansCommit s (s.nominalTaken k) := by
  refine .onStr s k ?_
  dsimp only
  split
  · rfl
  · exact StringRun.commitLearn_sansCommit _ _ _ _

theorem State.restoreNominal_follows : StringMoves k StringRun.sansForms (s.nominalTaken k) (s.restoreNominal k) :=
  .ite ((State.stringFlags_moves _ k).trans (State.formsAt_moves _ k _)) (.refl _)

theorem State.restoreNominal_moves : StringMoves k (fun r => r.sansCommit.sansForms) s (s.restoreNominal k) :=
  ((s.nominalTaken_moves k).weaken _).trans ((s.restoreNominal_follows k).weaken _)

theorem State.stringRow_follows (f : State → State) : StringMoves k StringRun.sansForms (f s) (s.stringRow k f) := by
  unfold State.stringRow
  extract_lets b1 u v
  have hv : StringMoves k StringRun.sansForms u v :=
    .ite ((State.stringFlags_moves u k).trans (State.formsAt_moves _ k _)) (.refl u)
  exact (hv.trans (State.stringSetpoints_moves v k)).trans (State.stringSeen_moves _ k)

end

end Sys2Proof.Machine
end

section
/-!
SUPPORT. A string tick: the count with its remainder, the stages of the tick, and the run over all strings (R215, R216, R217,
R234, R240).
-/
namespace Sys2Proof.Machine
set_option Elab.async false

/-! ### The count (R215, R216) -/

/-- A quotient `num / den` in lowest terms of its remainder: whole part and remainder make up the quotient exactly. -/
theorem ediv_reduced {num : Int} {den : Nat} (h : 0 < den) :
    let g := Nat.gcd (num % den).toNat den
    (num / den * ((den / g : Nat) : Int) + num % den / g) * den = num * ((den / g : Nat) : Int) ∧ 0 ≤ num % den / g ∧
      num % den / g < ((den / g : Nat) : Int) ∧ 0 < den / g := by
  intro g
  have hden : (den : Int) ≠ 0 := by omega
  obtain ⟨left, hleft⟩ := Int.eq_ofNat_of_zero_le (Int.emod_nonneg num hden)
  have hg : g = Nat.gcd left den := by simp only [g, hleft, Int.toNat_natCast]
  have hgpos : 0 < g := hg ▸ Nat.gcd_pos_of_pos_right left h
  obtain ⟨m, hm⟩ : g ∣ left := hg ▸ Nat.gcd_dvd_left left den
  obtain ⟨d, hd⟩ : g ∣ den := hg ▸ Nat.gcd_dvd_right left den
  have hdiv : den / g = d := by rw [hd, Nat.mul_div_cancel_left _ hgpos]
  have hrem : num % den / g = m := by
    rw [hleft, hm, Nat.cast_mul, Int.mul_ediv_cancel_left _ (by omega)]
  have hnum : (den : Int) * (num / den) + (g : Int) * m = num := by
    rw [← Nat.cast_mul, ← hm, ← hleft]
    exact Int.mul_ediv_add_emod num den
  have hlt : m < d := by
    have := Int.emod_lt_of_pos num (show (0 : Int) < den by omega)
    rw [hleft, hm, hd] at this
    exact Nat.lt_of_mul_lt_mul_left (a := g) (by omega)
  rw [hdiv, hrem]
  refine ⟨?_, by omega, by omega, by omega⟩
  calc (num / den * (d : Int) + m) * den = num / den * d * den + m * den := by ring
    _ = num / den * d * den + m * (g * d) := by rw [hd, Nat.cast_mul]
    _ = (den * (num / den) + g * m) * d := by ring
    _ = num * d := by rw [hnum]

/-- A tick's count is exact: A with its remainder grows by the charge of the tick (R215, R216). -/
theorem StringRun.count_exact (r : StringRun) (b : StringBank) (y : StringIn) (hr : 0 < r.remDen) (hb : 0 < b.shuntR) :
    let q := chargeOf b y.native
    let t := r.count b y
    (t.a * t.remDen + t.remNum) * (r.remDen * q.2) = ((r.a * r.remDen + r.remNum) * q.2 + q.1 * r.remDen) * t.remDen ∧
      0 ≤ t.remNum ∧ t.remNum < t.remDen ∧ 0 < t.remDen := by
  intro q t
  have hq : 0 < q.2 := Nat.mul_pos (by decide) hb
  let num : Int := r.remNum * q.2 + q.1 * r.remDen
  let den : Nat := r.remDen * q.2
  obtain ⟨hexact, hrest⟩ : (num / den * t.remDen + t.remNum) * den = num * t.remDen ∧
      0 ≤ t.remNum ∧ t.remNum < t.remDen ∧ 0 < t.remDen := ediv_reduced (Nat.mul_pos hr hq)
  have ha : t.a = r.a + num / den := rfl
  have hden : (den : Int) = r.remDen * q.2 := Nat.cast_mul _ _
  refine ⟨?_, hrest⟩
  calc (t.a * t.remDen + t.remNum) * (r.remDen * q.2)
      = r.a * (r.remDen * q.2) * t.remDen + (num / den * t.remDen + t.remNum) * den := by rw [ha, hden]; ring
    _ = r.a * (r.remDen * q.2) * t.remDen + num * t.remDen := by rw [hexact]
    _ = ((r.a * r.remDen + r.remNum) * q.2 + q.1 * r.remDen) * t.remDen := by ring

/-! ### Commands at a tick (R240, R369) -/

section
variable {s : State} {k : Nat}

theorem State.nominalTaken_self (hk : k < 8) : ((s.nominalTaken k).str k).cap = (s.strB k).cNom ∧
    (s.score.stopped = false → ((s.nominalTaken k).str k).writing.isSome = true) := by
  rw [State.nominalTaken, State.str_onStr _ _ _ hk]
  dsimp only
  split
  case isTrue h => exact ⟨rfl, fun hs => absurd h (by simp [hs])⟩
  case isFalse h =>
    obtain ⟨hcap, -, hwriting⟩ := StringRun.commitLearn_capacity { s.str k with cap := (s.strB k).cNom } (s.strB k) s.shelfNs
      s.clock.slots
    exact ⟨hcap, fun _ => hwriting⟩

/-- The commands of string `k` that were due are taken at a tick, the others wait on (R240, R369). -/
structure RequestsTaken (s t : State) (k : Nat) : Prop where
  clearReq : (t.str k).clearReq = if s.due (s.str k).clearReq then none else (s.str k).clearReq
  restoreReq : (t.str k).restoreReq = if s.due (s.str k).restoreReq then none else (s.str k).restoreReq
  cleared : s.due (s.str k).clearReq = true → (t.str k).learnLost = false ∧ (t.str k).rejected = false
  restored : s.due (s.str k).restoreReq = true →
    (t.str k).cap = (s.strB k).cNom ∧ (s.score.stopped = false → (t.str k).writing.isSome = true)

theorem State.stringRequests_taken (hk : k < 8) : RequestsTaken s (s.stringRequests k) k := by
  unfold State.stringRequests
  extract_lets r a c
  have ha : OnlyChanges [.strings] s a := .ite (State.clearLearnFlags_only s k) (.refl _ s)
  have hc : OnlyChanges [.strings] s c := .ite ((State.restoreNominal_only a k).step rfl ha) ha
  have hself := State.str_onStr c k (fun x => { x with
    clearReq := if c.due r.clearReq then none else r.clearReq
    restoreReq := if c.due r.restoreReq then none else r.restoreReq }) hk
  have hdue (q : Option Nat) : c.due q = s.due q := hc.keeps_due (by decide) q
  have hrestored (h : s.due r.restoreReq = true) : StringMoves k StringRun.sansForms (a.nominalTaken k) c := by
    have hstep : c = a.restoreNominal k := if_pos ((ha.keeps_due (by decide) _).trans h)
    exact hstep ▸ a.restoreNominal_follows k
  refine ⟨?_, ?_, fun h => ?_, fun h => ?_⟩
  · rw [hself]
    exact congrArg (fun d => if d then none else r.clearReq) (hdue r.clearReq)
  · rw [hself]
    exact congrArg (fun d => if d then none else r.restoreReq) (hdue r.restoreReq)
  · have hstep : a = s.clearLearnFlags k := if_pos h
    have hcleared : (a.str k).learnLost = false ∧ (a.str k).rejected = false := by
      rw [hstep, State.clearLearnFlags, State.str_onStr _ _ _ hk]
      exact ⟨rfl, rfl⟩
    have hforms : StringMoves k (fun r => r.sansCommit.sansForms) a c := .ite (a.restoreNominal_moves k) (.refl a)
    rw [hself]
    exact ⟨(congrArg StringRun.learnLost hforms.self).trans hcleared.1,
      (congrArg StringRun.rejected hforms.self).trans hcleared.2⟩
  · obtain ⟨hcap, hwriting⟩ := State.nominalTaken_self (s := a) hk
    have hforms := (hrestored h).self
    rw [hself]
    refine ⟨(congrArg StringRun.cap hforms).trans (hcap.trans ?_), fun hs => ?_⟩
    · rw [ha.keeps_strB (by decide)]
    · exact (congrArg (fun x : StringRun => x.writing.isSome) hforms).trans
        (hwriting ((congrArg ScoreRun.stopped (ha.keeps_score (by decide))).trans hs))

/-- A string as a tick finds it: a first count after a start is begun, and the commands that are due are taken. -/
def State.tickBegun (s : State) (k : Nat) : State := (if s.fw then s.countStart k else s).stringRequests k

theorem State.countStarted_moves (s : State) (k : Nat) :
    StringMoves k StringRun.sansStart s (if s.fw then s.countStart k else s) := .ite (s.countStart_moves k) (.refl s)

theorem State.countStarted_only (s : State) (k : Nat) : OnlyChanges [.strings, .lint] s (if s.fw then s.countStart k else s) :=
  .ite (s.countStart_only k) (.refl _ s)

theorem State.stringRequests_moves (s : State) (k : Nat) : StringMoves k StringRun.meter s (s.stringRequests k) := by
  unfold State.stringRequests
  extract_lets r a c
  have ha : StringMoves k StringRun.meter s a := .ite ((s.clearLearnFlags_moves k).weaken StringRun.meter) (.refl s)
  have hc : StringMoves k StringRun.meter a c := .ite ((a.restoreNominal_moves k).weaken StringRun.meter) (.refl a)
  exact (ha.trans hc).trans (.onStr c k rfl)

theorem State.tickBegun_moves (s : State) (k : Nat) : StringMoves k StringRun.meter s (s.tickBegun k) :=
  ((s.countStarted_moves k).weaken StringRun.meter).trans (State.stringRequests_moves _ k)

theorem State.tickBegun_only (s : State) (k : Nat) : OnlyChanges [.strings, .lint] s (s.tickBegun k) :=
  (State.stringRequests_only _ k).step rfl (s.countStarted_only k)

theorem State.tickBegun_taken (hk : k < 8) : RequestsTaken s (s.tickBegun k) k := by
  let a := if s.fw then s.countStart k else s
  have only : OnlyChanges [.strings, .lint] s a := s.countStarted_only k
  have hmoves := s.countStarted_moves k
  have hclear : (a.str k).clearReq = (s.str k).clearReq := (hmoves.weaken StringRun.clearReq).self
  have hrestore : (a.str k).restoreReq = (s.str k).restoreReq := (hmoves.weaken StringRun.restoreReq).self
  have hdue (q : Option Nat) : a.due q = s.due q := only.keeps_due (by decide) q
  have hbank : a.strB k = s.strB k := only.keeps_strB (by decide) k
  have hstopped : a.score.stopped = s.score.stopped := hmoves.stopped
  obtain ⟨h1, h2, h3, h4⟩ := State.stringRequests_taken (s := a) hk
  rw [hclear, hdue] at h1 h3
  rw [hrestore, hdue] at h2 h4
  rw [hbank, hstopped] at h4
  exact ⟨h1, h2, h3, h4⟩

/-! ### The stages of a tick (R234) -/

theorem State.lasted_none (s : State) (ms : Nat) : s.lasted none ms = false := rfl

/-- Above the empty voltage no condition of the empty anchor runs on (R228). -/
theorem State.stringRuns_aboveEmpty (hk : k < 8) (h : (s.strB k).emptyV < (s.str k).bsv) :
    ((s.stringRuns k).str k).emptyFrom = none := by
  unfold State.stringRuns
  extract_lets b r atEmpty
  have hnot : atEmpty = false := by simp [atEmpty, b, r, Int.not_le.mpr h]
  rw [State.str_onStr _ _ _ hk]
  simp only [hnot]
  rfl

theorem State.stringFirmware_follows (s : State) (k : Nat) (b1 : Int) :
    StringMoves k StringRun.sansForms (if s.fw && s.emptyDue k then s.emptyAnchor k else s) (s.stringFirmware k b1) := by
  unfold State.stringFirmware
  cases hf : s.fw with
  | false => exact .refl s
  | true => exact (State.stringFlags_moves _ k).trans (State.formsAt_moves _ k _)

/-- All of a string but what a tick moves between the count and the anchor. -/
def StringRun.sansTick (r : StringRun) : StringRun := r.sansSetpoint.sansRuns.sansCycle.sansCharge

/-- A tick of a string: its commands, the count and the charge state; then the anchor, where one is due, and the forms. -/
theorem State.stringTick_stages (s : State) (hk : k < 8) (y : StringIn) :
    ∃ w, StringMoves k StringRun.ledger (s.tickBegun k) w ∧
      (w.str k).meter = (((s.tickBegun k).str k).count (s.strB k) y).meter ∧
      ((s.strB k).emptyV < y.bsv → w.emptyDue k = false) ∧
      StringMoves k StringRun.sansForms (if w.fw && w.emptyDue k then w.emptyAnchor k else w) (s.stringTick k y) := by
  unfold State.stringTick
  extract_lets b v a0 c dA b1 c1 c2 c3 w t
  have hv : s.tickBegun k = v := rfl
  have hb : s.strB k = b := rfl
  rw [hv, hb]
  have hc : c.str k = (v.str k).count b y := State.str_onStr v k _ hk
  have hcount : OnlyChanges [.strings, .lint] s c := (State.onStr_only v k _).step rfl (s.tickBegun_only k)
  have hvc : StringMoves k StringRun.ledger v c := .onStr v k rfl
  have hc1 : StringMoves k StringRun.sansSetpoint c c1 := .ite (.onStr c k rfl) (.refl c)
  have hc2 : StringMoves k StringRun.sansRuns c1 c2 := c1.stringRuns_moves k
  have hc3 : StringMoves k StringRun.sansCycle c2 c3 := .ite (c2.cycleTick_moves k dA) (.onStr c2 k rfl)
  have hw : StringMoves k StringRun.sansCharge c3 w := c3.chargeState_moves k
  have hcw : StringMoves k StringRun.sansTick c w :=
    (hc1.weaken StringRun.sansTick).trans ((hc2.weaken StringRun.sansTick).trans
      ((hc3.weaken StringRun.sansTick).trans (hw.weaken StringRun.sansTick)))
  refine ⟨w, hvc.trans (hcw.weaken StringRun.ledger), ?_, fun h => ?_, ?_⟩
  · rw [← hc]
    exact (hcw.weaken StringRun.meter).self
  · have honly : OnlyChanges [.strings, .lint] s c1 :=
      .ite ((State.onStr_only _ k _).step rfl hcount) hcount
    have hbank : c1.strB k = s.strB k := honly.keeps_strB (by decide) k
    have hbsv : (c1.str k).bsv = y.bsv := by
      rw [(hc1.weaken StringRun.bsv).self, hc]
      rfl
    have hruns : (w.str k).emptyFrom = none :=
      ((hc3.weaken StringRun.emptyFrom).trans (hw.weaken StringRun.emptyFrom)).self.trans
        (State.stringRuns_aboveEmpty hk (by rw [hbank, hbsv]; exact h))
    simp only [State.emptyDue, hruns, State.lasted_none, Bool.and_false]
  · exact ((w.stringFirmware_follows k b1).trans (State.stringSetpoints_moves t k)).trans (State.stringSeen_moves _ k)

/-- What a tick leaves in the counter of its string is the count of the tick alone (R216). -/
theorem State.stringTick_meter (s : State) (hk : k < 8) (y : StringIn) :
    ((s.stringTick k y).str k).meter = ((s.str k).count (s.strB k) y).meter := by
  obtain ⟨w, -, hmeter, -, hrest⟩ := s.stringTick_stages hk y
  have hanchor : StringMoves k StringRun.meter w (if w.fw && w.emptyDue k then w.emptyAnchor k else w) :=
    .ite ((w.emptyAnchor_moves k).weaken StringRun.meter) (.refl w)
  have hbegun := congrArg (fun r : StringRun => (r.count (s.strB k) y).meter) (s.tickBegun_moves k).self
  exact (hanchor.trans (hrest.weaken StringRun.meter)).self.trans (hmeter.trans hbegun)

/-- A tick of a string leaves the others, and whether the firmware runs and commits begin. -/
theorem State.stringTick_moves (s : State) (hk : k < 8) (y : StringIn) :
    StringMoves k (fun _ => ()) s (s.stringTick k y) := by
  obtain ⟨w, hledger, -, -, hrest⟩ := s.stringTick_stages hk y
  have hanchor : StringMoves k (fun _ => ()) w (if w.fw && w.emptyDue k then w.emptyAnchor k else w) :=
    .ite ((w.emptyAnchor_moves k).weaken fun _ => ()) (.refl w)
  exact ((s.tickBegun_moves k).weaken fun _ => ()).trans ((hledger.weaken fun _ => ()).trans
    (hanchor.trans (hrest.weaken fun _ => ())))

/-! ### The run over all strings -/

/-- What a string tick does to string `k`: while the logic die is in reset its counter runs alone (R217). -/
def State.stringStep (x : Vector StringIn 8) (s : State) (k : Nat) : State :=
  match x[k]? with
  | some y => if s.boot.phase == .held then s.onStr k (fun r => r.count (s.strB k) y) else s.stringTick k y
  | none => s

theorem State.stringTickAll_steps {x : Vector StringIn 8} (h : s.boot.phase = .held ∨ s.onGrid 2000 = true) :
    s.stringTickAll x = (List.range 8).foldl (State.stringStep x) s := by
  unfold State.stringTickAll
  rw [if_neg (by rcases h with h | h <;> simp [h])]
  rfl

theorem State.stringTickAll_offGrid {x : Vector StringIn 8} (hb : s.boot.phase ≠ .held) (hg : s.onGrid 2000 = false) :
    s.stringTickAll x = s := if_pos (by simp [hb, hg])

theorem State.stringStep_moves (x : Vector StringIn 8) (s : State) (k : Nat) :
    StringMoves k (fun _ => ()) s (s.stringStep x k) := by
  unfold State.stringStep
  split
  case h_1 y hy => exact .ite (.onStr s k rfl) (s.stringTick_moves (Vector.getElem?_eq_some_iff.mp hy).1 y)
  case h_2 => exact .refl s

theorem State.stringStep_only (x : Vector StringIn 8) (s : State) (k : Nat) :
    OnlyChanges [.staged, .strings, .lint, .score, .commits] s (s.stringStep x k) := by
  unfold State.stringStep
  split
  · exact .ite ((State.onStr_only _ _ _).mono rfl) (State.stringTick_only _ _ _)
  · exact .refl _ s

/-- The run comes to each string once, in a state that the others have left to it. -/
theorem State.stringTickAll_reaches {x : Vector StringIn 8} {y : StringIn} (hx : x[k]? = some y)
    (h : s.boot.phase = .held ∨ s.onGrid 2000 = true) :
    ∃ u, OnlyChanges [.staged, .strings, .lint, .score, .commits] s u ∧ u.str k = s.str k ∧ u.fw = s.fw ∧
      u.score.stopped = s.score.stopped ∧
      (s.stringTickAll x).str k =
        (if s.boot.phase == .held then u.onStr k (fun r => r.count (u.strB k) y) else u.stringTick k y).str k := by
  have hk : k < 8 := (Vector.getElem?_eq_some_iff.mp hx).1
  rw [State.stringTickAll_steps h]
  let read (u : State) (j : Nat) : StringRun × Bool × Bool := (u.str j, u.fw, u.score.stopped)
  refine foldl_unit_of_mem (read := read) (key := id)
    (fun r => ∃ u, OnlyChanges _ s u ∧ u.str k = s.str k ∧ u.fw = s.fw ∧ u.score.stopped = s.score.stopped ∧
      r.1 = (if s.boot.phase == .held then u.onStr k (fun r => r.count (u.strB k) y) else u.stringTick k y).str k)
    (State.stringStep_only x) (fun u a j hj => ?_) (l := List.range 8) (a := k) ?_ (List.mem_range.mpr hk) fun u hu hr => ?_
  · have hmoves := u.stringStep_moves x a
    exact Prod.ext (hmoves.other j hj) (Prod.ext hmoves.fw hmoves.stopped)
  · rw [List.map_id]
    exact List.nodup_range
  · obtain ⟨hstr, hrest⟩ := Prod.mk.inj hr
    obtain ⟨hfw, hstopped⟩ := Prod.mk.inj hrest
    refine ⟨u, hu, hstr, hfw, hstopped, ?_⟩
    have hstep : u.stringStep x k =
        if u.boot.phase == .held then u.onStr k (fun r => r.count (u.strB k) y) else u.stringTick k y := by
      simp only [State.stringStep, hx]
    rw [hu.keeps_boot (by decide)] at hstep
    exact congrArg (fun v : State => v.str k) hstep

theorem State.stringTickAll_meter {x : Vector StringIn 8} {y : StringIn} (hx : x[k]? = some y)
    (h : s.boot.phase = .held ∨ s.onGrid 2000 = true) :
    ((s.stringTickAll x).str k).meter = ((s.str k).count (s.strB k) y).meter := by
  have hk : k < 8 := (Vector.getElem?_eq_some_iff.mp hx).1
  obtain ⟨u, hu, hstr, -, -, ht⟩ := State.stringTickAll_reaches hx h
  rw [ht, ← hu.keeps_strB (by decide), ← hstr]
  split
  · rw [State.str_onStr _ _ _ hk]
  · exact u.stringTick_meter hk y

/-- While the logic die is in reset nothing but the counters runs (R217, R226). -/
theorem State.stringTickAll_held (x : Vector StringIn 8) (h : s.boot.phase = .held) :
    OnlyChanges [.strings] s (s.stringTickAll x) := by
  rw [State.stringTickAll_steps (.inl h)]
  refine List.foldlRecOn (motive := fun u => OnlyChanges [.strings] s u) _ _ (.refl _ s) fun u hu k _ => ?_
  have hheld : u.boot.phase = .held := (congrArg BootRun.phase (hu.keeps_boot (by decide))).trans h
  unfold State.stringStep
  split
  · rw [if_pos (by simp [hheld])]
    exact (State.onStr_only u _ _).step rfl hu
  · exact hu

theorem stringTick_exec (x : Vector StringIn 8) (h : s.boot.aoLost = false) :
    Machine.exec (.stringTick x) s = .next (s.fresh.stringTickAll x) :=
  congrArg Host.Outcome.next (if_neg (by simp [State.fresh, h]))

theorem stringTick_lost (x : Vector StringIn 8) (h : s.boot.aoLost = true) :
    Machine.exec (.stringTick x) s = .next s.fresh := congrArg Host.Outcome.next (if_pos h)

theorem stringTick_offGrid (x : Vector StringIn 8) (hb : s.boot.phase ≠ .held) (hg : s.onGrid 2000 = false) :
    Machine.exec (.stringTick x) s = .next s.fresh := by
  cases h : s.boot.aoLost with
  | true => exact stringTick_lost x h
  | false => exact (stringTick_exec x h).trans (congrArg _ (State.stringTickAll_offGrid (s := s.fresh) hb hg))

end

/-- Settles O40: the run over the strings comes to each once, and what follows a string's count leaves its counter. -/
theorem stringTickCountsExactly : Obligations.StringTickCountsExactly := by
  unfold Obligations.StringTickCountsExactly
  refine ⟨fun s x hb hg => stringTick_offGrid x hb hg, fun s x hlost => stringTick_lost x hlost, fun s x hao h => ?_⟩
  refine ⟨_, stringTick_exec x hao, fun hheld => ?_, fun k y hx hden hshunt => ?_⟩
  · exact (State.stringTickAll_held (s := s.fresh) x hheld).step rfl ((State.fresh_only s).mono rfl)
  · intro r q t
    have hmeter : t.meter = (r.count (s.strB k) y).meter := State.stringTickAll_meter (s := s.fresh) hx h
    obtain ⟨ha, hnum, hremDen, hcurrent, hbsv⟩ := StringRun.meter_inj hmeter
    obtain ⟨hexact, hnonneg, hlt, hpos⟩ := r.count_exact (s.strB k) y hden hshunt
    rw [ha, hnum, hremDen, hcurrent, hbsv]
    exact ⟨hexact, hnonneg, hlt, hpos, rfl, rfl⟩

end Sys2Proof.Machine
end

section
/-!
SUPPORT. Events of a battery string: termination and recharge, the empty anchor with its learning, and what a tick does with the
commands that wait (Table 07-2, R222, R227, R228, R232, R233, R240, R369).
-/
namespace Sys2Proof.Machine
set_option Elab.async false

section
variable {s : State} {k : Nat}

/-! ### The charge state (Table 07-2) -/

theorem State.terminated_bulk (h : s.terminated k = true) : (s.str k).phase = .bulk := by
  have h := (Bool.and_eq_true _ _).mp h
  exact eq_of_beq h.1

theorem State.rechargeDue_float (h : s.rechargeDue k = true) : (s.str k).phase = .float := by
  have h := (Bool.and_eq_true _ _).mp h
  exact eq_of_beq h.1

theorem State.chargeRow_terminated (h : s.terminated k = true) : s.chargeRow k = .float := by
  simp [State.chargeRow, State.terminated_bulk h, h]

theorem State.chargeRow_recharge (h : s.rechargeDue k = true) : s.chargeRow k =
    if (s.strB k).chgTarget < 10000 ∧ s.fw = true ∧ 0 < (s.str k).socOver ((s.strB k).chgTarget + (s.strB k).targetHyst)
      then .settle else .bulk := by
  simp [State.chargeRow, State.rechargeDue_float h, h]

/-- A string in the charge state that its row gives, before an anchor. -/
def State.chargeMoved (s : State) (k : Nat) : State :=
  s.onStr k (fun r => { r with phase := s.chargeRow k, termFrom := if s.terminated k then none else r.termFrom
                               rechgFrom := if s.chargeRow k == .float then r.rechgFrom else none })

theorem State.chargeState_steps (s : State) (k : Nat) : s.chargeState k =
    if s.fw && (s.terminated k || (s.chargeRow k == .float && decide (0 ≤ ((s.chargeMoved k).str k).current)))
      then (s.chargeMoved k).fullAnchor k else s.chargeMoved k := rfl

theorem State.chargeState_self (hk : k < 8) : ((s.chargeState k).str k).phase = s.chargeRow k ∧
    ((s.chargeState k).str k).termFrom = if s.terminated k then none else (s.str k).termFrom := by
  have hmoved := State.str_onStr s k (fun r => { r with
    phase := s.chargeRow k, termFrom := if s.terminated k then none else r.termFrom
    rechgFrom := if s.chargeRow k == .float then r.rechgFrom else none }) hk
  rw [State.chargeState_steps]
  split
  · rw [State.fullAnchor, State.str_onStr _ _ _ hk, State.chargeMoved, hmoved]
    exact ⟨rfl, rfl⟩
  · rw [State.chargeMoved, hmoved]
    exact ⟨rfl, rfl⟩

/-- A string at a full anchor: it holds its capacity, and a learning cycle has begun (R227, R230, R232). -/
structure StringRun.Full (r : StringRun) (shelf : Nat) : Prop where
  qc : r.qc = r.cap
  lastFull : r.lastFull = shelf
  uncertain : r.uncertain = false
  early : r.early = false
  cycle : r.cycle.isSome = true

theorem State.fullAnchor_full (hk : k < 8) : ((s.fullAnchor k).str k).Full s.shelfNs := by
  rw [State.fullAnchor, State.str_onStr _ _ _ hk]
  exact ⟨Int.sub_sub_self _ _, rfl, rfl, rfl, rfl⟩

theorem State.chargeState_full (hk : k < 8) (hf : s.fw = true) (h : s.terminated k = true) :
    ((s.chargeState k).str k).Full s.shelfNs := by
  rw [State.chargeState_steps, hf, h]
  exact (s.chargeMoved k).fullAnchor_full hk

/-- The full early flag is set in Bulk alone (R230). -/
theorem State.stringRow_early {f : State → State} (h : ((f s).str k).phase ≠ .bulk) :
    StringMoves k StringRun.early (f s) (s.stringRow k f) := by
  unfold State.stringRow
  extract_lets b1 u v
  have hflags : StringMoves k StringRun.early u (u.stringFlags k) := by
    refine .onStr u k ?_
    have hphase : ((u.str k).phase == ChargePhase.bulk) = false := by simpa using h
    simp only [hphase, Bool.false_and, Bool.or_false]
  have hv : StringMoves k StringRun.early u v := .ite (hflags.trans (.onStr _ k rfl)) (.refl u)
  exact (hv.trans (State.stringSetpoints_moves v k)).trans (.onStr _ k rfl)

/-- A charge state that changes at a tick of its own leaves the count and the capacity, and every other string. -/
structure Charged (s t : State) (k : Nat) : Prop where
  phase : (t.str k).phase = s.chargeRow k
  termFrom : (t.str k).termFrom = if s.terminated k then none else (s.str k).termFrom
  cap : (t.str k).cap = (s.str k).cap
  a : (t.str k).a = (s.str k).a
  other : ∀ j, j ≠ k → t.str j = s.str j

theorem State.stringRow_charged (hk : k < 8) : Charged s (s.stringRow k fun u => u.chargeState k) k := by
  have hmoves := s.chargeState_moves k
  have hforms := s.stringRow_follows k fun u => u.chargeState k
  obtain ⟨hphase, hterm⟩ := State.chargeState_self (s := s) hk
  exact {
    phase := (hforms.weaken StringRun.phase).self.trans hphase
    termFrom := (hforms.weaken StringRun.termFrom).self.trans hterm
    cap := (hforms.weaken StringRun.cap).self.trans (hmoves.weaken StringRun.cap).self
    a := (hforms.weaken StringRun.a).self.trans (hmoves.weaken StringRun.a).self
    other := fun j hj => (hforms.other j hj).trans (hmoves.other j hj) }

theorem State.stringRow_full (hk : k < 8) (hf : s.fw = true) (h : s.terminated k = true) :
    ((s.stringRow k fun u => u.chargeState k).str k).Full s.shelfNs := by
  obtain ⟨hqc, hfull, hcertain, hearly, hcycle⟩ := State.chargeState_full hk hf h
  have hforms := s.stringRow_follows k fun u => u.chargeState k
  have hkept := State.stringRow_early (s := s) (k := k) (f := fun u => u.chargeState k) (by
    rw [(State.chargeState_self hk).1, State.chargeRow_terminated h]
    decide)
  exact {
    qc := by
      rw [(hforms.weaken StringRun.qc).self, hqc, (hforms.weaken StringRun.cap).self]
    lastFull := (hforms.weaken StringRun.lastFull).self.trans hfull
    uncertain := (hforms.weaken StringRun.uncertain).self.trans hcertain
    early := hkept.self.trans hearly
    cycle := by rw [(hforms.weaken StringRun.cycle).self, hcycle] }

/-- Termination takes the string from Bulk to Float, with the anchor where the firmware runs (R222, R227). -/
theorem terminationActs (hk : k < 8) (hb : s.boot.phase ≠ .held) (hg : s.onGrid 2000 = true) (h : s.terminated k = true) :
    ∃ t, Machine.exec (.termination k) s = .next t ∧ OnlyChanges [.sent, .strings, .staged, .commits] s t ∧
      Charged s t k ∧ (s.fw = true → (t.str k).Full s.shelfNs) := by
  have hrow : s.fresh.termination k = s.fresh.stringRow k fun u => u.chargeState k :=
    if_pos ((Bool.and_eq_true _ _).mpr ⟨hg, h⟩)
  refine ⟨_, inService_eq hb _, (State.termination_only _ k).step rfl ((State.fresh_only s).mono rfl), ?_⟩
  rw [hrow]
  have hcharged := State.stringRow_charged (s := s.fresh) hk
  exact ⟨{ hcharged with }, fun hf => State.stringRow_full (s := s.fresh) hk hf h⟩

/-- A recharge takes the string out of Float, without an anchor (Table 07-2). -/
theorem rechargeActs (hk : k < 8) (hb : s.boot.phase ≠ .held) (hg : s.onGrid 2000 = true) (h : s.rechargeDue k = true) :
    ∃ t, Machine.exec (.rechargeTimer k) s = .next t ∧ OnlyChanges [.sent, .strings, .staged, .commits] s t ∧
      Charged s t k := by
  have hrow : s.fresh.recharge k = s.fresh.stringRow k fun u => u.chargeState k :=
    if_pos ((Bool.and_eq_true _ _).mpr ⟨hg, h⟩)
  refine ⟨_, inService_eq hb _, (State.recharge_only _ k).step rfl ((State.fresh_only s).mono rfl), ?_⟩
  rw [hrow]
  have hcharged := State.stringRow_charged (s := s.fresh) hk
  exact { hcharged with }

/-! ### The empty anchor (R228, R232, R233) -/

/-- The charge that the cycle has counted lies within the band about the capacity in force (R233). -/
def State.learnable (s : State) (k : Nat) (c : LearnCycle) : Prop :=
  10000 * (c.a0 - (s.str k).a - (s.str k).cap).natAbs ≤ (s.strB k).learnBand * (s.str k).cap.natAbs

theorem State.learn_disqualified {c : LearnCycle} (h : c.good = false) : s.learn k c = s := by simp [State.learn, h]

theorem State.learn_learns {c : LearnCycle} (hk : k < 8) (hg : c.good = true) (h : s.learnable k c) :
    ((s.learn k c).str k).cap = c.a0 - (s.str k).a ∧ ((s.learn k c).str k).learns = (s.str k).learns + 1 ∧
      (((s.str k).writing.isSome = true ∨ s.score.stopped = false) → ((s.learn k c).str k).writing.isSome = true) := by
  unfold State.learn
  extract_lets r cand res
  have hband : 10000 * (cand - r.cap).natAbs ≤ (s.strB k).learnBand * r.cap.natAbs := h
  rw [if_neg (by simp [hg]), if_pos hband, State.str_onStr _ _ _ hk]
  dsimp only
  split
  case isTrue hs => exact ⟨rfl, rfl, fun hw => hw.resolve_right (by simp [hs])⟩
  case isFalse =>
    obtain ⟨hcap, hlearns, hwriting⟩ := StringRun.commitLearn_capacity
      { s.str k with cap := cand, eohRes := res, learns := (s.str k).learns + 1 } (s.strB k) s.shelfNs s.clock.slots
    exact ⟨hcap, hlearns, fun _ => hwriting⟩

theorem State.learn_rejects {c : LearnCycle} (hk : k < 8) (hg : c.good = true) (h : ¬ s.learnable k c) :
    (s.learn k c).str k = { s.str k with rejected := true } := by
  unfold State.learn
  extract_lets r cand res
  have hband : ¬ 10000 * (cand - r.cap).natAbs ≤ (s.strB k).learnBand * r.cap.natAbs := h
  rw [if_neg (by simp [hg]), if_neg hband, (State.blockEvent_only _ _ _ _ _).keeps_str (by decide), State.str_onStr _ _ _ hk]

/-- Learning ends no commit that is under way. -/
theorem State.learn_writing (hk : k < 8) (c : LearnCycle) (h : (s.str k).writing.isSome = true) :
    ((s.learn k c).str k).writing.isSome = true := by
  cases hg : c.good with
  | false => rwa [State.learn_disqualified hg]
  | true =>
    by_cases hl : s.learnable k c
    · exact (State.learn_learns hk hg hl).2.2 (.inl h)
    · rwa [State.learn_rejects hk hg hl]

theorem State.emptyAnchor_self (hk : k < 8) : (s.emptyAnchor k).str k = { (s.cycleLearned k).str k with
    aRef := ((s.cycleLearned k).str k).a, lastEmpty := (s.cycleLearned k).shelfNs, emptied := true, emptyDone := true
    uncertain := false, cycle := none } := by
  rw [State.emptyAnchor_steps, State.str_onStr _ _ _ hk]

theorem State.emptyAnchor_writing (hk : k < 8) (h : (s.str k).writing.isSome = true) :
    ((s.emptyAnchor k).str k).writing.isSome = true := by
  rw [State.emptyAnchor_self hk]
  show ((s.cycleLearned k).str k).writing.isSome = true
  unfold State.cycleLearned
  split
  · exact State.learn_writing hk _ h
  · exact h

theorem State.cycleLearned_some {c : LearnCycle} (h : (s.str k).cycle = some c) : s.cycleLearned k = s.learn k c := by
  simp only [State.cycleLearned, h]

theorem State.cycleLearned_none (h : (s.str k).cycle = none) : s.cycleLearned k = s := by
  simp only [State.cycleLearned, h]

/-- What the empty anchor sets in a string, and what it has learned from the cycle that it ends (R228, R233). -/
structure Emptied (s t : State) (k : Nat) : Prop where
  qc : (t.str k).qc = 0
  a : (t.str k).a = (s.str k).a
  lastEmpty : (t.str k).lastEmpty = s.shelfNs
  uncertain : (t.str k).uncertain = false
  cycle : (t.str k).cycle = none
  learned : (t.str k).cap = ((s.cycleLearned k).str k).cap ∧ (t.str k).learns = ((s.cycleLearned k).str k).learns ∧
    (t.str k).rejected = ((s.cycleLearned k).str k).rejected ∧ (t.str k).writing = ((s.cycleLearned k).str k).writing
  other : ∀ j, j ≠ k → t.str j = s.str j

theorem State.emptyAnchor_emptied (hk : k < 8) : Emptied s (s.emptyAnchor k) k := by
  have hlearned := s.cycleLearned_moves k
  have hself := State.emptyAnchor_self (s := s) hk
  have hshelf : (s.cycleLearned k).shelfNs = s.shelfNs := by
    unfold State.cycleLearned
    split
    · exact (State.learn_only s k _).keeps_shelfNs (by decide)
    · rfl
  exact {
    qc := by
      rw [hself]
      exact Int.sub_self _
    a := by
      rw [hself]
      exact (hlearned.weaken StringRun.a).self
    lastEmpty := by
      rw [hself]
      exact hshelf
    uncertain := by rw [hself]
    cycle := by rw [hself]
    learned := by
      rw [hself]
      exact ⟨rfl, rfl, rfl, rfl⟩
    other := (s.emptyAnchor_moves k).other }

/-- The flags and forms that follow an anchor leave what it has set. -/
theorem Emptied.formed {t u : State} (h : Emptied s t k) (hf : State.StringMoves k StringRun.sansForms t u) : Emptied s u k := by
  obtain ⟨hcap, hlearns, hrejected, hwriting⟩ := h.learned
  exact {
    qc := (hf.weaken StringRun.qc).self.trans h.qc
    a := (hf.weaken StringRun.a).self.trans h.a
    lastEmpty := (hf.weaken StringRun.lastEmpty).self.trans h.lastEmpty
    uncertain := (hf.weaken StringRun.uncertain).self.trans h.uncertain
    cycle := (hf.weaken StringRun.cycle).self.trans h.cycle
    learned := ⟨(hf.weaken StringRun.cap).self.trans hcap, (hf.weaken StringRun.learns).self.trans hlearns,
      (hf.weaken StringRun.rejected).self.trans hrejected, (hf.weaken StringRun.writing).self.trans hwriting⟩
    other := fun j hj => (hf.other j hj).trans (h.other j hj) }

theorem emptyAnchorActs (hk : k < 8) (hb : s.boot.phase ≠ .held) (hg : s.onGrid 2000 = true) (hf : s.fw = true)
    (h : s.emptyDue k = true) : ∃ t, Machine.exec (.emptyAnchor k) s = .next t ∧ Emptied s.fresh t k := by
  have hrow : s.fresh.emptyAnchorDue k = s.fresh.stringRow k fun u => u.emptyAnchor k :=
    if_pos ((Bool.and_eq_true _ _).mpr ⟨(Bool.and_eq_true _ _).mpr ⟨hg, hf⟩, h⟩)
  refine ⟨_, inService_eq hb _, ?_⟩
  rw [hrow]
  exact (State.emptyAnchor_emptied (s := s.fresh) hk).formed (s.fresh.stringRow_follows k fun u => u.emptyAnchor k)

/-- The rows of the charge state and the empty anchor, each when its condition has lasted (Table 07-2, R228, R233). -/
theorem stringEventsAct : StringEventsAct := by
  intro s k hk hb hg
  refine ⟨fun h => ?_, fun h => ?_, fun hf h => ?_⟩
  · obtain ⟨t, hexec, only, hcharged, hfull⟩ := terminationActs hk hb hg h
    refine ⟨t, hexec, only, hcharged.phase.trans (State.chargeRow_terminated h), hcharged.termFrom.trans (if_pos h),
      hcharged.cap, hcharged.a, fun hf => ?_, hcharged.other⟩
    obtain ⟨hqc, hlast, hcertain, hearly, hcycle⟩ := hfull hf
    exact ⟨hqc, hlast, hcertain, hearly, hcycle⟩
  · obtain ⟨t, hexec, only, hcharged⟩ := rechargeActs hk hb hg h
    exact ⟨t, hexec, hcharged.a, hcharged.phase.trans (State.chargeRow_recharge h), only, hcharged.other⟩
  · obtain ⟨t, hexec, he⟩ := emptyAnchorActs hk hb hg hf h
    obtain ⟨hcap, hlearns, hrejected, hwriting⟩ := he.learned
    refine ⟨t, hexec, he.qc, he.a, he.lastEmpty, he.uncertain, he.cycle, fun c hc hgood => ?_, fun hc => ?_, he.other⟩
    · rw [State.cycleLearned_some (s := s.fresh) hc] at hcap hlearns hrejected hwriting
      rw [hcap, hlearns, hrejected, hwriting]
      split
      case isTrue hband =>
        obtain ⟨h1, h2, h3⟩ := State.learn_learns (s := s.fresh) hk hgood hband
        exact ⟨h1, h2, fun hs => h3 (.inr hs)⟩
      case isFalse hband =>
        rw [State.learn_rejects (s := s.fresh) hk hgood hband]
        exact ⟨rfl, rfl, rfl⟩
    · rw [State.cycleLearned_none (s := s.fresh) hc] at hcap hrejected
      exact ⟨hcap, hrejected⟩

/-! ### Commands and the anchor at a tick (R233, R240) -/

/-- A tick takes the commands that are due; where it reaches no empty anchor, what they set stands. -/
theorem State.stringTick_taken (hk : k < 8) (y : StringIn) :
    let t := s.stringTick k y
    let still := s.fw = false ∨ (s.strB k).emptyV < y.bsv
    (t.str k).clearReq = (if s.due (s.str k).clearReq then none else (s.str k).clearReq) ∧
      (t.str k).restoreReq = (if s.due (s.str k).restoreReq then none else (s.str k).restoreReq) ∧
      (s.due (s.str k).clearReq = true → (t.str k).learnLost = false ∧ (still → (t.str k).rejected = false)) ∧
      (s.due (s.str k).restoreReq = true → (s.score.stopped = false → (t.str k).writing.isSome = true) ∧
        (still → (t.str k).cap = (s.strB k).cNom)) := by
  intro t still
  obtain ⟨w, hw, -, hempty, hrest⟩ := s.stringTick_stages hk y
  obtain ⟨hclear, hrestore, hcleared, hrestored⟩ := State.tickBegun_taken (s := s) hk
  let v := if w.fw && w.emptyDue k then w.emptyAnchor k else w
  have hv : StringMoves k StringRun.sansAnchor w v := .ite (w.emptyAnchor_moves k) (.refl w)
  have hforms : StringMoves k StringRun.sansForms v t := hrest
  have hstill (h : still) : v = w := by
    have hfw : w.fw = s.fw := hw.fw.trans (s.tickBegun_moves k).fw
    rcases h with h | h
    · exact if_neg (by simp [hfw, h])
    · exact if_neg (by simp [hempty h])
  have hwriting (h : ((s.tickBegun k).str k).writing.isSome = true) : (t.str k).writing.isSome = true := by
    rw [(hforms.weaken StringRun.writing).self]
    rw [← (hw.weaken StringRun.writing).self] at h
    show ((if w.fw && w.emptyDue k then w.emptyAnchor k else w).str k).writing.isSome = true
    split
    · exact State.emptyAnchor_writing hk h
    · exact h
  refine ⟨?_, ?_, fun h => ⟨?_, fun hs => ?_⟩, fun h => ⟨fun hstop => hwriting ((hrestored h).2 hstop), fun hs => ?_⟩⟩
  · exact ((hw.weaken StringRun.clearReq).trans ((hv.weaken _).trans (hforms.weaken _))).self.trans hclear
  · exact ((hw.weaken StringRun.restoreReq).trans ((hv.weaken _).trans (hforms.weaken _))).self.trans hrestore
  · exact ((hw.weaken StringRun.learnLost).trans ((hv.weaken _).trans (hforms.weaken _))).self.trans (hcleared h).1
  · rw [(hforms.weaken StringRun.rejected).self, hstill hs, (hw.weaken StringRun.rejected).self, (hcleared h).2]
  · rw [(hforms.weaken StringRun.cap).self, hstill hs, (hw.weaken StringRun.cap).self, (hrestored h).1]

end

end Sys2Proof.Machine
end

section
/-!
SUPPORT. Commands to a battery string, from a host and from a block of the part, and its writes to MRAM: the count checkpoint
and the end of a slot write (R231, R238 to R240).
-/
namespace Sys2Proof.Machine
set_option Elab.async false

/-! ### Writes to MRAM (R231, R238) -/

/-- A slot that is made complete is valid (R238). -/
theorem LearnSlot.make_valid (seq : Nat) (w1 w2 w3 : Dword) : (LearnSlot.make seq w1 w2 w3).valid = true :=
  (Bool.and_eq_true _ _).mpr ⟨rfl, beq_self_eq_true _⟩

theorem StringRun.checkDone_counts (r : StringRun) :
    r.checkDone.a = r.a ∧ r.checkDone.aRef = r.aRef ∧ r.checkDone.cap = r.cap := by
  unfold StringRun.checkDone
  split <;> exact ⟨rfl, rfl, rfl⟩

/-- A checkpoint begins over the older slot of the pair, with its STATE 1 first (R231, R238). -/
theorem StringRun.checkpoint_begins (r : StringRun) (now : Nat) :
    ∃ w, (r.checkpoint now).checking = some w ∧ w.from' = now ∧ w.index < 2 ∧ w.index ≠ newest r.checkDone.checks ∧ (vget (r.checkpoint now).checks w.index {}).state = 1 ∧
    w.slot.valid = true ∧ w.slot.w1 = BitVec.ofInt 64 r.cap ∧ w.slot.w2 = BitVec.ofInt 64 r.aRef ∧
    w.slot.w3 = BitVec.ofInt 64 r.a := by
  obtain ⟨ha, href, hcap⟩ := r.checkDone_counts
  rw [← ha, ← href, ← hcap]
  unfold StringRun.checkpoint
  extract_lets d j i seq
  have hi : i < 2 ∧ i ≠ j := by
    show (if j = 0 then 1 else 0) < 2 ∧ (if j = 0 then 1 else 0) ≠ j
    split <;> omega
  refine ⟨_, rfl, rfl, hi.1, hi.2, ?_, LearnSlot.make_valid _ _ _ _, rfl, rfl, rfl⟩
  exact congrArg LearnSlot.state (vget_vmod_self d.checks i {} _ hi.1)

/-- A write of a capacity slot that has lasted 50 µs is complete, and it holds the capacity in force (R238, R239). -/
theorem StringRun.writesDone_learn {r : StringRun} {w : SlotWrite} {now : Nat} (h : r.writing = some w)
    (ht : 100 ≤ now - w.from') :
    (r.writesDone now).slots = vmod r.slots w.index (fun _ => w.slot) ∧ (r.writesDone now).inForce = w.index ∧
      (r.writesDone now).writing = none := by
  have hlearn : r.learnDone = { r with
      slots := vmod r.slots w.index (fun _ => w.slot), inForce := w.index, writing := none } := by
    simp only [StringRun.learnDone, h]
  have hcheck (x : StringRun) :
      x.checkDone.slots = x.slots ∧ x.checkDone.inForce = x.inForce ∧ x.checkDone.writing = x.writing := by
    unfold StringRun.checkDone
    split <;> exact ⟨rfl, rfl, rfl⟩
  unfold StringRun.writesDone
  extract_lets ended x
  have hx : x = r.learnDone := if_pos (by simp [ended, h, ht])
  rw [hx]
  split
  · obtain ⟨h1, h2, h3⟩ := hcheck r.learnDone
    rw [h1, h2, h3, hlearn]
    exact ⟨rfl, rfl, rfl⟩
  · rw [hlearn]
    exact ⟨rfl, rfl, rfl⟩

/-- A checkpoint that has lasted 50 µs is complete (R238, R239). -/
theorem StringRun.writesDone_check {r : StringRun} {w : SlotWrite} {now : Nat} (h : r.checking = some w)
    (ht : 100 ≤ now - w.from') :
    (r.writesDone now).checks = vmod r.checks w.index (fun _ => w.slot) ∧ (r.writesDone now).checking = none := by
  have hlearn : r.learnDone.checks = r.checks ∧ r.learnDone.checking = r.checking := by
    unfold StringRun.learnDone
    split <;> exact ⟨rfl, rfl⟩
  unfold StringRun.writesDone
  extract_lets ended x
  have hx : x.checks = r.checks ∧ x.checking = some w := by
    rw [← h]
    show (if ended r.writing then r.learnDone else r).checks = r.checks ∧
      (if ended r.writing then r.learnDone else r).checking = r.checking
    split
    · exact hlearn
    · exact ⟨rfl, rfl⟩
  obtain ⟨hchecks, hchecking⟩ := hx
  rw [if_pos (by simp [ended, hchecking, ht])]
  simp only [StringRun.checkDone, hchecking, hchecks, and_self]

section
variable {s : State} {k : Nat}

/-- A run over all strings that takes each by its own number does to each what it does to one. -/
theorem State.strings_each (g : Nat → StringRun → StringRun) (hk : k < 8) :
    ((List.range 8).foldl (fun u j => u.onStr j (g u.clock.slots)) s).str k = g s.clock.slots (s.str k) := by
  refine foldl_unit_of_mem (key := id) (ps := [.strings]) (read := State.str) (fun r => r = g s.clock.slots (s.str k))
    (fun u j => State.onStr_only u j _) (fun u a j hj => State.str_onStr_ne u a _ j hj) (l := List.range 8) (a := k) ?_
    (List.mem_range.mpr hk) fun u hu hr => ?_
  · rw [List.map_id]
    exact List.nodup_range
  · refine (State.str_onStr u k _ hk).trans ?_
    rw [hu.keeps_clock (by decide)]
    exact congrArg (g s.clock.slots) hr

theorem State.checkpointAll_str (hk : k < 8) : s.checkpointAll.str k = (s.str k).checkpoint s.clock.slots :=
  State.strings_each (fun now r => r.checkpoint now) hk

theorem State.slotWrites_str (hk : k < 8) : s.slotWrites.str k = (s.str k).writesDone s.clock.slots :=
  State.strings_each (fun now r => r.writesDone now) hk

/-- In a slot the strings end the writes that have run their time at its instant (R238). -/
theorem State.passSlot_str (hk : k < 8) (ha : s.boot.aoLost = false) (hb : s.boot.phase ≠ .held) :
    s.passSlot.str k = (s.str k).writesDone (s.clock.slots + 1) := by
  let u := s.recordsWritten.slot.captureCommands
  have hu : OnlyChanges [.clock, .tb, .chans, .ports, .shelf, .groups, .score] s u :=
    (State.captureCommands_only _).step rfl ((State.slot_only _).step rfl ((State.recordsWritten_only s).mono rfl))
  have hrest : OnlyChanges [.groups, .score, .bootRec] u.slotWrites s.passSlot := by
    rw [State.passSlot_serving ha hb]
    exact (State.recordWrites_only _).step rfl ((State.lastFaultWrites_only _).mono rfl)
  have hclock : u.clock = s.passSlot.clock := by
    rw [hrest.keeps_clock (by decide), (State.slotWrites_only u).keeps_clock (by decide)]
  rw [hrest.keeps_str (by decide), State.slotWrites_str hk, hclock, State.passSlot_clock ha hb, hu.keeps_str (by decide)]
  rfl

theorem slot_exec (s : State) : Machine.exec (.downlinkSlot 1) s = .next s.fresh.passSlot := rfl

theorem checkpointBegins (hb : s.boot.phase ≠ .held) (hf : s.fw = true) (hs : s.score.stopped = false) :
    ∃ t, Machine.exec .countCheckpoint s = .next t ∧ OnlyChanges [.sent, .strings] s t ∧
      ∀ k, k < 8 → t.str k = (s.str k).checkpoint s.clock.slots := by
  have hrow : (if s.fresh.score.stopped then s.fresh else s.fresh.checkpointAll) = s.fresh.checkpointAll :=
    if_neg (by simp [State.fresh, hs])
  refine ⟨_, (byFirmware_eq hb hf _).trans (congrArg _ hrow), ?_, fun k hk => State.checkpointAll_str (s := s.fresh) hk⟩
  exact (State.checkpointAll_only _).step rfl ((State.fresh_only s).mono rfl)

/-! ### Commands are raised (R240, R369) -/

/-- The row of a string's command object (Table 07-6). -/
def stringCommandRow : Row := .mk 5 1 1 .u8 .wo .stw .plain 1 2

theorem locate_stringCommand (hk : k < 8) : locate (Family.batString.index k 5) = some (.batString, k, 5) := by
  interval_cases k <;> decide

theorem anyObject_stringCommand (hk : k < 8) :
    anyObject? (Family.batString.index k 5) 1 = some ⟨.batString, k, 5, 1, stringCommandRow⟩ :=
  object_row (locate_stringCommand hk) (by decide) (by decide)

theorem OnlyChanges.keeps_present {ps : List Part} {s t : State} (h : OnlyChanges ps s t) (wp : Part.presence ∉ ps)
    (wc : Part.cfg ∉ ps) (wt : Part.clock ∉ ps) : t.present = s.present := by
  simp only [State.present, State.windowLeft, elapsedAo, h.keeps_presence wp, h.keeps_cfg wc, h.keeps_clock wt]

/-- A string after command `v` arises: the command waits for the string's next tick. -/
def StringRun.told (r : StringRun) (now : Nat) (v : Int) : StringRun :=
  if v = 1 then { r with clearReq := some (r.clearReq.getD now) } else { r with restoreReq := some (r.restoreReq.getD now) }

/-- A string takes command 1 always, and command 2 while presence is in force. -/
theorem State.askString_told {v : Int} (h : v = 1 ∨ (v = 2 ∧ s.present = true)) :
    s.askString k v = .ok (s.onStr k fun r => r.told s.clock.slots v) := by
  rcases h with rfl | ⟨rfl, hp⟩
  · rfl
  · simp only [State.askString, hp]
    rfl

/-- Command `v` of `o` has reached string `k`. -/
structure StringAsked (s t : State) (o : Source) (k : Nat) (v : Int) : Prop where
  reported : Reported t o
  self : t.str k = (s.str k).told s.clock.slots v
  other : ∀ j, j ≠ k → t.str j = s.str j

theorem stringAsked {o : Source} {v : Int} (hk : k < 8) (ra : Raised s o .batString k 5 v)
    (hv : v = 1 ∨ (v = 2 ∧ s.present = true)) :
    ∃ t, inService s (fun s => s.commandString o k v) = .next t ∧ StringAsked s t o k v := by
  have hv12 : v = 1 ∨ v = 2 := hv.imp_right And.left
  cases o with
  | block =>
    have hask := State.askString_told (s := s.fresh) (k := k) hv
    have hcommand : s.fresh.commandString .block k v = s.fresh.onStr k fun r => r.told s.clock.slots v := by
      show s.fresh.ifDone (s.fresh.askString k v) = _
      rw [hask]
      rfl
    exact ⟨_, (inService_eq ra _).trans (congrArg _ hcommand), rfl, State.str_onStr _ _ _ hk,
      fun j hj => State.str_onStr_ne _ _ _ _ hj⟩
  | host h e =>
    have ad : Admitted s h e (Family.batString.index k 5) 1 (stringCommandRow.ty.encode v) := by
      simpa only [Raised, AdmittedPut, putOctets, anyObject_stringCommand hk] using ra
    have hok : rowOk ⟨.batString, k, 5, 1, stringCommandRow⟩ v = true := by rcases hv12 with rfl | rfl <;> rfl
    obtain ⟨u, log, done⟩ := State.put_done ad (locate_stringCommand hk) (by decide) (by decide) rfl (by decide) (by decide)
      nofun rfl rfl (by decide) (by rcases hv12 with rfl | rfl <;> rfl) hok
    have hu : OnlyChanges [.sent, .seats, .score] s u := ((State.arrived_only s h).mono rfl).trans (log.mono rfl)
    have hpresent : u.present = s.present := hu.keeps_present (by decide) (by decide) (by decide)
    have hask := State.askString_told (s := u) (k := k) (hpresent.symm ▸ hv)
    have hses : (u.onStr k fun r => r.told u.clock.slots v).sessionOk h.seat h.session = true :=
      (State.sessionOk_of_only (State.onStr_only _ _ _) (by decide) _ _).trans
        ((State.sessionOk_of_only log (by decide) _ _).trans (State.arrived_ok ad.taken))
    obtain ⟨t, ht, answer, hacc, -⟩ := done _ hask hses
    refine ⟨t, congrArg _ ht, hacc, ?_, fun j hj => ?_⟩
    · rw [answer.keeps_str (by decide), State.str_onStr _ _ _ hk, hu.keeps_str (by decide), hu.keeps_clock (by decide)]
    · rw [answer.keeps_str (by decide), State.str_onStr_ne _ _ _ _ hj, hu.keeps_str (by decide)]

end

/-- The checkpoint, the ends of slot writes, and the commands of a string from their request to the tick that takes them. -/
theorem stringCommandsComplete : StringCommandsComplete := by
  refine ⟨fun s hb hf hs => ?_, fun s k w hk ha hb hw hi ht => ⟨_, slot_exec s, ?_⟩,
    fun s k w hk ha hb hw hi ht => ⟨_, slot_exec s, ?_⟩, fun s o k hk => ⟨fun ra => ?_, fun ra hp => ?_⟩,
    fun s x k y ha hb hg hx => ⟨_, stringTick_exec x ha, ?_⟩⟩
  · obtain ⟨t, hexec, only, hstr⟩ := checkpointBegins hb hf hs
    refine ⟨t, hexec, only, fun k hk => ?_⟩
    rw [hstr k hk]
    exact ⟨(s.str k).checkDone_counts.1, (s.str k).checkpoint_begins s.clock.slots⟩
  · obtain ⟨hchecks, hchecking⟩ := StringRun.writesDone_check (now := s.clock.slots + 1) hw ht
    rw [State.passSlot_str (s := s.fresh) hk ha hb]
    exact ⟨(congrArg (fun v => vget v w.index ({} : LearnSlot)) hchecks).trans (vget_vmod_self _ _ _ _ hi), hchecking⟩
  · obtain ⟨hslots, hforce, hwriting⟩ := StringRun.writesDone_learn (now := s.clock.slots + 1) hw ht
    rw [State.passSlot_str (s := s.fresh) hk ha hb]
    exact ⟨(congrArg (fun v => vget v w.index ({} : LearnSlot)) hslots).trans (vget_vmod_self _ _ _ _ hi), hforce, hwriting⟩
  · obtain ⟨t, hexec, hreported, hself, hother⟩ := stringAsked hk ra (.inl rfl)
    exact ⟨t, hexec, hreported, hself, hother⟩
  · obtain ⟨t, hexec, hreported, hself, hother⟩ := stringAsked hk ra (.inr ⟨rfl, hp⟩)
    exact ⟨t, hexec, hreported, hself, hother⟩
  · have hk : k < 8 := (Vector.getElem?_eq_some_iff.mp hx).1
    obtain ⟨u, hu, hstr, hfw, hstopped, ht⟩ := State.stringTickAll_reaches (s := s.fresh) hx (.inr hg)
    have hnot : (s.fresh.boot.phase == BootPhase.held) = false := by simpa [State.fresh] using hb
    have htick := State.stringTick_taken (s := u) hk y
    have hdue (q : Option Nat) : u.due q = s.due q := hu.keeps_due (by decide) q
    have hbank : u.strB k = s.strB k := hu.keeps_strB (by decide) k
    have hself : u.str k = s.str k := hstr
    have hruns : u.fw = s.fw := hfw
    have hstops : u.score.stopped = s.score.stopped := hstopped
    rw [hnot] at ht
    simp only [hdue, hbank, hself, hruns, hstops] at htick
    obtain ⟨hclear, hrestore, hcleared, hrestored⟩ := htick
    rw [ht]
    refine ⟨fun h => ⟨hclear.trans (if_pos h), hcleared h⟩, fun h => ⟨hrestore.trans (if_pos h), hrestored h⟩,
      fun h => hclear.trans (if_neg (by simp [h])), fun h => hrestore.trans (if_neg (by simp [h]))⟩

/-- Settles O41: the events of a string one by one, its commands from their request to the tick that takes them. -/
theorem stringsFollowTheirTable : Obligations.StringsFollowTheirTable := ⟨stringEventsAct, stringCommandsComplete⟩

end Sys2Proof.Machine
end

section
/-!
SUPPORT. What the operations of a feed leave: the other feeds, the causes that are registered, and of the feed itself what they do
not move (R243 to R263, Table 08-2).
-/
namespace Sys2Proof.Machine
set_option Elab.async false

/-! ### Operations on one feed -/

/-- From `s` to `t` no feed but `z` moves, nothing outside the feeds, the lint and the records, and no cause is lost. -/
structure State.FeedFrame (z : Nat) (s t : State) : Prop where
  other : ∀ j, j ≠ z → t.feed j = s.feed j
  only : OnlyChanges [.feeds, .lint, .score] s t
  safe : t.lint.safe = s.lint.safe
  registers : ∀ src cause, Registers s src cause → Registers t src cause

namespace State.FeedFrame

variable {z : Nat} {s a b : State}

theorem refl (s : State) : FeedFrame z s s := ⟨fun _ _ => rfl, .refl _ s, rfl, fun _ _ r => r⟩

theorem trans (h : FeedFrame z s a) (k : FeedFrame z a b) : FeedFrame z s b :=
  ⟨fun j hj => (k.other j hj).trans (h.other j hj), h.only.trans k.only, k.safe.trans h.safe,
    fun src cause r => k.registers src cause (h.registers src cause r)⟩

theorem ite {c : Prop} [Decidable c] (h : FeedFrame z s a) (k : FeedFrame z s b) : FeedFrame z s (if c then a else b) := by
  split <;> assumption

/-- An operation that touches the feeds alone, and of them `z`. -/
theorem of_feeds (h : OnlyChanges [.feeds] s a) (other : ∀ j, j ≠ z → a.feed j = s.feed j) : FeedFrame z s a :=
  ⟨other, h.mono rfl, congrArg LintRun.safe (h.keeps_lint (by decide)),
    fun _ _ r => Registers.of_only r h (by decide) (by decide)⟩

theorem onFeed (s : State) (z : Nat) (f : FeedRun → FeedRun) : FeedFrame z s (s.onFeed z f) :=
  .of_feeds (State.onFeed_only s z f) fun j hj => State.feed_onFeed_ne s z f j hj

theorem detect (s : State) (src cause : Nat) : FeedFrame z s (s.detect src cause) :=
  ⟨fun _ _ => rfl, (State.detect_only s src cause).mono rfl, rfl, fun _ _ r => Registers.detect r src cause⟩

theorem detectIf (s : State) (c : Bool) (src cause : Nat) : FeedFrame z s (s.detectIf c src cause) :=
  .ite (.detect s src cause) (.refl s)

theorem feedRecord (s : State) (j cause : Nat) : FeedFrame z s (s.feedRecord j cause) :=
  have h := State.feedRecord_only s j cause
  ⟨fun i _ => h.keeps_feed (by decide) i, h.mono rfl, congrArg LintRun.safe (h.keeps_lint (by decide)),
    fun _ _ r => Registers.of_only r h (by decide) (by decide)⟩

end State.FeedFrame

/-- From `s` to `t` feed `z` moves but for what `p` reads of it. -/
structure State.FeedMoves {α : Type} (z : Nat) (p : FeedRun → α) (s t : State) : Prop extends State.FeedFrame z s t where
  self : p (t.feed z) = p (s.feed z)

namespace State.FeedMoves

variable {α β : Type} {z : Nat} {p : FeedRun → α} {s a b : State}

theorem refl (s : State) : FeedMoves z p s s := ⟨.refl s, rfl⟩

theorem trans (h : FeedMoves z p s a) (k : FeedMoves z p a b) : FeedMoves z p s b :=
  ⟨h.toFeedFrame.trans k.toFeedFrame, k.self.trans h.self⟩

theorem ite {c : Prop} [Decidable c] (h : FeedMoves z p s a) (k : FeedMoves z p s b) : FeedMoves z p s (if c then a else b) := by
  split <;> assumption

/-- What reads nothing that moves is kept as well. -/
theorem weaken {p : FeedRun → FeedRun} (h : FeedMoves z p s a) (q : FeedRun → β) (hq : ∀ r, q (p r) = q r := by intro _; rfl) :
    FeedMoves z q s a :=
  ⟨h.toFeedFrame, by rw [← hq, ← hq (s.feed z), h.self]⟩

theorem onFeed (s : State) (z : Nat) {f : FeedRun → FeedRun} (hf : ∀ r, p (f r) = p r) : FeedMoves z p s (s.onFeed z f) :=
  ⟨.onFeed s z f, vget_vmod_same _ _ _ _ p hf z⟩

theorem detect (s : State) (src cause : Nat) : FeedMoves z p s (s.detect src cause) := ⟨.detect s src cause, rfl⟩

theorem detectIf (s : State) (c : Bool) (src cause : Nat) : FeedMoves z p s (s.detectIf c src cause) :=
  .ite (.detect s src cause) (.refl s)

theorem feedRecord (s : State) (j cause : Nat) : FeedMoves z p s (s.feedRecord j cause) :=
  ⟨.feedRecord s j cause, congrArg p ((State.feedRecord_only s j cause).keeps_feed (by decide) z)⟩

end State.FeedMoves

/-- From `s` to `t` feed `z` stands, with all that it reads of the part, and no cause is lost. -/
structure State.FeedKept (z : Nat) (s t : State) : Prop where
  self : t.feed z = s.feed z
  only : OnlyChanges [.feeds, .lint, .score] s t
  safe : t.lint.safe = s.lint.safe
  registers : ∀ src cause, Registers s src cause → Registers t src cause

namespace State.FeedKept

variable {z j : Nat} {s a b : State}

theorem refl (s : State) : FeedKept z s s := ⟨rfl, .refl _ s, rfl, fun _ _ r => r⟩

theorem trans (h : FeedKept z s a) (k : FeedKept z a b) : FeedKept z s b :=
  ⟨k.self.trans h.self, h.only.trans k.only, k.safe.trans h.safe,
    fun src cause r => k.registers src cause (h.registers src cause r)⟩

end State.FeedKept

theorem State.FeedFrame.kept {z : Nat} {s t : State} (h : FeedFrame z s t) (hz : t.feed z = s.feed z) : FeedKept z s t :=
  ⟨hz, h.only, h.safe, h.registers⟩

/-- What another feed does leaves this one. -/
theorem State.FeedFrame.kept_other {z j : Nat} {s t : State} (h : FeedFrame j s t) (hz : z ≠ j) : FeedKept z s t :=
  ⟨h.other z hz, h.only, h.safe, h.registers⟩

section
variable {ps : List Part} {s t : State} (h : OnlyChanges ps s t) (wc : Part.clock ∉ ps) {z : Nat}
include h wc

theorem OnlyChanges.keeps_stopDue (hr : (t.feed z).stopReq = (s.feed z).stopReq) : t.stopDue z = s.stopDue z := by
  simp only [State.stopDue, hr, h.keeps_due wc]

theorem OnlyChanges.keeps_feedEnds (wa : Part.active ∉ ps) (hr : t.feed z = s.feed z) : t.feedEnds z = s.feedEnds z := by
  simp only [State.feedEnds, hr, h.keeps_due wc, h.keeps_feedB wa, h.keeps_elapsedUs wc]

theorem OnlyChanges.keeps_mainGateFault (hr : t.feed z = s.feed z) : t.mainGateFault z = s.mainGateFault z := by
  simp only [State.mainGateFault, hr, h.keeps_elapsedUs wc]

end

/-! ### Moves of Table 08-2 -/

/-- A feed that enters a state with both gates off. -/
def FeedRun.entered (r : FeedRun) (ph : FeedPhase) (now : Nat) : FeedRun :=
  { r with phase := ph, since := now, pcg := false, mng := false, dropFrom := none }

/-- All of a feed but what its entry to a state moves. -/
def FeedRun.sansState (r : FeedRun) : FeedRun :=
  { r with phase := .off, cause := 0, retry := 0, pcg := false, mng := false, since := 0, dropFrom := none, thermalMark := false }

/-- All of a feed but what a row of Table 08-2 moves: its state, the energy estimate and the integrator. -/
def FeedRun.sansRow (r : FeedRun) : FeedRun := { r.sansState with energy := 0, x := 0 }

/-- All of a feed but the requests that a tick takes. -/
def FeedRun.sansRequests (r : FeedRun) : FeedRun :=
  { r with ocTrip := none, shedReq := none, startReq := none, stopReq := none, clearReq := none }

/-- All of a feed but those requests, its gates and FDn_THR. -/
def FeedRun.sansGates (r : FeedRun) : FeedRun := { r.sansRequests with pcg := false, mng := false, thr := {} }

section
variable {s : State} {z : Nat}

theorem State.feedTo_feed (hz : z < 16) (ph : FeedPhase) : (s.feedTo z ph).feed z = (s.feed z).entered ph s.clock.slots :=
  State.feed_onFeed s z _ hz

theorem State.feedTo_moves (s : State) (z : Nat) (ph : FeedPhase) : FeedMoves z FeedRun.sansState s (s.feedTo z ph) :=
  .onFeed s z fun _ => rfl

theorem State.feedPreCharge_feed (hz : z < 16) : (s.feedPreCharge z).feed z =
    { s.feed z with phase := .preCharge, since := s.clock.slots, pcg := true, mng := false, energy := 0 } :=
  State.feed_onFeed s z _ hz

theorem State.feedPreCharge_moves (s : State) (z : Nat) : FeedMoves z FeedRun.sansRow s (s.feedPreCharge z) :=
  .onFeed s z fun _ => rfl

theorem State.feedRecord_feed (s : State) (z cause j : Nat) : (s.feedRecord z cause).feed j = s.feed j :=
  (State.feedRecord_only s z cause).keeps_feed (by decide) j

/-- A stop leads to Off with the cause of its request, and drops the retries of a feed that waits for one. -/
theorem State.feedStop_feed (hz : z < 16) (c : Nat) (hoff : (s.feed z).phase ≠ .off) (hlatched : (s.feed z).phase ≠ .latched) :
    (s.feedStop z c).feed z = { (s.feed z).entered .off s.clock.slots with
      cause := c, retry := if (s.feed z).phase = .retryWait then 0 else (s.feed z).retry } := by
  unfold State.feedStop
  extract_lets r
  cases h : r.phase with
  | off => exact absurd h hoff
  | latched => exact absurd h hlatched
  | seating | preCharge | on | retryWait =>
    refine (State.feed_onFeed _ _ _ hz).trans ?_
    rw [State.feedTo_feed hz]
    rfl

theorem State.feedStop_moves (s : State) (z c : Nat) : FeedMoves z FeedRun.sansState s (s.feedStop z c) := by
  unfold State.feedStop
  extract_lets r
  cases r.phase with
  | off | latched => exact .refl s
  | seating | preCharge | on | retryWait => exact (s.feedTo_moves z .off).trans (.onFeed _ z fun _ => rfl)

/-- The causes of an end, each detected with its lint cause (Table 11-1). -/
def State.causesSeen (s : State) (z : Nat) (causes : List Nat) : State :=
  causes.foldl (fun s c => s.detect (srcFeed z) (feedLintCause c)) s

theorem State.causesSeen_moves {α : Type} {p : FeedRun → α} (s : State) (z : Nat) (causes : List Nat) :
    FeedMoves z p s (s.causesSeen z causes) := by
  induction causes generalizing s with
  | nil => exact .refl s
  | cons c cs ih => exact (FeedMoves.detect s _ _).trans (ih _)

theorem State.causesSeen_registers {causes : List Nat} {c : Nat} (hc : c ∈ causes) (s : State) (z : Nat) :
    Registers (s.causesSeen z causes) (srcFeed z) (feedLintCause c) := by
  induction causes generalizing s with
  | nil => cases hc
  | cons d ds ih =>
    rcases List.mem_cons.mp hc with rfl | hin
    · exact (State.causesSeen_moves (p := id) _ z ds).registers _ _ (State.detect_registers s _ _)
    · exact ih hin _

/-- A feed with the cause of the end of its attempt, where it goes after it (R255). -/
def FeedRun.ended (r : FeedRun) (c retryMax now : Nat) : FeedRun :=
  if r.retry < retryMax then { r.entered .retryWait now with cause := c, retry := r.retry + 1 }
  else { r.entered .latched now with cause := c }

/-- A feed with the cause of the end of its attempt, on its way to Retry wait or to Latched. -/
def State.attemptEnded (s : State) (z c : Nat) : State :=
  let u := s.onFeed z (fun r => { r with cause := c })
  if (s.feedB z).retryMax ≤ (s.feed z).retry then (u.feedTo z .latched).detect (srcFeed z) 5
  else (u.feedTo z .retryWait).onFeed z (fun r => { r with retry := r.retry + 1 })

theorem State.feedEnd_stages (s : State) (z : Nat) (causes : List Nat) :
    s.feedEnd z causes = ((s.causesSeen z causes).attemptEnded z (causes.headD 0)).feedRecord z (causes.headD 0) := rfl

theorem State.attemptEnded_moves (s : State) (z c : Nat) : FeedMoves z FeedRun.sansState s (s.attemptEnded z c) := by
  unfold State.attemptEnded
  extract_lets u
  have hu : FeedMoves z FeedRun.sansState s u := .onFeed s z fun _ => rfl
  exact .ite ((hu.trans (u.feedTo_moves z _)).trans (.detect _ _ _))
    ((hu.trans (u.feedTo_moves z _)).trans (.onFeed _ z fun _ => rfl))

theorem State.attemptEnded_feed (hz : z < 16) (c : Nat) :
    (s.attemptEnded z c).feed z = (s.feed z).ended c (s.feedB z).retryMax s.clock.slots := by
  have hu : (s.onFeed z fun r => { r with cause := c }).feed z = { s.feed z with cause := c } := State.feed_onFeed s z _ hz
  unfold State.attemptEnded FeedRun.ended
  by_cases h : (s.feed z).retry < (s.feedB z).retryMax
  · rw [if_neg (Nat.not_le.mpr h), if_pos h, State.feed_onFeed _ _ _ hz, State.feedTo_feed hz, hu]
    rfl
  · rw [if_pos (Nat.not_lt.mp h), if_neg h]
    refine (State.feedTo_feed hz .latched).trans ?_
    rw [hu]
    rfl

theorem State.feedEnd_moves (s : State) (z : Nat) (causes : List Nat) : FeedMoves z FeedRun.sansState s (s.feedEnd z causes) := by
  rw [State.feedEnd_stages]
  exact ((s.causesSeen_moves z causes).trans (State.attemptEnded_moves _ z _)).trans (.feedRecord _ _ _)

theorem State.feedEnd_feed (hz : z < 16) (causes : List Nat) :
    (s.feedEnd z causes).feed z = (s.feed z).ended (causes.headD 0) (s.feedB z).retryMax s.clock.slots := by
  have hseen := State.causesSeen_moves (p := id) s z causes
  have hself : (s.causesSeen z causes).feed z = s.feed z := hseen.self
  rw [State.feedEnd_stages, State.feedRecord_feed, State.attemptEnded_feed hz, hself, hseen.only.keeps_feedB (by decide),
    hseen.only.keeps_clock (by decide)]

theorem State.feedEnd_registers {causes : List Nat} {c : Nat} (hc : c ∈ causes) :
    Registers (s.feedEnd z causes) (srcFeed z) (feedLintCause c) := by
  rw [State.feedEnd_stages]
  exact ((State.attemptEnded_moves _ z _).trans (.feedRecord _ _ _)).registers _ _ (State.causesSeen_registers hc s z)

/-- A feed without a retry left registers that it is latched. -/
theorem State.feedEnd_latches {causes : List Nat} (h : (s.feedB z).retryMax ≤ (s.feed z).retry) :
    Registers (s.feedEnd z causes) (srcFeed z) 5 := by
  have hseen := State.causesSeen_moves (p := id) s z causes
  have hself : (s.causesSeen z causes).feed z = s.feed z := hseen.self
  rw [State.feedEnd_stages]
  refine (FeedFrame.feedRecord (z := z) _ _ _).registers _ _ ?_
  unfold State.attemptEnded
  rw [if_pos (by rw [hself, hseen.only.keeps_feedB (by decide)]; exact h)]
  exact State.detect_registers _ _ _

/-- The end of an attempt with the causes `c :: cs` (Table 08-2, R255). -/
theorem State.feedEnd_ended (hz : z < 16) (c : Nat) (cs : List Nat) : FeedEnded s (s.feedEnd z (c :: cs)) z c (feedLintCause c) := by
  have hfeed := State.feedEnd_feed (s := s) hz (c :: cs)
  unfold FeedEnded
  rw [hfeed]
  unfold FeedRun.ended
  split
  case isTrue => exact ⟨rfl, rfl, rfl, State.feedEnd_registers List.mem_cons_self, rfl, rfl⟩
  case isFalse h =>
    exact ⟨rfl, rfl, rfl, State.feedEnd_registers List.mem_cons_self, rfl, State.feedEnd_latches (Nat.not_lt.mp h)⟩

/-- The end of an attempt reads of what it leaves its feed and what is registered. -/
theorem FeedEnded.carried {s t u : State} {z c lint : Nat} (h : FeedEnded s t z c lint) (hu : (u.feed z).phase = (t.feed z).phase ∧
      (u.feed z).retry = (t.feed z).retry ∧ (u.feed z).cause = (t.feed z).cause) (hpcg : (u.feed z).pcg = false)
    (hmng : (u.feed z).mng = false) (hregs : ∀ src cause, Registers t src cause → Registers u src cause) :
    FeedEnded s u z c lint := by
  obtain ⟨-, -, hcause, hlint, hrest⟩ := h
  obtain ⟨hphase, hretry, hkept⟩ := hu
  refine ⟨hpcg, hmng, hkept.trans hcause, hregs _ _ hlint, ?_⟩
  rw [hphase, hretry]
  split
  case isTrue h => rwa [if_pos h] at hrest
  case isFalse h =>
    rw [if_neg h] at hrest
    exact hrest.imp_right (hregs _ _)

/-- What follows the end of an attempt leaves it as it is. -/
theorem FeedEnded.followed {s t u : State} {z c lint : Nat} (h : FeedEnded s t z c lint)
    (hu : State.FeedMoves z FeedRun.sansGates t u) (hpcg : (u.feed z).pcg = false) (hmng : (u.feed z).mng = false) :
    FeedEnded s u z c lint :=
  FeedEnded.carried h ⟨(hu.weaken FeedRun.phase).self, (hu.weaken FeedRun.retry).self, (hu.weaken FeedRun.cause).self⟩ hpcg hmng hu.registers

end

end Sys2Proof.Machine
end

section
/-!
SUPPORT. The rows of Table 08-2 one by one, and what their evaluation at a tick leaves: trips, the shed step, and the requests that
are gone (R246, R255, R256, R479).
-/
namespace Sys2Proof.Machine
set_option Elab.async false

section
variable {s : State} {z : Nat}

/-! ### The rows of Table 08-2 -/

/-- A feed is on for the sequencer, and nothing ends its attempt (R255). -/
structure State.FeedGoes (s : State) (z : Nat) : Prop where
  notOff : (s.feed z).phase ≠ .off
  notLatched : (s.feed z).phase ≠ .latched
  ends : s.feedEnds z = []
  mainGate : s.mainGateFault z = false

theorem State.FeedKept.goes {t : State} (h : FeedKept z s t) (g : s.FeedGoes z) : t.FeedGoes z where
  notOff := by rw [h.self]; exact g.notOff
  notLatched := by rw [h.self]; exact g.notLatched
  ends := (h.only.keeps_feedEnds (by decide) (by decide) h.self).trans g.ends
  mainGate := (h.only.keeps_mainGateFault (by decide) h.self).trans g.mainGate

theorem State.feedRow_start (hp : (s.feed z).phase = .off) (hstop : s.stopDue z = none)
    (hstart : s.due (s.feed z).startReq = true) (hsafe : s.lint.safe = false) (hheld : s.feedHeld z = false)
    (hshed : (s.feed z).shed = false) :
    s.feedRow z = (s.feedTo z .seating).onFeed z (fun r => { r with retry := 0 }) := by
  simp [State.feedRow, hp, hstop, hstart, State.feedStart, hsafe, hheld, hshed]

theorem State.feedRow_stop (g : s.FeedGoes z) {c : Nat} (h : s.stopDue z = some c) : s.feedRow z = s.feedStop z c := by
  obtain ⟨hoff, hlatched, hends, hgate⟩ := g
  unfold State.feedRow
  extract_lets r b seated ends stop
  have hstop : stop = some c := h
  have hnone : ends = [] := hends
  cases hp : r.phase with
  | off => exact absurd hp hoff
  | latched => exact absurd hp hlatched
  | seating | retryWait | preCharge | on => simp [hstop, hnone, hgate]

theorem State.feedRow_clear (hp : (s.feed z).phase = .latched) (h : s.due (s.feed z).clearReq = true) :
    s.feedRow z = (s.feedTo z .off).onFeed z (fun r => { r with retry := 0 }) := by
  simp [State.feedRow, hp, h]

theorem State.feedRow_ends (hp : (s.feed z).phase = .preCharge ∨ (s.feed z).phase = .on) (h : s.feedEnds z ≠ []) :
    s.feedRow z = s.feedEnd z (s.feedEnds z) := by
  rcases hp with hp | hp <;> simp [State.feedRow, hp, h]

theorem State.mainGateFault_on (h : s.mainGateFault z = true) : (s.feed z).phase = .on := by
  unfold State.mainGateFault at h
  split at h
  · exact eq_of_beq ((Bool.and_eq_true _ _).mp h).1
  · cases h

theorem State.feedRow_mainGate (h : s.mainGateFault z = true) (hends : s.feedEnds z = []) :
    s.feedRow z = (((((s.feedTo z .latched).onFeed z (fun r => { r with cause := 6 })).detect (srcFeed z) 4).detect
      (srcFeed z) 5)).feedRecord z 6 := by
  simp [State.feedRow, State.mainGateFault_on h, h, hends]

theorem State.feedRow_seated (hp : (s.feed z).phase = .seating) (hstop : s.stopDue z = none) (h : s.seatDebounced z = true) :
    s.feedRow z = s.feedPreCharge z := by
  simp [State.feedRow, hp, hstop, h]

/-- A feed whose retry timer has run out goes to Pre-charge where it has stayed seated since it began to wait, else it seats. -/
theorem State.feedRow_retry (hp : (s.feed z).phase = .retryWait) (hstop : s.stopDue z = none)
    (h : (s.feedB z).core.retryInt ≤ elapsedUs s (s.feed z).since) :
    s.feedRow z = if ∃ t, (s.feed z).seatedFrom = some t ∧ t ≤ (s.feed z).since then s.feedPreCharge z else s.feedTo z .seating := by
  cases hseat : (s.feed z).seatedFrom <;> simp [State.feedRow, hp, hstop, h, hseat]

theorem State.feedRow_onTimer (hp : (s.feed z).phase = .on) (hends : s.feedEnds z = []) (hgate : s.mainGateFault z = false)
    (hstop : s.stopDue z = none) (hseated : (s.feed z).seated (s.feedB z) = true)
    (h : 10000000 ≤ elapsedUs s (s.feed z).since) : s.feedRow z = s.onFeed z (fun r => { r with retry := 0 }) := by
  simp [State.feedRow, hp, hends, hgate, hstop, hseated, h]

/-- A row moves its feed alone, and of it the fields that Table 08-2 names. -/
theorem State.feedRow_moves (s : State) (z : Nat) : FeedMoves z FeedRun.sansRow s (s.feedRow z) := by
  have hto {p : FeedRun → FeedRun} (ph : FeedPhase) (hp : ∀ r, (p r).sansRow = r.sansRow) :
      FeedMoves z FeedRun.sansRow s ((s.feedTo z ph).onFeed z p) :=
    ((s.feedTo_moves z ph).weaken _).trans (.onFeed _ z hp)
  have hstart : FeedMoves z FeedRun.sansRow s (s.feedStart z) := by
    unfold State.feedStart
    exact .ite (.refl s) (.ite (.onFeed s z fun _ => rfl) (.ite (.refl s) (hto .seating fun _ => rfl)))
  have hends (causes : List Nat) : FeedMoves z FeedRun.sansRow s (s.feedEnd z causes) := (s.feedEnd_moves z causes).weaken _
  have hstop (c : Nat) : FeedMoves z FeedRun.sansRow s (s.feedStop z c) := (s.feedStop_moves z c).weaken _
  unfold State.feedRow
  extract_lets r b seated ends stop latched kept
  have hlatched : FeedMoves z FeedRun.sansRow s latched := hto .latched fun _ => rfl
  clear_value stop
  cases r.phase with
  | off => exact .ite hstart (.refl s)
  | seating =>
    cases stop with
    | some c => exact hstop c
    | none => exact .ite (s.feedPreCharge_moves z) (.refl s)
  | preCharge =>
    refine .ite (hends _) ?_
    cases stop with
    | some c => exact hstop c
    | none => exact .ite (hto .seating fun _ => rfl) (.ite (.onFeed s z fun _ => rfl) (.refl s))
  | on =>
    refine .ite (hends _) (.ite (((hlatched.trans (.detect _ _ _)).trans (.detect _ _ _)).trans (.feedRecord _ _ _)) ?_)
    cases stop with
    | some c => exact hstop c
    | none => exact .ite (hto _ fun _ => rfl) (.ite (.onFeed s z fun _ => rfl) (.refl s))
  | retryWait =>
    cases stop with
    | some c => exact hstop c
    | none => exact .ite (.ite (s.feedPreCharge_moves z) ((s.feedTo_moves z _).weaken _)) (.refl s)
  | latched => exact .ite (hto .off fun _ => rfl) (.refl s)

theorem State.feedRow_preCharge (hp : (s.feed z).phase = .preCharge) (hends : s.feedEnds z = []) (hstop : s.stopDue z = none) :
    s.feedRow z = if (s.feed z).seated (s.feedB z) = false then (s.feedTo z .seating).onFeed z (fun r => { r with cause := 7 })
      else if ((s.feedB z).core.preThr : Int) * (s.feed z).rd.vbus ≤ 1000 * (s.feed z).rd.vout then
        s.onFeed z (fun r => { r with phase := .on, since := s.clock.slots, mng := true, x := 0, dropFrom := none })
      else s := by
  simp [State.feedRow, hp, hends, hstop]

theorem State.feedRow_on (hp : (s.feed z).phase = .on) (hends : s.feedEnds z = []) (hgate : s.mainGateFault z = false)
    (hstop : s.stopDue z = none) :
    s.feedRow z = if (s.feed z).seated (s.feedB z) = false then
        (s.feedTo z (if (s.feedB z).reinsert then .seating else .off)).onFeed z (fun r => { r with cause := 7 })
      else if 10000000 ≤ elapsedUs s (s.feed z).since then s.onFeed z (fun r => { r with retry := 0 })
      else s := by
  simp [State.feedRow, hp, hends, hgate, hstop]

theorem State.feedRow_mainGate_feed (hz : z < 16) (h : s.mainGateFault z = true) (hends : s.feedEnds z = []) :
    (s.feedRow z).feed z = { (s.feed z).entered .latched s.clock.slots with cause := 6 } := by
  rw [State.feedRow_mainGate h hends, State.feedRecord_feed]
  refine (State.feed_onFeed _ _ _ hz).trans ?_
  rw [State.feedTo_feed hz]

/-- A row of Pre-charge leaves the energy estimate. -/
theorem State.feedRow_energy (hp : (s.feed z).phase = .preCharge) : FeedMoves z FeedRun.energy s (s.feedRow z) := by
  by_cases hends : s.feedEnds z = []
  case neg =>
    rw [State.feedRow_ends (.inl hp) hends]
    exact (s.feedEnd_moves z _).weaken _
  case pos =>
    have hgate : s.mainGateFault z = false := Bool.eq_false_iff.mpr fun hg => by cases hp.symm.trans (State.mainGateFault_on hg)
    cases hstop : s.stopDue z with
    | some c =>
      rw [State.feedRow_stop ⟨by simp [hp], by simp [hp], hends, hgate⟩ hstop]
      exact (s.feedStop_moves z c).weaken _
    | none =>
      rw [State.feedRow_preCharge hp hends hstop]
      exact .ite (((s.feedTo_moves z _).weaken _).trans (.onFeed _ z fun _ => rfl)) (.ite (.onFeed s z fun _ => rfl) (.refl s))

/-- A row of On leaves the integrator. -/
theorem State.feedRow_integrator (hp : (s.feed z).phase = .on) : FeedMoves z FeedRun.x s (s.feedRow z) := by
  have hto {p : FeedRun → FeedRun} (ph : FeedPhase) (hx : ∀ r, (p r).x = r.x) :
      FeedMoves z FeedRun.x s ((s.feedTo z ph).onFeed z p) := ((s.feedTo_moves z ph).weaken _).trans (.onFeed _ z hx)
  by_cases hends : s.feedEnds z = []
  case neg =>
    rw [State.feedRow_ends (.inr hp) hends]
    exact (s.feedEnd_moves z _).weaken _
  case pos =>
    cases hgate : s.mainGateFault z with
    | true =>
      have hlatched : FeedMoves z FeedRun.x s ((s.feedTo z .latched).onFeed z fun r => { r with cause := 6 }) :=
        hto .latched fun _ => rfl
      rw [State.feedRow_mainGate hgate hends]
      exact ((hlatched.trans (.detect _ _ _)).trans (.detect _ _ _)).trans (.feedRecord _ _ _)
    | false =>
      cases hstop : s.stopDue z with
      | some c =>
        rw [State.feedRow_stop ⟨by simp [hp], by simp [hp], hends, hgate⟩ hstop]
        exact (s.feedStop_moves z c).weaken _
      | none =>
        rw [State.feedRow_on hp hends hgate hstop]
        exact .ite (hto _ fun _ => rfl) (.ite (.onFeed s z fun _ => rfl) (.refl s))

/-- The state that a feed enters, whatever else its row sets. -/
theorem State.feedTo_phase (hz : z < 16) (ph : FeedPhase) {f : FeedRun → FeedRun} (hf : ∀ r, (f r).phase = r.phase) :
    (((s.feedTo z ph).onFeed z f).feed z).phase = ph := by
  rw [State.feed_onFeed _ _ _ hz, hf, State.feedTo_feed hz]
  rfl

/-- Where nothing ends the attempt and no stop is due, a row leaves the feed on for the sequencer, but for one in On that is
unseated and may not be reinserted. -/
theorem State.feedRow_goes (hz : z < 16) (g : s.FeedGoes z) (hstop : s.stopDue z = none)
    (hin : (s.feed z).phase ≠ .on ∨ (s.feedB z).reinsert = true ∨ (s.feed z).seated (s.feedB z) = true) :
    ((s.feedRow z).feed z).phase ≠ .off ∧ ((s.feedRow z).feed z).phase ≠ .latched := by
  obtain ⟨hoff, hlatched, hends, hgate⟩ := g
  have hpre : ((s.feedPreCharge z).feed z).phase = .preCharge := by rw [State.feedPreCharge_feed hz]
  have hseat {f : FeedRun → FeedRun} (hf : ∀ r, (f r).phase = r.phase) :
      (((s.feedTo z .seating).onFeed z f).feed z).phase = .seating := State.feedTo_phase hz .seating hf
  cases hp : (s.feed z).phase with
  | off => exact absurd hp hoff
  | latched => exact absurd hp hlatched
  | seating =>
    have hrow : s.feedRow z = if s.seatDebounced z then s.feedPreCharge z else s := by simp [State.feedRow, hp, hstop]
    rw [hrow]
    split
    · simp [hpre]
    · simp [hp]
  | preCharge =>
    rw [State.feedRow_preCharge hp hends hstop]
    split_ifs
    · simp [hseat]
    · simp [State.feed_onFeed _ _ _ hz]
    · simp [hp]
  | on =>
    rw [State.feedRow_on hp hends hgate hstop]
    split_ifs with hseated hre
    · simp [hseat]
    · simp [hp, hseated, hre] at hin
    · simp [State.feed_onFeed _ _ _ hz, hp]
    · simp [hp]
  | retryWait =>
    by_cases hint : (s.feedB z).core.retryInt ≤ elapsedUs s (s.feed z).since
    · rw [State.feedRow_retry hp hstop hint]
      split
      · simp [hpre]
      · simp [State.feedTo_feed hz, FeedRun.entered]
    · have hrow : s.feedRow z = s := by simp [State.feedRow, hp, hstop, hint]
      simp [hrow, hp]

/-! ### The evaluation at a tick -/

/-- A feed whose requests that are due are gone (R246). -/
def FeedRun.served (r : FeedRun) (due : Option Nat → Bool) : FeedRun := { r with
  ocTrip := if due r.ocTrip then none else r.ocTrip
  shedReq := if due r.shedReq then none else r.shedReq
  startReq := if due r.startReq then none else r.startReq
  stopReq := r.stopReq.filter (fun q => !due (some q.2))
  clearReq := if due r.clearReq then none else r.clearReq }

/-- All of a feed but what a shed step moves. -/
def FeedRun.sansStep (r : FeedRun) : FeedRun := { r.sansState with shed := false, thr := {} }

/-- All of a feed but what a row and a shed step move. -/
def FeedRun.sansShed (r : FeedRun) : FeedRun := { r.sansRow with shed := false, thr := {} }

/-- All of a feed but what the evaluation of Table 08-2 at a tick moves. -/
def FeedRun.sansRows (r : FeedRun) : FeedRun := r.sansShed.sansRequests

/-- The shed step of a feed where it is due (R256). -/
def State.feedShedDue (s : State) (z : Nat) : State := if s.due (s.feed z).shedReq then s.feedShed z else s

theorem State.feedRows_stages (s : State) (z : Nat) :
    s.feedRows z = (((s.feedTripped z).feedRow z).feedShedDue z).onFeed z
      (fun r => r.served (((s.feedTripped z).feedRow z).feedShedDue z).due) := rfl

theorem State.feedTripped_kept (s : State) (z : Nat) : FeedMoves z id s (s.feedTripped z) := by
  unfold State.feedTripped
  split
  · exact .refl s
  · exact .refl s
  · exact .ite ((FeedMoves.detect _ _ _).trans (.feedRecord _ _ _)) (.refl s)

/-- Where no trip registers the rows follow at once. -/
theorem State.feedTripped_none (h : s.due (s.feed z).ocTrip = false) : s.feedTripped z = s := by
  unfold State.feedTripped
  split
  · rfl
  · rfl
  · simp [h]

/-- A trip in Pre-charge or On is for the rows to register (R255). -/
theorem State.feedTripped_attempt (h : (s.feed z).phase = .preCharge ∨ (s.feed z).phase = .on) : s.feedTripped z = s := by
  rcases h with h | h <;> simp [State.feedTripped, h]

/-- A trip that ends no attempt registers (R247, R251). -/
theorem State.feedTripped_registers (h : s.due (s.feed z).ocTrip = true) (hp : (s.feed z).phase ≠ .preCharge)
    (ho : (s.feed z).phase ≠ .on) : Registers (s.feedTripped z) (srcFeed z) 0 := by
  unfold State.feedTripped
  split
  · exact absurd ‹_› hp
  · exact absurd ‹_› ho
  · rw [if_pos h]
    exact (FeedFrame.feedRecord (z := z) _ _ _).registers _ _ (State.detect_registers _ _ _)

theorem State.feedShed_idle (h : (s.feed z).phase = .off ∨ (s.feed z).phase = .latched) : s.feedShed z = s := by
  rcases h with h | h <;> simp [State.feedShed, h]

theorem State.feedShed_feed (hz : z < 16) (hoff : (s.feed z).phase ≠ .off) (hlatched : (s.feed z).phase ≠ .latched) :
    (s.feedShed z).feed z = { (s.feed z).entered .off s.clock.slots with
      cause := 8, shed := true, thr := { (s.feed z).thr with warned := false } } := by
  unfold State.feedShed
  split
  · exact absurd ‹_› hoff
  · exact absurd ‹_› hlatched
  · rw [State.feed_onFeed _ _ _ hz, State.feedTo_feed hz]
    rfl

theorem State.feedShedDue_moves (s : State) (z : Nat) : FeedMoves z FeedRun.sansStep s (s.feedShedDue z) := by
  have hshed : FeedMoves z FeedRun.sansStep s (s.feedShed z) := by
    unfold State.feedShed
    split
    · exact .refl s
    · exact .refl s
    · exact ((s.feedTo_moves z .off).weaken _).trans (.onFeed _ z fun _ => rfl)
  exact .ite hshed (.refl s)

/-- The rows of a tick and the shed step, before the requests are gone. -/
theorem State.feedRows_begun (s : State) (z : Nat) :
    FeedMoves z FeedRun.sansShed s (((s.feedTripped z).feedRow z).feedShedDue z) :=
  (((s.feedTripped_kept z).weaken _).trans ((State.feedRow_moves _ z).weaken _)).trans ((State.feedShedDue_moves _ z).weaken _)

theorem State.feedRows_moves (s : State) (z : Nat) : FeedMoves z FeedRun.sansRows s (s.feedRows z) := by
  rw [State.feedRows_stages]
  exact ((s.feedRows_begun z).weaken _).trans (.onFeed _ z fun _ => rfl)

/-- The requests that wait for a tick of the feed. -/
def FeedRun.requests (r : FeedRun) : FeedRun :=
  { startReq := r.startReq, stopReq := r.stopReq, clearReq := r.clearReq, shedReq := r.shedReq, ocTrip := r.ocTrip }

/-- A tick takes every request that arose before it, and leaves the others (R246, R479). -/
theorem State.feedRows_requests (hz : z < 16) :
    ((s.feedRows z).feed z).requests = (s.feed z).requests.served s.due := by
  have hrows := s.feedRows_begun z
  have hdue : (((s.feedTripped z).feedRow z).feedShedDue z).due = s.due := funext fun t => hrows.only.keeps_due (by decide) t
  rw [State.feedRows_stages, State.feed_onFeed _ _ _ hz, hdue, ← (hrows.weaken FeedRun.requests).self]
  rfl

/-- What the row of a tick leaves in the feed stands after it, but for the requests that are gone, where no shed step is due or
the row has left the feed Off or Latched. -/
theorem State.feedRows_follow (h : s.due (s.feed z).shedReq = false ∨
      (((s.feedTripped z).feedRow z).feed z).phase = .off ∨ (((s.feedTripped z).feedRow z).feed z).phase = .latched) :
    s.feedRows z = ((s.feedTripped z).feedRow z).onFeed z (fun r => r.served s.due) := by
  have hrow := ((s.feedTripped_kept z).weaken FeedRun.sansRow).trans (State.feedRow_moves _ z)
  have hdue (t : Option Nat) : ((s.feedTripped z).feedRow z).due t = s.due t := hrow.only.keeps_due (by decide) t
  have hnone : ((s.feedTripped z).feedRow z).feedShedDue z = (s.feedTripped z).feedRow z := by
    unfold State.feedShedDue
    rcases h with h | h
    · rw [hdue, (hrow.weaken FeedRun.shedReq).self, h]
      rfl
    · rw [State.feedShed_idle h, ite_self]
  rw [State.feedRows_stages, hnone, show ((s.feedTripped z).feedRow z).due = s.due from funext hdue]

/-- A tick at which no trip registers and no shed step is due does what its row does. -/
theorem State.feedRows_row (ht : s.due (s.feed z).ocTrip = false) (h : s.due (s.feed z).shedReq = false) :
    s.feedRows z = (s.feedRow z).onFeed z (fun r => r.served s.due) := by
  rw [State.feedRows_follow (.inl h), State.feedTripped_none ht]

theorem State.feedRows_sheds (hz : z < 16) (h : s.due (s.feed z).shedReq = true)
    (hoff : (((s.feedTripped z).feedRow z).feed z).phase ≠ .off)
    (hlatched : (((s.feedTripped z).feedRow z).feed z).phase ≠ .latched) :
    ((s.feedRows z).feed z).phase = .off ∧ ((s.feedRows z).feed z).cause = 8 ∧ ((s.feedRows z).feed z).shed = true ∧
      ((s.feedRows z).feed z).pcg = false ∧ ((s.feedRows z).feed z).mng = false ∧ ((s.feedRows z).feed z).shedReq = none := by
  let u := (s.feedTripped z).feedRow z
  have hrow : FeedMoves z FeedRun.sansRow s u := ((s.feedTripped_kept z).weaken _).trans (State.feedRow_moves _ z)
  have hdue : u.due (u.feed z).shedReq = true := by
    rw [hrow.only.keeps_due (by decide), (hrow.weaken FeedRun.shedReq).self, h]
  have hshed : u.feedShedDue z = u.feedShed z := if_pos hdue
  have hself : (s.feedRows z).feed z = ((u.feedShed z).feed z).served (u.feedShed z).due := by
    rw [State.feedRows_stages]
    show (((u.feedShedDue z).onFeed z _).feed z) = _
    rw [hshed, State.feed_onFeed _ _ _ hz]
  have hgone : (u.feedShed z).due (u.feed z).shedReq = true := by
    rw [(State.feedShed_only u z).keeps_due (by decide), hdue]
  rw [hself, State.feedShed_feed hz hoff hlatched]
  exact ⟨rfl, rfl, rfl, rfl, rfl, if_pos hgone⟩

theorem State.feedEnds_preCharge (hp : (s.feed z).phase = .preCharge) :
    s.feedEnds z = (if s.due (s.feed z).ocTrip then [2] else []) ++
      (if ((s.feedB z).core.preEMax : Int) * 1000000 ≤ (s.feed z).energy then [5] else []) ++
      (if (s.feedB z).core.preTimeout ≤ elapsedUs s (s.feed z).since then [4] else []) := by
  simp only [State.feedEnds, hp]

theorem State.feedEnds_on (hp : (s.feed z).phase = .on) :
    s.feedEnds z = (if s.due (s.feed z).ocTrip then [2] else []) ++
      (if ((s.feedB z).core.i2tLim : Int) * 1000000000000 ≤ (s.feed z).x then [3] else []) := by
  simp only [State.feedEnds, hp]

/-- A trip that registers at a tick is a condition of the end of an attempt, and the first. -/
theorem State.feedEnds_trip (h : s.due (s.feed z).ocTrip = true) (hp : (s.feed z).phase = .preCharge ∨ (s.feed z).phase = .on) :
    ∃ cs, s.feedEnds z = 2 :: cs := by
  rcases hp with hp | hp
  · exact ⟨_, by rw [State.feedEnds_preCharge hp, if_pos h, List.append_assoc, List.singleton_append]⟩
  · exact ⟨_, by rw [State.feedEnds_on hp, if_pos h, List.singleton_append]⟩

theorem State.feedRows_registers (h : s.due (s.feed z).ocTrip = true) : Registers (s.feedRows z) (srcFeed z) 0 := by
  rw [State.feedRows_stages]
  refine (FeedFrame.onFeed _ z _).registers _ _ ((State.feedShedDue_moves _ z).registers _ _ ?_)
  by_cases hp : (s.feed z).phase = .preCharge ∨ (s.feed z).phase = .on
  · obtain ⟨cs, hcs⟩ := State.feedEnds_trip h hp
    rw [State.feedTripped_attempt hp, State.feedRow_ends hp (by simp [hcs]), hcs]
    have hfirst : Registers (s.feedEnd z (2 :: cs)) (srcFeed z) (feedLintCause 2) := State.feedEnd_registers List.mem_cons_self
    exact hfirst
  · obtain ⟨hpre, hon⟩ := not_or.mp hp
    exact (State.feedRow_moves _ z).registers _ _ (State.feedTripped_registers h hpre hon)

/-- A tick at which an attempt ends with the causes `c :: cs` (R255). -/
theorem State.feedRows_ended (hz : z < 16) (hp : (s.feed z).phase = .preCharge ∨ (s.feed z).phase = .on) {c : Nat} {cs : List Nat}
    (hends : s.feedEnds z = c :: cs) (hshed : s.due (s.feed z).shedReq = false) :
    FeedEnded s (s.feedRows z) z c (feedLintCause c) := by
  rw [State.feedRows_follow (.inl hshed), State.feedTripped_attempt hp, State.feedRow_ends hp (by simp [hends]), hends]
  have hended := State.feedEnd_ended (s := s) hz c cs
  have hserved : FeedMoves z FeedRun.sansRequests (s.feedEnd z (c :: cs)) _ := .onFeed _ z (f := fun r => r.served s.due) fun _ => rfl
  exact FeedEnded.followed hended (hserved.weaken _) ((hserved.weaken FeedRun.pcg).self.trans hended.1)
    ((hserved.weaken FeedRun.mng).self.trans hended.2.1)

end

end Sys2Proof.Machine
end

section
/-!
SUPPORT. A 1 µs feed tick: the readings that it takes, the rows of Table 08-2 over them, what ends it, and the run over all feeds
(R244 to R253, R261).
-/
namespace Sys2Proof.Machine
set_option Elab.async false

/-! ### Readings of a tick -/

/-- All of a feed but what the readings of a tick move. -/
def FeedRun.sansReadings (r : FeedRun) : FeedRun :=
  { r with rd := {}, caps := {}, capsReq := none, seatFrom := none, seatFault := false, energy := 0, x := 0, dropFrom := none
           seatedFrom := none }

/-- All of a feed but its estimates and the runs of its conditions. -/
def FeedRun.sansRuns (r : FeedRun) : FeedRun := { r with energy := 0, x := 0, dropFrom := none, seatedFrom := none }

/-- All of a feed but its seating fault. -/
def FeedRun.sansSeating (r : FeedRun) : FeedRun := { r with seatFrom := none, seatFault := false }

/-- The readings of a tick are those of its inputs (R245). -/
theorem FeedReadings.tick_inputs (r : FeedReadings) (y : FeedIn) (i : Int) :
    (r.tick y i).vbus = y.vbus ∧ (r.tick y i).vout = y.vout ∧ (r.tick y i).current = i ∧ (r.tick y i).shunt = y.shunt ∧
      (r.tick y i).seatL = y.seatL ∧ (r.tick y i).seatS = y.seatS := by
  unfold FeedReadings.tick
  extract_lets p u
  split <;> exact ⟨rfl, rfl, rfl, rfl, rfl, rfl⟩

/-- The peak since clear after a tick (R261). -/
theorem FeedCaptures.tick_peak (c : FeedCaptures) (i v : Int) (on newBin : Bool) (now : Nat) :
    (c.tick i v on newBin now).peak = max c.peak i := by
  unfold FeedCaptures.tick
  extract_lets a b d
  have hd : d.peak = b.peak := by
    show (if newBin then _ else _ : FeedCaptures).peak = b.peak
    split <;> rfl
  have hb : b.peak = a.peak := by
    show (if on && decide (v < a.minV) then _ else _ : FeedCaptures).peak = a.peak
    split <;> rfl
  have ha : a.peak = max c.peak i := by
    show (if c.peak < i then _ else _ : FeedCaptures).peak = _
    split
    · exact (max_eq_right (Int.le_of_lt ‹_›)).symm
    · exact (max_eq_left (Int.not_lt.mp ‹_›)).symm
  exact hd.trans (hb.trans ha)

/-- The readings of a tick and the captures. -/
def State.feedRead (s : State) (z : Nat) (y : FeedIn) : State :=
  s.onFeed z (fun r => { r with
    caps := (if s.due r.capsReq then r.caps.clear else r.caps).tick (feedCurrent (s.feedB z) y.shunt) y.vout (r.phase == .on)
      (r.rd.ticks == 0) s.shelfNs
    capsReq := if s.due r.capsReq then none else r.capsReq
    rd := r.rd.tick y (feedCurrent (s.feedB z) y.shunt) })

/-- All that a tick measures before its rows. -/
def State.feedMeasured (s : State) (z : Nat) (y : FeedIn) : State := ((s.feedRead z y).seatingFault z).feedIntegrate z

/-- What ends a tick: the overlap of the gates, the comparator, FDn_THR. -/
def State.feedSettled (s : State) (z : Nat) : State :=
  (if (s.overlapEnd z).overLimit z then (s.overlapEnd z).overcurrent z else s.overlapEnd z).thrUpdate z

theorem State.feedTick_stages (s : State) (z : Nat) (y : FeedIn) :
    s.feedTick z y = ((s.feedMeasured z y).feedRows z).feedSettled z := rfl

/-- What a tick with the readings `y` has measured of feed `z`: `w` is the feed before the rows. -/
structure State.FeedReads (s : State) (z : Nat) (y : FeedIn) (w : FeedRun) : Prop where
  kept : w.sansReadings = (s.feed z).sansReadings
  rd : w.rd = (s.feed z).rd.tick y (feedCurrent (s.feedB z) y.shunt)
  peak : w.caps.peak = max (if s.due (s.feed z).capsReq then 0 else (s.feed z).caps.peak) (feedCurrent (s.feedB z) y.shunt)
  capsReq : w.capsReq = if s.due (s.feed z).capsReq then none else (s.feed z).capsReq
  energy : (s.feed z).phase = .preCharge →
    w.energy = (s.feed z).energy + (roundDiv ((y.vbus - y.vout) * (y.vbus - y.vout)) (s.feedB z).core.rpre).toNat
  x : (s.feed z).phase = .on → w.x = max 0 ((s.feed z).x + (feedCurrent (s.feedB z) y.shunt * feedCurrent (s.feedB z) y.shunt -
    (s.feedB z).core.iCont * (s.feedB z).core.iCont))
  dropFrom : (s.feed z).dropFrom = none → w.dropFrom = none ∨ w.dropFrom = some s.clock.slots

theorem State.seatingFault_moves (s : State) (z : Nat) : FeedMoves z FeedRun.sansSeating s (s.seatingFault z) := by
  unfold State.seatingFault
  extract_lets r b t hit
  refine .ite (FeedMoves.trans (FeedMoves.onFeed s z ?_) (.detectIf _ _ _ _)) (.onFeed s z ?_)
  · exact fun _ => rfl
  · exact fun _ => rfl

theorem State.feedIntegrate_moves (s : State) (z : Nat) : FeedMoves z FeedRun.sansRuns s (s.feedIntegrate z) := by
  refine .onFeed s z fun r => ?_
  dsimp only
  split <;> split <;> rfl

theorem State.feedMeasured_moves (s : State) (z : Nat) (y : FeedIn) : FeedMoves z FeedRun.sansReadings s (s.feedMeasured z y) := by
  have hread : FeedMoves z FeedRun.sansReadings s (s.feedRead z y) := .onFeed s z fun _ => rfl
  exact (hread.trans ((State.seatingFault_moves _ z).weaken _)).trans ((State.feedIntegrate_moves _ z).weaken _)

section
variable {s : State} {z : Nat}

theorem State.feedIntegrate_feed (hz : z < 16) :
    ((s.feed z).phase = .preCharge → ((s.feedIntegrate z).feed z).energy = (s.feed z).energy +
      (roundDiv (((s.feed z).rd.vbus - (s.feed z).rd.vout) * ((s.feed z).rd.vbus - (s.feed z).rd.vout)) (s.feedB z).core.rpre).toNat) ∧
    ((s.feed z).phase = .on → ((s.feedIntegrate z).feed z).x = max 0 ((s.feed z).x +
      ((s.feed z).rd.current * (s.feed z).rd.current - (s.feedB z).core.iCont * (s.feedB z).core.iCont))) ∧
    ((s.feed z).dropFrom = none →
      ((s.feedIntegrate z).feed z).dropFrom = none ∨ ((s.feedIntegrate z).feed z).dropFrom = some s.clock.slots) := by
  have hself : (s.feedIntegrate z).feed z = _ := State.feed_onFeed s z _ hz
  rw [hself]
  refine ⟨fun h => ?_, fun h => ?_, fun h => ?_⟩
  · simp [h]
  · simp [h]
  · extract_lets dv r1 r2 steep
    have h1 : r1.dropFrom = none := by
      show (if (s.feed z).phase == .preCharge then _ else _ : FeedRun).dropFrom = none
      split <;> exact h
    have h2 : r2.dropFrom = none := by
      show (if r1.phase == .on then _ else _ : FeedRun).dropFrom = none
      split <;> exact h1
    show (if steep then some (r2.dropFrom.getD s.clock.slots) else none) = none ∨
      (if steep then some (r2.dropFrom.getD s.clock.slots) else none) = some s.clock.slots
    rw [h2]
    cases steep
    · exact .inl rfl
    · exact .inr rfl

theorem State.feedMeasured_reads (hz : z < 16) (y : FeedIn) : s.FeedReads z y ((s.feedMeasured z y).feed z) := by
  let a := s.feedRead z y
  let b := a.seatingFault z
  have hab : FeedMoves z FeedRun.sansSeating a b := State.seatingFault_moves a z
  have hruns : FeedMoves z FeedRun.sansRuns b (s.feedMeasured z y) := State.feedIntegrate_moves b z
  have honly : OnlyChanges [.feeds, .lint, .score] s b := (FeedFrame.onFeed s z _).only.trans hab.only
  have ha : a.feed z = _ := State.feed_onFeed s z _ hz
  obtain ⟨henergy, hx, hdrop⟩ := State.feedIntegrate_feed (s := b) hz
  have hphase : (b.feed z).phase = (s.feed z).phase := by rw [(hab.weaken FeedRun.phase).self, ha]
  have hrd : (b.feed z).rd = (s.feed z).rd.tick y (feedCurrent (s.feedB z) y.shunt) := by rw [(hab.weaken FeedRun.rd).self, ha]
  obtain ⟨hvbus, hvout, hcurrent, -⟩ := (s.feed z).rd.tick_inputs y (feedCurrent (s.feedB z) y.shunt)
  rw [hphase, hrd, hvbus, hvout, honly.keeps_feedB (by decide), (hab.weaken FeedRun.energy).self, ha] at henergy
  rw [hphase, hrd, hcurrent, honly.keeps_feedB (by decide), (hab.weaken FeedRun.x).self, ha] at hx
  rw [(hab.weaken FeedRun.dropFrom).self, ha, honly.keeps_clock (by decide)] at hdrop
  exact {
    kept := (s.feedMeasured_moves z y).self
    rd := (hruns.weaken FeedRun.rd).self.trans hrd
    peak := by
      rw [(hruns.weaken FeedRun.caps).self, (hab.weaken FeedRun.caps).self, ha, FeedCaptures.tick_peak]
      split <;> rfl
    capsReq := by rw [(hruns.weaken FeedRun.capsReq).self, (hab.weaken FeedRun.capsReq).self, ha]
    energy := henergy
    x := hx
    dropFrom := hdrop }

/-! ### What ends a tick -/

/-- All of a feed but its gates, the trip that waits, and FDn_THR. -/
def FeedRun.sansPins (r : FeedRun) : FeedRun := { r with pcg := false, mng := false, ocTrip := none, thr := {} }

/-- No gate turns on from `r` to `t`. -/
structure FeedRun.GatesHeld (r t : FeedRun) : Prop where
  pcg : r.pcg = false → t.pcg = false
  mng : r.mng = false → t.mng = false

/-- From `s` to `t` no gate of feed `z` turns on, and nothing else moves but the trip that waits and FDn_THR. -/
structure State.FeedSettles (z : Nat) (s t : State) : Prop extends State.FeedMoves z FeedRun.sansPins s t,
  FeedRun.GatesHeld (s.feed z) (t.feed z)

namespace State.FeedSettles

theorem refl (s : State) : FeedSettles z s s := ⟨.refl s, id, id⟩

theorem trans {a b : State} (h : FeedSettles z s a) (k : FeedSettles z a b) : FeedSettles z s b :=
  ⟨h.toFeedMoves.trans k.toFeedMoves, fun e => k.pcg (h.pcg e), fun e => k.mng (h.mng e)⟩

theorem ite {c : Prop} [Decidable c] {a b : State} (h : FeedSettles z s a) (k : FeedSettles z s b) :
    FeedSettles z s (if c then a else b) := by split <;> assumption

end State.FeedSettles

theorem State.overlapEnd_settles (s : State) (hz : z < 16) : FeedSettles z s (s.overlapEnd z) := by
  have hoff := State.feed_onFeed s z (fun r => { r with pcg := false }) hz
  exact .ite ⟨.onFeed s z fun _ => rfl, fun _ => by rw [hoff], fun h => by rw [hoff]; exact h⟩ (.refl s)

theorem State.overcurrent_feed (hz : z < 16) : (s.overcurrent z).feed z =
    { s.feed z with pcg := false, mng := false, ocTrip := s.raised (s.feed z).ocTrip } := State.feed_onFeed s z _ hz

theorem State.overcurrent_settles (s : State) (hz : z < 16) : FeedSettles z s (s.overcurrent z) :=
  ⟨.onFeed s z fun _ => rfl, fun _ => by rw [State.overcurrent_feed hz], fun _ => by rw [State.overcurrent_feed hz]⟩

theorem State.thrUpdate_moves (s : State) (z : Nat) : FeedMoves z FeedRun.warning s (s.thrUpdate z) :=
  ⟨.of_feeds (State.thrUpdate_only s z) (State.thrUpdate_other s z), State.thrUpdate_warning s z z⟩

theorem State.thrUpdate_settles (s : State) (z : Nat) : FeedSettles z s (s.thrUpdate z) :=
  have h := State.thrUpdate_moves s z
  ⟨h.weaken _, fun e => (h.weaken FeedRun.pcg).self.trans e, fun e => (h.weaken FeedRun.mng).self.trans e⟩

theorem State.feedSettled_settles (s : State) (hz : z < 16) : FeedSettles z s (s.feedSettled z) := by
  have ho := s.overlapEnd_settles hz
  exact (ho.trans (.ite (State.overcurrent_settles _ hz) (.refl _))).trans (State.thrUpdate_settles _ z)

/-- A shunt reading above OC_LIM has tripped the comparator (R251). -/
theorem State.feedSettled_trips (hz : z < 16) (h : s.overLimit z = true) :
    ((s.feedSettled z).feed z).ocTrip.isSome = true ∧ ((s.feedSettled z).feed z).pcg = false ∧
      ((s.feedSettled z).feed z).mng = false := by
  have ho := s.overlapEnd_settles hz
  have hover : (s.overlapEnd z).overLimit z = true := by
    rw [State.overLimit, ho.only.keeps_feedB (by decide), (ho.weaken FeedRun.rd).self]
    exact h
  have hthr := State.thrUpdate_moves ((s.overlapEnd z).overcurrent z) z
  unfold State.feedSettled
  rw [if_pos hover, (hthr.weaken FeedRun.ocTrip).self, (hthr.weaken FeedRun.pcg).self, (hthr.weaken FeedRun.mng).self,
    State.overcurrent_feed hz]
  exact ⟨rfl, rfl, rfl⟩

/-! ### The tick of one feed -/

theorem State.feedTick_frame (s : State) (z : Nat) (y : FeedIn) (hz : z < 16) : FeedFrame z s (s.feedTick z y) :=
  (s.feedMeasured_moves z y).toFeedFrame.trans ((State.feedRows_moves _ z).toFeedFrame.trans (State.feedSettled_settles _ hz).toFeedFrame)

/-- A feed as its rows find it at a tick: measured, with a trip that ends no attempt registered. -/
def State.feedReady (s : State) (z : Nat) (y : FeedIn) : State := (s.feedMeasured z y).feedTripped z

theorem State.feedReady_moves (s : State) (z : Nat) (y : FeedIn) : FeedMoves z FeedRun.sansReadings s (s.feedReady z y) :=
  (s.feedMeasured_moves z y).trans ((State.feedTripped_kept _ z).weaken _)

theorem State.feedReady_feed (s : State) (z : Nat) (y : FeedIn) : (s.feedReady z y).feed z = (s.feedMeasured z y).feed z :=
  (State.feedTripped_kept _ z).self

theorem State.feedReady_reads (hz : z < 16) (y : FeedIn) : s.FeedReads z y ((s.feedReady z y).feed z) := by
  rw [State.feedReady_feed]
  exact State.feedMeasured_reads hz y

theorem State.feedReady_stopDue (y : FeedIn) : (s.feedReady z y).stopDue z = s.stopDue z :=
  have h := s.feedReady_moves z y
  h.only.keeps_stopDue (by decide) (h.weaken FeedRun.stopReq).self

theorem State.feedReady_due (y : FeedIn) (r : Option Nat) : (s.feedReady z y).due r = s.due r :=
  (s.feedReady_moves z y).only.keeps_due (by decide) r

theorem State.feedMeasured_due (y : FeedIn) (r : Option Nat) : (s.feedMeasured z y).due r = s.due r :=
  (s.feedMeasured_moves z y).only.keeps_due (by decide) r

/-- What the row leaves in the feed stands at the end of the tick, where no shed step is due or the row has left the feed Off or
Latched; no gate turns on after the row. -/
theorem State.feedTick_follows (hz : z < 16) {y : FeedIn} (hshed : s.due (s.feed z).shedReq = false ∨
      (((s.feedReady z y).feedRow z).feed z).phase = .off ∨ (((s.feedReady z y).feedRow z).feed z).phase = .latched) :
    FeedMoves z FeedRun.sansGates ((s.feedReady z y).feedRow z) (s.feedTick z y) ∧
      FeedRun.GatesHeld (((s.feedReady z y).feedRow z).feed z) ((s.feedTick z y).feed z) := by
  have hm := s.feedMeasured_moves z y
  have hrows := State.feedRows_follow (s := s.feedMeasured z y) (z := z) (by
    rw [State.feedMeasured_due, (hm.weaken FeedRun.shedReq).self]
    exact hshed)
  have hserved : FeedMoves z FeedRun.sansRequests ((s.feedReady z y).feedRow z) ((s.feedMeasured z y).feedRows z) := by
    rw [hrows]
    exact .onFeed _ z fun _ => rfl
  have hset := State.feedSettled_settles ((s.feedMeasured z y).feedRows z) hz
  rw [State.feedTick_stages]
  exact ⟨(hserved.weaken FeedRun.sansGates).trans (hset.weaken FeedRun.sansGates),
    fun h => hset.pcg ((hserved.weaken FeedRun.pcg).self.trans h), fun h => hset.mng ((hserved.weaken FeedRun.mng).self.trans h)⟩

/-- A tick of a feed takes the requests that are due (R246). -/
theorem State.feedTick_requests (hz : z < 16) (y : FeedIn) :
    ((s.feedTick z y).feed z).startReq = (if s.due (s.feed z).startReq then none else (s.feed z).startReq) ∧
      ((s.feedTick z y).feed z).stopReq = (s.feed z).stopReq.filter (fun q => !s.due (some q.2)) ∧
      ((s.feedTick z y).feed z).clearReq = (if s.due (s.feed z).clearReq then none else (s.feed z).clearReq) ∧
      ((s.feedTick z y).feed z).shedReq = (if s.due (s.feed z).shedReq then none else (s.feed z).shedReq) := by
  have hm := s.feedMeasured_moves z y
  have hset := State.feedSettled_settles ((s.feedMeasured z y).feedRows z) hz
  have hdue : (s.feedMeasured z y).due = s.due := funext fun r => State.feedMeasured_due y r
  have hrows := State.feedRows_requests (s := s.feedMeasured z y) hz
  rw [hdue, (hm.weaken FeedRun.requests).self] at hrows
  rw [State.feedTick_stages, (hset.weaken FeedRun.startReq).self, (hset.weaken FeedRun.stopReq).self,
    (hset.weaken FeedRun.clearReq).self, (hset.weaken FeedRun.shedReq).self]
  have hfield {α : Type} (q : FeedRun → α) := congrArg q hrows
  exact ⟨hfield FeedRun.startReq, hfield FeedRun.stopReq, hfield FeedRun.clearReq, hfield FeedRun.shedReq⟩

theorem State.stopDue_taken {c : Nat} (h : s.stopDue z = some c) :
    (s.feed z).stopReq.filter (fun q => !s.due (some q.2)) = none := by
  cases hr : (s.feed z).stopReq with
  | none => rfl
  | some q =>
    cases hd : s.due (some q.2) with
    | true => simp [Option.filter, hd]
    | false => simp [State.stopDue, hr, Option.filter, hd] at h

/-- An attempt that goes on with the readings of a tick goes on where its rows find the feed. -/
theorem AttemptGoesOn.ready {y : FeedIn} (hz : z < 16) (h : AttemptGoesOn s z y) : (s.feedReady z y).FeedGoes z := by
  have hmoves := s.feedReady_moves z y
  obtain ⟨-, -, -, -, henergy, hx, hdrop⟩ := State.feedReady_reads (s := s) hz y
  have hphase := (hmoves.weaken FeedRun.phase).self
  have hsince := (hmoves.weaken FeedRun.since).self
  have htrip := (hmoves.weaken FeedRun.ocTrip).self
  have hbank : (s.feedReady z y).feedB z = s.feedB z := hmoves.only.keeps_feedB (by decide) z
  have helapsed (t : Nat) : elapsedUs (s.feedReady z y) t = elapsedUs s t := hmoves.only.keeps_elapsedUs (by decide) t
  unfold AttemptGoesOn at h
  cases hp : (s.feed z).phase with
  | off | latched =>
    rw [hp] at h
    exact h.elim
  | seating | retryWait =>
    rw [hp] at hphase
    exact {
      notOff := by simp [hphase]
      notLatched := by simp [hphase]
      ends := by simp [State.feedEnds, hphase]
      mainGate := by
        unfold State.mainGateFault
        split <;> simp [hphase] }
  | preCharge =>
    rw [hp] at h hphase
    obtain ⟨hoc, htime, hlimit⟩ := h
    have hbelow : ¬ (((s.feedB z).core.preEMax : Int) * 1000000 ≤ ((s.feedReady z y).feed z).energy) := by
      rw [henergy hp]
      omega
    exact {
      notOff := by simp [hphase]
      notLatched := by simp [hphase]
      ends := by
        rw [State.feedEnds_preCharge hphase, htrip, hsince, hbank, State.feedReady_due, helapsed, hoc, if_neg hbelow,
          if_neg (Nat.not_le.mpr htime)]
        rfl
      mainGate := by
        unfold State.mainGateFault
        split <;> simp [hphase] }
  | on =>
    rw [hp] at h hphase
    obtain ⟨hoc, hnone, hlimit⟩ := h
    exact {
      notOff := by simp [hphase]
      notLatched := by simp [hphase]
      ends := by
        rw [State.feedEnds_on hphase, htrip, hbank, State.feedReady_due, hx hp, hoc, if_neg (Int.not_le.mpr hlimit)]
        rfl
      mainGate := by
        unfold State.mainGateFault
        rcases hdrop hnone with hd | hd
        · simp [hd]
        · have hnow : elapsedUs (s.feedReady z y) s.clock.slots = 0 := (helapsed _).trans (by simp [elapsedUs])
          simp [hd, hnow] }

/-! ### The run over all feeds -/

/-- What a feed tick does to feed `z`. -/
def State.feedStep (x : Vector FeedIn 16) (s : State) (z : Nat) : State :=
  match x[z]? with | some y => s.feedTick z y | none => s

theorem State.feedTickAll_steps {x : Vector FeedIn 16} (h : s.onGrid 2 = true) :
    s.feedTickAll x = (allFeeds.foldl (State.feedStep x) s).busbarCurrents := by
  unfold State.feedTickAll
  rw [if_neg (by simp [h])]
  rfl

theorem State.feedTickAll_offGrid {x : Vector FeedIn 16} (h : s.onGrid 2 = false) : s.feedTickAll x = s := if_pos (by simp [h])

theorem State.feedStep_frame (x : Vector FeedIn 16) (s : State) (z : Nat) : FeedFrame z s (s.feedStep x z) := by
  unfold State.feedStep
  split
  case h_1 y hy => exact State.feedTick_frame s z y (Vector.getElem?_eq_some_iff.mp hy).1
  case h_2 => exact .refl s

/-- A run whose other steps leave `a` comes to it in a state that they have left, and they leave what it does. -/
theorem foldl_around {σ α : Type} {f : σ → α → σ} {R : σ → σ → Prop} (refl : ∀ u, R u u)
    (trans : ∀ {u v w}, R u v → R v w → R u w) {a : α} (step : ∀ u b, a ≠ b → R u (f u b)) {l : List α} (nd : l.Nodup)
    (ha : a ∈ l) (s : σ) : ∃ u, R s u ∧ R (f u a) (l.foldl f s) := by
  have rest (l : List α) (hl : a ∉ l) : ∀ u, R u (l.foldl f u) := by
    induction l with
    | nil => exact refl
    | cons b l ih =>
      obtain ⟨hb, hin⟩ : a ≠ b ∧ a ∉ l := by simpa using hl
      exact fun u => trans (step u b hb) (ih hin _)
  obtain ⟨l1, l2, rfl⟩ := List.append_of_mem ha
  obtain ⟨h1, h2⟩ : a ∉ l1 ∧ a ∉ l2 := by
    have := List.nodup_middle.mp nd
    simpa using (List.nodup_cons.mp this).1
  refine ⟨l1.foldl f s, rest l1 h1 s, ?_⟩
  rw [List.foldl_append, List.foldl_cons]
  exact rest l2 h2 _

/-- A feed tick comes to each feed once, in a state in which the others have left it; what its own tick does to it stands, and no
cause is lost. -/
theorem State.feedTickAll_reaches {x : Vector FeedIn 16} {y : FeedIn} (hx : x[z]? = some y) (h : s.onGrid 2 = true) :
    ∃ u, FeedKept z s u ∧ (s.feedTickAll x).feed z = (u.feedTick z y).feed z ∧
      ∀ src cause, Registers (u.feedTick z y) src cause → Registers (s.feedTickAll x) src cause := by
  have hz : z < 16 := (Vector.getElem?_eq_some_iff.mp hx).1
  have nd : allFeeds.Nodup := List.nodup_range
  obtain ⟨u, hu, hrest⟩ := foldl_around (R := FeedKept z) FeedKept.refl FeedKept.trans (f := State.feedStep x) (a := z)
    (fun u b hb => (u.feedStep_frame x b).kept_other hb) nd (mem_allFeeds.mpr hz) s
  have hstep : u.feedStep x z = u.feedTick z y := by simp only [State.feedStep, hx]
  rw [hstep] at hrest
  have hbus := State.busbarCurrents_only (allFeeds.foldl (State.feedStep x) s)
  rw [State.feedTickAll_steps h]
  exact ⟨u, hu, (hbus.keeps_feed (by decide) z).trans hrest.self,
    fun src cause r => Registers.of_only (hrest.registers _ _ r) hbus (by decide) (by decide)⟩

theorem feedTick_exec (x : Vector FeedIn 16) (h : s.boot.phase ≠ .held) :
    Machine.exec (.feedTick x) s = .next (s.fresh.feedTickAll x) := inService_eq h _

theorem feedTick_offGrid (x : Vector FeedIn 16) (h : s.onGrid 2 = false) : Machine.exec (.feedTick x) s = .next s.fresh := by
  have hstands : s.fresh.feedTickAll x = s.fresh := State.feedTickAll_offGrid h
  refine congrArg Host.Outcome.next ?_
  unfold State.running
  split
  · rfl
  · exact hstands

end

end Sys2Proof.Machine
end

section
/-!
SUPPORT. What a feed tick does: its measurements, and the requests that it takes (Table 08-2, R245, R246, R249, R252, R256, R261).
-/
namespace Sys2Proof.Machine
set_option Elab.async false

section
variable {s : State} {z : Nat} {y : FeedIn}

/-! ### Requests that a tick takes -/

/-- At the end of a tick feed `z` stands in state `ph` with both gates off. -/
structure FeedRun.Rests (t : FeedRun) (ph : FeedPhase) : Prop where
  phase : t.phase = ph
  pcg : t.pcg = false
  mng : t.mng = false

/-- A start of a feed in Off leads to Seating (Table 08-2). -/
theorem State.feedTick_starts (hz : z < 16) (hstop : s.stopDue z = none) (hstart : s.due (s.feed z).startReq = true)
    (hp : (s.feed z).phase = .off) (hshed : s.due (s.feed z).shedReq = false) (hsafe : s.lint.safe = false)
    (hheld : s.feedHeld z = false) (hmark : (s.feed z).shed = false) :
    ((s.feedTick z y).feed z).Rests .seating ∧ ((s.feedTick z y).feed z).retry = 0 ∧
      ((s.feedTick z y).feed z).since = s.clock.slots := by
  have hready := s.feedReady_moves z y
  have hrow : (s.feedReady z y).feedRow z = _ := State.feedRow_start ((hready.weaken FeedRun.phase).self.trans hp)
    ((State.feedReady_stopDue y).trans hstop) (by rw [State.feedReady_due, (hready.weaken FeedRun.startReq).self, hstart])
    (hready.safe.trans hsafe) ((hready.only.keeps_feedHeld (by decide) (by decide) z).trans hheld)
    ((hready.weaken FeedRun.shed).self.trans hmark)
  have hself : ((s.feedReady z y).feedRow z).feed z =
      { ((s.feedReady z y).feed z).entered .seating s.clock.slots with retry := 0 } := by
    rw [hrow, State.feed_onFeed _ _ _ hz, State.feedTo_feed hz, hready.only.keeps_clock (by decide)]
  obtain ⟨hm, hgates⟩ := State.feedTick_follows hz (y := y) (.inl hshed)
  exact ⟨⟨(hm.weaken FeedRun.phase).self.trans (by rw [hself]; rfl), hgates.pcg (by rw [hself]; rfl),
    hgates.mng (by rw [hself]; rfl)⟩, (hm.weaken FeedRun.retry).self.trans (by rw [hself]),
    (hm.weaken FeedRun.since).self.trans (by rw [hself]; rfl)⟩

/-- A stop takes a feed whose attempt goes on to Off, with its cause (Table 08-2, R246). -/
theorem State.feedTick_stops (hz : z < 16) {c : Nat} (hstop : s.stopDue z = some c) (g : AttemptGoesOn s z y) :
    ((s.feedTick z y).feed z).Rests .off ∧ ((s.feedTick z y).feed z).cause = c := by
  have hgoes := AttemptGoesOn.ready hz g
  have hrow : (s.feedReady z y).feedRow z = _ := State.feedRow_stop hgoes ((State.feedReady_stopDue y).trans hstop)
  have hself := State.feedStop_feed hz c hgoes.notOff hgoes.notLatched
  rw [← hrow] at hself
  obtain ⟨hm, hgates⟩ := State.feedTick_follows hz (y := y) (.inr (.inl (by rw [hself]; rfl)))
  exact ⟨⟨(hm.weaken FeedRun.phase).self.trans (by rw [hself]; rfl), hgates.pcg (by rw [hself]; rfl),
    hgates.mng (by rw [hself]; rfl)⟩, (hm.weaken FeedRun.cause).self.trans (by rw [hself])⟩

/-- A clear takes a latched feed to Off (Table 08-2). -/
theorem State.feedTick_clears (hz : z < 16) (h : s.due (s.feed z).clearReq = true) (hp : (s.feed z).phase = .latched) :
    ((s.feedTick z y).feed z).phase = .off ∧ ((s.feedTick z y).feed z).retry = 0 := by
  have hready := s.feedReady_moves z y
  have hrow : (s.feedReady z y).feedRow z = _ := State.feedRow_clear ((hready.weaken FeedRun.phase).self.trans hp)
    (by rw [State.feedReady_due, (hready.weaken FeedRun.clearReq).self, h])
  have hself : ((s.feedReady z y).feedRow z).feed z =
      { ((s.feedReady z y).feed z).entered .off (s.feedReady z y).clock.slots with retry := 0 } := by
    rw [hrow, State.feed_onFeed _ _ _ hz, State.feedTo_feed hz]
  obtain ⟨hm, -⟩ := State.feedTick_follows hz (y := y) (.inr (.inl (by rw [hself]; rfl)))
  exact ⟨(hm.weaken FeedRun.phase).self.trans (by rw [hself]; rfl), (hm.weaken FeedRun.retry).self.trans (by rw [hself])⟩

/-- A shed step takes a feed whose attempt goes on and that no row takes to Off to Off all the same, marked shed (R256). -/
theorem State.feedTick_sheds (hz : z < 16) (hstop : s.stopDue z = none) (hshed : s.due (s.feed z).shedReq = true)
    (g : AttemptGoesOn s z y) (hin : (s.feed z).phase ≠ .on ∨ (s.feedB z).reinsert = true ∨ (s.feedB z).seatEn = false ∨
      (y.seatL = true ∧ y.seatS = true)) :
    ((s.feedTick z y).feed z).Rests .off ∧ ((s.feedTick z y).feed z).cause = 8 ∧ ((s.feedTick z y).feed z).shed = true := by
  have hready := s.feedReady_moves z y
  have hmeasured := s.feedMeasured_moves z y
  have hgoes := AttemptGoesOn.ready hz g
  have hreads := State.feedReady_reads (s := s) hz y
  obtain ⟨-, -, -, -, hseatL, hseatS⟩ := (s.feed z).rd.tick_inputs y (feedCurrent (s.feedB z) y.shunt)
  obtain ⟨hoff, hlatched⟩ := State.feedRow_goes hz hgoes ((State.feedReady_stopDue y).trans hstop) (by
    rw [(hready.weaken FeedRun.phase).self, hready.only.keeps_feedB (by decide), FeedRun.seated, hreads.rd, hseatL, hseatS]
    simpa using hin)
  obtain ⟨hphase, hcause, hmark, hpcg, hmng, -⟩ := State.feedRows_sheds (s := s.feedMeasured z y) hz
    (by rw [State.feedMeasured_due, (hmeasured.weaken FeedRun.shedReq).self, hshed]) hoff hlatched
  have hset := State.feedSettled_settles ((s.feedMeasured z y).feedRows z) hz
  rw [State.feedTick_stages]
  exact ⟨⟨(hset.weaken FeedRun.phase).self.trans hphase, hset.pcg hpcg, hset.mng hmng⟩,
    (hset.weaken FeedRun.cause).self.trans hcause, (hset.weaken FeedRun.shed).self.trans hmark⟩

/-! ### From one feed to the tick of all -/

/-- Whether an attempt goes on is the same in a state that has left the feed. -/
theorem AttemptGoesOn.kept {u : State} (hu : State.FeedKept z s u) (g : AttemptGoesOn s z y) : AttemptGoesOn u z y := by
  have hdue (r : Option Nat) : u.due r = s.due r := hu.only.keeps_due (by decide) r
  have helapsed (t : Nat) : elapsedUs u t = elapsedUs s t := hu.only.keeps_elapsedUs (by decide) t
  have hbank : u.feedB z = s.feedB z := hu.only.keeps_feedB (by decide) z
  unfold AttemptGoesOn at g ⊢
  rw [hu.self, hbank, hdue, helapsed]
  exact g

end

/-- Feed ticks take the requests that arose before them (Table 08-2, R246, R256). -/
theorem feedTicksTakeRequests : FeedTicksTakeRequests := by
  intro s x z y hb hg hx
  have hz : z < 16 := (Vector.getElem?_eq_some_iff.mp hx).1
  obtain ⟨u, hu, hfeed, -⟩ := State.feedTickAll_reaches (s := s.fresh) hx hg
  have hself : u.feed z = s.feed z := hu.self
  have hdue (r : Option Nat) : u.due r = s.due r := hu.only.keeps_due (by decide) r
  have hstopDue : u.stopDue z = s.stopDue z := hu.only.keeps_stopDue (by decide) (congrArg FeedRun.stopReq hu.self)
  have hgoes (g : AttemptGoesOn s z y) : AttemptGoesOn u z y := AttemptGoesOn.kept (s := s.fresh) hu g
  obtain ⟨hstartReq, hstopReq, hclearReq, hshedReq⟩ := State.feedTick_requests (s := u) hz y
  rw [hdue, hself] at hstartReq hclearReq hshedReq
  refine ⟨fun hstop hstart hp hshed hsafe hheld hmark => ⟨_, feedTick_exec x hb, ?_⟩,
    fun c hstop g => ⟨_, feedTick_exec x hb, ?_⟩, fun hstop hshed g hin => ⟨_, feedTick_exec x hb, ?_⟩,
    fun hclear hp => ⟨_, feedTick_exec x hb, ?_⟩⟩ <;> rw [hfeed]
  · obtain ⟨⟨hphase, hpcg, hmng⟩, hretry, hsince⟩ := State.feedTick_starts (s := u) (y := y) hz (hstopDue.trans hstop)
      (by rw [hdue, hself, hstart]) (by rw [hself, hp]) (by rw [hdue, hself, hshed]) (hu.safe.trans hsafe)
      ((hu.only.keeps_feedHeld (by decide) (by decide) z).trans hheld) (by rw [hself, hmark])
    exact ⟨hphase, hretry, hsince.trans (congrArg Clock.slots (hu.only.keeps_clock (by decide))), hpcg, hmng,
      hstartReq.trans (if_pos hstart)⟩
  · obtain ⟨⟨hphase, hpcg, hmng⟩, hcause⟩ := State.feedTick_stops (s := u) hz (hstopDue.trans hstop) (hgoes g)
    exact ⟨hphase, hcause, hpcg, hmng, hstopReq.trans (State.stopDue_taken (hstopDue.trans hstop)),
      fun h => hstartReq.trans (if_pos h)⟩
  · obtain ⟨⟨hphase, hpcg, hmng⟩, hcause, hmark⟩ := State.feedTick_sheds (s := u) hz (hstopDue.trans hstop)
      (by rw [hdue, hself, hshed]) (hgoes g) (by rw [hself, hu.only.keeps_feedB (by decide)]; exact hin)
    exact ⟨hphase, hcause, hmark, hpcg, hmng, hshedReq.trans (if_pos hshed)⟩
  · obtain ⟨hphase, hretry⟩ := State.feedTick_clears (s := u) (y := y) hz (by rw [hdue, hself, hclear]) (by rw [hself, hp])
    exact ⟨hphase, hretry, hclearReq.trans (if_pos hclear)⟩

end Sys2Proof.Machine
end

section
/-!
SUPPORT. Requests to a feed, from a host and from a block of the part: each waits for the feed's next tick with the slot in which it
first arose (R246, R257, R261, R479).
-/
namespace Sys2Proof.Machine
set_option Elab.async false

/-- The row of a feed's command object (Table 08-4). -/
def feedCommandRow : Row := .mk 2 1 1 .u8 .wo .stw .plain 1 4

theorem locate_feedCommand {z : Nat} (hz : z < 16) : locate (Family.feed.index z 2) = some (.feed, z, 2) := by
  interval_cases z <;> decide

/-- A feed's command object is the one of its row. -/
theorem anyObject_feedCommand {z : Nat} (hz : z < 16) :
    anyObject? (Family.feed.index z 2) 1 = some ⟨.feed, z, 2, 1, feedCommandRow⟩ :=
  object_row (locate_feedCommand hz) (by decide) (by decide)

/-- A request of `o` has reached feed `z`: it is answered, and in the feeds only `z` has changed, by `f`. -/
structure FeedAsked (s t : State) (o : Source) (z : Nat) (f : FeedRun → FeedRun) : Prop where
  reported : Reported t o
  only : OnlyChanges [.sent, .seats, .t1s, .tts, .score, .feeds] s t
  self : t.feed z = f (s.feed z)
  other : ∀ j, j ≠ z → t.feed j = s.feed j

/-- A request that a block raises. -/
theorem feedAsked_block {s : State} {z : Nat} {f : FeedRun → FeedRun} {block : State → State} (hz : z < 16)
    (hb : s.boot.phase ≠ .held) (hblock : block s.fresh = s.fresh.onFeed z f) :
    ∃ t, inService s block = .next t ∧ FeedAsked s t .block z f := by
  refine ⟨_, (inService_eq hb _).trans (congrArg _ hblock), rfl, ?_, State.feed_onFeed _ _ _ hz,
    fun j hj => State.feed_onFeed_ne _ _ _ _ hj⟩
  exact (State.onFeed_only _ _ _).step rfl ((State.fresh_only s).mono rfl)

/-- A request that a host writes to the feed's command object, where the feed takes it. -/
theorem feedAsked_host {s : State} {h : Hdr} {e : Expect} {z : Nat} {v : Int} {f : FeedRun → FeedRun} (hz : z < 16)
    (ad : AdmittedPut s h e (Family.feed.index z 2) 1 v) (hv : v = 1 ∨ v = 2 ∨ v = 3 ∨ v = 4)
    (hask : ∀ u, OnlyChanges [.sent, .seats, .score] s u → u.askFeed z v = .ok (u.onFeed z f)) :
    ∃ t, inService s (fun s => s.hostPut h e .feed z 2 1 v) = .next t ∧ FeedAsked s t (.host h e) z f := by
  have ad' : Admitted s h e (Family.feed.index z 2) 1 (feedCommandRow.ty.encode v) := by
    simpa only [AdmittedPut, putOctets, anyObject_feedCommand hz] using ad
  have hok : rowOk ⟨.feed, z, 2, 1, feedCommandRow⟩ v = true := by rcases hv with rfl | rfl | rfl | rfl <;> rfl
  obtain ⟨u, log, done⟩ := State.put_done ad' (locate_feedCommand hz) (by decide) (by decide) rfl (by decide) (by decide)
    nofun rfl rfl (by decide) (by rcases hv with rfl | rfl | rfl | rfl <;> rfl) hok
  have hu : OnlyChanges [.sent, .seats, .score] s u := ((State.arrived_only s h).mono rfl).trans (log.mono rfl)
  have hses : (u.onFeed z f).sessionOk h.seat h.session = true :=
    (State.sessionOk_of_only log (by decide) _ _).trans (State.arrived_ok ad.taken)
  obtain ⟨t, ht, only, hacc, -⟩ := done _ (hask u hu) hses
  have hfeed (j : Nat) : t.feed j = (u.onFeed z f).feed j := only.keeps_feed (by decide) j
  refine ⟨t, congrArg _ ht, hacc, ?_, ?_, fun j hj => ?_⟩
  · exact (hu.mono rfl).trans (((State.onFeed_only u z f).mono rfl).trans (only.mono rfl))
  · rw [hfeed, State.feed_onFeed _ _ _ hz, hu.keeps_feed (by decide)]
  · rw [hfeed, State.feed_onFeed_ne _ _ _ _ hj, hu.keeps_feed (by decide)]

/-! ### What each request leaves in its feed -/

/-- A start request waits; that of a host takes the shed mark away (R257). -/
def FeedRun.askStart (r : FeedRun) (now : Nat) (host : Bool) : FeedRun :=
  { r with startReq := some (r.startReq.getD now), startHost := host && (r.startReq.isNone || r.startHost)
           shed := !host && r.shed }

/-- A stop request waits with the cause of its sender. -/
def FeedRun.askStop (r : FeedRun) (now cause : Nat) : FeedRun :=
  { r with stopReq := some (r.stopReq.getD (cause, now)), thermalMark := false }

/-- A clear waits. -/
def FeedRun.askClear (r : FeedRun) (now : Nat) : FeedRun :=
  { r with clearReq := some (r.clearReq.getD now), thermalMark := false }

/-- A clear of the captures waits. -/
def FeedRun.askCaptures (r : FeedRun) (now : Nat) : FeedRun := { r with capsReq := some (r.capsReq.getD now) }

/-- The cause of a stop by its sender: a host's command, or the part itself (Table 08-2). -/
def Source.stopCause : Source → Nat | .host _ _ => 1 | .block => 11

section
variable {s : State} {o : Source} {z : Nat}

theorem feedStartAsked (hz : z < 16) (ra : Raised s o .feed z 2 1) (hsafe : s.lint.safe = false) (hheld : s.feedHeld z = false)
    (hmay : match o with
      | .host _ _ => (s.feed z).phase ≠ .latched ∧ ((s.feed z).shed = true → s.shelf.loss.declared = false)
      | .block => (s.feed z).shed = false) :
    ∃ t host, Machine.exec (.feedStart o z) s = .next t ∧ FeedAsked s t o z (fun r => r.askStart s.clock.slots host) ∧
      (t.feed z).shed = false := by
  cases o with
  | block =>
    have hblock : s.fresh.requestFeed z = s.fresh.onFeed z (fun r => { r with
        startReq := s.fresh.raised r.startReq, startHost := false }) := by
      have hstands : s.fresh.lint.safe = false ∧ s.fresh.feedHeld z = false ∧ (s.fresh.feed z).shed = false := ⟨hsafe, hheld, hmay⟩
      simp [State.requestFeed, hstands]
    obtain ⟨t, ht, asked⟩ := feedAsked_block (block := fun s => s.requestFeed z) hz ra hblock
    exact ⟨t, false, ht, { asked with }, (congrArg FeedRun.shed asked.self).trans hmay⟩
  | host h e =>
    obtain ⟨hl, hs⟩ := hmay
    obtain ⟨t, ht, asked⟩ := feedAsked_host hz ra (.inl rfl) (f := fun r => r.askStart s.clock.slots true) fun u hu => by
      have hfeed := hu.keeps_feed (show Part.feeds ∉ [Part.sent, Part.seats, Part.score] by decide) z
      have hloss : ((s.feed z).shed && s.shelf.loss.declared) = false := by
        cases h : (s.feed z).shed with
        | true => exact hs h
        | false => rfl
      rw [← hu.keeps_clock (by decide)]
      simp only [State.askFeed, hfeed, hu.keeps_lint (by decide), hsafe, hu.keeps_feedHeld (by decide) (by decide), hheld,
        beq_false_of_ne hl, hu.keeps_shelf (by decide), hloss]
      rfl
    exact ⟨t, true, ht, asked, congrArg FeedRun.shed asked.self⟩

theorem feedStopAsked (hz : z < 16) (ra : Raised s o .feed z 2 2) :
    ∃ t, Machine.exec (.feedStop o z) s = .next t ∧ FeedAsked s t o z (fun r => r.askStop s.clock.slots o.stopCause) := by
  cases o with
  | block => exact feedAsked_block hz ra rfl
  | host h e =>
    exact feedAsked_host hz ra (.inr (.inl rfl)) fun u hu => by
      rw [← hu.keeps_clock (by decide)]
      rfl

theorem feedClearAsked (hz : z < 16) (ra : Raised s o .feed z 2 3) :
    ∃ t, Machine.exec (.feedClear o z) s = .next t ∧ FeedAsked s t o z (fun r => r.askClear s.clock.slots) := by
  cases o with
  | block => exact feedAsked_block hz ra rfl
  | host h e =>
    exact feedAsked_host hz ra (.inr (.inr (.inl rfl))) fun u hu => by
      rw [← hu.keeps_clock (by decide)]
      rfl

theorem feedCapturesAsked (hz : z < 16) (ra : Raised s o .feed z 2 4) :
    ∃ t, Machine.exec (.feedClearCaptures o z) s = .next t ∧ FeedAsked s t o z (fun r => r.askCaptures s.clock.slots) := by
  cases o with
  | block => exact feedAsked_block hz ra rfl
  | host h e =>
    exact feedAsked_host hz ra (.inr (.inr (.inr rfl))) fun u hu => by
      rw [← hu.keeps_clock (by decide)]
      rfl

end

theorem feedRequestsAreRaised : FeedRequestsAreRaised := by
  intro s o z hz only
  have honly {t : State} {f : FeedRun → FeedRun} (a : FeedAsked s t o z f) (hp : ∀ r, (f r).phase = r.phase)
      (hpcg : ∀ r, (f r).pcg = r.pcg) (hmng : ∀ r, (f r).mng = r.mng) : only t :=
    ⟨a.only, by rw [a.self, hp], by rw [a.self, hpcg], by rw [a.self, hmng], a.other⟩
  refine ⟨fun ra hsafe hheld hmay => ?_, fun ra => ?_, fun ra => ?_, fun ra => ?_⟩
  · obtain ⟨t, host, ht, asked, hshed⟩ := feedStartAsked hz ra hsafe hheld (by cases o <;> exact hmay)
    exact ⟨t, ht, asked.reported, honly asked (fun _ => rfl) (fun _ => rfl) (fun _ => rfl), hshed,
      congrArg FeedRun.startReq asked.self⟩
  · obtain ⟨t, ht, asked⟩ := feedStopAsked hz ra
    exact ⟨t, ht, asked.reported, honly asked (fun _ => rfl) (fun _ => rfl) (fun _ => rfl),
      congrArg FeedRun.thermalMark asked.self, congrArg FeedRun.stopReq asked.self⟩
  · obtain ⟨t, ht, asked⟩ := feedClearAsked hz ra
    exact ⟨t, ht, asked.reported, honly asked (fun _ => rfl) (fun _ => rfl) (fun _ => rfl),
      congrArg FeedRun.thermalMark asked.self, congrArg FeedRun.clearReq asked.self⟩
  · obtain ⟨t, ht, asked⟩ := feedCapturesAsked hz ra
    exact ⟨t, ht, asked.reported, honly asked (fun _ => rfl) (fun _ => rfl) (fun _ => rfl), asked.self⟩

/-- Settles O37: each request is raised as `FeedAsked` says, and a tick takes the requests that wait row by row. -/
theorem feedRequestsComplete : Obligations.FeedRequestsComplete := ⟨feedRequestsAreRaised, feedTicksTakeRequests⟩

end Sys2Proof.Machine
end

section
/-!
SUPPORT. What a feed tick measures, and what its rows leave of it (R244, R245, R249, R252, R261).
-/
namespace Sys2Proof.Machine
set_option Elab.async false

section
variable {s : State} {z : Nat}

/-- The rows of a tick leave the energy estimate of a feed in Pre-charge. -/
theorem State.feedRows_energy (hp : (s.feed z).phase = .preCharge) : FeedMoves z FeedRun.energy s (s.feedRows z) := by
  rw [State.feedRows_stages, State.feedTripped_attempt (.inl hp)]
  exact ((State.feedRow_energy hp).trans ((State.feedShedDue_moves _ z).weaken _)).trans (.onFeed _ z fun _ => rfl)

/-- The rows of a tick leave the integrator of a feed in On. -/
theorem State.feedRows_integrator (hp : (s.feed z).phase = .on) : FeedMoves z FeedRun.x s (s.feedRows z) := by
  rw [State.feedRows_stages, State.feedTripped_attempt (.inr hp)]
  exact ((State.feedRow_integrator hp).trans ((State.feedShedDue_moves _ z).weaken _)).trans (.onFeed _ z fun _ => rfl)

/-- What a tick leaves of its measurements in feed `z`: all of the readings and the captures, and the estimates that its rows do
not begin anew. -/
structure State.FeedTicked (s : State) (z : Nat) (y : FeedIn) (t : FeedRun) : Prop where
  rd : t.rd = (s.feed z).rd.tick y (feedCurrent (s.feedB z) y.shunt)
  peak : t.caps.peak = max (if s.due (s.feed z).capsReq then 0 else (s.feed z).caps.peak) (feedCurrent (s.feedB z) y.shunt)
  capsReq : s.due (s.feed z).capsReq = true → t.capsReq = none
  energy : (s.feed z).phase = .preCharge →
    t.energy = (s.feed z).energy + (roundDiv ((y.vbus - y.vout) * (y.vbus - y.vout)) (s.feedB z).core.rpre).toNat
  x : (s.feed z).phase = .on → t.x = max 0 ((s.feed z).x + (feedCurrent (s.feedB z) y.shunt * feedCurrent (s.feedB z) y.shunt -
    (s.feedB z).core.iCont * (s.feedB z).core.iCont))

theorem State.feedTick_ticked (hz : z < 16) (y : FeedIn) : s.FeedTicked z y ((s.feedTick z y).feed z) := by
  obtain ⟨hkept, hrd, hpeak, hcaps, henergy, hx, -⟩ := State.feedMeasured_reads (s := s) hz y
  have hphase : ((s.feedMeasured z y).feed z).phase = (s.feed z).phase := ((s.feedMeasured_moves z y).weaken FeedRun.phase).self
  have hset := State.feedSettled_settles ((s.feedMeasured z y).feedRows z) hz
  have hrows : FeedMoves z FeedRun.sansRows (s.feedMeasured z y) (s.feedTick z y) :=
    (State.feedRows_moves _ z).trans (hset.weaken _)
  exact {
    rd := (hrows.weaken FeedRun.rd).self.trans hrd
    peak := (hrows.weaken fun r => r.caps.peak).self.trans hpeak
    capsReq := fun h => (hrows.weaken FeedRun.capsReq).self.trans (hcaps.trans (if_pos h))
    energy := fun hp => ((State.feedRows_energy (hphase.trans hp)).trans (hset.weaken _)).self.trans (henergy hp)
    x := fun hp => ((State.feedRows_integrator (hphase.trans hp)).trans (hset.weaken _)).self.trans (hx hp) }

end

/-- Settles O39: the run over the feeds comes to each once, and what a feed's tick has measured stands at its end. -/
theorem feedTickMeasures : Obligations.FeedTickMeasures := by
  unfold Obligations.FeedTickMeasures
  refine ⟨fun s x h => feedTick_offGrid x h, fun s x hb hg => ⟨_, feedTick_exec x hb, ?_, fun z y hx => ?_⟩⟩
  · exact ((State.fresh_only s).mono rfl).trans ((State.feedTickAll_only s.fresh x).mono rfl)
  · have hz : z < 16 := (Vector.getElem?_eq_some_iff.mp hx).1
    obtain ⟨u, hu, hfeed, -⟩ := State.feedTickAll_reaches (s := s.fresh) hx hg
    have hself : u.feed z = s.feed z := hu.self
    have hbank : u.feedB z = s.feedB z := hu.only.keeps_feedB (by decide) z
    have hdue (r : Option Nat) : u.due r = s.due r := hu.only.keeps_due (by decide) r
    obtain ⟨hrd, hpeak, hcaps, henergy, hx⟩ := State.feedTick_ticked (s := u) hz y
    rw [← hfeed, hself, hbank] at hrd hpeak henergy hx
    rw [← hfeed, hself] at hcaps
    rw [hdue] at hpeak hcaps
    obtain ⟨hvbus, hvout, hcurrent, -, hseatL, hseatS⟩ := (s.feed z).rd.tick_inputs y (feedCurrent (s.feedB z) y.shunt)
    intro i
    rw [hrd]
    exact ⟨hvbus, hvout, hcurrent, hseatL, hseatS, hpeak, hcaps, fun hp _ => henergy hp, fun hp _ => hx hp⟩

end Sys2Proof.Machine
end

section
/-!
SUPPORT. The rows of Table 08-2 that a timer or the comparator brings about, and the seating fault (R246 to R253).
-/
namespace Sys2Proof.Machine
set_option Elab.async false

section
variable {s : State} {z : Nat}

/-! ### The comparator (R247, R251) -/

theorem overcurrentTripActs (hz : z < 16) (hb : s.boot.phase ≠ .held ∨ s.boot.powerOn = false) :
    ∃ t, Machine.exec (.overcurrentTrip z) s = .next t ∧ OnlyChanges [.sent, .feeds] s t ∧
      t.feed z = { s.feed z with
        pcg := false, mng := false, ocTrip := some ((s.feed z).ocTrip.getD s.clock.slots) } ∧ ∀ j, j ≠ z → t.feed j = s.feed j := by
  have htrip : s.fresh.comparatorTrip z = s.fresh.overcurrent z := by
    refine if_neg ?_
    rcases hb with hb | hb <;> simp [State.fresh, hb]
  refine ⟨_, congrArg Host.Outcome.next htrip, ?_, State.overcurrent_feed (s := s.fresh) hz, fun j hj => ?_⟩
  · exact (State.overcurrent_only _ z).step rfl ((State.fresh_only s).mono rfl)
  · exact State.feed_onFeed_ne s.fresh z _ j hj

theorem FeedEnded.of_same {u t : State} {c lint : Nat} (h : FeedEnded u t z c lint) (hr : (u.feed z).retry = (s.feed z).retry)
    (hbank : u.feedB z = s.feedB z) : FeedEnded s t z c lint := by
  unfold FeedEnded at h ⊢
  rw [hr, hbank] at h
  exact h

/-- A trip that registers at a tick is detected, and ends an attempt in Pre-charge or On (R247, R255). -/
theorem State.feedTick_trips (hz : z < 16) (y : FeedIn) (h : s.due (s.feed z).ocTrip = true) :
    Registers (s.feedTick z y) (srcFeed z) 0 ∧
      ((s.feed z).phase = .preCharge ∨ (s.feed z).phase = .on → s.due (s.feed z).shedReq = false →
        FeedEnded s (s.feedTick z y) z 2 0) := by
  have hm := s.feedMeasured_moves z y
  have hset := State.feedSettled_settles ((s.feedMeasured z y).feedRows z) hz
  have hphase := (hm.weaken FeedRun.phase).self
  have hdue : (s.feedMeasured z y).due ((s.feedMeasured z y).feed z).ocTrip = true := by
    rw [State.feedMeasured_due, (hm.weaken FeedRun.ocTrip).self, h]
  have hshed : (s.feedMeasured z y).due ((s.feedMeasured z y).feed z).shedReq = s.due (s.feed z).shedReq := by
    rw [State.feedMeasured_due, (hm.weaken FeedRun.shedReq).self]
  refine ⟨hset.registers _ _ (State.feedRows_registers hdue), fun hp hs => ?_⟩
  rw [← hphase] at hp
  obtain ⟨cs, hcs⟩ := State.feedEnds_trip hdue hp
  have hended : FeedEnded (s.feedMeasured z y) ((s.feedMeasured z y).feedRows z) z 2 0 :=
    State.feedRows_ended hz hp hcs (hshed.trans hs)
  exact FeedEnded.of_same (FeedEnded.followed hended (hset.weaken _) (hset.pcg hended.1) (hset.mng hended.2.1))
    (hm.weaken FeedRun.retry).self (hm.only.keeps_feedB (by decide) z)

/-- A reading above OC_LIM has tripped the comparator at the end of its tick (R251). -/
theorem State.feedTick_overLimit (hz : z < 16) {y : FeedIn}
    (h : (s.feedB z).core.ocLim * (s.feedB z).core.rsh < 1000 * y.shunt) :
    ((s.feedTick z y).feed z).ocTrip.isSome = true ∧ ((s.feedTick z y).feed z).pcg = false ∧
      ((s.feedTick z y).feed z).mng = false := by
  have hrows : FeedMoves z FeedRun.sansRows (s.feedMeasured z y) ((s.feedMeasured z y).feedRows z) := State.feedRows_moves _ z
  have honly : OnlyChanges [.feeds, .lint, .score] s ((s.feedMeasured z y).feedRows z) := (s.feedMeasured_moves z y).only.trans hrows.only
  obtain ⟨-, -, -, hshunt, -⟩ := (s.feed z).rd.tick_inputs y (feedCurrent (s.feedB z) y.shunt)
  have hover : ((s.feedMeasured z y).feedRows z).overLimit z = true := by
    rw [State.overLimit, honly.keeps_feedB (by decide), (hrows.weaken FeedRun.rd).self, (State.feedMeasured_reads hz y).rd, hshunt]
    exact decide_eq_true h
  exact State.feedSettled_trips hz hover

/-! ### Timers that run out -/

theorem State.feedDue_onGrid (h : s.onGrid 2 = true) (f : State → State) : s.feedDue f = f s := if_pos h

/-- The rows of Table 08-2 at a tick of feed `z` alone, when `c` brings them about. -/
theorem feedRows_event {c : Instr} {ph : FeedPhase} (hb : s.boot.phase ≠ .held) (hg : s.onGrid 2 = true)
    (hp : (s.feed z).phase = ph) (hc : Machine.exec c s = inService s (fun s => s.feedRowsIn z ph)) :
    Machine.exec c s = .next (s.fresh.feedRows z) := by
  rw [hc, inService_eq hb]
  have hphase : ((s.fresh.feed z).phase == ph) = true := beq_iff_eq.mpr hp
  exact congrArg _ ((State.feedDue_onGrid (s := s.fresh) hg _).trans (if_pos hphase))

/-- A row that moves its feed alone leaves, at a tick at which no trip registers and no shed step is due, a feed that differs from
what the row says by the requests that are gone. -/
theorem feedRows_alone (ht : s.due (s.feed z).ocTrip = false) (hshed : s.due (s.feed z).shedReq = false)
    (hrow : OnlyChanges [.feeds] s.fresh (s.fresh.feedRow z)) :
    OnlyChanges [.sent, .feeds] s (s.fresh.feedRows z) ∧
      State.FeedMoves z FeedRun.sansRequests (s.fresh.feedRow z) (s.fresh.feedRows z) ∧
      ∀ j, j ≠ z → (s.fresh.feedRows z).feed j = s.feed j := by
  have hrows := State.feedRows_row (s := s.fresh) (z := z) ht hshed
  refine ⟨?_, ?_, (State.feedRows_moves s.fresh z).other⟩
  · rw [hrows]
    exact (State.onFeed_only _ _ _).step rfl (hrow.step rfl ((State.fresh_only s).mono rfl))
  · rw [hrows]
    exact .onFeed _ z fun _ => rfl

theorem seatDebounceActs (hz : z < 16) (hb : s.boot.phase ≠ .held) (hg : s.onGrid 2 = true) (hp : (s.feed z).phase = .seating)
    (hstop : s.stopDue z = none) (h : s.seatDebounced z = true) (ht : s.due (s.feed z).ocTrip = false)
    (hshed : s.due (s.feed z).shedReq = false) :
    ∃ t, Machine.exec (.seatDebounceDone z) s = .next t ∧ OnlyChanges [.sent, .feeds] s t ∧ (t.feed z).phase = .preCharge ∧
      (t.feed z).pcg = true ∧ (t.feed z).mng = false ∧ (t.feed z).energy = 0 ∧ (t.feed z).since = s.clock.slots ∧
      ∀ j, j ≠ z → t.feed j = s.feed j := by
  have hrow : s.fresh.feedRow z = s.fresh.feedPreCharge z := State.feedRow_seated (s := s.fresh) hp hstop h
  have hself := State.feedPreCharge_feed (s := s.fresh) hz
  obtain ⟨honly, hm, hother⟩ := feedRows_alone ht hshed (by rw [hrow]; exact State.feedPreCharge_only _ _)
  rw [hrow] at hm
  refine ⟨_, feedRows_event hb hg hp rfl, honly, (hm.weaken FeedRun.phase).self.trans (by rw [hself]),
    (hm.weaken FeedRun.pcg).self.trans (by rw [hself]), (hm.weaken FeedRun.mng).self.trans (by rw [hself]),
    (hm.weaken FeedRun.energy).self.trans (by rw [hself]), (hm.weaken FeedRun.since).self.trans (by rw [hself]; rfl), hother⟩

theorem preChargeTimeoutActs (hz : z < 16) (hb : s.boot.phase ≠ .held) (hg : s.onGrid 2 = true)
    (hp : (s.feed z).phase = .preCharge) (hends : s.feedEnds z = [4]) (hshed : s.due (s.feed z).shedReq = false) :
    ∃ t, Machine.exec (.preChargeTimeout z) s = .next t ∧ FeedEnded s t z 4 2 ∧ ∀ j, j ≠ z → t.feed j = s.feed j :=
  ⟨_, feedRows_event hb hg hp rfl, State.feedRows_ended (s := s.fresh) hz (.inl hp) hends hshed,
    (State.feedRows_moves s.fresh z).other⟩

theorem overlapEndActs (hz : z < 16) (hb : s.boot.phase ≠ .held) (hg : s.onGrid 2 = true) (hp : (s.feed z).phase = .on)
    (hpcg : (s.feed z).pcg = true) (h : (s.feedB z).core.overlap ≤ elapsedUs s (s.feed z).since) :
    ∃ t, Machine.exec (.overlapEnd z) s = .next t ∧ OnlyChanges [.sent, .feeds] s t ∧
      t.feed z = { s.feed z with pcg := false } ∧ ∀ j, j ≠ z → t.feed j = s.feed j := by
  have hrow : s.fresh.feedDue (fun s => s.overlapEnd z) = s.fresh.onFeed z (fun r => { r with pcg := false }) := by
    have hend : ((s.fresh.feed z).phase == .on && (s.fresh.feed z).pcg &&
        decide ((s.fresh.feedB z).core.overlap ≤ elapsedUs s.fresh (s.fresh.feed z).since)) = true := by
      have hafter : (s.fresh.feedB z).core.overlap ≤ elapsedUs s.fresh (s.fresh.feed z).since := h
      rw [decide_eq_true hafter]
      simpa [State.fresh] using ⟨hp, hpcg⟩
    exact (State.feedDue_onGrid (s := s.fresh) hg _).trans (if_pos hend)
  refine ⟨_, (inService_eq hb _).trans (congrArg _ hrow), ?_, State.feed_onFeed _ _ _ hz, fun j hj => State.feed_onFeed_ne _ _ _ _ hj⟩
  exact (State.onFeed_only _ _ _).step rfl ((State.fresh_only s).mono rfl)

theorem mainGateFaultActs (hz : z < 16) (hb : s.boot.phase ≠ .held) (hg : s.onGrid 2 = true) (h : s.mainGateFault z = true)
    (hends : s.feedEnds z = []) :
    ∃ t, Machine.exec (.mainGateFault z) s = .next t ∧ (t.feed z).phase = .latched ∧ (t.feed z).cause = 6 ∧
      (t.feed z).pcg = false ∧ (t.feed z).mng = false ∧ Registers t (srcFeed z) 4 ∧ Registers t (srcFeed z) 5 ∧
      ∀ j, j ≠ z → t.feed j = s.feed j := by
  have hexec : s.fresh.mainGateRow z = s.fresh.feedRows z := by
    have hfault : s.fresh.mainGateFault z = true := h
    exact (State.feedDue_onGrid (s := s.fresh) hg _).trans (if_pos hfault)
  have hself := State.feedRow_mainGate_feed (s := s.fresh) hz h hends
  have hregs : Registers (s.fresh.feedRow z) (srcFeed z) 4 ∧ Registers (s.fresh.feedRow z) (srcFeed z) 5 := by
    rw [State.feedRow_mainGate (s := s.fresh) h hends]
    have hrecord (u : State) (cause : Nat) (r : Registers u (srcFeed z) cause) : Registers (u.feedRecord z 6) (srcFeed z) cause :=
      (State.FeedFrame.feedRecord (z := z) u z 6).registers _ _ r
    exact ⟨hrecord _ _ (Registers.detect (State.detect_registers _ _ _) _ _), hrecord _ _ (State.detect_registers _ _ _)⟩
  have hattempt : s.fresh.feedTripped z = s.fresh := State.feedTripped_attempt (.inr (State.mainGateFault_on (s := s.fresh) h))
  have hrows := State.feedRows_follow (s := s.fresh) (z := z) (.inr (.inr (by rw [hattempt, hself]; rfl)))
  have hm : State.FeedMoves z FeedRun.sansRequests (s.fresh.feedRow z) (s.fresh.feedRows z) := by
    rw [hrows, hattempt]
    exact .onFeed _ z fun _ => rfl
  refine ⟨_, (inService_eq hb _).trans (congrArg _ hexec), (hm.weaken FeedRun.phase).self.trans (by rw [hself]; rfl),
    (hm.weaken FeedRun.cause).self.trans (by rw [hself]), (hm.weaken FeedRun.pcg).self.trans (by rw [hself]; rfl),
    (hm.weaken FeedRun.mng).self.trans (by rw [hself]; rfl), hm.registers _ _ hregs.1, hm.registers _ _ hregs.2,
    (State.feedRows_moves s.fresh z).other⟩

theorem feedRetryTimerActs (hz : z < 16) (hb : s.boot.phase ≠ .held) (hg : s.onGrid 2 = true) (hp : (s.feed z).phase = .retryWait)
    (hstop : s.stopDue z = none) (h : (s.feedB z).core.retryInt ≤ elapsedUs s (s.feed z).since)
    (ht : s.due (s.feed z).ocTrip = false) (hshed : s.due (s.feed z).shedReq = false) :
    ∃ t, Machine.exec (.feedRetryTimer z) s = .next t ∧ OnlyChanges [.sent, .feeds] s t ∧ (t.feed z).retry = (s.feed z).retry ∧
      ((t.feed z).phase = .preCharge ↔ ∃ from', (s.feed z).seatedFrom = some from' ∧ from' ≤ (s.feed z).since) ∧
      ((t.feed z).phase = .preCharge ∨ (t.feed z).phase = .seating) ∧ ∀ j, j ≠ z → t.feed j = s.feed j := by
  have hrow := State.feedRow_retry (s := s.fresh) hp hstop h
  obtain ⟨honly, hm, hother⟩ := feedRows_alone ht hshed (by
    rw [hrow]
    exact .ite (State.feedPreCharge_only _ _) (State.feedTo_only _ _ _))
  have hphase := (hm.weaken FeedRun.phase).self
  have hretry := (hm.weaken FeedRun.retry).self
  refine ⟨_, feedRows_event hb hg hp rfl, honly, ?_⟩
  by_cases hkept : ∃ from', (s.feed z).seatedFrom = some from' ∧ from' ≤ (s.feed z).since
  · have hself : s.fresh.feedRow z = s.fresh.feedPreCharge z := hrow.trans (if_pos hkept)
    rw [hself, State.feedPreCharge_feed hz] at hphase hretry
    exact ⟨hretry, iff_of_true hphase hkept, .inl hphase, hother⟩
  · have hself : s.fresh.feedRow z = s.fresh.feedTo z .seating := hrow.trans (if_neg hkept)
    rw [hself, State.feedTo_feed hz] at hphase hretry
    exact ⟨hretry, iff_of_false (by rw [hphase]; simp [FeedRun.entered]) hkept, .inr hphase, hother⟩

theorem feedOnTimerActs (hz : z < 16) (hb : s.boot.phase ≠ .held) (hg : s.onGrid 2 = true) (hp : (s.feed z).phase = .on)
    (hends : s.feedEnds z = []) (hgate : s.mainGateFault z = false) (hstop : s.stopDue z = none)
    (hseated : (s.feed z).seated (s.feedB z) = true) (h : 10000000 ≤ elapsedUs s (s.feed z).since)
    (hshed : s.due (s.feed z).shedReq = false) :
    ∃ t, Machine.exec (.feedOnTimer z) s = .next t ∧ OnlyChanges [.sent, .feeds] s t ∧ (t.feed z).phase = .on ∧
      (t.feed z).retry = 0 ∧ (t.feed z).mng = (s.feed z).mng ∧ ∀ j, j ≠ z → t.feed j = s.feed j := by
  have hrow := State.feedRow_onTimer (s := s.fresh) hp hends hgate hstop hseated h
  have ht : s.due (s.feed z).ocTrip = false := Bool.eq_false_iff.mpr fun h => by
    obtain ⟨cs, hcs⟩ := State.feedEnds_trip h (.inr hp)
    cases hends.symm.trans hcs
  have hself : (s.fresh.feedRow z).feed z = { s.feed z with retry := 0 } := by
    rw [hrow]
    exact State.feed_onFeed _ _ _ hz
  obtain ⟨honly, hm, hother⟩ := feedRows_alone ht hshed (by rw [hrow]; exact State.onFeed_only _ _ _)
  exact ⟨_, feedRows_event hb hg hp rfl, honly, (hm.weaken FeedRun.phase).self.trans (by rw [hself, hp]),
    (hm.weaken FeedRun.retry).self.trans (by rw [hself]), (hm.weaken FeedRun.mng).self.trans (by rw [hself]), hother⟩

/-! ### The seating fault (R248) -/

theorem State.seatingFault_lasted {from' : Nat} (hen : (s.feedB z).seatEn = true) (hshort : (s.feed z).rd.seatS = true)
    (hlong : (s.feed z).rd.seatL = false) (hfrom : (s.feed z).seatFrom = some from') (h : 10000 ≤ elapsedUs s from') :
    s.seatingFault z = (s.onFeed z (fun r => { r with seatFrom := some from', seatFault := true })).detectIf
      (!(s.feed z).seatFault) (srcSeating z) 0 := by
  unfold State.seatingFault
  extract_lets r b t hit
  have ht : t = from' := congrArg (Option.getD · _) hfrom
  have hhit : hit = true := decide_eq_true (ht ▸ h)
  rw [if_pos (by simp [r, b, hen, hshort, hlong]), ht, hhit, Bool.true_and]
  simp only [Bool.or_true, r]

theorem seatingFaultActs (hz : z < 16) (hb : s.boot.phase ≠ .held) (hg : s.onGrid 2 = true) {from' : Nat}
    (hen : (s.feedB z).seatEn = true) (hshort : (s.feed z).rd.seatS = true) (hlong : (s.feed z).rd.seatL = false)
    (hfrom : (s.feed z).seatFrom = some from') (h : 10000 ≤ elapsedUs s from') :
    ∃ t, Machine.exec (.seatingFault z) s = .next t ∧ OnlyChanges [.sent, .feeds, .lint] s t ∧
      t.feed z = { s.feed z with seatFault := true } ∧ ((s.feed z).seatFault = false → Registers t (srcSeating z) 0) := by
  have hrow : s.fresh.feedDue (fun s => s.seatingFault z) =
      (s.fresh.onFeed z (fun r => { r with seatFrom := some from', seatFault := true })).detectIf
        (!(s.feed z).seatFault) (srcSeating z) 0 := by
    rw [State.feedDue_onGrid (s := s.fresh) hg]
    exact State.seatingFault_lasted (s := s.fresh) hen hshort hlong hfrom h
  refine ⟨_, (inService_eq hb _).trans (congrArg _ hrow), ?_, ?_,
    fun hclear => State.detectIf_registers _ (by simp [hclear]) _ _⟩
  · exact (State.detectIf_only _ _ _ _).step rfl ((State.onFeed_only _ _ _).step rfl ((State.fresh_only s).mono rfl))
  · rw [(State.detectIf_only _ _ _ _).keeps_feed (by decide), State.feed_onFeed _ _ _ hz, ← hfrom]
    rfl

end

/-- Settles O38: the comparator at once and at its tick, and each timer by the row of Table 08-2 that it brings about. -/
theorem feedEventsFollowTheirTable : Obligations.FeedEventsFollowTheirTable := by
  unfold Obligations.FeedEventsFollowTheirTable
  refine ⟨fun s z hz hb => overcurrentTripActs hz hb, fun s x z y hb hg hx => ?_, fun s z hz hb hg => ?_⟩
  · have hz : z < 16 := (Vector.getElem?_eq_some_iff.mp hx).1
    obtain ⟨u, hu, hfeed, hregs⟩ := State.feedTickAll_reaches (s := s.fresh) hx hg
    have hself : u.feed z = s.feed z := hu.self
    have hbank : u.feedB z = s.feedB z := hu.only.keeps_feedB (by decide) z
    have hdue (r : Option Nat) : u.due r = s.due r := hu.only.keeps_due (by decide) r
    refine ⟨fun h => ⟨_, feedTick_exec x hb, ?_⟩, fun h => ⟨_, feedTick_exec x hb, ?_⟩⟩
    · obtain ⟨hreg, hended⟩ := State.feedTick_trips (s := u) hz y (by rw [hdue, hself, h])
      refine ⟨hregs _ _ hreg, fun hp hshed => ?_⟩
      have he := hended (by rw [hself]; exact hp) (by rw [hdue, hself, hshed])
      have hall : FeedEnded u (s.fresh.feedTickAll x) z 2 0 := FeedEnded.carried he (by rw [hfeed]; exact ⟨rfl, rfl, rfl⟩)
        (by rw [hfeed]; exact he.1) (by rw [hfeed]; exact he.2.1) hregs
      exact FeedEnded.of_same hall (congrArg FeedRun.retry hself) hbank
    · rw [hfeed]
      exact State.feedTick_overLimit hz (by rw [hbank]; exact h)
  · exact ⟨seatDebounceActs hz hb hg, preChargeTimeoutActs hz hb hg, overlapEndActs hz hb hg, mainGateFaultActs hz hb hg,
      feedRetryTimerActs hz hb hg, feedOnTimerActs hz hb hg, fun from' hen hs hl hf h => seatingFaultActs hz hb hg hen hs hl hf h⟩

end Sys2Proof.Machine
end

section
/-!
SUPPORT. The log of the part over the operations of a reset and a start: nothing but a power-fail warning, a start and the
firmware itself moves the mode of the scorebook, and no cause that waits for its registration is lost (R302, R316).
-/
namespace Sys2Proof.Machine
set_option Elab.async false

/-- From `s` to `t` the scorebook stays in its mode, and no cause is lost. -/
structure State.LogStands (s t : State) : Prop where
  stopped : t.score.stopped = s.score.stopped
  firmware : t.score.firmware = s.score.firmware
  registers : ∀ src cause, Registers s src cause → Registers t src cause

namespace State.LogStands

variable {s a b : State}

theorem refl (s : State) : LogStands s s := ⟨rfl, rfl, fun _ _ r => r⟩

theorem trans (h : LogStands s a) (k : LogStands a b) : LogStands s b :=
  ⟨k.stopped.trans h.stopped, k.firmware.trans h.firmware, fun _ _ r => k.registers _ _ (h.registers _ _ r)⟩

theorem ite {c : Prop} [Decidable c] (h : LogStands s a) (k : LogStands s b) : LogStands s (if c then a else b) := by
  split <;> assumption

theorem foldl {α : Type} {f : State → α → State} (hf : ∀ u x, LogStands u (f u x)) (l : List α) (s : State) :
    LogStands s (l.foldl f s) :=
  List.foldlRecOn (motive := fun u => LogStands s u) _ _ (.refl s) fun u hu x _ => hu.trans (hf u x)

/-- What leaves the lint, the scorebook and the time leaves the log. -/
theorem of_only {ps : List Part} (h : OnlyChanges ps s a) (wl : Part.lint ∉ ps := by decide) (ws : Part.score ∉ ps := by decide)
    (wc : Part.clock ∉ ps := by decide) : LogStands s a :=
  ⟨congrArg ScoreRun.stopped (h.keeps_score ws), congrArg ScoreRun.firmware (h.keeps_score ws),
    fun _ _ r => Registers.of_only r h wl wc⟩

/-- So does a change of the scorebook that leaves its mode. -/
theorem of_score (h : OnlyChanges [.score] s a) (hs : a.score.stopped = s.score.stopped)
    (hf : a.score.firmware = s.score.firmware) : LogStands s a :=
  ⟨hs, hf, fun _ _ r => Registers.of_only r h (by decide) (by decide)⟩

theorem detect (s : State) (src cause : Nat) : LogStands s (s.detect src cause) :=
  ⟨rfl, rfl, fun _ _ r => Registers.detect r src cause⟩

theorem detectIf (s : State) (c : Bool) (src cause : Nat) : LogStands s (s.detectIf c src cause) :=
  .ite (.detect s src cause) (.refl s)

theorem recordAt (s : State) (time episode kind : Nat) (payload : List Byte) :
    LogStands s (s.recordAt time episode kind payload) := by
  refine .of_score (State.recordAt_only s time episode kind payload) ?_ ?_ <;> (unfold State.recordAt; split <;> rfl)

theorem record (s : State) (kind : Nat) (payload : List Byte) : LogStands s (s.record kind payload) := .recordAt s _ _ _ _

theorem bootEvent (s : State) (event slot : Nat) : LogStands s (s.bootEvent event slot) := .record s _ _

theorem onCapture (s : State) (c : Nat) (f : CaptureRun → CaptureRun) : LogStands s (s.onCapture c f) :=
  .of_score (State.onCapture_only s c f) rfl rfl

end State.LogStands

open State (LogStands)

section
variable (s : State)

/-! ### The end of a seat -/

theorem State.flushHolds_log : LogStands s s.flushHolds := by
  unfold State.flushHolds
  extract_lets due keep again u
  have hu : LogStands s u := .foldl (fun _ _ => .ite (.refl _) (.recordAt _ _ _ _ _)) due s
  exact hu.trans ⟨rfl, rfl, fun _ _ r => r⟩

theorem State.changeAt_log (time episode index sub : Nat) (origin old new : List Byte) :
    LogStands s (s.changeAt time episode index sub origin old new) := by
  unfold State.changeAt
  extract_lets u same
  have hu : LogStands s u := s.flushHolds_log
  refine .ite (.refl s) (hu.trans ?_)
  split
  · exact .ite (.recordAt u _ _ _ _) ⟨rfl, rfl, fun _ _ r => r⟩
  · exact (LogStands.recordAt u _ _ _ _).trans ⟨rfl, rfl, fun _ _ r => r⟩

theorem State.neutralise_log (x : Obj) : LogStands s (s.neutralise x) := by
  unfold State.neutralise
  extract_lets idx old marks commits u
  have hu : LogStands s u := .of_only (set_cfg_commits_only s _ _)
  exact hu.trans (.ite (.refl u) (.recordAt u _ _ _ _))

theorem State.closeSeat_log (k cause : Nat) (origin : List Byte) : LogStands s (s.closeSeat k cause origin) := by
  unfold State.closeSeat
  extract_lets old a b c
  have ha : LogStands s a := .foldl (fun u x => u.neutralise_log x) _ s
  have hb : LogStands a b := .of_only (set_tts_only a _)
  have hc : LogStands b c := .of_only (State.onSeat_only b k _)
  have hq : LogStands c c.ttQuiet := .of_only (State.ttQuiet_only c)
  exact ((ha.trans hb).trans hc).trans (hq.trans (State.changeAt_log _ _ _ _ _ _ _ _))

theorem State.closeBench_log : LogStands s s.closeBench :=
  .foldl (fun u k => .ite (u.closeSeat_log k _ _) (.refl u)) _ s

/-! ### What a start loads -/

theorem State.timebaseRows_log : LogStands s s.timebaseRows := by
  unfold State.timebaseRows
  extract_lets on last near go lost held entered acquiring
  have hgo (ph : TimebasePhase) : LogStands s (go ph) := .of_only (set_tb_only s _)
  have hlost : LogStands s lost := (hgo .holdover).trans (.detect _ _ _)
  have hheld (x : TimebaseRun) : LogStands s { lost with tb := x } := hlost.trans (.of_only (set_tb_only lost x))
  split
  case h_1 | h_2 => exact .ite (hgo _) (.ite (hheld _) (.refl s))
  case h_3 => exact .ite (hgo _) (.refl s)
  case h_4 => exact .ite (.of_only (set_tb_only s _)) (.refl s)
  case h_5 => exact .ite ((hgo .acquiring).trans (.of_only (set_tb_only _ _))) (.refl s)

theorem State.timebaseChange_log (old : TimebaseCfg) : LogStands s (s.timebaseChange old) := by
  unfold State.timebaseChange
  extract_lets n t a b t2
  have ha : LogStands s a := .ite (.refl s) (.of_only (set_tb_only s _))
  have hb : LogStands s b := ha.trans (.ite a.timebaseRows_log (.refl a))
  exact .ite (hb.trans (.of_only (set_tb_only b _))) hb

theorem State.loadSettings_log (c : Settings) : LogStands s (s.loadSettings c) := by
  unfold State.loadSettings
  extract_lets old a b
  have ha : LogStands s a := .of_only (set_cfg_only s _)
  have hb : LogStands a b := .foldl (fun u n => .of_only (State.detectorEnable_only u n)) _ a
  exact (ha.trans hb).trans (State.timebaseChange_log _ _)

theorem State.hardwareStart_log : LogStands s s.hardwareStart := by
  unfold State.hardwareStart
  split
  · exact .refl s
  · extract_lets caps a caps2 b c d e f g h i
    have ha : LogStands s a := .of_only (set_active_staged_seq_hardwareRun_only s _ _ _ _)
    have hb : LogStands a b := (a.loadSettings_log _).trans (.of_only (State.onShelf_only _ _))
    have hc : LogStands b c := .of_only (State.assignLanes_only b _)
    have hd : LogStands c d := .foldl (fun u z => .of_only (State.feedSwapped_only u z)) _ c
    have he : LogStands d e := .foldl (fun u g => .of_only (State.deliverInc_only u g)) _ d
    have hf : LogStands e f := .trans (.of_only (State.recomputeD_only e)) (.of_only (State.holdDerates_only _))
    have hg : LogStands f g := .foldl (fun u k => .of_only (State.requestGroup_only u k)) _ f
    have hh : LogStands g h := .foldl (fun u z => .of_only (State.requestFeed_only u z)) _ g
    have hi : LogStands h i := .foldl (fun u k => .of_only (State.requestUp_only u k)) _ h
    have hlast : LogStands i (i.resumeMarks.linksStart.bootEvent 8 255) :=
      .trans (.trans (.of_only (State.resumeMarks_only i)) (.of_only (State.linksStart_only _))) (.bootEvent _ _ _)
    exact ((((((((ha.trans hb).trans hc).trans hd).trans he).trans hf).trans hg).trans hh).trans hi).trans hlast

/-! ### The boot record -/

theorem State.onRec_log (f : BootRecord → BootRecord) : LogStands s (s.onRec f) := .of_only (State.onRec_only s f)

theorem State.readRecord_log : LogStands s s.readRecord := by
  unfold State.readRecord
  split
  · exact .of_only (set_bootRec_only s _)
  · unfold State.rebuildRecord
    extract_lets ok k a
    have ha : LogStands s a := s.onRec_log _
    exact (ha.trans (.detect _ _ _)).trans (.bootEvent _ _ _)

theorem State.judgeAttempt_log : LogStands s s.judgeAttempt := by
  unfold State.judgeAttempt
  extract_lets r c a n b d e
  have restored (u : State) : LogStands u u.restoreOld := .of_only (State.restoreOld_only u)
  have ha : LogStands s a := s.onRec_log _
  have hb : LogStands s b := s.onRec_log _
  have hd : LogStands s d := (hb.trans (.detect _ _ _)).trans (.bootEvent _ _ _)
  have he : LogStands s e := (hd.trans (.detect _ _ _)).trans (restored _)
  exact .ite (.refl s) (.ite (.ite (ha.trans (restored a)) ha)
    (.ite (.ite ((he.trans (State.onRec_log _ _)).trans (.bootEvent _ _ _)) he) hd))

theorem State.recordStart_log : LogStands s s.recordStart := by
  unfold State.recordStart
  extract_lets k r v x a b c
  have ha : LogStands s a := .trans (.of_only (set_working_only s _)) (State.onRec_log _ _)
  have hb : LogStands s b := .ite (ha.trans (.bootEvent _ _ _)) ha
  have hc : LogStands s c := hb.trans (.bootEvent _ _ _)
  exact .ite (hc.trans (.record _ _ _)) hc

/-! ### What the firmware starts -/

theorem State.capacityStart_log (k : Nat) : LogStands s (s.capacityStart k) := by
  unfold State.capacityStart
  extract_lets r b i l a torn
  have on (u : State) (f : StringRun → StringRun) : LogStands u (u.onStr k f) := .of_only (State.onStr_only u k f)
  have ha : LogStands s a := .ite ((on s _).trans (.detect _ _ _)) (on s _)
  clear_value a
  cases torn with
  | nil => exact ha
  | cons j t => exact ((ha.trans (on a _)).trans (.detect _ _ _)).trans (.record _ _ _)

theorem State.captureResume_log (c : Nat) : LogStands s (s.captureResume c) := .ite (.onCapture s c _) (.refl s)

theorem State.sealStitch_log (w : Nat) (v : Word) : LogStands s (s.sealStitch w v) :=
  .trans (.of_only (State.onFuses_only s _)) (.record _ _ _)

theorem State.stitchBreak_log : LogStands s s.stitchBreak := by
  unfold State.stitchBreak
  extract_lets t a mark
  have ha : LogStands s a := ((s.sealStitch_log _ _).trans (State.sealStitch_log _ _ _)).trans (State.sealStitch_log _ _ _)
  exact (ha.trans (.of_only (set_tamper_only a _))).trans (.record _ _ _)

end

end Sys2Proof.Machine
end

section
/-!
SUPPORT. The end of a warm reset: the feeds as it finds them, and a power-fail warning that waited for it (R259, R445, R451, R452).
-/
namespace Sys2Proof.Machine
set_option Elab.async false

open State (FeedFrame FeedKept LogStands)

/-! ### A power-fail warning -/

theorem State.cutRecord_log (s : State) (n : Nat) : LogStands s (s.cutRecord n) :=
  .ite ⟨rfl, rfl, fun _ _ r => r⟩ ⟨rfl, rfl, fun _ _ r => r⟩

theorem State.powerFail_registers (s : State) (cut : Option Nat) : Registers (s.powerFail cut) srcSupply 0 ∧
    ∀ src cause, Registers s src cause → Registers (s.powerFail cut) src cause := by
  unfold State.powerFail
  extract_lets a b c saving d e score
  have ha : LogStands s a := by
    unfold a
    split
    · exact s.cutRecord_log _
    · exact ⟨rfl, rfl, fun _ _ r => r⟩
  have hb : LogStands a b := .detect a srcSupply 0
  have hc : LogStands b c := .ite (.of_only (State.checkpointAll_only b)) (.refl b)
  have stops (u : State) (k : Nat) (f : CaptureRun → CaptureRun) : LogStands u ((u.onCapture k f).detect srcScorebook 1) :=
    .trans (.onCapture u k f) (.detect _ _ _)
  have hd : LogStands c d := .foldl (fun u k => stops u k _) saving c
  have he : LogStands d e := .foldl (fun u g => .of_only (State.onGroup_only u g _)) _ d
  have hbe : LogStands b e := (hc.trans hd).trans he
  have hse : LogStands s e := ha.trans (hb.trans hbe)
  have hsupply : Registers e srcSupply 0 := hbe.registers _ _ (State.detect_registers a srcSupply 0)
  clear_value e
  exact ⟨Registers.of_only hsupply (set_score_only e _) (by decide) (by decide),
    fun _ _ r => Registers.of_only (hse.registers _ _ r) (set_score_only e _) (by decide) (by decide)⟩

theorem State.lateWarning_registers {s : State} {src cause : Nat} (r : Registers s src cause) :
    Registers s.lateWarning src cause := by
  unfold State.lateWarning
  split
  · exact (s.powerFail_registers none).2 src cause r
  · exact r

theorem State.lateWarning_warned {s : State} (h : s.boot.warned = true) :
    s.lateWarning.score.stopped = true ∧ Registers s.lateWarning srcSupply 0 := by
  rw [State.lateWarning, if_pos h]
  exact ⟨rfl, (s.powerFail_registers none).1⟩

/-! ### The feeds after the reset -/

/-- A feed as the end of a reset leaves it (R259). -/
def FeedRun.resumed (r : FeedRun) (tripped : Bool) (now : Nat) : FeedRun :=
  if tripped || r.ocTrip.isSome then { r.entered .retryWait now with retry := 1, cause := 10, x := 0, ocTrip := none }
  else if r.mng then { r with phase := .on, since := now, x := 0, dropFrom := none }
  else r.entered (if r.pcg then .seating else .off) now

theorem FeedRun.resumed_tripped {r : FeedRun} {tripped : Bool} (h : tripped = true ∨ r.ocTrip.isSome = true) (now : Nat) :
    r.resumed tripped now = { r.entered .retryWait now with retry := 1, cause := 10, x := 0, ocTrip := none } :=
  if_pos (by simpa using h)

theorem FeedRun.resumed_untripped {r : FeedRun} {tripped : Bool} (h : ¬(tripped = true ∨ r.ocTrip.isSome = true)) (now : Nat) :
    (r.resumed tripped now).phase = (if r.mng then .on else if r.pcg then .seating else .off) ∧
      (r.mng = true → (r.resumed tripped now).mng = true) := by
  unfold FeedRun.resumed
  rw [if_neg (by simpa using h)]
  by_cases hm : r.mng = true
  · rw [if_pos hm, if_pos hm]
    exact ⟨rfl, fun _ => hm⟩
  · rw [if_neg hm, if_neg hm]
    exact ⟨rfl, fun h => absurd h hm⟩

section
variable {s : State} {z : Nat}

theorem State.feedAfterReset_frame (s : State) (z : Nat) (tripped : Bool) : FeedFrame z s (s.feedAfterReset z tripped) :=
  have on (u : State) (f : FeedRun → FeedRun) : FeedFrame z u (u.onFeed z f) := .onFeed u z f
  .ite (.trans (.trans (on s _) (on _ _)) (.detect _ _ _)) (.ite (on s _) (.ite (on s _) (on s _)))

theorem State.feedAfterReset_feed (hz : z < 16) (tripped : Bool) :
    (s.feedAfterReset z tripped).feed z = (s.feed z).resumed tripped s.clock.slots := by
  unfold State.feedAfterReset FeedRun.resumed
  extract_lets r
  have hto (ph : FeedPhase) : (s.feedTo z ph).feed z = r.entered ph s.clock.slots := State.feedTo_feed hz ph
  split
  · exact (State.feed_onFeed (s.feedTo z .retryWait) z _ hz).trans (by rw [hto])
  · split
    · exact State.feed_onFeed s z _ hz
    · split
      · exact hto .seating
      · exact hto .off

theorem State.feedAfterReset_trip {tripped : Bool} (h : tripped = true ∨ (s.feed z).ocTrip.isSome = true) :
    Registers (s.feedAfterReset z tripped) (srcFeed z) 0 := by
  have ht : (tripped || (s.feed z).ocTrip.isSome) = true := by simpa using h
  have hrow : s.feedAfterReset z tripped = State.detect _ (srcFeed z) 0 := if_pos ht
  exact hrow ▸ State.detect_registers _ _ _

/-- Every feed resumes at the end of a warm reset. -/
def State.feedsResume (s : State) (tripped : BitVec 16) : State :=
  allFeeds.foldl (fun s z => s.feedAfterReset z (bitAt tripped z)) s

theorem State.feedsResume_only (s : State) (tripped : BitVec 16) : OnlyChanges [.feeds, .lint] s (s.feedsResume tripped) :=
  .foldl (fun u z => State.feedAfterReset_only u z _) (.refl _ s)

/-- Each feed resumes by itself. -/
theorem State.feedsResume_reaches (hz : z < 16) (tripped : BitVec 16) :
    (s.feedsResume tripped).feed z = (s.feed z).resumed (bitAt tripped z) s.clock.slots ∧
      (bitAt tripped z = true ∨ (s.feed z).ocTrip.isSome = true → Registers (s.feedsResume tripped) (srcFeed z) 0) := by
  have nd : allFeeds.Nodup := List.nodup_range
  obtain ⟨u, hu, hrest⟩ := foldl_around (R := FeedKept z) FeedKept.refl FeedKept.trans
    (f := fun s z => State.feedAfterReset s z (bitAt tripped z)) (a := z)
    (fun u j hj => (u.feedAfterReset_frame j _).kept_other hj) nd (mem_allFeeds.mpr hz) s
  have hclock : u.clock = s.clock := hu.only.keeps_clock (by decide)
  constructor
  · calc (s.feedsResume tripped).feed z = (u.feedAfterReset z (bitAt tripped z)).feed z := hrest.self
      _ = (u.feed z).resumed (bitAt tripped z) u.clock.slots := State.feedAfterReset_feed hz _
      _ = (s.feed z).resumed (bitAt tripped z) s.clock.slots := by rw [hu.self, hclock]
  · exact fun h => hrest.registers _ _ (State.feedAfterReset_trip (hu.self ▸ h))

end

/-! ### The end of a warm reset -/

theorem State.boot_onBoot (s : State) (f : BootRun → BootRun) : (s.onBoot f).boot = f s.boot := rfl

theorem State.resetReleased_held {s : State} (h : s.boot.phase = .held) (released : Bool) :
    s.resetReleased released = s.onBoot (fun b => { b with resetLow := b.resetLow && !released }) := by
  rw [State.resetReleased, h]
  exact if_pos rfl

/-- The part at the end of a warm reset, before a warning that waits. -/
def State.resetOver (s : State) (tripped : BitVec 16) : State :=
  (s.feedsResume tripped).sequencerResume.onBoot (fun b => { b with ended := true })

/-- The end of a warm reset, once the part has been held long enough. -/
def State.resetEnded (s : State) (tripped : BitVec 16) : State := (s.resetOver tripped).lateWarning

section
variable {s : State} {x : HoldIn}

theorem State.warmResetEnd_running (h : s.boot.phase ≠ .held) : s.warmResetEnd x = s := by
  have hpin : s.resetReleased x.released = s := if_neg (by simpa using h)
  unfold State.warmResetEnd
  extract_lets u b v
  have hu : u = s := hpin
  exact (if_pos (by simp [b, hu, h])).trans hu

theorem State.warmResetEnd_waits (h : s.boot.phase = .held) (hw : s.boot.powerOn = true ∨ s.boot.ended = true ∨
    (s.boot.resetLow = true ∧ x.released = false) ∨ elapsedAo s s.boot.heldFrom < 10) :
    s.warmResetEnd x = s.onBoot (fun b => { b with resetLow := b.resetLow && !x.released }) := by
  unfold State.warmResetEnd
  rw [State.resetReleased_held h]
  refine if_pos ?_
  have helapsed : elapsedAo (s.onBoot fun b => { b with resetLow := b.resetLow && !x.released }) s.boot.heldFrom =
      elapsedAo s s.boot.heldFrom := rfl
  rcases hw with hp | he | ⟨hl, hr⟩ | ht <;> simp_all [State.onBoot]

theorem State.warmResetEnd_ends (h : s.boot.phase = .held) (hp : s.boot.powerOn = false) (he : s.boot.ended = false)
    (hl : s.boot.resetLow = false ∨ x.released = true) (ht : 10 ≤ elapsedAo s s.boot.heldFrom) :
    s.warmResetEnd x = (s.onBoot (fun b => { b with resetLow := false })).resetEnded x.tripped := by
  have hlow : (s.boot.resetLow && !x.released) = false := by rcases hl with hl | hl <;> simp [hl]
  have hpin : s.resetReleased x.released = s.onBoot (fun b => { b with resetLow := false }) := by
    rw [State.resetReleased_held h, State.onBoot, hlow, State.onBoot]
  have htime : ¬ elapsedAo (s.onBoot fun b => { b with resetLow := false }) s.boot.heldFrom < 10 := Nat.not_lt.mpr ht
  unfold State.warmResetEnd
  rw [hpin]
  exact if_neg (by simp [State.boot_onBoot, h, hp, he, htime])

end

/-! ### What it leaves -/

section
variable (s : State) (tripped : BitVec 16)

theorem State.resetOver_boot : (s.resetOver tripped).boot = { s.boot with ended := true } := by
  have hfeeds := (s.feedsResume_only tripped).keeps_boot (by decide)
  have hseq := (State.sequencerResume_only (s.feedsResume tripped)).keeps_boot (by decide)
  rw [State.resetOver, State.boot_onBoot, hseq, hfeeds]

theorem State.resetOver_only : OnlyChanges [.feeds, .lint, .rails, .orders, .boot] s (s.resetOver tripped) :=
  (State.onBoot_only _ _).step rfl ((State.sequencerResume_only _).step rfl ((s.feedsResume_only tripped).mono rfl))

theorem State.resetOver_warned : (s.resetOver tripped).boot.warned = s.boot.warned := by rw [State.resetOver_boot]

theorem State.resetEnded_boot : (s.resetEnded tripped).boot = { s.boot with ended := true } :=
  ((State.lateWarning_only _).keeps_boot (by decide)).trans (s.resetOver_boot tripped)

theorem State.resetEnded_only (h : s.boot.warned = false) :
    OnlyChanges [.feeds, .lint, .rails, .orders, .boot] s (s.resetEnded tripped) := by
  have hlate : s.resetEnded tripped = s.resetOver tripped := if_neg (by rw [State.resetOver_warned, h]; exact Bool.false_ne_true)
  rw [hlate]
  exact s.resetOver_only tripped

theorem State.resetEnded_warned (h : s.boot.warned = true) :
    (s.resetEnded tripped).score.stopped = true ∧ Registers (s.resetEnded tripped) srcSupply 0 :=
  State.lateWarning_warned ((s.resetOver_warned tripped).trans h)

/-- The causes that the feeds register stand at its end. -/
theorem State.resetEnded_registers {src cause : Nat} (r : Registers (s.feedsResume tripped) src cause) :
    Registers (s.resetEnded tripped) src cause := by
  have hseq : Registers (s.feedsResume tripped).sequencerResume src cause :=
    Registers.of_only r (State.sequencerResume_only _) (by decide) (by decide)
  exact State.lateWarning_registers (Registers.of_only hseq (State.onBoot_only _ _) (by decide) (by decide))

theorem State.resetEnded_feed (z : Nat) : (s.resetEnded tripped).feed z = (s.feedsResume tripped).feed z :=
  ((State.lateWarning_only _).keeps_feed (by decide) z).trans
    (((State.onBoot_only _ _).keeps_feed (by decide) z).trans ((State.sequencerResume_only _).keeps_feed (by decide) z))

/-- Each feed resumes, and what it registers stands. -/
theorem State.resetEnded_resumes {z : Nat} (hz : z < 16) :
    (s.resetEnded tripped).feed z = (s.feed z).resumed (bitAt tripped z) s.clock.slots ∧
      (bitAt tripped z = true ∨ (s.feed z).ocTrip.isSome = true → Registers (s.resetEnded tripped) (srcFeed z) 0) := by
  obtain ⟨hfeed, htrip⟩ := s.feedsResume_reaches hz tripped
  exact ⟨(s.resetEnded_feed tripped z).trans hfeed, fun h => s.resetEnded_registers tripped (htrip h)⟩

end

end Sys2Proof.Machine
end

section
/-!
SUPPORT. PLL lock: the hand-over to the boot ROM, the latch of the fuses and the boot record (R384, R389, R409, R440, R442, R447).
-/
namespace Sys2Proof.Machine
set_option Elab.async false

open State (LogStands)

/-! ### The steps of the boot ROM -/

/-- The PLL has locked: slot 0 of the grid, the scorebook open but after a warning, and the reference `ref` selected. -/
def State.locks (s : State) (ref : Nat) : State :=
  let s := s.detectIf (s.boot.refKnown && ref != s.boot.reference) srcWatchdog 4
  let s := { s with clock := { s.clock with grid := 0, frac := 0 }, score := { s.score with stopped := s.boot.warned } }
  s.onBoot (fun b => { b with
    reference := ref, refKnown := true, locked := true, phase := .rom, warned := false, riseAt := none })

/-- The boot record, the epochs of the ports after a power-on reset, and hardware-run. -/
def State.romSteps (s : State) : State :=
  let s := s.readRecord.judgeAttempt
  let s := if s.boot.powerOn then
      { s with ports := mapIdx s.ports (fun p r => { r with epoch := vget (s.working.half s.bootRec.half).epochs p.val 0 }) }
    else s
  if s.safeMode = 2 then s.hardwareStart else s

/-- The shadows and the seal are latched at a power-on reset alone. -/
def State.latched (s : State) (weak : List (Nat × Word)) : State :=
  if s.boot.powerOn then (s.latchFuses weak).sealLoad else s

/-- A warning that waits acts at the end of a power-on reset; at that of a warm reset it has acted already. -/
def State.warnedAtPower (s : State) : State := if s.boot.powerOn then s.lateWarning else s

section
variable {s : State}

theorem State.pllLock_stages (hp : s.boot.phase = .held) (hh : s.holdOver = true) (refin : Nat) (weak : List (Nat × Word)) :
    s.pllLock true refin weak = ((s.warnedAtPower.locks (referenceOf refin)).latched weak).romSteps :=
  if_neg (by simp [hp, hh])

theorem State.pllLock_unlocked (refin : Nat) (weak : List (Nat × Word)) : s.pllLock false refin weak = s := if_pos (by simp)

theorem State.pllLock_held (hh : s.holdOver = false) (refin : Nat) (weak : List (Nat × Word)) : s.pllLock true refin weak = s :=
  if_pos (by simp [hh])

end

section
variable (s : State)

theorem State.warnedAtPower_only : OnlyChanges [.groups, .strings, .lint, .score] s s.warnedAtPower :=
  .ite (State.lateWarning_only s) (.refl _ s)

theorem State.warnedAtPower_boot : s.warnedAtPower.boot = s.boot := s.warnedAtPower_only.keeps_boot (by decide)

/-! ### Lock -/

variable (ref : Nat)

theorem State.locks_boot : (s.locks ref).boot = { s.boot with
    reference := ref, refKnown := true, locked := true, phase := .rom, warned := false, riseAt := none } := by
  have h := (State.detectIf_only s (s.boot.refKnown && ref != s.boot.reference) srcWatchdog 4).keeps_boot (by decide)
  rw [State.locks, State.boot_onBoot, h]

theorem State.locks_clock : (s.locks ref).clock = { s.clock with grid := 0, frac := 0 } := by
  have h := (State.detectIf_only s (s.boot.refKnown && ref != s.boot.reference) srcWatchdog 4).keeps_clock (by decide)
  rw [State.locks, onBoot_clock, h]

theorem State.locks_only : OnlyChanges [.clock, .lint, .score, .boot] s (s.locks ref) := by
  unfold State.locks
  extract_lets a clock score
  have ha : OnlyChanges [.lint] s a := State.detectIf_only _ _ _ _
  exact (State.onBoot_only _ _).step rfl ((set_clock_score_only a _ _).step rfl (ha.mono rfl))

theorem State.locks_stopped : (s.locks ref).score.stopped = s.boot.warned := by
  have h := (State.detectIf_only s (s.boot.refKnown && ref != s.boot.reference) srcWatchdog 4).keeps_boot (by decide)
  exact congrArg BootRun.warned h

theorem State.locks_registers (hk : s.boot.refKnown = true) (hr : ref ≠ s.boot.reference) :
    Registers (s.locks ref) srcWatchdog 4 := by
  have h : Registers (s.detectIf (s.boot.refKnown && ref != s.boot.reference) srcWatchdog 4) srcWatchdog 4 :=
    State.detectIf_registers s (by simp [hk, hr]) _ _
  exact h

/-! ### The latch of the fuses -/

variable (weak : List (Nat × Word))

theorem State.latched_only : OnlyChanges [.fuses, .tamper] s (s.latched weak) :=
  .ite ((State.sealLoad_only _).step rfl ((State.latchFuses_only s weak).mono rfl)) (.refl _ s)

theorem State.fuses_onFuses (f : FuseRun → FuseRun) : (s.onFuses f).fuses = f s.fuses := rfl

theorem State.latchFuses_burned : (s.latchFuses weak).fuses.burned = s.fuses.burned := by
  unfold State.latchFuses
  extract_lets a
  have ha : a.fuses.burned = s.fuses.burned := by rw [show a = s.onFuses _ from rfl, State.fuses_onFuses]
  rw [State.fuses_onFuses, ha]

/-- With no weak cell the shadows are the fuses as they are burned. -/
theorem State.latchFuses_shadow : (s.latchFuses []).fuses.shadow = s.fuses.burned :=
  Vector.ext fun i hi => by simp [State.latchFuses, State.onFuses, mapIdx, Vector.get]

theorem State.latched_power (h : s.boot.powerOn = true) : (s.latched weak).fuses = (s.latchFuses weak).fuses := by
  rw [State.latched, if_pos h]
  exact (State.sealLoad_only _).keeps_fuses (by decide)

theorem State.latched_warm (h : s.boot.powerOn = false) : s.latched weak = s := if_neg (by simp [h])

theorem State.latched_burned : (s.latched weak).fuses.burned = s.fuses.burned := by
  cases h : s.boot.powerOn
  case false => rw [s.latched_warm weak h]
  case true => rw [s.latched_power weak h, s.latchFuses_burned]

/-! ### The boot record -/

theorem State.romSteps_log : LogStands s s.romSteps := by
  unfold State.romSteps
  extract_lets a b
  have ha : LogStands s a := s.readRecord_log.trans (State.judgeAttempt_log _)
  have hb : LogStands a b := .ite (.of_only (set_ports_only a _)) (.refl a)
  exact (ha.trans hb).trans (.ite b.hardwareStart_log (.refl b))

theorem State.romSteps_follows : OnlyChanges [.tb, .active, .staged, .cfg, .chans, .groups, .ports, .dets, .shelf, .feeds, .orders,
    .seq, .lint, .score, .commits, .hardwareRun, .draws] s.readRecord.judgeAttempt s.romSteps := by
  unfold State.romSteps
  extract_lets a b
  have hb : OnlyChanges [.ports] a b := .ite (set_ports_only a _) (.refl _ a)
  exact .ite ((State.hardwareStart_only b).step rfl (hb.mono rfl)) (hb.mono rfl)

theorem State.romSteps_only : OnlyChanges [.tb, .active, .staged, .cfg, .chans, .groups, .ports, .dets, .shelf, .feeds, .orders,
    .seq, .lint, .score, .commits, .hardwareRun, .draws, .strings, .bootRec, .working] s s.romSteps :=
  s.romSteps_follows.step rfl ((State.judgeAttempt_only _).step rfl ((State.readRecord_only s).mono rfl))

/-- A start reads the newest valid copy, which stands where it leaves no attempt open. -/
theorem State.romSteps_bootRec {c : BootCopy} (hc : s.bootRec.newest = some c) (ha : c.record.attempt = false) :
    s.romSteps.bootRec.toBootRecord = c.record := by
  have hread : s.readRecord.bootRec.toBootRecord = c.record := by rw [State.readRecord, hc]
  have hjudge : s.readRecord.judgeAttempt = s.readRecord := if_pos (by rw [hread, ha]; rfl)
  rw [s.romSteps_follows.keeps_bootRec (by decide), hjudge, hread]

end

/-! ### Lock as a command -/

section
variable {s : State} (hp : s.boot.phase = .held) (hh : s.holdOver = true) (refin : Nat) (weak : List (Nat × Word))
include hp hh

/-- After the lock the boot ROM touches neither what the lock has set nor the fuses. -/
theorem State.pllLock_follows : OnlyChanges [.fuses, .tamper, .tb, .active, .staged, .cfg, .chans, .groups, .ports, .dets, .shelf,
    .feeds, .orders, .seq, .lint, .score, .commits, .hardwareRun, .draws, .strings, .bootRec, .working]
    (s.warnedAtPower.locks (State.referenceOf refin)) (s.pllLock true refin weak) := by
  rw [State.pllLock_stages hp hh]
  exact (State.romSteps_only _).step rfl ((State.latched_only _ weak).mono rfl)

theorem State.pllLock_log : LogStands (s.warnedAtPower.locks (State.referenceOf refin)) (s.pllLock true refin weak) := by
  rw [State.pllLock_stages hp hh]
  exact .trans (.of_only (State.latched_only _ weak)) (State.romSteps_log _)

theorem State.pllLock_boot : (s.pllLock true refin weak).boot = { s.boot with
    reference := State.referenceOf refin, refKnown := true, locked := true, phase := .rom, warned := false, riseAt := none } := by
  rw [(State.pllLock_follows hp hh refin weak).keeps_boot (by decide), State.locks_boot, State.warnedAtPower_boot]

theorem State.pllLock_clock : (s.pllLock true refin weak).clock = { s.clock with grid := 0, frac := 0 } := by
  rw [(State.pllLock_follows hp hh refin weak).keeps_clock (by decide), State.locks_clock,
    s.warnedAtPower_only.keeps_clock (by decide)]

theorem State.pllLock_fuses :
    (s.pllLock true refin weak).fuses = ((s.warnedAtPower.locks (State.referenceOf refin)).latched weak).fuses := by
  rw [State.pllLock_stages hp hh]
  exact (State.romSteps_only _).keeps_fuses (by decide)

omit hp hh in
theorem State.locks_fuses : (s.warnedAtPower.locks (State.referenceOf refin)).fuses = s.fuses :=
  ((State.locks_only _ _).keeps_fuses (by decide)).trans (s.warnedAtPower_only.keeps_fuses (by decide))

omit hp hh in
theorem State.locks_powerOn : (s.warnedAtPower.locks (State.referenceOf refin)).boot.powerOn = s.boot.powerOn := by
  rw [State.locks_boot, State.warnedAtPower_boot]

theorem State.pllLock_burned : (s.pllLock true refin weak).fuses.burned = s.fuses.burned := by
  rw [State.pllLock_fuses hp hh, State.latched_burned, State.locks_fuses]

theorem State.pllLock_latches (h : s.boot.powerOn = true) : (s.pllLock true refin []).fuses.shadow = s.fuses.burned := by
  rw [State.pllLock_fuses hp hh, State.latched_power _ _ ((State.locks_powerOn refin).trans h), State.latchFuses_shadow,
    State.locks_fuses]

theorem State.pllLock_warm (h : s.boot.powerOn = false) : (s.pllLock true refin weak).fuses = s.fuses := by
  rw [State.pllLock_fuses hp hh, State.latched_warm _ _ ((State.locks_powerOn refin).trans h), State.locks_fuses]

theorem State.pllLock_bootRec {c : BootCopy} (hc : s.bootRec.newest = some c) (ha : c.record.attempt = false) :
    (s.pllLock true refin weak).bootRec.toBootRecord = c.record := by
  rw [State.pllLock_stages hp hh]
  refine State.romSteps_bootRec _ ?_ ha
  rw [(State.latched_only _ weak).keeps_bootRec (by decide), (State.locks_only _ _).keeps_bootRec (by decide),
    s.warnedAtPower_only.keeps_bootRec (by decide), hc]

theorem State.pllLock_stopped : (s.pllLock true refin weak).score.stopped = s.boot.warned := by
  rw [(State.pllLock_log hp hh refin weak).stopped, State.locks_stopped, State.warnedAtPower_boot]

theorem State.pllLock_registers (hk : s.boot.refKnown = true) (hr : State.referenceOf refin ≠ s.boot.reference) :
    Registers (s.pllLock true refin weak) srcWatchdog 4 :=
  (State.pllLock_log hp hh refin weak).registers _ _
    (State.locks_registers _ _ (s.warnedAtPower_boot ▸ hk) (s.warnedAtPower_boot ▸ hr))

end

/-- The end of a reset, up to the boot ROM (R259, R384, R442, R445). -/
theorem resetsEnd : ResetsEnd := by
  refine ⟨fun s x h => ?_, fun s x h hw => ?_, fun s x h hp he hl ht => ?_,
    fun s refin weak h => ⟨?_, fun hh => ?_, fun hh => ?_⟩⟩
  · exact congrArg Host.Outcome.next (State.warmResetEnd_running (s := s.fresh) h)
  · exact congrArg Host.Outcome.next (State.warmResetEnd_waits (s := s.fresh) h hw)
  · let u := s.fresh.onBoot (fun b => { b with resetLow := false })
    have hu : OnlyChanges [.sent, .boot] s u := (State.onBoot_only _ _).step rfl ((State.fresh_only s).mono rfl)
    have hends : s.fresh.warmResetEnd x = u.resetEnded x.tripped := State.warmResetEnd_ends (s := s.fresh) h hp he hl ht
    refine ⟨u.resetEnded x.tripped, congrArg Host.Outcome.next hends, u.resetEnded_boot _,
      fun hw => (u.resetEnded_only _ hw).step rfl (hu.mono rfl), u.resetEnded_warned _, fun z hz => ?_⟩
    obtain ⟨hfeed, htrip⟩ := u.resetEnded_resumes x.tripped hz
    rw [hfeed]
    split
    case isTrue hz =>
      rw [FeedRun.resumed_tripped (r := u.feed z) hz]
      exact ⟨rfl, rfl, rfl, rfl, rfl, htrip hz⟩
    case isFalse hz => exact FeedRun.resumed_untripped (r := u.feed z) hz _
  · exact congrArg Host.Outcome.next (State.pllLock_unlocked (s := s.fresh) refin weak)
  · exact congrArg Host.Outcome.next (State.pllLock_held (s := s.fresh) hh refin weak)
  · have hp : s.fresh.boot.phase = .held := h
    have hh : s.fresh.holdOver = true := hh
    have hboot := State.pllLock_boot hp hh refin weak
    have hclock := State.pllLock_clock hp hh refin weak
    refine ⟨s.fresh.pllLock true refin weak, rfl, congrArg BootRun.phase hboot, congrArg BootRun.locked hboot,
      congrArg BootRun.reference hboot, by rw [hclock], by rw [hclock]; rfl,
      State.pllLock_burned hp hh refin weak, fun hk hr => State.pllLock_registers hp hh refin weak hk ?_,
      State.pllLock_stopped hp hh refin weak, fun h hw => hw ▸ State.pllLock_latches hp hh refin h,
      fun h => congrArg FuseRun.shadow (State.pllLock_warm hp hh refin weak h),
      fun _ hc ha => State.pllLock_bootRec hp hh refin weak hc ha⟩
    rwa [hboot] at hr

end Sys2Proof.Machine
end

section
/-!
SUPPORT. The start of a slot and the started checkpoint (R20, R385, R388, R391 to R393, R395).
-/
namespace Sys2Proof.Machine
set_option Elab.async false

open State (LogStands)

theorem State.bootRec_onRec (s : State) (f : BootRecord → BootRecord) :
    (s.onRec f).bootRec.toBootRecord = f s.bootRec.toBootRecord := rfl

/-! ### The choice of a slot -/

section
variable (s : State)

theorem State.loadsStart_fresh : s.fresh.loadsStart = s.loadsStart.fresh := by
  unfold State.loadsStart
  extract_lets a b back c d
  have ha : a = c.fresh := by
    unfold a c
    rw [apply_ite State.fresh]
    rfl
  clear_value c
  have hb : b = d.fresh := by
    unfold b d
    rw [ha, apply_ite State.fresh]
    rfl
  rw [hb]
  rfl

/-- Bench mode with the reason 0x80 or 0x81 (R391, R393). -/
theorem State.enterBench_enters (reason : Nat) : (s.enterBench reason).boot.phase = .bench ∧
    (s.enterBench reason).bootRec.reason = reason ∧ Registers (s.enterBench reason) srcBoot 4 := by
  unfold State.enterBench
  extract_lets a b
  have hb : OnlyChanges [.lint, .score] a b := (State.bootEvent_only _ 6 255).step rfl ((State.detect_only a srcBoot 4).mono rfl)
  have hr : Registers b srcBoot 4 := (LogStands.bootEvent _ 6 255).registers _ _ (State.detect_registers a srcBoot 4)
  have hlast := LogStands.ite (c := (b.safeMode = 1 && !b.hardwareRun) = true) b.hardwareStart_log (.refl b)
  have hkeeps := OnlyChanges.ite (p := (b.safeMode = 1 && !b.hardwareRun) = true) (State.hardwareStart_only b) (.refl _ b)
  refine ⟨?_, ?_, hlast.registers _ _ hr⟩
  · rw [hkeeps.keeps_boot (by decide), hb.keeps_boot (by decide)]
    rfl
  · rw [hkeeps.keeps_bootRec (by decide), hb.keeps_bootRec (by decide)]
    rfl

/-- The cores are released into slot `k`. -/
theorem State.startSlot_starts (k reason : Nat) : (s.startSlot k reason).boot.phase = .starting ∧
    (s.startSlot k reason).boot.slot = k ∧ (s.startSlot k reason).boot.released = s.clock.up ∧
    (s.startSlot k reason).bootRec.attempt = true ∧ (s.startSlot k reason).bootRec.ofTrial = (s.bootRec.trial == k) ∧
    (s.startSlot k reason).slots = s.slots := by
  unfold State.startSlot
  extract_lets trial a b c
  have hc : OnlyChanges [.score] b c := State.bootEvent_only b 1 k
  have hlast : OnlyChanges [.score, .patch, .image] b (if trial then c.loadsTrial else c) :=
    .ite ((State.loadsTrial_only c).step rfl (hc.mono rfl)) (hc.mono rfl)
  have hboot := hlast.keeps_boot (by decide)
  have hrec := hlast.keeps_bootRec (by decide)
  rw [hboot, hrec, hlast.keeps_slots (by decide)]
  exact ⟨rfl, rfl, rfl, rfl, rfl, rfl⟩

end

section
variable {s u : State} (hp : s.boot.phase = .rom) (hu : s.loadsStart = u)
include hp hu

theorem State.slotVerified_bench (hc : u.bootRec.count = 3) : s.slotVerified = u.enterBench 0x80 := by
  subst hu
  unfold State.slotVerified
  rw [if_neg (by simp [hp])]
  exact if_pos hc

theorem State.slotVerified_starts {k : Nat} (hk : k = if u.bootRec.trial < 2 then u.bootRec.trial else u.bootRec.active)
    (hc : u.bootRec.count ≠ 3) (hs : u.startable k = true) : ∃ reason, s.slotVerified = u.startSlot k reason := by
  subst hu
  unfold State.slotVerified
  rw [if_neg (by simp [hp])]
  extract_lets u r trial key
  have hkey : key = k := by simp [key, trial, r, u, hk]
  rw [if_neg hc, hkey]
  exact ⟨_, if_pos hs⟩

end

/-! ### The started checkpoint -/

/-- The boot record but for what a migration moves of it. -/
def BootRecord.sansHalf (r : BootRecord) : BootRecord := { r with half := 0, migrated := false }

theorem BootRecord.sansHalf_keeps {r q : BootRecord} (h : r.sansHalf = q.sansHalf) :
    r.ofTrial = q.ofTrial ∧ r.active = q.active := by
  have hofTrial := congrArg BootRecord.ofTrial h
  have hactive := congrArg BootRecord.active h
  exact ⟨hofTrial, hactive⟩

/-- The boot record that the firmware writes at its checkpoint, started from slot `k` with data version `v` (R385, R393, R395). -/
def BootRecord.started (r : BootRecord) (k v : Nat) : BootRecord :=
  let r := { r with attempt := false, count := 0, migrated := false, stored := v }
  if r.ofTrial then { r.mark k true with active := k, trial := 255, ofTrial := false } else r

/-- The firmware serves: the working configuration is loaded, and the scorebook takes every record. -/
def State.starts (s : State) : State :=
  let s := { s.discardTorn.migrate.loadWorking with hardwareRun := false }
  let s := s.onBoot (fun b => { b with phase := .serving, checkpoint := true })
  { s with score := { s.score with firmware := true }, seq := { s.seq with driven := true } }

/-- What the firmware starts once its boot record is written (R385). -/
def State.servesOn (s : State) : State :=
  let s := s.detectIf s.newestSafe.isNone srcSafeSet 0
  let s := (List.range 8).foldl State.capacityStart s
  let s := (List.range 8).foldl State.captureResume s
  let s := s.twStart
  let s := { s with fuses := { s.fuses with sweep := none }
                    tts := Vector.replicate 2 {}
                    ptp := if bitAt s.cfg.ptpWord 0 then { s.ptp with phase := .listening } else s.ptp }
  let s := if s.tamper.broken && !s.tamper.stitched && !s.score.stopped then s.stitchBreak else s
  let s := s.closeBench
  let s := (allOrders.filter (fun k => (vget s.cfg.orders k {}).autoUp)).foldl State.requestUp s
  s.resumeMarks.linksStart

section
variable {s : State}

theorem State.startedCheckpoint_stages (hp : s.boot.phase = .starting) (hg : s.clock.grid % s.commonPeriod State.allBlocks = 0) :
    s.startedCheckpoint = s.starts.recordStart.servesOn := by
  unfold State.startedCheckpoint
  rw [if_neg (by simp [hp, hg])]
  extract_lets a b c score seq d e
  have he : e = s.starts.recordStart := rfl
  rw [← he]
  clear_value e
  unfold State.servesOn
  extract_lets
  rfl

theorem State.startedCheckpoint_between (hg : s.clock.grid % s.commonPeriod State.allBlocks ≠ 0) : s.startedCheckpoint = s :=
  if_pos (by simp [hg])

end

section
variable (s : State)

theorem State.restoreOld_bootRec : s.restoreOld.bootRec.toBootRecord.sansHalf = s.bootRec.toBootRecord.sansHalf := by
  unfold State.restoreOld
  extract_lets a working
  have ha : a.bootRec = s.bootRec := by
    unfold a
    split
    · exact (State.learnedBack_only s _).keeps_bootRec (by decide)
    · rfl
  clear_value a
  split
  · rw [State.bootRec_onRec]
    exact congrArg (fun r : BootStore => r.toBootRecord.sansHalf) ha
  · rfl

theorem State.migrate_bootRec : s.migrate.bootRec.toBootRecord.sansHalf = s.bootRec.toBootRecord.sansHalf := by
  unfold State.migrate
  extract_lets a h b
  split
  · rfl
  · rw [(State.bootEvent_only _ _ _).keeps_bootRec (by decide), State.bootRec_onRec]
    exact s.restoreOld_bootRec

theorem State.loadWorking_boot : ∃ bad, s.loadWorking.boot = { s.boot with leftOut := bad } := by
  unfold State.loadWorking
  extract_lets w a bad locked gs mixed b c boot d e
  have ha : a.boot = s.boot := (State.loadSettings_only s _).keeps_boot (by decide)
  have hc : c.boot = s.boot := ((State.swapBlocks_only b _ _).keeps_boot (by decide)).trans ha
  have one (u : State) (g : Nat) (f : GroupRun → GroupRun) :
      OnlyChanges [.groups, .lint] u ((u.onGroup g f).detect (srcGroupLock g) 2) :=
    (State.detect_only _ _ _).step rfl ((State.onGroup_only u g f).mono rfl)
  have he : OnlyChanges [.groups, .lint] d e := .foldl (fun u g => one u g _) (.refl _ d)
  refine ⟨bad, ?_⟩
  rw [(State.detectIf_only e _ _ _).keeps_boot (by decide), he.keeps_boot (by decide)]
  exact congrArg (fun r : BootRun => { r with leftOut := bad }) hc

/-! ### The state in which the boot record is written -/

theorem State.starts_loads : OnlyChanges [.seq, .score, .boot, .hardwareRun] s.discardTorn.migrate.loadWorking s.starts :=
  (set_seq_score_only _ _ _).step rfl ((State.onBoot_only _ _).step rfl ((set_hardwareRun_only _ _).mono rfl))

theorem State.starts_boot : ∃ bad, s.starts.boot = { s.boot with phase := .serving, checkpoint := true, leftOut := bad } := by
  obtain ⟨bad, hload⟩ := s.discardTorn.migrate.loadWorking_boot
  have hmigrate := (State.migrate_only s.discardTorn).keeps_boot (by decide)
  have htorn := (State.discardTorn_only s).keeps_boot (by decide)
  refine ⟨bad, ?_⟩
  rw [hmigrate, htorn] at hload
  exact congrArg (fun b : BootRun => { b with phase := .serving, checkpoint := true }) hload

theorem State.starts_slot : s.starts.boot.slot = s.boot.slot := by
  obtain ⟨bad, hboot⟩ := s.starts_boot
  rw [hboot]

theorem State.starts_slots : s.starts.slots = s.slots := by
  rw [s.starts_loads.keeps_slots (by decide), (State.loadWorking_only _).keeps_slots (by decide),
    (State.migrate_only _).keeps_slots (by decide), (State.discardTorn_only s).keeps_slots (by decide)]

theorem State.starts_imageData : s.starts.imageData = s.imageData := by
  rw [State.imageData, State.slotImg, s.starts_slot, s.starts_slots]
  rfl

theorem State.starts_bootRec : s.starts.bootRec.toBootRecord.sansHalf = s.bootRec.toBootRecord.sansHalf := by
  rw [s.starts_loads.keeps_bootRec (by decide), (State.loadWorking_only _).keeps_bootRec (by decide), State.migrate_bootRec,
    (State.discardTorn_only s).keeps_bootRec (by decide)]

theorem State.recordStart_bootRec :
    s.recordStart.bootRec.toBootRecord = s.bootRec.toBootRecord.started s.boot.slot s.imageData := by
  unfold State.recordStart
  extract_lets k r v working a b c
  have hb : OnlyChanges [.score] a b := .ite (State.bootEvent_only a 4 k) (.refl _ a)
  have hc : OnlyChanges [.score] b c := State.bootEvent_only b 3 k
  have hlast : OnlyChanges [.score] c (if r.migrated then c.patchEvent 13 255 0 0 0 0 0 else c) :=
    .ite (State.patchEvent_only c _ _ _ _ _ _ _) (.refl _ c)
  rw [hlast.keeps_bootRec (by decide), hc.keeps_bootRec (by decide), hb.keeps_bootRec (by decide)]
  rfl

/-! ### The tail of the checkpoint -/

theorem State.servesOn_only : OnlyChanges [.lint, .strings, .score, .tws, .fuses, .tts, .ptp, .tamper, .cfg, .seats, .commits, .orders,
    .groups, .chans, .ports, .shelf] s s.servesOn := by
  unfold State.servesOn
  extract_lets a b c d fuses ptp e f g h
  have ha : OnlyChanges [.lint] s a := State.detectIf_only s _ _ _
  have hb : OnlyChanges [.strings, .lint, .score] a b := .foldl (fun u k => State.capacityStart_only u k) (.refl _ a)
  have hc : OnlyChanges [.score] b c := .foldl (fun u k => State.captureResume_only u k) (.refl _ b)
  have hd : OnlyChanges [.tws] c d := State.twStart_only c
  have he : OnlyChanges [.fuses, .tts, .ptp] d e := set_fuses_tts_ptp_only d _ _ _
  have hf : OnlyChanges [.fuses, .score, .tamper] e f := .ite (State.stitchBreak_only e) (.refl _ e)
  have hg : OnlyChanges [.cfg, .score, .seats, .tts, .commits] f g := State.closeBench_only f
  have hh : OnlyChanges [.orders] g h := .foldl (fun u k => State.requestUp_only u k) (.refl _ g)
  have hlinks : OnlyChanges [.groups, .chans, .ports, .shelf] h h.resumeMarks.linksStart :=
    (State.linksStart_only _).step rfl ((State.resumeMarks_only h).mono rfl)
  exact hlinks.step rfl (hh.step rfl (hg.step rfl (hf.step rfl (he.step rfl (hd.step rfl (hc.step rfl (hb.step rfl (ha.mono rfl))))))))

theorem State.servesOn_log : LogStands s s.servesOn := by
  unfold State.servesOn
  extract_lets a b c d fuses ptp e f g h
  have ha : LogStands s a := .detectIf s _ _ _
  have hb : LogStands a b := .foldl (fun u k => u.capacityStart_log k) _ a
  have hc : LogStands b c := .foldl (fun u k => u.captureResume_log k) _ b
  have hd : LogStands c d := .of_only (State.twStart_only c)
  have he : LogStands d e := .of_only (set_fuses_tts_ptp_only d _ _ _)
  have hf : LogStands e f := .ite e.stitchBreak_log (.refl e)
  have hg : LogStands f g := f.closeBench_log
  have hh : LogStands g h := .foldl (fun u k => .of_only (State.requestUp_only u k)) _ g
  have hlast : LogStands h h.resumeMarks.linksStart :=
    .trans (.of_only (State.resumeMarks_only h)) (.of_only (State.linksStart_only _))
  exact (((((((ha.trans hb).trans hc).trans hd).trans he).trans hf).trans hg).trans hh).trans hlast

end

/-! ### The checkpoint as a command -/

theorem BootRecord.started_fields (r : BootRecord) (k v : Nat) :
    (r.started k v).attempt = false ∧ (r.started k v).count = 0 ∧ (r.started k v).stored = v ∧ (r.started k v).migrated = false ∧
      (r.ofTrial = true → (r.started k v).active = k ∧ (r.started k v).trial = 255) ∧
      (r.ofTrial = false → (r.started k v).active = r.active) := by
  unfold BootRecord.started
  extract_lets x marked
  by_cases ht : r.ofTrial = true
  · rw [if_pos ht]
    unfold marked BootRecord.mark
    split <;> exact ⟨rfl, rfl, rfl, rfl, fun _ => ⟨rfl, rfl⟩, fun h => absurd (h.symm.trans ht) Bool.false_ne_true⟩
  · rw [if_neg ht]
    exact ⟨rfl, rfl, rfl, rfl, fun h => absurd h ht, fun _ => rfl⟩

section
variable {s : State} (hp : s.boot.phase = .starting) (hg : s.clock.grid % s.commonPeriod State.allBlocks = 0)
include hp hg

theorem State.startedCheckpoint_boot :
    ∃ bad, s.startedCheckpoint.boot = { s.boot with phase := .serving, checkpoint := true, leftOut := bad } := by
  obtain ⟨bad, hboot⟩ := s.starts_boot
  refine ⟨bad, ?_⟩
  rw [State.startedCheckpoint_stages hp hg, (State.servesOn_only _).keeps_boot (by decide),
    (State.recordStart_only _).keeps_boot (by decide), hboot]

theorem State.startedCheckpoint_firmware : s.startedCheckpoint.score.firmware = true := by
  rw [State.startedCheckpoint_stages hp hg]
  exact (s.starts.recordStart_log.trans (State.servesOn_log _)).firmware

theorem State.startedCheckpoint_hardwareRun : s.startedCheckpoint.hardwareRun = false := by
  rw [State.startedCheckpoint_stages hp hg, (State.servesOn_only _).keeps_hardwareRun (by decide),
    (State.recordStart_only _).keeps_hardwareRun (by decide)]
  rfl

theorem State.startedCheckpoint_bootRec :
    s.startedCheckpoint.bootRec.toBootRecord = s.starts.bootRec.toBootRecord.started s.boot.slot s.imageData := by
  rw [State.startedCheckpoint_stages hp hg, (State.servesOn_only _).keeps_bootRec (by decide), State.recordStart_bootRec,
    State.starts_slot, State.starts_imageData]

end

/-- The starts of the boot ROM, and the firmware at its checkpoint (R20, R385, R388, R391, R393, R395). -/
theorem firmwareStarts : FirmwareStarts := by
  refine ⟨fun s hp => ?_, fun s hg => ?_, fun s hp hg => ?_⟩
  · have hp' : s.fresh.boot.phase = .rom := hp
    have hexec : Machine.exec .slotVerified s = .next s.fresh.slotVerified := inService_eq (by rw [hp]; decide) _
    have hload : s.fresh.loadsStart = s.loadsStart.fresh := s.loadsStart_fresh
    have hclock : s.loadsStart.clock = s.clock := (State.loadsStart_only s).keeps_clock (by decide)
    intro u k
    refine ⟨fun hc => ?_, fun hc hk => ?_⟩
    · exact ⟨_, hexec.trans (congrArg _ (State.slotVerified_bench hp' hload hc)), State.enterBench_enters _ _⟩
    · obtain ⟨reason, hstart⟩ := State.slotVerified_starts hp' hload (k := k) rfl hc hk
      obtain ⟨hphase, hslot, hreleased, hrest⟩ := State.startSlot_starts s.loadsStart.fresh k reason
      exact ⟨_, hexec.trans (congrArg _ hstart), hphase, hslot, hreleased.trans (congrArg Clock.up hclock), hrest⟩
  · refine congrArg Host.Outcome.next ?_
    unfold State.running
    split
    · rfl
    · exact State.startedCheckpoint_between (s := s.fresh) hg
  · have hexec : Machine.exec .startedCheckpoint s = .next s.fresh.startedCheckpoint := inService_eq (by rw [hp]; decide) _
    have hp : s.fresh.boot.phase = .starting := hp
    obtain ⟨bad, hboot⟩ := State.startedCheckpoint_boot hp hg
    obtain ⟨hofTrial, hactive⟩ := BootRecord.sansHalf_keeps s.fresh.starts_bootRec
    have hrec := BootRecord.started_fields s.fresh.starts.bootRec.toBootRecord s.boot.slot s.imageData
    rw [hofTrial, hactive] at hrec
    refine ⟨s.fresh.startedCheckpoint, hexec, by rw [hboot], by rw [hboot], State.startedCheckpoint_firmware hp hg,
      State.startedCheckpoint_hardwareRun hp hg, ?_⟩
    rw [State.startedCheckpoint_bootRec hp hg]
    exact hrec

/-- Settles O59: each step from the end of a reset to service leaves the log as it stands, so that what it registers, the boot record
and the mode of the scorebook follow from the operations of the step itself. -/
theorem bootReachesService : Obligations.BootReachesService := ⟨resetsEnd, firmwareStarts⟩

end Sys2Proof.Machine
end

section
/-!
SUPPORT. Rails and batting orders: what a footprint leaves of them and of what is read of them, and what the readings that a tick
takes leave (R264 to R269, R282).
-/
namespace Sys2Proof.Machine
set_option Elab.async false

/-! ### Footprints and units -/

section
variable {ps : List Part} {s t : State} (h : OnlyChanges ps s t)
include h

theorem OnlyChanges.keeps_rail (w : Part.rails ∉ ps) (r : Nat) : t.rail r = s.rail r := by
  simp only [State.rail, h.keeps_rails w]

theorem OnlyChanges.keeps_order (w : Part.orders ∉ ps) (k : Nat) : t.order k = s.order k := by
  simp only [State.order, h.keeps_orders w]

theorem OnlyChanges.keeps_railC (w : Part.cfg ∉ ps) (r : Nat) : t.railC r = s.railC r := by
  simp only [State.railC, h.keeps_cfg w]

theorem OnlyChanges.keeps_membersOf (w : Part.cfg ∉ ps) (k : Nat) : t.membersOf k = s.membersOf k := by
  simp only [State.membersOf, h.keeps_railC w]

theorem OnlyChanges.keeps_closure (w : Part.cfg ∉ ps) (n : Nat) (rs : List Nat) : t.closure n rs = s.closure n rs := by
  induction n generalizing rs with
  | zero => rfl
  | succ n ih => simp only [State.closure, ih, h.keeps_railC w]

theorem OnlyChanges.keeps_validOrder (w : Part.cfg ∉ ps) (k : Nat) : t.validOrder k = s.validOrder k := by
  simp only [State.validOrder, State.dependsOn, h.keeps_membersOf w, h.keeps_railC w, h.keeps_closure w]

theorem OnlyChanges.keeps_predFlagged (w : Part.cfg ∉ ps) (hf : ∀ q, (t.rail q).flagged = (s.rail q).flagged) (r : Nat) :
    t.predFlagged r = s.predFlagged r := by
  simp only [State.predFlagged, h.keeps_railC w, h.keeps_closure w, hf]

theorem OnlyChanges.keeps_enLevels (wc : Part.cfg ∉ ps) (wr : Part.rails ∉ ps) : t.enLevels = s.enLevels := by
  have hlevel : t.enLevel = s.enLevel := funext fun r => by simp only [State.enLevel, h.keeps_rail wr, h.keeps_railC wc]
  rw [State.enLevels, hlevel, State.enLevels]

theorem OnlyChanges.keeps_rstoLevels (wc : Part.cfg ∉ ps) (wr : Part.rails ∉ ps) : t.rstoLevels = s.rstoLevels := by
  have hlevel : t.rstoLevel = s.rstoLevel := funext fun j => by simp only [State.rstoLevel, h.keeps_rail wr, h.keeps_railC wc]
  rw [State.rstoLevels, hlevel, State.rstoLevels]

end

theorem mem_allRails {r : Nat} : r ∈ allRails ↔ r < 32 := List.mem_range

theorem mem_allOrders {k : Nat} : k ∈ allOrders ↔ k < 4 := List.mem_range

theorem allRails_nodup : allRails.Nodup := List.nodup_range

theorem allOrders_nodup : allOrders.Nodup := List.nodup_range

section
variable {s : State}

theorem State.mem_membersOf {k r : Nat} : r ∈ s.membersOf k ↔ r < 32 ∧ (s.railC r).order = k := by
  simp [State.membersOf, allRails]

/-! ### A change of one unit -/

theorem State.onRail_onRail (s : State) (r : Nat) (f g : RailRun → RailRun) :
    (s.onRail r f).onRail r g = s.onRail r (fun x => g (f x)) := by
  simp only [State.onRail, vmod_vmod]

theorem State.rail_onRail_same {α : Type} (s : State) (r : Nat) (f : RailRun → RailRun) (p : RailRun → α)
    (hf : ∀ x, p (f x) = p x) (j : Nat) : p ((s.onRail r f).rail j) = p (s.rail j) := vget_vmod_same _ _ _ _ p hf j

theorem State.order_onOrder_same {α : Type} (s : State) (k : Nat) (f : OrderRun → OrderRun) (p : OrderRun → α)
    (hf : ∀ o, p (f o) = p o) (j : Nat) : p ((s.onOrder k f).order j) = p (s.order j) := vget_vmod_same _ _ _ _ p hf j

/-- A change of one order leaves an order as it is, or has changed it. -/
theorem State.order_onOrder_cases (s : State) (k : Nat) (f : OrderRun → OrderRun) (j : Nat) :
    (s.onOrder k f).order j = s.order j ∨ (s.onOrder k f).order j = f (s.order j) := by
  by_cases e : j = k
  · subst e
    by_cases hj : j < 4
    · exact .inr (State.order_onOrder _ _ _ hj)
    · exact .inl (by simp [State.order, State.onOrder, vmod, hj])
  · exact .inl (State.order_onOrder_ne _ _ _ _ e)

/-- A rail that enters a state at a tick. -/
def RailRun.entered (x : RailRun) (ph : RailPhase) (tick : Nat) : RailRun :=
  { x with phase := ph, since := tick, asserted := if ph == .good then x.asserted else true }

theorem State.railTo_onRail (s : State) (r : Nat) (ph : RailPhase) : s.railTo r ph = s.onRail r (·.entered ph s.seq.tick) := rfl

/-- An order but for its fault record (R275). -/
def OrderRun.sansRecord (o : OrderRun) : OrderRun :=
  { o with faultRail := 255, faultCause := 0, faultTime := 0, faultPg := 0, faultEn := 0 }

/-- What a running-rail fault is (R273). -/
theorem State.runningFault_iff {r : Nat} : s.runningFault r = true ↔ (s.rail r).phase = .good ∧ (s.railC r).order < 4 ∧
    (s.order (s.railC r).order).phase ≠ .dropped ∧ s.ranUs (s.rail r).badFrom (s.railC r).pgDeg = true := by
  simp [State.runningFault, and_assoc]

/-! ### The readings of a tick (R282) -/

/-- An order but for the readings that the host last took of it. -/
def OrderRun.sansSeen (o : OrderRun) : OrderRun := { o with seen := {} }

theorem sameOrder_of_sansSeen {t : State} {k : Nat} (h : (t.order k).sansSeen = (s.order k).sansSeen) : SameOrder s t k := by
  have hseen := congrArg (fun o : OrderRun => { o with seen := (s.order k).seen }) h
  exact hseen

/-- The readings of an order show its present state. -/
structure OrderRun.Shown (o : OrderRun) : Prop where
  phase : o.seen.phase = o.phase
  queued : o.seen.queued = o.queued
  degraded : o.seen.degraded = o.degraded
  droppedFlag : o.seen.droppedFlag = o.droppedFlag

/-- The levels that the host reads are taken. -/
def State.levelsShown (s : State) : State := { s with seq := { s.seq with seenEn := s.enLevels, seenRsto := s.rstoLevels } }

/-- The readings of order `k` as a tick takes them. -/
def State.orderSeen (s : State) (k : Nat) (o : OrderRun) : OrderSet :=
  let mask (rs : List Nat) : Word := BitVec.ofNat 32 (rs.foldl (fun a r => a + 2 ^ r) 0)
  { phase := o.phase, queued := o.queued, degraded := o.degraded, droppedFlag := o.droppedFlag, members := mask (s.membersOf k)
    good := mask ((s.membersOf k).filter (fun r => (s.rail r).phase == .good)) }

/-- The readings of order `k` are taken. -/
def State.orderShown (s : State) (k : Nat) : State := s.onOrder k (fun o => { o with seen := s.orderSeen k o })

theorem State.sequencerSeen_steps (s : State) : s.sequencerSeen = allOrders.foldl State.orderShown s.levelsShown := rfl

theorem State.sequencerSeen_sansSeen (s : State) (k : Nat) : (s.sequencerSeen.order k).sansSeen = (s.order k).sansSeen := by
  rw [State.sequencerSeen_steps]
  exact foldl_same (f := State.orderShown) (fun u : State => (u.order k).sansSeen)
    (fun u j => State.order_onOrder_same u j _ OrderRun.sansSeen (by intro _; rfl) k) _ s.levelsShown

theorem State.sequencerSeen_same {α : Type} (s : State) (k : Nat) (p : OrderRun → α)
    (hp : ∀ o : OrderRun, p o.sansSeen = p o := by intro _; rfl) : p (s.sequencerSeen.order k) = p (s.order k) := by
  rw [← hp, State.sequencerSeen_sansSeen, hp]

theorem State.sequencerSeen_shown {k : Nat} (hk : k < 4) : (s.sequencerSeen.order k).Shown := by
  rw [State.sequencerSeen_steps]
  refine foldl_unit_of_mem (read := State.order) (key := id) OrderRun.Shown (fun u j => State.onOrder_only u j _)
    (fun u j i hi => State.order_onOrder_ne u j _ i hi) (by simpa using allOrders_nodup) (mem_allOrders.mpr hk) fun u _ _ => ?_
  have hself : (u.orderShown k).order k = { u.order k with seen := u.orderSeen k (u.order k) } := State.order_onOrder _ _ _ hk
  exact hself ▸ ⟨rfl, rfl, rfl, rfl⟩

/-- The levels that the host reads are those of the end of the tick. -/
theorem State.sequencerSeen_seq (s : State) :
    s.sequencerSeen.seq = { s.seq with seenEn := s.sequencerSeen.enLevels, seenRsto := s.sequencerSeen.rstoLevels } := by
  have only := State.sequencerSeen_only s
  rw [only.keeps_enLevels (by decide) (by decide), only.keeps_rstoLevels (by decide) (by decide), State.sequencerSeen_steps]
  exact foldl_same (f := State.orderShown) State.seq (fun _ _ => rfl) _ s.levelsShown

end

end Sys2Proof.Machine
end

section
/-!
SUPPORT. The rows of Table 09-1, each on its own at a tick, and the running-rail fault that drops an order (R270 to R275).
-/
namespace Sys2Proof.Machine
set_option Elab.async false

section
variable {s0 s : State} {r k : Nat}

/-! ### The rows of a rail (Table 09-1) -/

/-- An order neither falls nor is dropped, so that the timers of its rails decide. -/
def State.orderSteady (s : State) (k : Nat) : Prop := (s.order k).phase ≠ .dropped ∧ (s.order k).phase ≠ .falling

theorem State.railRow_delayOver (hp : (s0.rail r).phase = .delay) (ho : s0.orderSteady (s0.railC r).order)
    (hf : s0.predFlagged r = false) (ht : (s0.railC r).onDelay ≤ s0.seqUs (s0.rail r).since) :
    State.railRow s0 s r = s.onRail r (·.entered .enabling s.seq.tick) := by
  obtain ⟨hdropped, hfalling⟩ := ho
  simp [State.railRow, hp, hdropped, hfalling, hf, ht, State.railTo_onRail]

theorem State.railRow_good (hp : (s0.rail r).phase = .enabling) (ho : s0.orderSteady (s0.railC r).order)
    (hg : s0.ranUs (s0.rail r).goodFrom (s0.railC r).pgDeg = true) :
    State.railRow s0 s r =
      s.onRail r (fun x => { x.entered .good s.seq.tick with asserted := true, goodTime := s.shelfNs }) := by
  obtain ⟨hdropped, hfalling⟩ := ho
  simp [State.railRow, hp, hdropped, hfalling, hg, State.railTo_onRail, State.onRail_onRail]

/-- Rail `r` has failed to come up. -/
def State.railFailed (s : State) (r : Nat) : State :=
  (s.onRail r (fun x => { x.entered .discharging s.seq.tick with failed := true })).detect (srcRail r) 0

/-- Rail `r` has failed to come up, which is recorded unless its order has a running-rail fault (R274, R275). -/
def State.fails (s0 s : State) (r : Nat) : State :=
  if (s0.membersOf (s0.railC r).order).any s0.runningFault then s.railFailed r else (s.railFailed r).orderFault s0 r 1

theorem State.railRow_pgTimeout (hp : (s0.rail r).phase = .enabling) (ho : s0.orderSteady (s0.railC r).order)
    (hg : s0.ranUs (s0.rail r).goodFrom (s0.railC r).pgDeg = false) (ht : (s0.railC r).pgTimeout ≤ s0.seqUs (s0.rail r).since) :
    State.railRow s0 s r = State.fails s0 s r := by
  obtain ⟨hdropped, hfalling⟩ := ho
  simp only [State.railRow, hp, hg, ht, beq_false_of_ne hdropped, beq_false_of_ne hfalling, State.railTo_onRail, State.onRail_onRail]
  rfl

theorem State.railRow_stretchOver (hp : (s0.rail r).phase = .good) (ho : s0.orderSteady (s0.railC r).order)
    (hf : s0.runningFault r = false) (ha : (s0.rail r).asserted = true)
    (ht : (s0.railC r).rstStretch ≤ s0.seqUs (s0.rail r).since) :
    State.railRow s0 s r = s.onRail r (fun x => { x with asserted := false }) := by
  obtain ⟨hdropped, hfalling⟩ := ho
  simp [State.railRow, hp, hdropped, hfalling, hf, ha, ht]

theorem State.railRow_fault (hf : s0.runningFault r = true) :
    State.railRow s0 s r = s.onRail r (·.entered .discharging s.seq.tick) := by
  obtain ⟨hp, -, hdropped, -⟩ := State.runningFault_iff.mp hf
  simp [State.railRow, hp, hdropped, hf, State.railTo_onRail]

theorem State.railRow_discharged (hp : (s0.rail r).phase = .discharging) (hg : s0.pgGood r = false)
    (ht : (s0.railC r).disWait ≤ s0.seqUs (max (s0.rail r).since (s0.rail r).lastGood)) :
    State.railRow s0 s r = s.onRail r (·.entered .off s.seq.tick) := by
  simp [State.railRow, hp, hg, ht, State.railTo_onRail]

theorem State.railRow_dischargeTimeout (hp : (s0.rail r).phase = .discharging)
    (hg : s0.pgGood r = true ∨ s0.seqUs (max (s0.rail r).since (s0.rail r).lastGood) < (s0.railC r).disWait)
    (ht : (s0.railC r).disTimeout ≤ s0.seqUs (s0.rail r).since) :
    State.railRow s0 s r =
      (s.onRail r (fun x => { x.entered .off s.seq.tick with timeout := true })).detect (srcRail r) 2 := by
  have hwaits : (!s0.pgGood r && decide ((s0.railC r).disWait ≤ s0.seqUs (max (s0.rail r).since (s0.rail r).lastGood))) = false := by
    rcases hg with hg | hg
    · simp [hg]
    · simp [hg]
  simp only [State.railRow, hp, hwaits, ht, State.railTo_onRail, State.onRail_onRail]
  rfl

theorem State.railFailed_only (s : State) (r : Nat) : OnlyChanges [.rails, .lint] s (s.railFailed r) :=
  ((State.onRail_only s r _).mono rfl).trans ((State.detect_only _ _ _).mono rfl)

theorem State.fails_follows (s0 s : State) (r : Nat) : OnlyChanges [.orders] (s.railFailed r) (State.fails s0 s r) :=
  .ite (.refl _ _) (State.orderFault_only _ _ _ _)

theorem State.fails_only (s0 s : State) (r : Nat) : OnlyChanges [.rails, .orders, .lint] s (State.fails s0 s r) :=
  ((s.railFailed_only r).mono rfl).trans ((State.fails_follows s0 s r).mono rfl)

theorem State.fails_rail (hr : r < 32) :
    (State.fails s0 s r).rail r = { (s.rail r).entered .discharging s.seq.tick with failed := true } :=
  ((State.fails_follows s0 s r).keeps_rail (by decide) r).trans (State.rail_onRail _ _ _ hr)

theorem State.fails_rail_ne {j : Nat} (hj : j ≠ r) : (State.fails s0 s r).rail j = s.rail j :=
  ((State.fails_follows s0 s r).keeps_rail (by decide) j).trans (State.rail_onRail_ne _ _ _ _ hj)

theorem State.fails_registers (s0 s : State) (r : Nat) : Registers (State.fails s0 s r) (srcRail r) 0 :=
  Registers.of_only (State.detect_registers _ _ _) (State.fails_follows s0 s r) (by decide) (by decide)

theorem State.fails_order_ne (hk : k ≠ (s.railC r).order) : (State.fails s0 s r).order k = s.order k := by
  unfold State.fails
  split
  · rfl
  · exact State.order_onOrder_ne _ _ _ _ hk

/-- The fault record of an order shows a failure of rail `q` (R275). -/
def OrderRun.Records (o : OrderRun) (q cause time : Nat) (pg en : Word) : Prop :=
  o.faultRail = q ∧ o.faultCause = cause ∧ o.faultTime = time ∧ o.faultPg = pg ∧ o.faultEn = en

theorem State.fails_records (ho : (s.railC r).order < 4)
    (hf : (s0.membersOf (s0.railC r).order).any s0.runningFault = false) :
    ((State.fails s0 s r).order (s.railC r).order).Records r 1 s.shelfNs s.seq.pgin s0.enLevels := by
  unfold State.fails
  rw [if_neg (by simp [hf])]
  exact (State.order_onOrder (s.railFailed r) _ _ ho).symm ▸ ⟨rfl, rfl, rfl, rfl, rfl⟩

/-! ### A row on its own at a tick -/

theorem State.railDue_row {ph : RailPhase} (hg : s.onGrid 20 = true) (ho : (s.railC r).order < 4) (hp : (s.rail r).phase = ph) :
    s.railDue r ph = (State.railRow s s r).sequencerSeen := if_pos (by simp [hg, ho, hp])

theorem State.railDown_due (hg : s.pgGood r = false)
    (ht : (s.railC r).disWait ≤ s.seqUs (max (s.rail r).since (s.rail r).lastGood)) : s.railDown r = s.railDue r .discharging :=
  if_pos (by simp [hg, ht])

/-- What a row on its own leaves, with the readings that the host takes at its end (R282). -/
theorem State.sequencerSeen_ends {v : State} (h : OnlyChanges [.rails, .orders, .lint] s.fresh v) :
    OnlyChanges [.sent, .rails, .orders, .seq, .lint] s v.sequencerSeen ∧
      v.sequencerSeen.seq = { s.seq with seenEn := v.sequencerSeen.enLevels, seenRsto := v.sequencerSeen.rstoLevels } := by
  refine ⟨(((State.fresh_only s).mono rfl).trans (h.mono rfl)).trans ((State.sequencerSeen_only v).mono rfl), ?_⟩
  rw [State.sequencerSeen_seq, h.keeps_seq (by decide)]
  rfl

theorem Registers.sequencerSeen {src cause : Nat} (h : Registers s src cause) : Registers s.sequencerSeen src cause :=
  Registers.of_only h (State.sequencerSeen_only s) (by decide) (by decide)

theorem State.sequencerSeen_rail (s : State) (r : Nat) : s.sequencerSeen.rail r = s.rail r :=
  (State.sequencerSeen_only s).keeps_rail (by decide) r

theorem State.sequencerSeen_sameOrder {v : State} (h : v.order k = s.order k) : SameOrder s v.sequencerSeen k :=
  sameOrder_of_sansSeen ((State.sequencerSeen_sansSeen v k).trans (congrArg OrderRun.sansSeen h))

/-- A row that changes rail `r` by `f`, and beside it no more than the lint. -/
structure RailActs (s t : State) (r : Nat) (f : RailRun → RailRun) : Prop where
  moves : OnlyRailsMove s t
  self : t.rail r = f (s.rail r)
  other : ∀ j, j ≠ r → t.rail j = s.rail j

theorem railActs {f : RailRun → RailRun} {v : State} (hr : r < 32) (h : OnlyChanges [.lint] (s.fresh.onRail r f) v) :
    RailActs s v.sequencerSeen r f := by
  have only : OnlyChanges [.rails, .lint] s.fresh v := ((State.onRail_only _ _ _).mono rfl).trans (h.mono rfl)
  obtain ⟨hall, hseq⟩ := State.sequencerSeen_ends (only.mono rfl)
  have hrail (j : Nat) : v.sequencerSeen.rail j = (s.fresh.onRail r f).rail j :=
    (State.sequencerSeen_rail v j).trans (h.keeps_rail (by decide) j)
  exact {
    moves := ⟨hall, fun k => State.sequencerSeen_sameOrder (only.keeps_order (by decide) k), hseq⟩
    self := (hrail r).trans (State.rail_onRail _ _ _ hr)
    other := fun j hj => (hrail j).trans (State.rail_onRail_ne _ _ _ _ hj) }

/-- A command of the sequencer that changes rail `r` by `f` and nothing more. -/
theorem railExec {act : State → State} {f : RailRun → RailRun} (hr : r < 32) (hb : s.boot.phase ≠ .held)
    (hact : act s.fresh = (s.fresh.onRail r f).sequencerSeen) :
    ∃ t, inService s act = .next t ∧ OnlyRailsMove s t ∧ t.lint = s.lint ∧ t.rail r = f (s.rail r) ∧
      ∀ j, j ≠ r → t.rail j = s.rail j := by
  obtain ⟨hmoves, hself, hother⟩ := railActs hr (.refl _ (s.fresh.onRail r f))
  exact ⟨_, (inService_eq hb _).trans (congrArg _ hact), hmoves, (State.sequencerSeen_only _).keeps_lint (by decide), hself, hother⟩

/-! ### A running-rail fault (R273 to R275) -/

theorem State.onOrder_onOrder (s : State) (k : Nat) (f g : OrderRun → OrderRun) :
    (s.onOrder k f).onOrder k g = s.onOrder k (fun o => g (f o)) := by
  simp only [State.onOrder, vmod_vmod]

/-- The faults of running rails are detected. -/
def State.faultsSeen (s : State) (rs : List Nat) : State := rs.foldl (fun s r => s.detect (srcRail r) 1) s

theorem State.faultsSeen_only (s : State) (rs : List Nat) : OnlyChanges [.lint] s (s.faultsSeen rs) :=
  .foldl (fun u r => State.detect_only u (srcRail r) 1) (.refl _ _)

theorem State.faultsSeen_registers {rs : List Nat} (h : r ∈ rs) (s : State) : Registers (s.faultsSeen rs) (srcRail r) 1 :=
  foldl_reaches (f := fun (u : State) q => u.detect (srcRail q) 1) (fun _ => True) (fun u => Registers u (srcRail r) 1)
    (fun _ _ _ _ => trivial) (fun u _ => State.detect_registers u (srcRail r) 1)
    (fun _ q hu => Registers.detect hu (srcRail q) 1) h trivial

/-- An order that a fault of rail `q` has dropped, with its record of the fault. -/
def OrderRun.dropped (o : OrderRun) (q time : Nat) (pg en : Word) : OrderRun :=
  { o with phase := .dropped, queued := false, drops := o.drops + 1, droppedFlag := true, faultRail := q, faultCause := 2
           faultTime := time, faultPg := pg, faultEn := en }

/-- A drop detects the faults of the order's rails and changes no other order. -/
theorem State.orderDrop_drops (hc : s.cfg = s0.cfg) (hf : (s0.membersOf k).any s0.runningFault = true) :
    ∃ q, State.orderDrop s0 s k = (s.faultsSeen ((s0.membersOf k).filter s0.runningFault)).onOrder k
      (·.dropped q s.shelfNs s.seq.pgin s0.enLevels) := by
  obtain ⟨q0, hq0, hfault0⟩ := List.any_eq_true.mp hf
  have hmem : q0 ∈ (s0.membersOf k).filter s0.runningFault := List.mem_filter.mpr ⟨hq0, hfault0⟩
  unfold State.orderDrop
  generalize hrs : (s0.membersOf k).filter s0.runningFault = rs at hmem
  cases rs with
  | nil => cases hmem
  | cons q l =>
    have hhead : q ∈ (s0.membersOf k).filter s0.runningFault := hrs ▸ List.mem_cons_self
    have hq : (s0.railC q).order = k := (State.mem_membersOf.mp (List.mem_filter.mp hhead).1).2
    have only := s.faultsSeen_only (q :: l)
    have hcfg : ((s.faultsSeen (q :: l)).railC q).order = k := by
      rw [only.keeps_railC (by decide), State.railC, hc]
      exact hq
    refine ⟨q, ?_⟩
    rw [← only.keeps_shelfNs (by decide), ← only.keeps_seq (by decide)]
    simp only [State.orderFault, List.headD_cons]
    rw [← State.faultsSeen, hcfg, State.onOrder_onOrder]
    rfl

/-- What a running-rail fault of rail `r` leaves before the host's readings: its order dropped by a rail `q`, the rail itself
discharging. -/
structure State.FaultTaken (s v : State) (r q : Nat) : Prop where
  only : OnlyChanges [.rails, .orders, .lint] s v
  rail : v.rail r = (s.rail r).entered .discharging s.seq.tick
  rails : ∀ j, j ≠ r → v.rail j = s.rail j
  order : v.order (s.railC r).order = (s.order (s.railC r).order).dropped q s.shelfNs s.seq.pgin s.enLevels
  orders : ∀ j, j ≠ (s.railC r).order → v.order j = s.order j
  registers : Registers v (srcRail r) 1

theorem State.railFault_taken (hr : r < 32) (hg : s.onGrid 20 = true) (hf : s.runningFault r = true) :
    ∃ q v, s.railFault r = v.sequencerSeen ∧ s.FaultTaken v r q := by
  obtain ⟨-, ho, -, -⟩ := State.runningFault_iff.mp hf
  have hmem : r ∈ s.membersOf (s.railC r).order := State.mem_membersOf.mpr ⟨hr, rfl⟩
  obtain ⟨q, hdrop⟩ := State.orderDrop_drops (s0 := s) (s := s) rfl (List.any_eq_true.mpr ⟨r, hmem, hf⟩)
  have hrow : s.railFault r = (State.railRow s (State.orderDrop s s (s.railC r).order) r).sequencerSeen := if_pos (by simp [hg, hf])
  have hseen := s.faultsSeen_only ((s.membersOf (s.railC r).order).filter s.runningFault)
  rw [State.railRow_fault hf, hdrop] at hrow
  refine ⟨q, _, hrow, ?_, ?_, fun j hj => ?_, ?_, fun j hj => ?_, ?_⟩
  · exact ((hseen.mono rfl).trans ((State.onOrder_only _ _ _).mono rfl)).trans ((State.onRail_only _ _ _).mono rfl)
  · rw [State.rail_onRail _ _ _ hr]
    exact congrArg₂ (fun x e => RailRun.entered x .discharging (SequencerRun.tick e)) (hseen.keeps_rail (by decide) r)
      (hseen.keeps_seq (by decide))
  · exact (State.rail_onRail_ne _ _ _ _ hj).trans (hseen.keeps_rail (by decide) j)
  · exact (State.order_onOrder _ _ _ ho).trans
      (congrArg (OrderRun.dropped · q s.shelfNs s.seq.pgin s.enLevels) (hseen.keeps_order (by decide) _))
  · exact (State.order_onOrder_ne _ _ _ _ hj).trans (hseen.keeps_order (by decide) _)
  · exact State.faultsSeen_registers (List.mem_filter.mpr ⟨hmem, hf⟩) s

end

/-! ### The table -/

theorem railTimersAct : RailTimersAct := by
  intro s r hr hb hg ho c x steady
  have row {ph : RailPhase} (hp : x.phase = ph) : s.fresh.railDue r ph = (State.railRow s.fresh s.fresh r).sequencerSeen :=
    State.railDue_row (s := s.fresh) hg ho hp
  have hpred : s.fresh.predFlagged r = s.predFlagged r :=
    (State.fresh_only s).keeps_predFlagged (by decide) (fun _ => rfl) r
  have hlevels : s.fresh.enLevels = s.enLevels := (State.fresh_only s).keeps_enLevels (by decide) (by decide)
  refine ⟨fun hp hs hf ht => ?_, fun hp hs hgood hran => ?_, fun hp hs hran ht => ?_, fun hp hs hf ha ht => ?_,
    fun hp hgood ht => ?_, fun hp hgood ht => ?_⟩
  · exact railExec hr hb ((row hp).trans (congrArg _
      (State.railRow_delayOver (s0 := s.fresh) (s := s.fresh) hp hs (hpred.trans hf) ht)))
  · have hup : s.fresh.railUp r = s.fresh.railDue r .enabling := if_pos hran
    exact railExec hr hb ((hup.trans (row hp)).trans (congrArg _
      (State.railRow_good (s0 := s.fresh) (s := s.fresh) hp hs hran)))
  · have hfail : s.fresh.railDue r .enabling = (s.fresh.fails s.fresh r).sequencerSeen :=
      (row hp).trans (congrArg _ (State.railRow_pgTimeout (s0 := s.fresh) (s := s.fresh) hp hs hran ht))
    have honly := State.fails_only s.fresh s.fresh r
    obtain ⟨hall, hseq⟩ := State.sequencerSeen_ends (honly.mono rfl)
    have hself : (s.fresh.fails s.fresh r).sequencerSeen.rail r = _ :=
      (State.sequencerSeen_rail _ r).trans (State.fails_rail (s := s.fresh) hr)
    refine ⟨_, (inService_eq hb _).trans (congrArg _ hfail), hall, hseq, fun k hk => ?_, by rw [hself]; rfl, by rw [hself],
      by rw [hself]; rfl, Registers.sequencerSeen (State.fails_registers _ _ _), fun hnone => ?_, fun j hj => ?_⟩
    · exact State.sequencerSeen_sameOrder (State.fails_order_ne (s := s.fresh) hk)
    · have hrecord := State.fails_records (s0 := s.fresh) (s := s.fresh) ho hnone
      rw [hlevels] at hrecord
      exact (State.sequencerSeen_same _ _ fun o => o.Records r 1 s.shelfNs s.seq.pgin s.enLevels).mpr hrecord
    · exact (State.sequencerSeen_rail _ j).trans (State.fails_rail_ne (s := s.fresh) hj)
  · exact railExec hr hb ((row hp).trans (congrArg _
      (State.railRow_stretchOver (s0 := s.fresh) (s := s.fresh) hp hs hf ha ht)))
  · have hdown : s.fresh.railDown r = s.fresh.railDue r .discharging := State.railDown_due (s := s.fresh) hgood ht
    exact railExec (act := fun u => u.railDown r) hr hb ((hdown.trans (row hp)).trans (congrArg _
      (State.railRow_discharged (s0 := s.fresh) (s := s.fresh) hp hgood ht)))
  · have hrow := State.railRow_dischargeTimeout (s0 := s.fresh) (s := s.fresh) hp hgood ht
    obtain ⟨hmoves, hself, hother⟩ := railActs hr (State.detect_only (s.fresh.onRail r _) (srcRail r) 2)
    exact ⟨_, (inService_eq hb _).trans (congrArg _ ((row hp).trans (congrArg _ hrow))), hmoves, hself,
      Registers.sequencerSeen (State.detect_registers _ _ _), hother⟩

/-- A running-rail fault drops the order, and the rail follows its own row (R273 to R275). -/
theorem runningRailFaultDropsTheOrder : RunningRailFaultDropsTheOrder := by
  intro s r hr hb hg hf
  obtain ⟨q, v, hfault, taken⟩ := State.railFault_taken (s := s.fresh) hr hg hf
  obtain ⟨hall, hseq⟩ := State.sequencerSeen_ends taken.only
  have hrail (j : Nat) : v.sequencerSeen.rail j = v.rail j := State.sequencerSeen_rail v j
  have horder : v.order (s.railC r).order = (s.order (s.railC r).order).dropped q s.shelfNs s.seq.pgin s.fresh.enLevels :=
    taken.order
  rw [(State.fresh_only s).keeps_enLevels (by decide) (by decide)] at horder
  have hshown {α : Type} (p : OrderRun → α) (hp : ∀ o : OrderRun, p o.sansSeen = p o) :
      p (v.sequencerSeen.order (s.railC r).order) = p ((s.order (s.railC r).order).dropped q s.shelfNs s.seq.pgin s.enLevels) :=
    (State.sequencerSeen_same v _ p hp).trans (congrArg p horder)
  refine ⟨_, (inService_eq hb _).trans (congrArg _ hfault), hall, hseq, ?_, ?_, Registers.sequencerSeen taken.registers,
    fun j hj => (hrail j).trans (taken.rails j hj), ?_⟩
  · rw [hrail, taken.rail]; rfl
  · rw [hrail, taken.rail]; rfl
  · exact ⟨hshown OrderRun.phase fun _ => rfl, hshown OrderRun.droppedFlag fun _ => rfl, hshown OrderRun.drops fun _ => rfl,
      hshown OrderRun.faultCause fun _ => rfl, hshown OrderRun.faultTime fun _ => rfl, hshown OrderRun.faultPg fun _ => rfl,
      hshown OrderRun.faultEn fun _ => rfl, fun k hk => State.sequencerSeen_sameOrder (taken.orders k hk)⟩

/-- Settles O45: each row of a rail as `railRow` gives it under its conditions, and a drop as a change of the one order. -/
theorem railsFollowTheirTable : Obligations.RailsFollowTheirTable := ⟨railTimersAct, runningRailFaultDropsTheOrder⟩

end Sys2Proof.Machine
end

section
/-!
SUPPORT. What the row of an order and the row of a rail leave of the orders and the rails (Tables 09-1 and 09-2).
-/
namespace Sys2Proof.Machine
set_option Elab.async false

/-! ### The flags of a rail -/

/-- A rail with its flags cleared. -/
def RailRun.cleared (x : RailRun) : RailRun := { x with failed := false, blocked := false, timeout := false }

/-- From `s` to `t` a rail has its flags cleared at most. -/
def State.ClearsAtMost (r : Nat) (s t : State) : Prop := t.rail r = s.rail r ∨ t.rail r = (s.rail r).cleared

theorem State.ClearsAtMost.trans {r : Nat} {s a b : State} (h : ClearsAtMost r s a) (g : ClearsAtMost r a b) :
    ClearsAtMost r s b := by
  rcases g with hg | hg
  · exact h.imp hg.trans hg.trans
  · refine .inr (hg.trans ?_)
    rcases h with h | h <;> rw [h]
    rfl

/-! ### The row of an order (Table 09-2) -/

/-- The fault record of an order, with the flag of its drops. -/
def OrderRun.record (o : OrderRun) : Bool × Nat × Nat × Nat × Word × Word :=
  (o.droppedFlag, o.faultRail, o.faultCause, o.faultTime, o.faultPg, o.faultEn)

/-- What the row of order `k` leaves: the other orders, the rails but for their flags, the causes, and of the order itself its command
3 that waits, the degraded flag as clear where the order does not rise, and its fault record where no running rail has failed. -/
structure State.OrderMoves (k : Nat) (rises faulted : Prop) (s t : State) : Prop where
  other : ∀ j, j ≠ k → t.order j = s.order j
  rails : ∀ r, ClearsAtMost r s t
  registers : ∀ src cause, Registers s src cause → Registers t src cause
  clearReq : (t.order k).clearReq = (s.order k).clearReq
  degraded : ¬rises → (s.order k).degraded = false → (t.order k).degraded = false
  record : ¬faulted → (t.order k).record = (s.order k).record

namespace State.OrderMoves

variable {k : Nat} {rises faulted : Prop} {s a b : State}

theorem refl (s : State) : OrderMoves k rises faulted s s :=
  ⟨fun _ _ => rfl, fun _ => .inl rfl, fun _ _ h => h, rfl, fun _ h => h, fun _ => rfl⟩

theorem trans (h : OrderMoves k rises faulted s a) (g : OrderMoves k rises faulted a b) : OrderMoves k rises faulted s b where
  other j hj := (g.other j hj).trans (h.other j hj)
  rails r := (h.rails r).trans (g.rails r)
  registers src cause r := g.registers src cause (h.registers src cause r)
  clearReq := g.clearReq.trans h.clearReq
  degraded n d := g.degraded n (h.degraded n d)
  record n := (g.record n).trans (h.record n)

theorem ite {c : Prop} [Decidable c] (h : c → OrderMoves k rises faulted s a) (g : ¬c → OrderMoves k rises faulted s b) :
    OrderMoves k rises faulted s (if c then a else b) := by
  split
  case isTrue hc => exact h hc
  case isFalse hc => exact g hc

theorem onOrder (s : State) {f : OrderRun → OrderRun} (hc : ∀ o, (f o).clearReq = o.clearReq := by intro _; rfl)
    (hd : ¬rises → ∀ o, o.degraded = false → (f o).degraded = false := by exact fun _ _ h => h)
    (hr : ¬faulted → ∀ o, (f o).record = o.record := by exact fun _ _ => rfl) :
    OrderMoves k rises faulted s (s.onOrder k f) where
  other j hj := State.order_onOrder_ne s k f j hj
  rails _ := .inl rfl
  registers _ _ h := h
  clearReq := State.order_onOrder_same s k f OrderRun.clearReq hc k
  degraded n d := by
    rcases State.order_onOrder_cases s k f k with h | h <;> rw [h]
    · exact d
    · exact hd n _ d
  record n := State.order_onOrder_same s k f OrderRun.record (hr n) k

theorem detect (s : State) (src cause : Nat) : OrderMoves k rises faulted s (s.detect src cause) :=
  { refl s with registers := fun _ _ h => Registers.detect h src cause }

/-- The flags of some rails are cleared. -/
theorem clears (rs : List Nat) (s : State) :
    OrderMoves k rises faulted s (rs.foldl (fun s r => s.onRail r RailRun.cleared) s) :=
  List.foldlRecOn (motive := fun u => OrderMoves k rises faulted s u) _ _ (.refl s) fun u hu q _ => hu.trans
    { refl u with
      rails := fun r => by
        by_cases e : r = q
        · subst e
          by_cases hr : r < 32
          · exact .inr (State.rail_onRail _ _ _ hr)
          · exact .inl (by simp [State.rail, State.onRail, vmod, hr])
        · exact .inl (State.rail_onRail_ne _ _ _ _ e)
      registers := fun _ _ h => h }

end State.OrderMoves

open State (OrderMoves)

section
variable {s0 s : State} {k : Nat} {rises faulted : Prop}

/-- The state after the requests of an order that the tick takes have been taken from it. -/
def State.requestsTaken (s0 s : State) (k : Nat) : State :=
  s.onOrder k (fun o => { o with
    upReq := if s0.due o.upReq then none else o.upReq
    downReq := if s0.due (s0.order k).downReq then none else o.downReq })

theorem State.orderRise_moves (s : State) (k : Nat) : OrderMoves k rises faulted s (s.orderRise k) :=
  .ite (fun _ => (OrderMoves.clears _ s).trans (.onOrder _)) (fun _ => (OrderMoves.onOrder s).trans (.detect _ _ _))

/-- Whether a running rail of order `k` has failed. -/
def State.orderFaulted (s : State) (k : Nat) : Bool := (s.membersOf k).any s.runningFault

theorem State.orderDrop_moves (hc : s.cfg = s0.cfg) (hf : s0.orderFaulted k = true) :
    OrderMoves k rises (s0.orderFaulted k = true) s (State.orderDrop s0 s k) := by
  obtain ⟨q, hdrop⟩ := State.orderDrop_drops hc hf
  rw [hdrop]
  have hseen : OrderMoves k rises (s0.orderFaulted k = true) s
      (s.faultsSeen ((s0.membersOf k).filter s0.runningFault)) :=
    List.foldlRecOn (motive := fun u => OrderMoves k rises _ s u) _ _ (.refl s) fun u hu r _ =>
      hu.trans (.detect u (srcRail r) 1)
  exact hseen.trans (.onOrder _ (hr := fun n => absurd hf n))

/-- What the row of an order leaves. -/
theorem State.orderRow_moves (hc : s.cfg = s0.cfg) :
    OrderMoves k ((s0.order k).phase = .rising) (s0.orderFaulted k = true) s (State.orderRow s0 s k) := by
  have htaken : OrderMoves k ((s0.order k).phase = .rising) (s0.orderFaulted k = true) s (State.requestsTaken s0 s k) :=
    .onOrder s
  refine htaken.trans ?_
  unfold State.orderRow
  extract_lets o ms rails allOff down up u cleared waits
  have hu : u = State.requestsTaken s0 s k := rfl
  rw [hu]
  refine .ite (fun hf => State.orderDrop_moves hc hf) fun _ => ?_
  split
  case h_1 => exact .ite (fun _ => State.orderRise_moves _ k) (fun _ => .refl _)
  case h_2 hp =>
    have rising {f : OrderRun → OrderRun} (hc : ∀ o, (f o).clearReq = o.clearReq) (hr : ∀ o, (f o).record = o.record) :
        OrderMoves k ((s0.order k).phase = .rising) (s0.orderFaulted k = true) (State.requestsTaken s0 s k)
          ((State.requestsTaken s0 s k).onOrder k f) := .onOrder _ hc (fun n => absurd hp n) (fun _ => hr)
    exact .ite (fun _ => .onOrder _) fun _ => .ite (fun _ => rising (fun _ => rfl) (fun _ => rfl)) fun _ =>
      .ite (fun _ => rising (fun _ => rfl) (fun _ => rfl)) fun _ => .refl _
  case h_3 =>
    exact .ite (fun _ => .onOrder _) fun _ => .ite
      (fun _ => (OrderMoves.clears _ _).trans (.onOrder _ (hd := fun _ _ _ => rfl))) fun _ => .refl _
  all_goals
    refine .ite (fun _ => .onOrder _) fun _ => .ite (fun _ => .onOrder _) fun _ => .ite (fun _ => ?_) fun _ => .refl _
    exact (OrderMoves.onOrder _).trans (.ite (fun _ => State.orderRise_moves _ k) (fun _ => .onOrder _))

end

/-! ### The row of a rail (Table 09-1) -/

/-- What the row of rail `r` leaves: the other rails, the causes, and of order `k` all but its fault record, and that as well where
the rail has not failed to come up. -/
structure State.RailMoves (r k : Nat) (failed : Prop) (s t : State) : Prop where
  other : ∀ j, j ≠ r → t.rail j = s.rail j
  registers : ∀ src cause, Registers s src cause → Registers t src cause
  sansRecord : (t.order k).sansRecord = (s.order k).sansRecord
  order : ¬failed → t.order k = s.order k

namespace State.RailMoves

variable {r k : Nat} {failed : Prop} {s a b : State}

theorem refl (s : State) : RailMoves r k failed s s := ⟨fun _ _ => rfl, fun _ _ h => h, rfl, fun _ => rfl⟩

theorem trans (h : RailMoves r k failed s a) (g : RailMoves r k failed a b) : RailMoves r k failed s b where
  other j hj := (g.other j hj).trans (h.other j hj)
  registers src cause c := g.registers src cause (h.registers src cause c)
  sansRecord := g.sansRecord.trans h.sansRecord
  order n := (g.order n).trans (h.order n)

theorem ite {c : Prop} [Decidable c] (h : RailMoves r k failed s a) (g : RailMoves r k failed s b) :
    RailMoves r k failed s (if c then a else b) := by
  split <;> assumption

theorem onRail (s : State) (f : RailRun → RailRun) : RailMoves r k failed s (s.onRail r f) :=
  ⟨fun j hj => State.rail_onRail_ne s r f j hj, fun _ _ h => h, rfl, fun _ => rfl⟩

theorem detect (s : State) (src cause : Nat) : RailMoves r k failed s (s.detect src cause) :=
  { refl s with registers := fun _ _ h => Registers.detect h src cause }

/-- A failure of a rail is recorded in the order of the rail. -/
theorem orderFault (s s0 : State) (q cause : Nat) (h : (s.railC q).order = k → failed) :
    RailMoves r k failed s (s.orderFault s0 q cause) where
  other _ _ := rfl
  registers _ _ c := c
  sansRecord := State.order_onOrder_same s _ _ OrderRun.sansRecord (by intro _; rfl) k
  order n := State.order_onOrder_ne _ _ _ _ fun e => n (h e.symm)

end State.RailMoves

open State (RailMoves)

/-- Rail `r` may have failed to come up at the expense of order `k`. -/
def State.enablingIn (s : State) (r k : Nat) : Prop := (s.rail r).phase = .enabling ∧ (s.railC r).order = k

theorem State.railRow_moves {s0 s : State} {r k : Nat} (hc : s.cfg = s0.cfg) :
    RailMoves r k (s0.enablingIn r k) s (State.railRow s0 s r) := by
  have moved (ph : RailPhase) : RailMoves r k (s0.enablingIn r k) s (s.railTo r ph) := .onRail s _
  unfold State.railRow
  extract_lets c x o dropped t failed detected
  split
  case h_1 => exact .ite (.refl s) (.ite (.onRail s _) (.ite (moved _) (.refl s)))
  case h_2 => exact .ite (moved _) (.ite (moved _) (.ite ((moved _).trans (.onRail _ _)) (.ite (moved _) (.refl s))))
  case h_3 hp =>
    have hfailed : RailMoves r k (s0.enablingIn r k) s detected := ((moved _).trans (.onRail _ _)).trans (.detect _ _ _)
    have hrecord : RailMoves r k (s0.enablingIn r k) detected (detected.orderFault s0 r 1) :=
      .orderFault _ s0 r 1 fun e => ⟨hp, by rw [← e, State.railC, ← hc]; rfl⟩
    exact .ite (moved _) (.ite (moved _) (.ite ((moved _).trans (.onRail _ _)) (.ite (.ite hfailed (hfailed.trans hrecord))
      (.refl s))))
  case h_4 => exact .ite (moved _) (.ite (moved _) (.ite (moved _) (.ite (.onRail s _) (.refl s))))
  case h_5 => exact .ite (moved _) (.ite (((moved _).trans (.onRail _ _)).trans (.detect _ _ _)) (.refl s))

theorem State.railRow_rail_ne {s0 s : State} {r j : Nat} (hc : s.cfg = s0.cfg) (hj : j ≠ r) :
    (State.railRow s0 s r).rail j = s.rail j := (State.railRow_moves (k := (s0.railC r).order) hc).other j hj

/-- A rail in Off whose order does not rise stays in Off. -/
theorem State.railRow_rests {s0 : State} {r : Nat} (hp : (s0.rail r).phase = .off)
    (ho : (s0.order (s0.railC r).order).phase ≠ .rising) (s : State) : State.railRow s0 s r = s := by
  simp [State.railRow, hp, ho]

/-- A rail in Off whose order rises begins its delay once no flag and no predecessor holds it (R270). -/
theorem State.railRow_begins {s0 : State} {r : Nat} (hp : (s0.rail r).phase = .off)
    (ho : (s0.order (s0.railC r).order).phase = .rising) (hf : (s0.rail r).flagged = false) (hpred : s0.predFlagged r = false)
    (hall : (s0.railC r).predList.all (fun q => (s0.rail q).phase == .good) = true) (s : State) :
    State.railRow s0 s r = s.onRail r (·.entered .delay s.seq.tick) := by
  simp [State.railRow, hp, ho, hf, hpred, hall, State.railTo_onRail]

end Sys2Proof.Machine
end

section
/-!
SUPPORT. The stages of a sequencer tick, and what each leaves of an order and of a rail (R269, R270, R276, R282).
-/
namespace Sys2Proof.Machine
set_option Elab.async false
open State (OrderMoves RailMoves ClearsAtMost)

section
variable {s : State} {pgin : Word} {r k : Nat}

/-! ### The start of a tick -/

/-- An order whose command 3 has been taken (R282). -/
def OrderRun.clearTaken (o : OrderRun) : OrderRun :=
  { o with degraded := false, droppedFlag := false, faultRail := 255, faultCause := 0, faultTime := 0, faultPg := 0
           faultEn := 0, clearReq := none }

theorem State.takeOrderClear_order (hk : k < 4) : (s.takeOrderClear k).order k =
    if s.due (s.order k).clearReq then (s.order k).clearTaken else s.order k := by
  unfold State.takeOrderClear State.orderClear
  split
  · rw [State.onOrder_onOrder, State.order_onOrder _ _ _ hk]
    rfl
  · rfl

theorem State.takeOrderClear_order_ne {j : Nat} (hj : j ≠ k) : (s.takeOrderClear k).order j = s.order j := by
  unfold State.takeOrderClear State.orderClear
  split
  · rw [State.onOrder_onOrder, State.order_onOrder_ne _ _ _ _ hj]
  · rfl

/-- A rail after a tick has read its power-good input. -/
def RailRun.read (x : RailRun) (good : Bool) (tick : Nat) : RailRun :=
  { x with
    goodFrom := if good then some (x.goodFrom.getD tick) else none
    badFrom := if good then none else some (x.badFrom.getD tick)
    lastGood := if good then tick else x.lastGood }

/-- The power-good input of one rail is read. -/
def State.pgRead (s : State) (r : Nat) : State := s.onRail r (·.read (s.pgGood r) s.seq.tick)

theorem State.readPg_steps (s : State) (pgin : Word) :
    s.readPg pgin = allRails.foldl State.pgRead { s with seq := { s.seq with pgin := pgin } } := rfl

/-- A rail but for the runs of its readings. -/
def RailRun.sansRuns (x : RailRun) : RailRun := { x with goodFrom := none, badFrom := none, lastGood := 0 }

theorem State.readPg_sansRuns (s : State) (pgin : Word) (r : Nat) : ((s.readPg pgin).rail r).sansRuns = (s.rail r).sansRuns := by
  rw [State.readPg_steps]
  exact foldl_same (f := State.pgRead) (fun u : State => (u.rail r).sansRuns)
    (fun u j => State.rail_onRail_same u j _ RailRun.sansRuns (by intro _; rfl) r) _ _

/-- A rail that reads good has no run of readings that are not good. -/
theorem State.readPg_good (hr : r < 32) (hg : bitAt pgin r ≠ (s.railC r).pgPol) : ((s.readPg pgin).rail r).badFrom = none := by
  rw [State.readPg_steps]
  refine foldl_unit_of_mem (read := State.rail) (key := id) (fun x => x.badFrom = none) (fun u j => State.onRail_only u j _)
    (fun u j i hi => State.rail_onRail_ne u j _ i hi) (by simpa using allRails_nodup) (mem_allRails.mpr hr) fun u hu _ => ?_
  have hgood : u.pgGood r = true := by
    rw [State.pgGood, hu.keeps_seq (by decide), hu.keeps_railC (by decide)]
    exact bne_iff_ne.mpr hg
  have hself : (u.pgRead r).rail r = (u.rail r).read (u.pgGood r) u.seq.tick := State.rail_onRail _ _ _ hr
  show ((u.pgRead r).rail r).badFrom = none
  rw [hself, hgood]
  rfl

/-- The state on which a tick judges its rows: counted, command 3 of every order taken, the power-good inputs read. -/
def State.tickBegins (s : State) (pgin : Word) : State :=
  (allOrders.foldl State.takeOrderClear { s with seq := { s.seq with tick := s.seq.tick + 1 } }).readPg pgin

/-- The run over the orders, from the state `s0` on which the tick judges its rows. -/
def State.ordersTicked (s0 : State) : State := allOrders.foldl (fun s k => State.orderRow s0 s k) s0

/-- The rails of an order. -/
def State.memberRails (s : State) : List Nat := allRails.filter (fun r => (s.railC r).order < 4)

/-- The run over the rails, judged on `s0`. -/
def State.railsTicked (s0 s : State) : State := s0.memberRails.foldl (fun s r => State.railRow s0 s r) s

theorem State.sequencerTick_stages (hg : s.onGrid 20 = true) (pgin : Word) : s.sequencerTick pgin =
    ((s.tickBegins pgin).railsTicked (s.tickBegins pgin).ordersTicked).sequencerSeen := by
  unfold State.sequencerTick
  rw [if_neg (by simp [hg])]
  rfl

theorem State.sequencerTick_offGrid (hg : s.onGrid 20 = false) (pgin : Word) : s.sequencerTick pgin = s := if_pos (by simp [hg])

theorem State.clearsTaken_only (s : State) : OnlyChanges [.orders] s (allOrders.foldl State.takeOrderClear s) :=
  .foldl State.takeOrderClear_only (.refl _ _)

theorem State.tickBegins_only (s : State) (pgin : Word) : OnlyChanges [.rails, .orders, .seq] s (s.tickBegins pgin) :=
  .step (State.readPg_only _ _) rfl (.step (State.clearsTaken_only _) rfl ((set_seq_only _ _).mono rfl))

theorem State.tickBegins_seq (s : State) (pgin : Word) :
    (s.tickBegins pgin).seq = { s.seq with tick := s.seq.tick + 1, pgin := pgin } := by
  have hread (u : State) : (u.readPg pgin).seq = { u.seq with pgin := pgin } := by
    rw [State.readPg_steps]
    exact foldl_same (f := State.pgRead) State.seq (fun _ _ => rfl) _ _
  rw [State.tickBegins, hread, (State.clearsTaken_only _).keeps_seq (by decide)]

theorem State.tickBegins_order (hk : k < 4) : (s.tickBegins pgin).order k =
    if s.due (s.order k).clearReq then (s.order k).clearTaken else s.order k := by
  have hread (u : State) : (u.readPg pgin).order k = u.order k := (State.readPg_only u pgin).keeps_order (by decide) k
  rw [State.tickBegins, hread]
  refine foldl_unit_of_mem (read := State.order) (key := id)
    (fun o => o = if s.due (s.order k).clearReq then (s.order k).clearTaken else s.order k) State.takeOrderClear_only
    (fun u j i hi => State.takeOrderClear_order_ne hi) (by simpa using allOrders_nodup) (mem_allOrders.mpr hk) fun u hu hr => ?_
  have hself : u.order k = s.order k := hr
  have hdue : u.due (s.order k).clearReq = s.due (s.order k).clearReq := hu.keeps_due (by decide) _
  exact (State.takeOrderClear_order hk).trans (by rw [hself, hdue])

theorem State.tickBegins_sansRuns (s : State) (pgin : Word) (r : Nat) :
    ((s.tickBegins pgin).rail r).sansRuns = (s.rail r).sansRuns := by
  rw [State.tickBegins, State.readPg_sansRuns, (State.clearsTaken_only _).keeps_rail (by decide)]
  rfl

theorem State.tickBegins_rail {α : Type} (s : State) (pgin : Word) (r : Nat) (p : RailRun → α)
    (hp : ∀ x : RailRun, p x.sansRuns = p x := by intro _; rfl) : p ((s.tickBegins pgin).rail r) = p (s.rail r) := by
  rw [← hp, State.tickBegins_sansRuns, hp]

/-- An order whose Good rails all read good at the tick has no running-rail fault (R273). -/
theorem State.tickBegins_faultless (hg : ∀ r ∈ s.membersOf k, (s.rail r).phase = .good → bitAt pgin r ≠ (s.railC r).pgPol) :
    (s.tickBegins pgin).orderFaulted k = false := by
  have only := s.tickBegins_only pgin
  refine List.any_eq_false.mpr fun r hr hf => ?_
  rw [only.keeps_membersOf (by decide)] at hr
  obtain ⟨hp, -, -, hran⟩ := State.runningFault_iff.mp hf
  rw [State.tickBegins_rail s pgin r RailRun.phase] at hp
  have hbad : ((s.tickBegins pgin).rail r).badFrom = none := by
    refine State.readPg_good (State.mem_membersOf.mp hr).1 ?_
    rw [(State.clearsTaken_only _).keeps_railC (by decide)]
    exact hg r hr hp
  rw [hbad] at hran
  cases hran

end

/-! ### An order through a tick -/

/-- From `s` to `t` order `k` stands, the rails but for their flags, and the causes. -/
structure State.OrderKept (k : Nat) (s t : State) : Prop where
  self : t.order k = s.order k
  rails : ∀ r, ClearsAtMost r s t
  registers : ∀ src cause, Registers s src cause → Registers t src cause

namespace State.OrderKept

variable {k : Nat} {s a b : State}

theorem refl (s : State) : OrderKept k s s := ⟨rfl, fun _ => .inl rfl, fun _ _ h => h⟩

theorem trans (h : OrderKept k s a) (g : OrderKept k a b) : OrderKept k s b :=
  ⟨g.self.trans h.self, fun r => (h.rails r).trans (g.rails r), fun src cause c => g.registers src cause (h.registers src cause c)⟩

end State.OrderKept

open State (OrderKept)

/-- A run whose steps keep `I` and leave `a`, but for the one at `a`, comes to it in a state that they have left. -/
theorem foldl_around_of {σ α : Type} {f : σ → α → σ} {I : σ → Prop} {R : σ → σ → Prop} (refl : ∀ u, R u u)
    (trans : ∀ {u v w}, R u v → R v w → R u w) {a : α} (keeps : ∀ u b, I u → I (f u b)) (step : ∀ u b, I u → a ≠ b → R u (f u b))
    {l : List α} (nd : l.Nodup) (ha : a ∈ l) {s : σ} (hs : I s) : ∃ u, I u ∧ R s u ∧ R (f u a) (l.foldl f s) := by
  obtain ⟨u, hu, hrest⟩ := foldl_around (R := fun u v => I u → I v ∧ R u v) (fun u hu => ⟨hu, refl u⟩)
    (fun h g hu => ⟨(g (h hu).1).1, trans (h hu).2 (g (h hu).1).2⟩) (fun u b hb hu => ⟨keeps u b hu, step u b hu hb⟩) nd ha s
  exact ⟨u, (hu hs).1, (hu hs).2, (hrest (keeps u a (hu hs).1)).2⟩

section
variable {s0 s : State} {r k : Nat}

/-- The run over the orders comes to each once, in a state in which the others have left it, and what its row does stands. -/
theorem State.ordersTicked_reaches (hk : k < 4) : ∃ u, OnlyChanges [.rails, .orders, .lint] s0 u ∧ OrderKept k s0 u ∧
    OrderKept k (State.orderRow s0 u k) s0.ordersTicked :=
  foldl_around_of (I := OnlyChanges [.rails, .orders, .lint] s0) OrderKept.refl OrderKept.trans
    (fun u j hu => hu.trans (State.orderRow_only s0 u j))
    (fun u j hu hj =>
      have moves := State.orderRow_moves (s0 := s0) (k := j) (hu.keeps_cfg (by decide))
      ⟨moves.other k hj, moves.rails, moves.registers⟩)
    allOrders_nodup (mem_allOrders.mpr hk) (.refl _ _)

theorem State.ordersTicked_only (s0 : State) : OnlyChanges [.rails, .orders, .lint] s0 s0.ordersTicked :=
  .foldl (fun u k => State.orderRow_only s0 u k) (.refl _ _)

theorem State.ordersTicked_rails (s0 : State) (r : Nat) : ClearsAtMost r s0 s0.ordersTicked := by
  have hrun : OnlyChanges [.rails, .orders, .lint] s0 s0.ordersTicked ∧ ClearsAtMost r s0 s0.ordersTicked :=
    List.foldlRecOn (motive := fun u => OnlyChanges [.rails, .orders, .lint] s0 u ∧ ClearsAtMost r s0 u) _ _
      ⟨.refl _ _, .inl rfl⟩ fun u ⟨hu, hr⟩ k _ => ⟨hu.trans (State.orderRow_only s0 u k),
        hr.trans ((State.orderRow_moves (hu.keeps_cfg (by decide))).rails r)⟩
  exact hrun.2

theorem State.railsTicked_only (s0 s : State) : OnlyChanges [.rails, .orders, .lint] s (State.railsTicked s0 s) :=
  .foldl (fun u r => State.railRow_only s0 u r) (.refl _ _)

theorem State.mem_memberRails : r ∈ s.memberRails ↔ r < 32 ∧ (s.railC r).order < 4 := by
  simp [State.memberRails, allRails]

/-- The run over the rails moves a rail by its own row alone. -/
theorem State.railsTicked_rail (hc : s.cfg = s0.cfg) (P : RailRun → Prop)
    (hit : ∀ u, OnlyChanges [.rails, .orders, .lint] s u → u.rail r = s.rail r → P ((State.railRow s0 u r).rail r))
    (hr : r ∈ s0.memberRails) : P ((State.railsTicked s0 s).rail r) := by
  obtain ⟨u, hu, hself, hrest⟩ := foldl_around_of (f := fun u r => State.railRow s0 u r)
    (I := OnlyChanges [.rails, .orders, .lint] s) (R := fun u v => v.rail r = u.rail r) (fun _ => rfl) (fun h g => g.trans h)
    (fun u j hu => hu.trans (State.railRow_only s0 u j))
    (fun u j hu hj => State.railRow_rail_ne ((hu.keeps_cfg (by decide)).trans hc) hj)
    (allRails_nodup.filter _) hr (.refl _ s)
  exact hrest ▸ hit u hu hself

theorem State.railsTicked_rail_of_not_mem (hc : s.cfg = s0.cfg) (hr : r ∉ s0.memberRails) :
    (State.railsTicked s0 s).rail r = s.rail r := by
  have hrun : OnlyChanges [.rails, .orders, .lint] s (State.railsTicked s0 s) ∧ (State.railsTicked s0 s).rail r = s.rail r :=
    List.foldlRecOn (motive := fun u => OnlyChanges [.rails, .orders, .lint] s u ∧ u.rail r = s.rail r) _ _ ⟨.refl _ _, rfl⟩
      fun u ⟨hu, hrail⟩ q hq => ⟨hu.trans (State.railRow_only s0 u q),
        (State.railRow_rail_ne ((hu.keeps_cfg (by decide)).trans hc) fun e : r = q => hr (e ▸ hq)).trans hrail⟩
  exact hrun.2

/-- What the run over the rails leaves of order `k`. -/
structure State.RecordKept (k : Nat) (failed : Prop) (s t : State) : Prop where
  registers : ∀ src cause, Registers s src cause → Registers t src cause
  sansRecord : (t.order k).sansRecord = (s.order k).sansRecord
  order : ¬failed → t.order k = s.order k

theorem State.railsTicked_order (hc : s.cfg = s0.cfg) :
    State.RecordKept k (∃ r ∈ s0.membersOf k, (s0.rail r).phase = .enabling) s (State.railsTicked s0 s) := by
  have hrun : OnlyChanges [.rails, .orders, .lint] s (State.railsTicked s0 s) ∧
      State.RecordKept k (∃ r ∈ s0.membersOf k, (s0.rail r).phase = .enabling) s (State.railsTicked s0 s) :=
    List.foldlRecOn (motive := fun u => OnlyChanges [.rails, .orders, .lint] s u ∧ State.RecordKept k _ s u) _ _
      ⟨.refl _ _, fun _ _ h => h, rfl, fun _ => rfl⟩ fun u ⟨hu, kept⟩ q hq => by
        have moves := State.railRow_moves (s0 := s0) (r := q) (k := k) ((hu.keeps_cfg (by decide)).trans hc)
        refine ⟨hu.trans (State.railRow_only s0 u q), fun src cause c => moves.registers _ _ (kept.registers _ _ c),
          moves.sansRecord.trans kept.sansRecord, fun n => (moves.order fun ⟨hp, ho⟩ => n ⟨q, ?_, hp⟩).trans (kept.order n)⟩
        exact State.mem_membersOf.mpr ⟨(State.mem_memberRails.mp hq).1, ho⟩
  exact hrun.2

end

end Sys2Proof.Machine
end

section
/-!
SUPPORT. What a sequencer tick does to the rails and to the orders (R269, R270, R276, R282).
-/
namespace Sys2Proof.Machine
set_option Elab.async false
open State (ClearsAtMost OrderKept)

section
variable {s : State} {pgin : Word} {r k : Nat}

/-! ### The tick as a whole -/

/-- The run over orders and rails leaves the configuration on which the rows are judged. -/
theorem State.ordersTicked_cfg (s0 : State) : s0.ordersTicked.cfg = s0.cfg := s0.ordersTicked_only.keeps_cfg (by decide)

/-- A tick leaves its count and the levels that it has read, and shows the levels of its end (R282). -/
theorem State.sequencerTick_seq (hg : s.onGrid 20 = true) (pgin : Word) : (s.sequencerTick pgin).seq =
    { s.seq with tick := s.seq.tick + 1, pgin := pgin, seenEn := (s.sequencerTick pgin).enLevels
                 seenRsto := (s.sequencerTick pgin).rstoLevels } := by
  rw [State.sequencerTick_stages hg, State.sequencerSeen_seq, (State.railsTicked_only _ _).keeps_seq (by decide),
    (State.ordersTicked_only _).keeps_seq (by decide), State.tickBegins_seq]

theorem State.sequencerTick_shown (hg : s.onGrid 20 = true) (pgin : Word) (hk : k < 4) :
    ((s.sequencerTick pgin).order k).Shown := by
  rw [State.sequencerTick_stages hg]
  exact State.sequencerSeen_shown hk

/-! ### Rails (Table 09-1) -/

theorem State.ClearsAtMost.phase {a b : State} (h : ClearsAtMost r a b) : (b.rail r).phase = (a.rail r).phase := by
  rcases h with h | h <;> rw [h]
  rfl

theorem State.sequencerTick_rail (hg : s.onGrid 20 = true) (pgin : Word) (r : Nat) : (s.sequencerTick pgin).rail r =
    ((s.tickBegins pgin).railsTicked (s.tickBegins pgin).ordersTicked).rail r := by
  rw [State.sequencerTick_stages hg, State.sequencerSeen_rail]

theorem State.tickBegins_phase (hk : k < 4) : ((s.tickBegins pgin).order k).phase = (s.order k).phase := by
  rw [State.tickBegins_order hk]
  split <;> rfl

theorem State.ordersTicked_phase (s : State) (pgin : Word) (r : Nat) :
    ((s.tickBegins pgin).ordersTicked.rail r).phase = (s.rail r).phase :=
  ((s.tickBegins pgin).ordersTicked_rails r).phase.trans (s.tickBegins_rail pgin r RailRun.phase)

/-- A rail of no order keeps its state (R265). -/
theorem State.sequencerTick_memberless (hg : s.onGrid 20 = true) (pgin : Word) (ho : 4 ≤ (s.railC r).order) :
    ((s.sequencerTick pgin).rail r).phase = (s.rail r).phase := by
  have hnot : r ∉ (s.tickBegins pgin).memberRails := by
    rw [State.mem_memberRails, (s.tickBegins_only pgin).keeps_railC (by decide)]
    omega
  rw [State.sequencerTick_rail hg, State.railsTicked_rail_of_not_mem (State.ordersTicked_cfg _) hnot, State.ordersTicked_phase]

theorem State.mem_tickRails (hr : r < 32) (ho : (s.railC r).order < 4) : r ∈ (s.tickBegins pgin).memberRails := by
  rw [State.mem_memberRails, (s.tickBegins_only pgin).keeps_railC (by decide)]
  exact ⟨hr, ho⟩

/-- A rail in Off whose order does not rise is left by the run over the rails. -/
theorem State.sequencerTick_rests (hg : s.onGrid 20 = true) (pgin : Word) (hr : r < 32) (ho : (s.railC r).order < 4)
    (hp : (s.rail r).phase = .off) (hn : (s.order (s.railC r).order).phase ≠ .rising) :
    (s.sequencerTick pgin).rail r = (s.tickBegins pgin).ordersTicked.rail r := by
  rw [State.sequencerTick_rail hg]
  refine State.railsTicked_rail (State.ordersTicked_cfg _) (· = (s.tickBegins pgin).ordersTicked.rail r) (fun u _ hself => ?_)
    (State.mem_tickRails hr ho)
  rw [State.railRow_rests, hself]
  · rw [s.tickBegins_rail pgin r RailRun.phase, hp]
  · rwa [(s.tickBegins_only pgin).keeps_railC (by decide), State.tickBegins_phase ho]

/-- A rail in Off begins its delay at the tick at which its order rises and neither a flag nor a predecessor holds it (R270). -/
theorem State.sequencerTick_begins (hg : s.onGrid 20 = true) (pgin : Word) (hr : r < 32) (ho : (s.railC r).order < 4)
    (hp : (s.rail r).phase = .off) (hrise : (s.order (s.railC r).order).phase = .rising) (hf : (s.rail r).flagged = false)
    (hpred : s.predFlagged r = false) (hall : (s.railC r).predList.all (fun q => (s.rail q).phase == .good) = true) :
    ((s.sequencerTick pgin).rail r).phase = .delay ∧ ((s.sequencerTick pgin).rail r).since = s.seq.tick + 1 := by
  have only := s.tickBegins_only pgin
  rw [State.sequencerTick_rail hg]
  refine State.railsTicked_rail (State.ordersTicked_cfg _) (fun x => x.phase = .delay ∧ x.since = s.seq.tick + 1) (fun u hu _ => ?_)
    (State.mem_tickRails hr ho)
  have hbegins : State.railRow (s.tickBegins pgin) u r = u.onRail r (·.entered .delay u.seq.tick) := by
    refine State.railRow_begins ?_ ?_ ?_ ?_ ?_ u
    · rw [s.tickBegins_rail pgin r RailRun.phase, hp]
    · rw [only.keeps_railC (by decide), State.tickBegins_phase ho, hrise]
    · rw [s.tickBegins_rail pgin r RailRun.flagged, hf]
    · rw [only.keeps_predFlagged (by decide) (fun q => s.tickBegins_rail pgin q RailRun.flagged), hpred]
    · rw [only.keeps_railC (by decide), ← hall]
      exact congrArg _ (funext fun q => congrArg (· == RailPhase.good) (s.tickBegins_rail pgin q RailRun.phase))
  have htick : u.seq.tick = s.seq.tick + 1 := by
    rw [hu.keeps_seq (by decide), (State.ordersTicked_only _).keeps_seq (by decide), State.tickBegins_seq]
  rw [hbegins, State.rail_onRail _ _ _ hr]
  exact ⟨rfl, htick⟩

/-! ### The tick as a command -/

theorem sequencerTick_exec (h : s.boot.phase ≠ .held) (pgin : Word) :
    Machine.exec (.sequencerTick pgin) s = .next (s.fresh.sequencerTick pgin) := inService_eq h _

theorem sequencerTick_offGrid (h : s.onGrid 20 = false) (pgin : Word) : Machine.exec (.sequencerTick pgin) s = .next s.fresh := by
  have hstands : s.fresh.sequencerTick pgin = s.fresh := State.sequencerTick_offGrid (s := s.fresh) h pgin
  refine congrArg Host.Outcome.next ?_
  unfold State.running
  split
  · rfl
  · exact hstands

end

/-- Settles O44: the tick cut into its stages, and each rail by its own row in the run over the rails. -/
theorem sequencerTickAdvancesRails : Obligations.SequencerTickAdvancesRails := by
  unfold Obligations.SequencerTickAdvancesRails
  refine ⟨fun s pgin h => sequencerTick_offGrid h pgin, fun s pgin hb hg => ⟨_, sequencerTick_exec hb pgin, ?_,
    State.sequencerTick_seq (s := s.fresh) hg pgin, fun k hk => ?_, fun r hr => ⟨fun ho => ?_, fun ho hp hrise hf hpred hall => ?_,
      fun ho hp hn => ?_⟩⟩⟩
  · exact ((State.fresh_only s).mono rfl).trans ((State.sequencerTick_only s.fresh pgin).mono rfl)
  · obtain ⟨hphase, hqueued, hdegraded, hdropped⟩ := State.sequencerTick_shown (s := s.fresh) hg pgin hk
    exact ⟨hphase, hqueued, hdegraded, hdropped⟩
  · exact State.sequencerTick_memberless (s := s.fresh) hg pgin ho
  · have hflags : s.fresh.predFlagged r = false :=
      ((State.fresh_only s).keeps_predFlagged (by decide) (fun _ => rfl) r).trans hpred
    exact State.sequencerTick_begins (s := s.fresh) hg pgin hr ho hp hrise hf hflags hall
  · rw [State.sequencerTick_rests (s := s.fresh) hg pgin hr ho hp hn, State.ordersTicked_phase]
    exact hp

end Sys2Proof.Machine
end

section
/-!
SUPPORT. Requests of a batting order: the tick that takes them (Table 09-2, R268, R276, R282).
-/
namespace Sys2Proof.Machine
set_option Elab.async false
open State (ClearsAtMost OrderKept)

section
variable {s0 s : State} {pgin : Word} {r k : Nat}

/-! ### The row of an order that takes a request (Table 09-2) -/

/-- Safe state leaves the up requests of order `k` (R308). -/
def State.upAllowed (s : State) (k : Nat) : Prop := s.lint.safe = false ∨ bitAt s.cfg.episode.safeKeep k = true

theorem State.orderRow_rises (hf : s0.orderFaulted k = false) (hp : (s0.order k).phase = .off)
    (hd : s0.due (s0.order k).downReq = false) (hu : s0.due (s0.order k).upReq = true) (hs : s0.upAllowed k) :
    State.orderRow s0 s k = (State.requestsTaken s0 s k).orderRise k := by
  have hsafe : (s0.lint.safe && !bitAt s0.cfg.episode.safeKeep k) = false := by
    rcases hs with h | h <;> simp [h]
  have hfault : (s0.membersOf k).any s0.runningFault = false := hf
  simp [State.orderRow, State.requestsTaken, hfault, hp, hd, hu, hsafe]

theorem State.orderRow_falls (hf : s0.orderFaulted k = false) (hp : (s0.order k).phase = .rising ∨ (s0.order k).phase = .up)
    (hd : s0.due (s0.order k).downReq = true) :
    State.orderRow s0 s k = (State.requestsTaken s0 s k).orderTo k .falling := by
  have hfault : (s0.membersOf k).any s0.runningFault = false := hf
  rcases hp with hp | hp
  · simp [State.orderRow, State.requestsTaken, hfault, hp, hd]
  · simp [State.orderRow, State.requestsTaken, hfault, hp, hd]

/-- An order after the tick has taken its requests. -/
def OrderRun.requestsTaken (o : OrderRun) (up down : Bool) : OrderRun :=
  { o with upReq := if up then none else o.upReq, downReq := if down then none else o.downReq }

theorem State.requestsTaken_only (s0 s : State) (k : Nat) : OnlyChanges [.orders] s (State.requestsTaken s0 s k) :=
  State.onOrder_only s k _

theorem State.requestsTaken_order (hk : k < 4) : (State.requestsTaken s0 s k).order k =
    (s.order k).requestsTaken (s0.due (s.order k).upReq) (s0.due (s0.order k).downReq) := State.order_onOrder _ _ _ hk

theorem State.membersOf_nodup (s : State) (k : Nat) : (s.membersOf k).Nodup := allRails_nodup.filter _

/-- An order that passes its validation rises, with the flags of its rails cleared (R268). -/
theorem State.orderRise_valid (hk : k < 4) (hv : s.validOrder k = true) :
    (s.orderRise k).order k = { s.order k with phase := .rising } ∧
      ∀ r ∈ s.membersOf k, (s.orderRise k).rail r = (s.rail r).cleared := by
  have hrise : s.orderRise k = ((s.membersOf k).foldl (fun s r => s.onRail r RailRun.cleared) s).orderTo k .rising := if_pos hv
  have only : OnlyChanges [.rails] s ((s.membersOf k).foldl (fun s r => s.onRail r RailRun.cleared) s) :=
    .foldl (fun u r => State.onRail_only u r _) (.refl _ _)
  rw [hrise]
  refine ⟨(State.order_onOrder _ _ _ hk).trans (by rw [only.keeps_order (by decide)]), fun r hr => ?_⟩
  refine foldl_unit_of_mem (read := State.rail) (key := id) (· = (s.rail r).cleared) (fun u j => State.onRail_only u j _)
    (fun u j i hi => State.rail_onRail_ne u j _ i hi) (by simpa using s.membersOf_nodup k) hr fun u _ hself => ?_
  exact (State.rail_onRail _ _ _ (State.mem_membersOf.mp hr).1).trans (congrArg RailRun.cleared hself)

/-- An order that fails its validation stays in Off, and the refusal is detected (R268). -/
theorem State.orderRise_invalid (hk : k < 4) (hv : s.validOrder k = false) :
    (s.orderRise k).order k = { s.order k with phase := .off } ∧ Registers (s.orderRise k) (srcOrder k) 0 := by
  have hrise : s.orderRise k = (s.orderTo k .off).detect (srcOrder k) 0 := if_neg (by simp [hv])
  rw [hrise]
  exact ⟨State.order_onOrder _ _ _ hk, State.detect_registers _ _ _⟩

/-! ### What a tick leaves of an order's row -/

/-- What the row of order `k` has left in `w` stands at the end `t` of the tick: all but the fault record, which a rail that fails to
come up may write, and the host's readings. -/
structure State.RowStands (k : Nat) (failed : Prop) (w t : State) : Prop where
  registers : ∀ src cause, Registers w src cause → Registers t src cause
  order : (t.order k).sansRecord.sansSeen = (w.order k).sansRecord.sansSeen
  record : ¬failed → (t.order k).record = (w.order k).record

theorem State.RowStands.same {α : Type} {failed : Prop} {w t : State} (h : State.RowStands k failed w t) (p : OrderRun → α)
    (hp : ∀ o : OrderRun, p o.sansRecord.sansSeen = p o := by intro _; rfl) : p (t.order k) = p (w.order k) := by
  rw [← hp, h.order, hp]

/-- A tick comes to order `k` in a state `u` in which it stands, and what the order's row does there stands. -/
theorem State.sequencerTick_order (hg : s.onGrid 20 = true) (pgin : Word) (hk : k < 4) :
    ∃ u, OnlyChanges [.rails, .orders, .lint] (s.tickBegins pgin) u ∧ OrderKept k (s.tickBegins pgin) u ∧
      (∀ r, ClearsAtMost r (State.orderRow (s.tickBegins pgin) u k) (s.tickBegins pgin).ordersTicked) ∧
      State.RowStands k (∃ r ∈ s.membersOf k, (s.rail r).phase = .enabling) (State.orderRow (s.tickBegins pgin) u k)
        (s.sequencerTick pgin) := by
  obtain ⟨u, hu, hkept, hrest⟩ := State.ordersTicked_reaches (s0 := s.tickBegins pgin) hk
  have hrails := State.railsTicked_order (k := k) (State.ordersTicked_cfg (s.tickBegins pgin))
  refine ⟨u, hu, hkept, hrest.rails, ?_⟩
  rw [State.sequencerTick_stages hg]
  refine ⟨fun src cause c => Registers.sequencerSeen (hrails.registers _ _ (hrest.registers _ _ c)), ?_, fun n => ?_⟩
  · rw [← hrest.self]
    exact (State.sequencerSeen_same _ k fun o => o.sansRecord.sansSeen).trans (congrArg OrderRun.sansSeen hrails.sansRecord)
  · rw [← hrest.self]
    refine (State.sequencerSeen_same _ k OrderRun.record).trans (congrArg OrderRun.record (hrails.order fun ⟨r, hr, hp⟩ => n ⟨r, ?_, ?_⟩))
    · rwa [(s.tickBegins_only pgin).keeps_membersOf (by decide)] at hr
    · rwa [s.tickBegins_rail pgin r RailRun.phase] at hp

/-! ### Command 3 -/

/-- Whatever else a tick does to an order, it takes command 3 first (R282). -/
theorem State.sequencerTick_clears (hg : s.onGrid 20 = true) (pgin : Word) (hk : k < 4) :
    let o := (s.sequencerTick pgin).order k
    o.clearReq = (if s.due (s.order k).clearReq then none else (s.order k).clearReq) ∧
    (s.due (s.order k).clearReq = true →
      ((s.order k).phase ≠ .rising → o.degraded = false) ∧
      ((∀ r ∈ s.membersOf k, (s.rail r).phase ≠ .good ∧ (s.rail r).phase ≠ .enabling) →
        o.record = (false, 255, 0, 0, 0, 0))) := by
  obtain ⟨u, hu, hkept, -, stands⟩ := State.sequencerTick_order hg pgin hk
  have moves := State.orderRow_moves (k := k) (hu.keeps_cfg (by decide))
  have hbegins := State.tickBegins_order (s := s) (pgin := pgin) hk
  rw [← hkept.self] at hbegins
  intro o
  refine ⟨?_, fun hc => ?_⟩
  · rw [stands.same OrderRun.clearReq, moves.clearReq, hbegins]
    split <;> rfl
  · rw [if_pos hc] at hbegins
    refine ⟨fun hp => ?_, fun hall => ?_⟩
    · refine (stands.same OrderRun.degraded).trans (moves.degraded ?_ ?_)
      · rwa [State.tickBegins_phase hk]
      · rw [hbegins]; rfl
    · have hnotEnabling : ¬∃ r ∈ s.membersOf k, (s.rail r).phase = .enabling := fun ⟨r, hr, hp⟩ => (hall r hr).2 hp
      have hfaultless := State.tickBegins_faultless (s := s) (pgin := pgin) (k := k) fun r hr hp => absurd hp (hall r hr).1
      refine (stands.record hnotEnabling).trans ((moves.record (by simp [hfaultless])).trans ?_)
      rw [hbegins]
      rfl

/-! ### Up and down requests -/

/-- Taking command 3 leaves what it does not clear. -/
theorem State.tickBegins_same {α : Type} (s : State) (pgin : Word) (hk : k < 4) (p : OrderRun → α) (hp : ∀ o : OrderRun, p o.clearTaken = p o := by intro _; rfl) :
    p ((s.tickBegins pgin).order k) = p (s.order k) := by
  rw [State.tickBegins_order hk]
  split
  · exact hp _
  · rfl

theorem State.tickBegins_due (s : State) (pgin : Word) (q : Option Nat) : (s.tickBegins pgin).due q = s.due q :=
  (s.tickBegins_only pgin).keeps_due (by decide) q

section
variable (hg : s.onGrid 20 = true) (hk : k < 4)
  (hgood : ∀ r ∈ s.membersOf k, (s.rail r).phase = .good → bitAt pgin r ≠ (s.railC r).pgPol)
include hg hk hgood

/-- A tick takes the up request of an order in Off: in a state `v` that the request has left, the order is to rise (Table 09-2). -/
theorem State.sequencerTick_takesUp (hd : s.due (s.order k).downReq = false) (hu : s.due (s.order k).upReq = true)
    (hp : (s.order k).phase = .off) (hs : s.upAllowed k) :
    ∃ v, OnlyChanges [.rails, .orders, .seq, .lint] s v ∧ (v.order k).upReq = none ∧
      (∀ r, ClearsAtMost r (v.orderRise k) (s.tickBegins pgin).ordersTicked) ∧
      State.RowStands k (∃ r ∈ s.membersOf k, (s.rail r).phase = .enabling) (v.orderRise k) (s.sequencerTick pgin) := by
  have begins := s.tickBegins_only pgin
  obtain ⟨u, only, kept, rails, stands⟩ := State.sequencerTick_order hg pgin hk
  have hdue : (s.tickBegins pgin).due (u.order k).upReq = true := by
    rw [kept.self, State.tickBegins_due, State.tickBegins_same s pgin hk OrderRun.upReq, hu]
  have hrow : State.orderRow (s.tickBegins pgin) u k = (State.requestsTaken (s.tickBegins pgin) u k).orderRise k := by
    refine State.orderRow_rises (State.tickBegins_faultless hgood) ?_ ?_ ?_ ?_
    · rw [State.tickBegins_phase hk, hp]
    · rw [State.tickBegins_due, State.tickBegins_same s pgin hk OrderRun.downReq, hd]
    · rw [← kept.self, hdue]
    · rwa [State.upAllowed, begins.keeps_lint (by decide), begins.keeps_cfg (by decide)]
  rw [hrow] at rails stands
  refine ⟨_, (begins.mono rfl).trans ((only.mono rfl).trans ((State.requestsTaken_only _ u k).mono rfl)), ?_, rails, stands⟩
  rw [State.requestsTaken_order hk, hdue]
  rfl

/-- An order that passes its validation rises with the flags of its rails cleared (R268). -/
theorem State.sequencerTick_rises (hd : s.due (s.order k).downReq = false) (hu : s.due (s.order k).upReq = true)
    (hp : (s.order k).phase = .off) (hs : s.upAllowed k) (hv : s.validOrder k = true) :
    ((s.sequencerTick pgin).order k).upReq = none ∧ ((s.sequencerTick pgin).order k).phase = .rising ∧
      ∀ r ∈ s.membersOf k, (s.rail r).phase = .off → ((s.sequencerTick pgin).rail r).failed = false ∧
        ((s.sequencerTick pgin).rail r).blocked = false ∧ ((s.sequencerTick pgin).rail r).timeout = false := by
  obtain ⟨v, only, hup, rails, stands⟩ := State.sequencerTick_takesUp hg hk hgood hd hu hp hs
  obtain ⟨horder, hcleared⟩ := State.orderRise_valid hk ((only.keeps_validOrder (by decide) k).trans hv)
  refine ⟨(stands.same OrderRun.upReq).trans (by rw [horder, hup]), (stands.same OrderRun.phase).trans (by rw [horder]),
    fun r hr hoff => ?_⟩
  obtain ⟨hr32, ho⟩ := State.mem_membersOf.mp hr
  have hrail : (v.orderRise k).rail r = (v.rail r).cleared := hcleared r (by rwa [only.keeps_membersOf (by decide)])
  rw [State.sequencerTick_rests hg pgin hr32 (ho.trans_lt hk) hoff (by rw [ho, hp]; decide)]
  rcases rails r with h | h <;> rw [h, hrail] <;> exact ⟨rfl, rfl, rfl⟩

/-- An order that fails its validation stays in Off with its lint bit (R268). -/
theorem State.sequencerTick_refuses (hd : s.due (s.order k).downReq = false) (hu : s.due (s.order k).upReq = true)
    (hp : (s.order k).phase = .off) (hs : s.upAllowed k) (hv : s.validOrder k = false) :
    ((s.sequencerTick pgin).order k).upReq = none ∧ ((s.sequencerTick pgin).order k).phase = .off ∧
      Registers (s.sequencerTick pgin) (srcOrder k) 0 := by
  obtain ⟨v, only, hup, -, stands⟩ := State.sequencerTick_takesUp hg hk hgood hd hu hp hs
  obtain ⟨horder, hregisters⟩ := State.orderRise_invalid hk ((only.keeps_validOrder (by decide) k).trans hv)
  exact ⟨(stands.same OrderRun.upReq).trans (by rw [horder, hup]), (stands.same OrderRun.phase).trans (by rw [horder]),
    stands.registers _ _ hregisters⟩

/-- A down request of an order that rises or is up is taken by the next tick, which discards an up request that it finds (R276). -/
theorem State.sequencerTick_down (hd : s.due (s.order k).downReq = true)
    (hp : (s.order k).phase = .rising ∨ (s.order k).phase = .up) :
    ((s.sequencerTick pgin).order k).phase = .falling ∧ ((s.sequencerTick pgin).order k).downReq = none ∧
      ((s.sequencerTick pgin).order k).queued = (s.order k).queued ∧
      (s.due (s.order k).upReq = true → ((s.sequencerTick pgin).order k).upReq = none) := by
  obtain ⟨u, -, kept, -, stands⟩ := State.sequencerTick_order hg pgin hk
  have hdue : (s.tickBegins pgin).due ((s.tickBegins pgin).order k).downReq = true := by
    rw [State.tickBegins_due, State.tickBegins_same s pgin hk OrderRun.downReq, hd]
  have hrow := State.orderRow_falls (s := u) (State.tickBegins_faultless hgood) (by rwa [State.tickBegins_phase hk]) hdue
  have horder : (State.orderRow (s.tickBegins pgin) u k).order k = { (u.order k).requestsTaken
      (s.due (s.order k).upReq) true with phase := .falling } := by
    rw [hrow, State.orderTo, State.order_onOrder _ _ _ hk, State.requestsTaken_order hk, hdue, kept.self, State.tickBegins_due,
      State.tickBegins_same s pgin hk OrderRun.upReq]
  refine ⟨?_, ?_, ?_, fun h => ?_⟩
  · rw [stands.same OrderRun.phase, horder]
  · rw [stands.same OrderRun.downReq, horder]
    rfl
  · rw [stands.same OrderRun.queued, horder, ← State.tickBegins_same s pgin hk OrderRun.queued, ← kept.self]
    rfl
  · rw [stands.same OrderRun.upReq, horder, h]
    rfl

end

end

/-- A tick takes command 3, and the up and down requests as Table 09-2 says. -/
theorem sequencerTicksTakeRequests : SequencerTicksTakeRequests := by
  refine ⟨fun s pgin k hk hb hg => ⟨_, sequencerTick_exec hb pgin, ?_⟩, fun s pgin k hk hb hg hgood =>
    ⟨fun hd hu hp hs => ⟨_, sequencerTick_exec hb pgin, ?_⟩, fun hd hp => ⟨_, sequencerTick_exec hb pgin, ?_⟩⟩⟩
  · obtain ⟨hclear, htaken⟩ := State.sequencerTick_clears (s := s.fresh) hg pgin hk
    refine ⟨fun h => hclear.trans (if_neg (Bool.not_eq_true _ ▸ h)), fun h => ⟨hclear.trans (if_pos h), (htaken h).1, fun hall => ?_⟩⟩
    have hrecord := (htaken h).2 hall
    simpa only [OrderRun.record, Prod.mk.injEq] using hrecord
  · have hvalid : s.fresh.validOrder k = s.validOrder k := (State.fresh_only s).keeps_validOrder (by decide) k
    cases hv : s.validOrder k with
    | true =>
      obtain ⟨hup, hphase, hflags⟩ := State.sequencerTick_rises (s := s.fresh) hg hk hgood hd hu hp hs (hvalid.trans hv)
      exact ⟨hup, by rw [if_pos rfl]; exact ⟨hphase, hflags⟩⟩
    | false =>
      obtain ⟨hup, hphase, hregisters⟩ := State.sequencerTick_refuses (s := s.fresh) hg hk hgood hd hu hp hs (hvalid.trans hv)
      exact ⟨hup, by rw [if_neg (by decide)]; exact ⟨hphase, hregisters⟩⟩
  · obtain ⟨hphase, hdown, hqueued, hup⟩ := State.sequencerTick_down (s := s.fresh) hg hk hgood hd hp
    exact ⟨hphase, hdown, fun h => ⟨hup h, hqueued⟩⟩

end Sys2Proof.Machine
end

section
/-!
SUPPORT. Requests to a batting order, from a host and from a block of the part: each waits for the order's next tick with the slot in
which it first arose (R268, R276, R282, R369, R479).
-/
namespace Sys2Proof.Machine
set_option Elab.async false

/-- The row of an order's command object (Table 09-6). -/
def orderCommandRow : Row := .mk 0 1 1 .u8 .wo .stw .plain 1 3

theorem locate_orderCommand {k : Nat} (hk : k < 4) : locate (Family.order.index k 0) = some (.order, k, 0) := by
  interval_cases k <;> decide

/-- An order's command object is the one of its row. -/
theorem anyObject_orderCommand {k : Nat} (hk : k < 4) :
    anyObject? (Family.order.index k 0) 1 = some ⟨.order, k, 0, 1, orderCommandRow⟩ :=
  object_row (locate_orderCommand hk) (by decide) (by decide)

/-- A request of `o` has reached order `k`: it is answered, and in the orders only `k` has changed, by `f`. -/
structure OrderAsked (s t : State) (o : Source) (k : Nat) (f : OrderRun → OrderRun) : Prop where
  reported : Reported t o
  only : OnlyChanges [.sent, .seats, .t1s, .tts, .score, .orders] s t
  self : t.order k = f (s.order k)
  other : ∀ j, j ≠ k → t.order j = s.order j

section
variable {s : State} {o : Source} {h : Hdr} {e : Expect} {k : Nat} {v : Int} {f : OrderRun → OrderRun}

/-- A request that a block raises. -/
theorem orderAsked_block {block : State → State} (hk : k < 4) (hb : s.boot.phase ≠ .held)
    (hblock : block s.fresh = s.fresh.onOrder k f) : ∃ t, inService s block = .next t ∧ OrderAsked s t .block k f := by
  refine ⟨_, (inService_eq hb _).trans (congrArg _ hblock), rfl, ?_, State.order_onOrder _ _ _ hk,
    fun j hj => State.order_onOrder_ne _ _ _ _ hj⟩
  exact (State.onOrder_only _ _ _).step rfl ((State.fresh_only s).mono rfl)

theorem orderAdmitted (hk : k < 4) (ad : AdmittedPut s h e (Family.order.index k 0) 1 v) :
    Admitted s h e (Family.order.index k 0) 1 (orderCommandRow.ty.encode v) := by
  simpa only [AdmittedPut, putOctets, anyObject_orderCommand hk] using ad

/-- A request that a host writes to the order's command object, where the order takes it. -/
theorem orderAsked_host (hk : k < 4) (ad : AdmittedPut s h e (Family.order.index k 0) 1 v) (hv : v = 1 ∨ v = 2 ∨ v = 3)
    (hask : ∀ u, OnlyChanges [.sent, .seats, .score] s u → u.askOrder k v = .ok (u.onOrder k f)) :
    ∃ t, inService s (fun s => s.hostPut h e .order k 0 1 v) = .next t ∧ OrderAsked s t (.host h e) k f := by
  have hok : rowOk ⟨.order, k, 0, 1, orderCommandRow⟩ v = true := by rcases hv with rfl | rfl | rfl <;> rfl
  obtain ⟨u, log, done⟩ := State.put_done (orderAdmitted hk ad) (locate_orderCommand hk) (by decide) (by decide) rfl (by decide)
    (by decide) nofun rfl rfl (by decide) (by rcases hv with rfl | rfl | rfl <;> rfl) hok
  have hu : OnlyChanges [.sent, .seats, .score] s u := ((State.arrived_only s h).mono rfl).trans (log.mono rfl)
  have hses : (u.onOrder k f).sessionOk h.seat h.session = true :=
    (State.sessionOk_of_only log (by decide) _ _).trans (State.arrived_ok ad.taken)
  obtain ⟨t, ht, only, hacc, -⟩ := done _ (hask u hu) hses
  have horder (j : Nat) : t.order j = (u.onOrder k f).order j := only.keeps_order (by decide) j
  refine ⟨t, congrArg _ ht, hacc, ?_, ?_, fun j hj => ?_⟩
  · exact (hu.mono rfl).trans (((State.onOrder_only u k f).mono rfl).trans (only.mono rfl))
  · rw [horder, State.order_onOrder _ _ _ hk, hu.keeps_order (by decide)]
  · rw [horder, State.order_onOrder_ne _ _ _ _ hj, hu.keeps_order (by decide)]

/-! ### What each request leaves in its order -/

/-- An up request waits. -/
def OrderRun.askUp (r : OrderRun) (now : Nat) : OrderRun := { r with upReq := some (r.upReq.getD now) }

/-- A down request waits. -/
def OrderRun.askDown (r : OrderRun) (now : Nat) : OrderRun := { r with downReq := some (r.downReq.getD now) }

/-- Command 3 waits. -/
def OrderRun.askClear (r : OrderRun) (now : Nat) : OrderRun := { r with clearReq := some (r.clearReq.getD now) }

/-- Safe state refuses no up request of an order that it keeps (R308). -/
theorem State.upAllowed_iff : (s.lint.safe && !bitAt s.cfg.episode.safeKeep k) = false ↔ s.upAllowed k := by
  cases hl : s.lint.safe <;> simp [State.upAllowed, hl]

theorem State.askOrder_up (ha : s.upAllowed k) (hv : (s.order k).phase ≠ .off ∨ s.validOrder k = true) :
    s.askOrder k 1 = .ok (s.onOrder k (fun r => r.askUp s.clock.slots)) := by
  have hvalid : ((s.order k).phase == .off && !s.validOrder k) = false := by
    rcases hv with h | h <;> simp [h]
  simp only [State.askOrder, State.upAllowed_iff.mpr ha, hvalid]
  rfl

theorem State.askOrder_invalid (ha : s.upAllowed k) (hp : (s.order k).phase = .off) (hv : s.validOrder k = false) :
    s.askOrder k 1 = .error (0x07, 0x04) := by
  simp only [State.askOrder, State.upAllowed_iff.mpr ha, hp, hv]
  rfl

theorem State.requestUp_asks (ha : s.upAllowed k) : s.requestUp k = s.onOrder k (fun r => r.askUp s.clock.slots) := by
  simp only [State.requestUp, State.upAllowed_iff.mpr ha]
  rfl

theorem OnlyChanges.keeps_upAllowed {ps : List Part} {t : State} (h : OnlyChanges ps s t) (wl : Part.lint ∉ ps) (wc : Part.cfg ∉ ps) :
    t.upAllowed k ↔ s.upAllowed k := by
  simp only [State.upAllowed, h.keeps_lint wl, h.keeps_cfg wc]

theorem orderUpAsked (hk : k < 4) (ra : Raised s o .order k 0 1) (ha : s.upAllowed k)
    (hv : (s.order k).phase ≠ .off ∨ s.validOrder k = true) :
    ∃ t, Machine.exec (.orderUp o k) s = .next t ∧ OrderAsked s t o k (fun r => r.askUp s.clock.slots) := by
  cases o with
  | block => exact orderAsked_block (block := fun s => s.requestUp k) hk ra (State.requestUp_asks (s := s.fresh) ha)
  | host h e =>
    exact orderAsked_host hk ra (.inl rfl) fun u hu => by
      rw [← hu.keeps_clock (by decide)]
      refine State.askOrder_up ((hu.keeps_upAllowed (by decide) (by decide)).mpr ha) ?_
      rwa [hu.keeps_order (by decide), hu.keeps_validOrder (by decide)]

theorem orderDownAsked (hk : k < 4) (ra : Raised s o .order k 0 2) :
    ∃ t, Machine.exec (.orderDown o k) s = .next t ∧ OrderAsked s t o k (fun r => r.askDown s.clock.slots) := by
  cases o with
  | block => exact orderAsked_block hk ra rfl
  | host h e =>
    exact orderAsked_host hk ra (.inr (.inl rfl)) fun u hu => by
      rw [← hu.keeps_clock (by decide)]
      rfl

theorem orderClearAsked (hk : k < 4) (ra : Raised s o .order k 0 3) :
    ∃ t, Machine.exec (.orderClear o k) s = .next t ∧ OrderAsked s t o k (fun r => r.askClear s.clock.slots) := by
  cases o with
  | block => exact orderAsked_block hk ra rfl
  | host h e =>
    exact orderAsked_host hk ra (.inr (.inr rfl)) fun u hu => by
      rw [← hu.keeps_clock (by decide)]
      rfl

/-- A host's up request that fails the validation of the order is refused with a lint bit (R268). -/
theorem orderUpRefused (hk : k < 4) (ad : AdmittedPut s h e (Family.order.index k 0) 1 1) (ha : s.upAllowed k)
    (hp : (s.order k).phase = .off) (hv : s.validOrder k = false) :
    ∃ t, Machine.exec (.orderUp (.host h e) k) s = .next t ∧ Answered t h 0x11 0x07 ∧ t.orders = s.orders ∧
      Registers t (srcOrder k) 0 := by
  let x : Obj := ⟨.order, k, 0, 1, orderCommandRow⟩
  have hx := anyObject_orderCommand hk
  have ad' := orderAdmitted hk ad
  obtain ⟨y, hy⟩ := ad'.checks
  obtain rfl : x = y := (State.writeCheck_obj hy hx).symm
  have hwrite : (s.arrived h).hostWrite h.seat h.host x 0 (orderCommandRow.ty.encode 1) = .error (0x07, 0x04) := by
    have log := State.logWrite_only (s.arrived h) h.seat h.host x (orderCommandRow.ty.encode 0) (orderCommandRow.ty.encode 1)
    have hu := ((State.arrived_only s h).mono (qs := [.sent, .seats, .score]) rfl).trans (log.mono rfl)
    refine Eq.trans ?_ (State.askOrder_invalid ((hu.keeps_upAllowed (by decide) (by decide)).mpr ha)
      ((congrArg OrderRun.phase (hu.keeps_order (by decide) k)).trans hp) ((hu.keeps_validOrder (by decide) k).trans hv))
    rfl
  have hserve : (s.arrived h).serve h (.write (Family.order.index k 0) 1 e 0 (orderCommandRow.ty.encode 1)) =
      { state := (s.arrived h).detect (srcOrder k) 0, status := 0x07, reason := 0x04 } := by
    have hb : (s.arrived h).boot.phase = .serving := ad.taken.serving
    simp only [State.serve, hb, State.doWrite, State.writeCheck_arrived, hy, hwrite]
    rfl
  have only := State.detect_only (s.arrived h) (srcOrder k) 0
  have resp := State.request_responded ad.taken rfl (Req.ok_write ad.port) (ad.taken.limit ▸ (by decide : 24 + 1 ≤ 1232)) hserve
    ((State.sessionOk_of_only only (by decide) _ _).trans (State.arrived_ok ad.taken))
  have hput : (s.fresh.running fun u => u.hostPut h e .order k 0 1 1) = s.fresh.running fun u =>
      u.request h (.write (Family.order.index k 0) 1 e 0 (orderCommandRow.ty.encode 1)) := by
    congr 1
    funext u
    simp [State.hostPut, locate_orderCommand hk, State.writeRequest, hx]
  refine ⟨_, congrArg Host.Outcome.next hput, resp.answered, ?_, ?_⟩
  · rw [resp.only.keeps_orders (by decide), only.keeps_orders (by decide), (State.arrived_only s h).keeps_orders (by decide)]
  · exact Registers.of_only (State.detect_registers _ _ _) resp.only (by decide) (by decide)

end

theorem orderRequestsAreRaised : OrderRequestsAreRaised := by
  intro s o k hk
  refine ⟨fun ra ha hv => ?_, fun h e ho ra ha hp hv => ?_, fun ra => ?_, fun ra => ?_⟩
  · obtain ⟨t, ht, hreported, only, hself, hother⟩ := orderUpAsked hk ra ha hv
    exact ⟨t, ht, hreported, only, hself, hother⟩
  · subst ho
    exact orderUpRefused hk ra ha hp hv
  · obtain ⟨t, ht, hreported, only, hself, hother⟩ := orderDownAsked hk ra
    exact ⟨t, ht, hreported, only, hself, hother⟩
  · obtain ⟨t, ht, hreported, only, hself, hother⟩ := orderClearAsked hk ra
    exact ⟨t, ht, hreported, only, hself, hother⟩

/-- Settles O43: requests are raised as `OrderAsked` says, and the order's row in the run of the next tick takes them. -/
theorem orderRequestsComplete : Obligations.OrderRequestsComplete := ⟨orderRequestsAreRaised, sequencerTicksTakeRequests⟩

end Sys2Proof.Machine
end
